-- ==== Sys2Proof/Word.lean ====
section
/-!
DEFINITION. The word types of the Synugor S8 model: the manual's bytes, 32-bit words and 64-bit words, and the
reduction wire word of R68.
-/

namespace Sys2Proof

/-- One byte. -/
abbrev Byte := BitVec 8

/-- A 32-bit instruction word, or one per-lane register value (R3, R56). -/
abbrev W32 := BitVec 32

/-- A 64-bit scalar register value or virtual address (R57, R120). -/
abbrev W64 := BitVec 64

/-- The MSGID of a Tikel message (R12). -/
abbrev MsgId := BitVec 32

/-- A wire word: N in 96-bit two's complement, and the five flags (R68). -/
structure Wire where
  n : BitVec 96
  nan : Bool
  pinf : Bool
  ninf : Bool
  ovf : Bool
  inx : Bool
  deriving DecidableEq, Repr

end Sys2Proof
end

