-- ==== Sys2Proof/Syntax.lean ====
section
/-!
DEFINITION. The instruction set as syntax: one constructor for each row of the opcode table. A row with an encoding keeps
the fields its layout names (R29–R34, R39, R151, R341, R371); a row that is an event of the device or a message keeps what
the event or message carries (R12). No meaning is given here.
-/

namespace Sys2Proof

/-- The fields of a format S word below LEN and OP (R29). -/
structure SWord where
  pred : BitVec 3
  pn : BitVec 1
  nwb : BitVec 1
  d6 : BitVec 6
  a6 : BitVec 6
  b6 : BitVec 6
  deriving DecidableEq, Repr

/-- The fields of a format X instruction (R32). -/
structure XWord where
  pred : BitVec 3
  pn : BitVec 1
  nwb : BitVec 1
  d9 : BitVec 9
  a9 : BitVec 9
  b9 : BitVec 9
  c9 : BitVec 9
  fn : BitVec 8
  m6 : BitVec 6
  imm : W32
  deriving DecidableEq, Repr

/-- The fields of a PAIR instruction (R39); r13, r49 and r85 are its reserved bits. -/
structure PairWord where
  pred : BitVec 3
  pn : BitVec 1
  r13 : BitVec 1
  hop1 : BitVec 7
  nwb1 : BitVec 1
  d1 : BitVec 9
  a1 : BitVec 9
  b1 : BitVec 9
  r49 : BitVec 1
  hop2 : BitVec 7
  nwb2 : BitVec 1
  d2 : BitVec 9
  a2 : BitVec 9
  b2 : BitVec 9
  r85 : BitVec 11
  deriving DecidableEq, Repr

/-- The fields of a bra instruction: W1 is the join displacement and W2 the target displacement (R151). -/
structure BraWord where
  pred : BitVec 3
  pn : BitVec 1
  nwb : BitVec 1
  d9 : BitVec 9
  a9 : BitVec 9
  w1 : W32
  w2 : W32
  deriving DecidableEq, Repr

/-- The fields of a trap word (R371). -/
structure TrapWord where
  pred : BitVec 3
  pn : BitVec 1
  nwb : BitVec 1
  code : BitVec 12
  rsv : BitVec 6
  deriving DecidableEq, Repr

/-- The fields of a fence word (R341); bit 19 (the low bit of KIND) tells fence from fence.alias. -/
structure FenceWord where
  pred : BitVec 3
  pn : BitVec 1
  nwb : BitVec 1
  ord : BitVec 2
  scope : BitVec 3
  kind : BitVec 2
  rsv : BitVec 11
  deriving DecidableEq, Repr

/-- A Tikel link setting: lane order and polarity as given, lane count and rate in Gbit/s (R10). -/
structure LinkSetting where
  order : Nat
  polarity : Nat
  lanes : Nat
  rate : Nat
  deriving DecidableEq, Repr

/-- A firmware image: public key, version, code and signature (R13). -/
structure FwImage where
  key : List Byte
  version : Nat
  code : List Byte
  sig : List Byte
  deriving DecidableEq, Repr

/-- The body of a PARTSET message (R408). -/
structure PartSet where
  part : Nat
  key : BitVec 16
  weights : List Nat
  quota : Nat
  hbmWeight : Nat
  llcQuota : Nat
  roots : List W64
  vlog : W64
  deriving DecidableEq, Repr

/-- The body of a COMPASS message (R408). -/
structure CompassSet where
  part : Nat
  weights : List Nat
  deriving DecidableEq, Repr

/-- A partition id and a one-byte value: the body of PARTATTR and ATTACH (R408). -/
structure PartFlag where
  part : Nat
  value : Nat
  deriving DecidableEq, Repr

/-- What MEMREAD and MEMWRITE name: selector, partition or die, address, length (R12). -/
structure MemSpan where
  sel : Nat
  unit : Nat
  addr : W64
  len : Nat
  deriving DecidableEq, Repr

/-- The body of a PINSEG message (R131). -/
structure PinSet where
  part : Nat
  seg : Nat
  die : Nat
  cluster : Nat
  n : Nat
  ps : Nat
  deriving DecidableEq, Repr

/-- A DEBUG message's operation (FN of major 0x7A) and operands (R389, R391). -/
structure DbgCmd where
  op : Nat
  target : W64
  item : W64
  value : W64
  deriving DecidableEq, Repr

/-- The descriptor fields that every participant of a collective must agree on (R329), as a frame carries them. -/
structure CollShape where
  fn : Nat
  npart : Nat
  root : Nat
  q : Int
  sfmt : Nat
  dfmt : Nat
  mode : Nat
  sat : Bool
  nelem : Nat
  deriving DecidableEq, Repr

/-- What a fabric frame brings: a participant's contribution in wire words (R68), the root's outcome, the news that a participant's
gang has ended, or the revocation of the sender's key, or of the key of one of the module's own partitions (R326, R329, R330, R370). -/
inductive FabricBody where
  | contrib (idx : Nat) (shape : CollShape) (words : List (BitVec 128)) (bytes : List Byte)
  | outcome (result : Nat) (ovf inx : Bool) (ncont : Nat) (bytes : List Byte)
  | ended (idx : Nat)
  | revoked
  | keyRevoked
  deriving DecidableEq, Repr

/-- A fabric frame as it arrives at a port: die, port, the endpoint that it comes from, key, group, and the number of the
operation on the group (R326, R329). -/
structure FabricFrame where
  die : Nat
  port : Nat
  src : Nat
  key : BitVec 16
  gid : W32
  k : Nat
  body : FabricBody
  deriving DecidableEq, Repr

/-- The instructions, device steps and messages of the opcode table, one constructor each. -/
inductive Instr where
  /-- BRA (R151): Per-lane conditional branch with a join point, which may split slices. -/
  | bra (w : BraWord)
  /-- BRX (R154): Uniform indirect branch to the offset held in a scalar. -/
  | brx (w : XWord)
  /-- BRU (R154): Uniform conditional branch on a comparison of two scalars. -/
  | bru (w : XWord)
  /-- CALL (R155): Direct call that pushes the return offset on every slice's call stack. -/
  | call (w : XWord)
  /-- CALL_INDIRECT (R155): Call to the offset held in a scalar. -/
  | callIndirect (w : XWord)
  /-- PLANE_SET (R157): Moves the active lanes, optionally those a predicate selects, to plane j. -/
  | planeSet (w : XWord)
  /-- PLANE_MOV (R157): Sets each active lane's plane from a 128-bit scalar pair. -/
  | planeMov (w : XWord)
  /-- PLANE_GET (R157): Writes every lane's plane to a 128-bit scalar pair. -/
  | planeGet (w : XWord)
  /-- PLANE_BAL (R157): Writes the mask of active lanes that are in plane j. -/
  | planeBal (w : XWord)
  /-- YIELD (R158): Reloads the yield-deadline counter, sets the live count, and stops if a stop is pending. -/
  | yield (w : XWord)
  /-- TRAP (R371): Raises TRAP precisely, with the code in DETAIL. -/
  | trap (w : TrapWord)
  /-- BAR_INIT (R322): Sets a barrier's expected count, clears abandonment, and completes the phase if already reached. -/
  | barInit (w : XWord)
  /-- BAR_ARRIVE (R322): Makes a release arrival and returns the phase arrived at. -/
  | barArrive (w : XWord)
  /-- BAR_WAIT (R322): Waits until a named phase completes, then acquires and returns AB. -/
  | barWait (w : XWord)
  /-- BAR_MEET (R322): Arrives and then waits on the phase arrived at. -/
  | barMeet (w : XWord)
  /-- BAR_ARRIVE_REMOTE (R323): Makes a release arrival at the barrier of another rank. -/
  | barArriveRemote (w : XWord)
  /-- BAR_RED (R324): Payload arrival that contributes a scalar and receives the combination in bundle order. -/
  | barRed (w : XWord)
  /-- BAR_QUERY (R323): Returns PHASE, ARR, COUNT and AB without arriving. -/
  | barQuery (w : XWord)
  /-- WAIT_TOK (R266): Waits until every masked token is 0 and acquires the copies' effects. -/
  | waitTok (w : XWord)
  /-- WAIT_TL (R266): Waits until an engine timeline counter reaches a target and acquires the effects. -/
  | waitTl (w : XWord)
  /-- FENCE (R342): Acquire or release fence at a scope. -/
  | fence (w : FenceWord)
  /-- FENCE_ALIAS (R342): Waits for stores at home, drops the partition's L1 lines and stops forwarding, with an optional order. -/
  | fenceAlias (w : FenceWord)
  /-- GRP_JOIN (R135): Adds the gang to its crew's sharing group. -/
  | grpJoin (w : XWord)
  /-- GRP_LEAVE (R135): Removes the gang from the sharing group after admitted accesses drain. -/
  | grpLeave (w : XWord)
  /-- GRP_QUERY (R135): Returns the sharing-group mask. -/
  | grpQuery (w : XWord)
  /-- GRP_PUBLISH (R135): Sets the gang's published window in every member's copy. -/
  | grpPublish (w : XWord)
  /-- SADD_S_FORM (R176): Scalar add, format S. -/
  | saddSForm (w : SWord)
  /-- SADD_SL_FORM (R176): Scalar add with a 64-bit literal. -/
  | saddSlForm (w : SWord) (lit : W64)
  /-- SADD_X_FORM (R176): Scalar add, format X, with an optional immediate. -/
  | saddXForm (w : XWord)
  /-- SSUB_S_FORM (R176): Scalar subtract, format S. -/
  | ssubSForm (w : SWord)
  /-- SSUB_SL_FORM (R176): Scalar subtract with a literal. -/
  | ssubSlForm (w : SWord) (lit : W64)
  /-- SSUB_X_FORM (R176): Scalar subtract, format X. -/
  | ssubXForm (w : XWord)
  /-- SMUL_S_FORM (R176): Low 64 bits of a scalar product, format S. -/
  | smulSForm (w : SWord)
  /-- SMUL_SL_FORM (R176): Scalar multiply with a literal. -/
  | smulSlForm (w : SWord) (lit : W64)
  /-- SMUL_X_FORM (R176): Scalar multiply, format X. -/
  | smulXForm (w : XWord)
  /-- SMULH_S_FORM (R176): Signed high 64 bits of a product, format S. -/
  | smulhSForm (w : SWord)
  /-- SMULH_SL_FORM (R176): Signed high product with a literal. -/
  | smulhSlForm (w : SWord) (lit : W64)
  /-- SMULH_X_FORM (R176): Signed high product, format X. -/
  | smulhXForm (w : XWord)
  /-- SMULH_Z (R176): Unsigned high 64 bits of a product. -/
  | smulhZ (w : XWord)
  /-- SDIV_S (R177): Signed scalar quotient. -/
  | sdivS (w : XWord)
  /-- SDIV_Z (R177): Unsigned scalar quotient. -/
  | sdivZ (w : XWord)
  /-- SREM_S (R177): Signed scalar remainder. -/
  | sremS (w : XWord)
  /-- SREM_Z (R177): Unsigned scalar remainder. -/
  | sremZ (w : XWord)
  /-- SAND_S_FORM (R176): Scalar AND, format S. -/
  | sandSForm (w : SWord)
  /-- SAND_SL_FORM (R176): Scalar AND with a literal. -/
  | sandSlForm (w : SWord) (lit : W64)
  /-- SAND_X_FORM (R176): Scalar AND, format X. -/
  | sandXForm (w : XWord)
  /-- SOR_S_FORM (R176): Scalar OR, format S. -/
  | sorSForm (w : SWord)
  /-- SOR_SL_FORM (R176): Scalar OR with a literal. -/
  | sorSlForm (w : SWord) (lit : W64)
  /-- SOR_X_FORM (R176): Scalar OR, format X. -/
  | sorXForm (w : XWord)
  /-- SXOR_S_FORM (R176): Scalar XOR, format S. -/
  | sxorSForm (w : SWord)
  /-- SXOR_SL_FORM (R176): Scalar XOR with a literal. -/
  | sxorSlForm (w : SWord) (lit : W64)
  /-- SXOR_X_FORM (R176): Scalar XOR, format X. -/
  | sxorXForm (w : XWord)
  /-- SSHL_S_FORM (R176): Scalar shift left, format S. -/
  | sshlSForm (w : SWord)
  /-- SSHL_SL_FORM (R176): Scalar shift left by a literal. -/
  | sshlSlForm (w : SWord) (lit : W64)
  /-- SSHL_X_FORM (R176): Scalar shift left, format X. -/
  | sshlXForm (w : XWord)
  /-- SSHR_S_FORM (R176): Scalar logical shift right, format S. -/
  | sshrSForm (w : SWord)
  /-- SSHR_SL_FORM (R176): Scalar logical shift right by a literal. -/
  | sshrSlForm (w : SWord) (lit : W64)
  /-- SSHR_X_FORM (R176): Scalar logical shift right, format X. -/
  | sshrXForm (w : XWord)
  /-- SSRA_S_FORM (R176): Scalar arithmetic shift right, format S. -/
  | ssraSForm (w : SWord)
  /-- SSRA_SL_FORM (R176): Scalar arithmetic shift right by a literal. -/
  | ssraSlForm (w : SWord) (lit : W64)
  /-- SSRA_X_FORM (R176): Scalar arithmetic shift right, format X. -/
  | ssraXForm (w : XWord)
  /-- SMIN_S (R176): Signed scalar minimum. -/
  | sminS (w : XWord)
  /-- SMIN_Z (R176): Unsigned scalar minimum. -/
  | sminZ (w : XWord)
  /-- SMAX_S (R176): Signed scalar maximum. -/
  | smaxS (w : XWord)
  /-- SMAX_Z (R176): Unsigned scalar maximum. -/
  | smaxZ (w : XWord)
  /-- SCMP (R178): Writes 1 or 0 according to a scalar comparison. -/
  | scmp (w : XWord)
  /-- SSEL (R178): Selects sA or sB according to sC. -/
  | ssel (w : XWord)
  /-- SLI (R178): Loads a 64-bit literal into a scalar. -/
  | sli (w : SWord) (lit : W64)
  /-- SMOV (R178): Copies one scalar to another. -/
  | smov (w : SWord)
  /-- SADDR (R179): Computes a scaled address sA + (sB << shift) + displacement. -/
  | saddr (w : XWord)
  /-- SBIT_POPC (R180): Scalar population count. -/
  | sbitPopc (w : XWord)
  /-- SBIT_CLZ (R180): Scalar leading-zero count. -/
  | sbitClz (w : XWord)
  /-- SBIT_CTZ (R180): Scalar trailing-zero count. -/
  | sbitCtz (w : XWord)
  /-- SBIT_BFX (R180): Zero-extended scalar bit-field extract. -/
  | sbitBfx (w : XWord)
  /-- SBIT_BFI (R180): Scalar bit-field insert. -/
  | sbitBfi (w : XWord)
  /-- SBIT_BREV (R180): Scalar bit reversal. -/
  | sbitBrev (w : XWord)
  /-- SBIT_BFX_S (R180): Sign-extended scalar bit-field extract. -/
  | sbitBfxS (w : XWord)
  /-- SRD (R181): Reads a named device value into a scalar. -/
  | srd (w : XWord)
  /-- VGET (R182): Reads one lane's register into a scalar, zero-extended. -/
  | vget (w : XWord)
  /-- VGET_S (R182): Reads one lane's register into a scalar, sign-extended. -/
  | vgetS (w : XWord)
  /-- SLD (R235): Uniform scalar load from global memory or scratchpad. -/
  | sld (w : XWord)
  /-- SST (R235): Uniform scalar store. -/
  | sst (w : XWord)
  /-- SATOM (R235): Uniform scalar atomic. -/
  | satom (w : XWord)
  /-- VADD_S_FORM (R184): Per-lane integer add, format S. -/
  | vaddSForm (w : SWord)
  /-- VADD_X_FORM (R184): Per-lane integer add with type, signedness and saturation. -/
  | vaddXForm (w : XWord)
  /-- VSUB_S_FORM (R184): Per-lane integer subtract, format S. -/
  | vsubSForm (w : SWord)
  /-- VSUB_X_FORM (R184): Per-lane integer subtract, format X. -/
  | vsubXForm (w : XWord)
  /-- VMUL_S_FORM (R184): Per-lane integer multiply, format S. -/
  | vmulSForm (w : SWord)
  /-- VMUL_X_FORM (R184): Per-lane integer multiply, format X. -/
  | vmulXForm (w : XWord)
  /-- VMULH_S_FORM (R184): Per-lane high half of a product, format S. -/
  | vmulhSForm (w : SWord)
  /-- VMULH_X_FORM (R184): Per-lane high half of a product, format X. -/
  | vmulhXForm (w : XWord)
  /-- VMAD (R184): Per-lane integer multiply-add. -/
  | vmad (w : XWord)
  /-- VDOT4 (R185): Per-lane dot product of four 8-bit pairs plus C. -/
  | vdot4 (w : XWord)
  /-- VAND_S_FORM (R184): Per-lane AND, format S. -/
  | vandSForm (w : SWord)
  /-- VAND_X_FORM (R184): Per-lane AND, format X. -/
  | vandXForm (w : XWord)
  /-- VOR_S_FORM (R184): Per-lane OR, format S. -/
  | vorSForm (w : SWord)
  /-- VOR_X_FORM (R184): Per-lane OR, format X. -/
  | vorXForm (w : XWord)
  /-- VXOR_S_FORM (R184): Per-lane XOR, format S. -/
  | vxorSForm (w : SWord)
  /-- VXOR_X_FORM (R184): Per-lane XOR, format X. -/
  | vxorXForm (w : XWord)
  /-- VSHL_S_FORM (R184): Per-lane shift left, format S. -/
  | vshlSForm (w : SWord)
  /-- VSHL_X_FORM (R184): Per-lane shift left, format X. -/
  | vshlXForm (w : XWord)
  /-- VSHR_S_FORM (R184): Per-lane logical shift right, format S. -/
  | vshrSForm (w : SWord)
  /-- VSHR_X_FORM (R184): Per-lane logical shift right, format X. -/
  | vshrXForm (w : XWord)
  /-- VSRA_S_FORM (R184): Per-lane arithmetic shift right, format S. -/
  | vsraSForm (w : SWord)
  /-- VSRA_X_FORM (R184): Per-lane arithmetic shift right, format X. -/
  | vsraXForm (w : XWord)
  /-- VMIN (R184): Per-lane integer minimum. -/
  | vmin (w : XWord)
  /-- VMAX (R184): Per-lane integer maximum. -/
  | vmax (w : XWord)
  /-- VABS (R184): Per-lane absolute value. -/
  | vabs (w : XWord)
  /-- VNEG (R184): Per-lane negation. -/
  | vneg (w : XWord)
  /-- VSEL (R186): Per-lane select by predicate. -/
  | vsel (w : XWord)
  /-- VCMP (R187): Per-lane integer compare that writes a predicate. -/
  | vcmp (w : XWord)
  /-- VMOV_S_FORM (R186): Per-lane move, format S. -/
  | vmovSForm (w : SWord)
  /-- VMOV_SL_FORM (R186): Per-lane move of a sign-extended literal. -/
  | vmovSlForm (w : SWord) (lit : W64)
  /-- VMOV_X_FORM (R186): Per-lane move of a register or immediate, format X. -/
  | vmovXForm (w : XWord)
  /-- VFSH (R188): Per-lane funnel shift of A:B. -/
  | vfsh (w : XWord)
  /-- VBIT_POPC (R188): Per-lane population count. -/
  | vbitPopc (w : XWord)
  /-- VBIT_CLZ (R188): Per-lane leading-zero count. -/
  | vbitClz (w : XWord)
  /-- VBIT_CTZ (R188): Per-lane trailing-zero count. -/
  | vbitCtz (w : XWord)
  /-- VBIT_BREV (R188): Per-lane bit reversal. -/
  | vbitBrev (w : XWord)
  /-- VBIT_BFX (R188): Per-lane bit-field extract. -/
  | vbitBfx (w : XWord)
  /-- VBIT_BFI (R188): Per-lane bit-field insert. -/
  | vbitBfi (w : XWord)
  /-- VRSH (R189): Per-lane requantising rounding shift with saturation. -/
  | vrsh (w : XWord)
  /-- VPACK (R190): Per-lane narrowing pack of two sources. -/
  | vpack (w : XWord)
  /-- VUNPK (R190): Per-lane widening unpack of the low or high half. -/
  | vunpk (w : XWord)
  /-- VSHFL (R192): Moves values between the lanes of a segment. -/
  | vshfl (w : XWord)
  /-- VRED (R193): Reduces A across the participants and writes the result to each. -/
  | vred (w : XWord)
  /-- VSCN (R193): Inclusive or exclusive scan of A across the participants. -/
  | vscn (w : XWord)
  /-- VBAL (R194): Ballot mask of the participants with A non-zero. -/
  | vbal (w : XWord)
  /-- PLOG (R187): Predicate logic by truth table. -/
  | plog (w : XWord)
  /-- VPRM (R188): Per-lane byte permute of B:A. -/
  | vprm (w : XWord)
  /-- VLUT (R262): Per-lane codebook look-up of entry components 0 and 1. -/
  | vlut (w : XWord)
  /-- VLUT_HI (R262): Per-lane codebook look-up of entry components 2 and 3. -/
  | vlutHi (w : XWord)
  /-- VLUT_P2 (R262): Per-lane look-up of two indices. -/
  | vlutP2 (w : XWord)
  /-- PAIR (R42): Issues an integer and a float per-lane half together. -/
  | pair (w : PairWord)
  /-- FADD_S_FORM (R199): Float add, format S. -/
  | faddSForm (w : SWord)
  /-- FADD_X_FORM (R199): Float add with type, mode, SAT and FTZ. -/
  | faddXForm (w : XWord)
  /-- FSUB_S_FORM (R199): Float subtract, format S. -/
  | fsubSForm (w : SWord)
  /-- FSUB_X_FORM (R199): Float subtract, format X. -/
  | fsubXForm (w : XWord)
  /-- FMUL_S_FORM (R199): Float multiply, format S. -/
  | fmulSForm (w : SWord)
  /-- FMUL_X_FORM (R199): Float multiply, format X. -/
  | fmulXForm (w : XWord)
  /-- FFMA_S_FORM (R199): Fused multiply-add with C = +0, format S. -/
  | ffmaSForm (w : SWord)
  /-- FFMA_X_FORM (R199): Fused multiply-add, rounded once. -/
  | ffmaXForm (w : XWord)
  /-- FMIN (R200): IEEE minimum. -/
  | fmin (w : XWord)
  /-- FMAX (R200): IEEE maximum. -/
  | fmax (w : XWord)
  /-- FMINN (R200): IEEE minimumNumber. -/
  | fminn (w : XWord)
  /-- FMAXN (R200): IEEE maximumNumber. -/
  | fmaxn (w : XWord)
  /-- FNEG (R201): Inverts the sign bit. -/
  | fneg (w : XWord)
  /-- FABS (R201): Clears the sign bit. -/
  | fabs (w : XWord)
  /-- FCPYS (R201): Copies B's sign onto A. -/
  | fcpys (w : XWord)
  /-- FCMP (R202): Float compare that writes a predicate. -/
  | fcmp (w : XWord)
  /-- FCVT (R204): Converts between float and integer formats, by part. -/
  | fcvt (w : XWord)
  /-- FRCP_S_FORM (R206): Reciprocal, format S. -/
  | frcpSForm (w : SWord)
  /-- FRCP_X_FORM (R206): Reciprocal, format X. -/
  | frcpXForm (w : XWord)
  /-- FRSQ_S_FORM (R206): Reciprocal square root, format S. -/
  | frsqSForm (w : SWord)
  /-- FRSQ_X_FORM (R206): Reciprocal square root, format X. -/
  | frsqXForm (w : XWord)
  /-- FSQRT_S_FORM (R206): Correctly rounded square root, format S. -/
  | fsqrtSForm (w : SWord)
  /-- FSQRT_X_FORM (R206): Correctly rounded square root, format X. -/
  | fsqrtXForm (w : XWord)
  /-- FEXP2_S_FORM (R206): 2 to the power a, format S. -/
  | fexp2SForm (w : SWord)
  /-- FEXP2_X_FORM (R206): 2 to the power a, format X. -/
  | fexp2XForm (w : XWord)
  /-- FLOG2_S_FORM (R206): Base-2 logarithm, format S. -/
  | flog2SForm (w : SWord)
  /-- FLOG2_X_FORM (R206): Base-2 logarithm, format X. -/
  | flog2XForm (w : XWord)
  /-- FSIN_S_FORM (R206): Sine, format S. -/
  | fsinSForm (w : SWord)
  /-- FSIN_X_FORM (R206): Sine, format X. -/
  | fsinXForm (w : XWord)
  /-- FCOS_S_FORM (R206): Cosine, format S. -/
  | fcosSForm (w : SWord)
  /-- FCOS_X_FORM (R206): Cosine, format X. -/
  | fcosXForm (w : XWord)
  /-- FTANH_S_FORM (R206): Hyperbolic tangent, format S. -/
  | ftanhSForm (w : SWord)
  /-- FTANH_X_FORM (R206): Hyperbolic tangent, format X. -/
  | ftanhXForm (w : XWord)
  /-- FCLS (R209): Writes a class mask for each element. -/
  | fcls (w : XWord)
  /-- FSCL (R210): Scales a by 2^b and rounds once. -/
  | fscl (w : XWord)
  /-- FDOT2 (R211): Dot product of two 16-bit pairs plus an FP32 C. -/
  | fdot2 (w : XWord)
  /-- FRND (R212): Rounds to an integral value in the operand's format. -/
  | frnd (w : XWord)
  /-- BFPQ (R214): Quantises 16 lanes into a BFPm group. -/
  | bfpq (w : XWord)
  /-- BFPD (R215): Dequantises a BFPm element to FP32. -/
  | bfpd (w : XWord)
  /-- LD (R230): Per-lane global load. -/
  | ld (w : XWord)
  /-- ST (R230): Per-lane global store. -/
  | st (w : XWord)
  /-- LDS (R230): Per-lane scratchpad or crew scratchpad load, parking on absent lines. -/
  | lds (w : XWord)
  /-- STS (R230): Per-lane scratchpad or crew scratchpad store. -/
  | sts (w : XWord)
  /-- ATOM (R233): Per-lane atomic read-modify-write. -/
  | atom (w : XWord)
  /-- PRES_CLR (R237): Clears the presence bits of scratchpad lines. -/
  | presClr (w : XWord)
  /-- PRES_SET (R237): Releases and sets the presence bits of scratchpad lines. -/
  | presSet (w : XWord)
  /-- PRES_TEST (R237): Returns the mask of present lines. -/
  | presTest (w : XWord)
  /-- TLOC_ENT (R94): Computes the index-entry address of a tile. -/
  | tlocEnt (w : XWord)
  /-- TLOC (R94): Reads a tile's index entry into a scalar pair. -/
  | tloc (w : XWord)
  /-- TBIND (R93): Binds a tensor handle to a checked descriptor. -/
  | tbind (w : XWord)
  /-- TBIND_CLR (R93): Unbinds a tensor handle. -/
  | tbindClr (w : XWord)
  /-- TEXP (R253): Expands rows of a coded tile into registers. -/
  | texp (w : XWord)
  /-- TENC (R257): Appends a row to an appendable EXPC tile. -/
  | tenc (w : XWord)
  /-- CTLD (R259): Loads an Atlas slot from global memory. -/
  | ctld (w : XWord)
  /-- CTLD_SPM (R259): Loads an Atlas slot from scratchpad. -/
  | ctldSpm (w : XWord)
  /-- CTST (R261): Returns an Atlas slot's state word with its CRC. -/
  | ctst (w : XWord)
  /-- CPY_LIN_G2S (R270): Copies global memory to scratchpad. -/
  | cpyLinG2s (w : XWord)
  /-- CPY_LIN_S2G (R270): Copies scratchpad to global memory. -/
  | cpyLinS2g (w : XWord)
  /-- CPY_LIN_G2G (R270): Copies global memory to global memory. -/
  | cpyLinG2g (w : XWord)
  /-- CPY_TILE_G2S (R276): Copies a run of tile streams with a directory to scratchpad. -/
  | cpyTileG2s (w : XWord)
  /-- CPY_TILE_G2S_CH (R277): Tile-run copy that carries a chained matrix instruction in its literal. -/
  | cpyTileG2sCh (w : XWord) (lit : W64)
  /-- CPY_ROWS_G2S (R270): Copies pitched rows to scratchpad. -/
  | cpyRowsG2s (w : XWord)
  /-- CPY_MCAST_G2S (R274): Multicasts global bytes to crew scratchpads. -/
  | cpyMcastG2s (w : XWord)
  /-- CPY_MCAST_S2S (R274): Multicasts the issuer's scratchpad to other members. -/
  | cpyMcastS2s (w : XWord)
  /-- CPY_FILL (R270): Fills scratchpad or global memory with a word. -/
  | cpyFill (w : XWord)
  /-- MMA (R282): Matrix multiply-accumulate into accumulator rows. -/
  | mma (w : XWord)
  /-- MMA_CREW (R283): Leader's matrix operation broadcast to the named ranks. -/
  | mmaCrew (w : XWord) (lit : W64)
  /-- MMA_SP (R284): 2:4-sparse matrix operation with 128-deep K-steps. -/
  | mmaSp (w : XWord)
  /-- BLOAD (R285): Decodes tiles into B slots. -/
  | bload (w : XWord)
  /-- ACC_WIN (R288): Sets a bundle's accumulator window. -/
  | accWin (w : XWord)
  /-- ACC_LD (R289): Reads accumulator rows into registers. -/
  | accLd (w : XWord)
  /-- ACC_ST (R289): Writes registers into accumulator rows. -/
  | accSt (w : XWord)
  /-- ACC_ZERO (R289): Zeroes accumulator rows. -/
  | accZero (w : XWord)
  /-- ACC_OUT (R289): Converts and stores accumulator rows to scratchpad. -/
  | accOut (w : XWord)
  /-- SCAN_OPDEF (R310): Validates and loads an operator program into a slot. -/
  | scanOpdef (w : XWord)
  /-- SCAN_BEGIN (R311): Opens a scan, with an optional initial carry. -/
  | scanBegin (w : XWord)
  /-- SCAN_TILE (R312): Issues a local-prefix scan of a tile. -/
  | scanTile (w : XWord)
  /-- SCAN_PUB (R313): Fixes the aggregate and releases toward the carry-out. -/
  | scanPub (w : XWord)
  /-- SCAN_CARRY (R314): Waits for the carry-in, acquires it and returns its status. -/
  | scanCarry (w : XWord)
  /-- SCAN_FIX (R315): Issues the application of the carry-in to a tile. -/
  | scanFix (w : XWord)
  /-- SCAN_END (R316): Closes the scan, optionally exporting the carry-out. -/
  | scanEnd (w : XWord)
  /-- SPAWN (R116): Queues child crews of the parent's packet on the issuing die. -/
  | spawn (w : XWord)
  /-- LAUNCH_INSTRUCTION (R117): Reads a launch packet and queues it on the issuing die. -/
  | launchInstruction (w : XWord)
  /-- JC_INIT (R118): Writes a join counter with a release. -/
  | jcInit (w : XWord)
  /-- JC_ADD (R119): Adds to a join counter atomically, possibly triggering its continuation. -/
  | jcAdd (w : XWord)
  /-- COLL_RED (R329): Issues a fabric reduction to the root. -/
  | collRed (w : XWord)
  /-- COLL_AR (R329): Issues a fabric all-reduce. -/
  | collAr (w : XWord)
  /-- COLL_BC (R329): Issues a fabric broadcast from the root. -/
  | collBc (w : XWord)
  /-- DBG_HREAD (R392): Reads an item of a halted target. -/
  | dbgHread (w : XWord)
  /-- DBG_HWRITE (R392): Writes an item of a halted target. -/
  | dbgHwrite (w : XWord)
  /-- DBG_HSTEP (R393): Steps a halted lane or bundle one instruction. -/
  | dbgHstep (w : XWord)
  /-- DBG_HRESUME (R393): Releases a halted lane, bundle or gang, and the operations its halts held. -/
  | dbgHresume (w : XWord)
  /-- DBG_HSTAT (R393): Returns the target's run state and halted-lane mask. -/
  | dbgHstat (w : XWord)
  /-- DBG_HALT (R393): Halts a lane, bundle or gang at the next boundary. -/
  | dbgHalt (w : XWord)
  /-- WATCH_SET (R390): Claims and writes a gang watch entry. -/
  | watchSet (w : XWord)
  /-- WATCH_CLR (R390): Disarms and frees the gang's masked watch entries. -/
  | watchClr (w : XWord)
  /-- WATCH_GET (R390): Reads a watch entry with its read-back bits. -/
  | watchGet (w : XWord)
  /-- WATCH_ARM (R390): Arms and disarms owned entries after earlier accesses are performed. -/
  | watchArm (w : XWord)
  /-- PERF_RD (R405): Reads a performance counter. -/
  | perfRd (w : XWord)
  /-- PERF_SEL (R405): Writes a counter's selector and optionally clears it. -/
  | perfSel (w : XWord)
  /-- PERF_SAMP (R405): Starts or stops PC sampling at an interval. -/
  | perfSamp (w : XWord)
  /-- CSR_RD (R372): Reads a privileged control register. -/
  | csrRd (w : XWord)
  /-- CSR_WR_FAULTACT (R373): Writes the partition's fault dispositions and completes when every die holds them. -/
  | csrWrFaultact (w : XWord)
  /-- CSR_WR_CECNT (R373): Clears the corrected-error count. -/
  | csrWrCecnt (w : XWord)
  /-- CSR_WR_UECNT (R373): Clears the uncorrectable-error count. -/
  | csrWrUecnt (w : XWord)
  /-- CSR_WR_STOPREQ (R373): A write of 1 requests a stop of the issuing crew. -/
  | csrWrStopreq (w : XWord)
  /-- CSR_WR (R372): A write to a read-only control register raises ILLEGAL CSRRO. -/
  | csrWr (w : XWord)
  /-- NOP (R147): Padding per-lane instruction that does nothing. -/
  | nop
  /-- RET (R155): Pops each slice's call stack and continues at the popped offset. -/
  | ret
  /-- JOIN (R152): Runs the pending lanes or pops the join entry whose J matches the offset. -/
  | join
  /-- REGANG (R156): Waits until every live sub-bundle arrives, then merges them or raises REGANG. -/
  | regang
  /-- EXIT (R162): Ends every lane of the issuing sub-bundle's slices. -/
  | exit
  /-- POWER_RAIL_ENABLE (R8): The control node enables the HBM rails and then the core rails through the power-sequencing pins (phase 1 of bring-up). -/
  | powerRailEnable
  /-- MODULE_RESET (R8): The release or assertion of module reset starts bring-up afresh and discards every state except configuration flash. -/
  | moduleReset (asserted : Bool)
  /-- POWER_DOWN (R9): The control node powers the module down; after a bring-up failure this and module reset are the only events the module accepts. -/
  | powerDown
  /-- TIKEL_TRAINING (R10): Tikel training completes: the highest lane order, polarity, lane count and rate that both sides pass are settled, and a degraded link is reported. -/
  | tikelTraining (passed : List LinkSetting)
  /-- TRAINING_RETRY (R10): No Tikel setting has passed within 100 ms of module reset, so the port stays in phase 2 and retries training. -/
  | trainingRetry
  /-- ACK (R12): An ACK-only frame is received; it advances the acknowledged LSN and is never answered. -/
  | ack (lsn : BitVec 16) (av : Bool)
  /-- ACK_ONLY_TIMER (R12): A side has received frames and sent nothing for 1 µs, so it sends an ACK-only frame. -/
  | ackOnlyTimer
  /-- RESEND_TIMEOUT (R12): A sender's ACK has not advanced for 4 µs, so it resends, byte-identical, every frame from the oldest unacknowledged one. -/
  | resendTimeout
  /-- UNLISTED_MESSAGE (R12): A message arrives whose TYPE is unlisted or is listed only for the direction from the module; it is discarded and answered by a REPLY with status 0xFFFF. -/
  | unlistedMessage (kind : Byte) (m : MsgId)
  /-- FIRMWARE (R13): The boot ROM of each die verifies the supplied firmware image's key digest, ECDSA signature and minimum version, and runs the image only if all three pass. -/
  | firmware (m : MsgId) (img : FwImage)
  /-- ATTEST_REQ (R16): An attestation request carrying a nonce is queued for CD0 (up to four at once, then busy), or held until phase 5 completes. -/
  | attestReq (m : MsgId) (nonce : List Byte)
  /-- ATTEST_REPORT (R16): CD0 completes the signing of a queued attestation request and sends the report with digests, version, link parameters and devtime. -/
  | attestReport
  /-- DEVTIME_START (R17): Phase 6 completes: devtime starts at 0 from CD0's reference edge, and each die corrects for link delay. -/
  | devtimeStart (offs : List Int)
  /-- DEVTIME_CHECK (R17): Each 1 ms of devtime, a die checks its offset against CD0 and slews to correct an offset beyond 4 ns. -/
  | devtimeCheck (die : Nat) (off : Int)
  /-- MEMORY_AND_FABRIC (R8): Phase 7 ends: HBM is trained and the fabric ports are idle, or the phase fails. -/
  | memoryAndFabric
  /-- THERMAL_LIMIT (R21): A core rail sags below its trimmed minimum, or a die's junction exceeds 105 °C, so the die lowers its clock in 100 MHz steps and reports the event. -/
  | thermalLimit (die : Nat)
  /-- OVERTEMP_SHUTDOWN (R21): At 115 °C the die stops issue, saves nothing, and asks the control node to power the module down. -/
  | overtempShutdown (die : Nat)
  /-- PARTSET (R408): Creates a partition with its key, weights, quotas, roots and log address, or changes its shares; answered once every die has applied it. -/
  | partset (m : MsgId) (body : Option PartSet)
  /-- COMPASS (R99): Replaces a partition's Compass weights, taking effect at the first launch after every die has acknowledged. -/
  | compass (m : MsgId) (body : Option CompassSet)
  /-- PARTATTR (R351): Sets a partition's mode to user or privileged, and is refused while the partition has a resident gang. -/
  | partattr (m : MsgId) (body : Option PartFlag)
  /-- PARTRESET (R114): Starts a partition reset: launches are refused, records discarded, gangs stopped without saving, accesses errored, and LSEQ and quota usage cleared. -/
  | partreset (m : MsgId) (part : Option Nat)
  /-- RESET_DONE (R114): A die completes steps 1–5 of a partition reset and sends RESET_DONE; once every die has sent it, the partition accepts launches again. -/
  | resetDone (die part : Nat)
  /-- RESET_TIMEOUT (R114): A die has not completed a partition reset within 1 ms of devtime and reports the reset as an error. -/
  | resetTimeout (die part : Nat)
  /-- RINGSET (R102): Sets a partition's overflow ring on a die, and is refused while that ring holds records. -/
  | ringset (m : MsgId) (part die : Nat) (va : W64) (entries : Nat)
  /-- MEMREAD (R12): The control node reads 1–65,536 bytes by VA or physical address, checked whole and answered by MEMDATA. -/
  | memread (m : MsgId) (a : MemSpan)
  /-- MEMWRITE (R12): The control node writes 1–65,536 bytes by VA or physical address, checked whole and answered by a REPLY. -/
  | memwrite (m : MsgId) (a : MemSpan) (bytes : List Byte)
  /-- LAUNCH (R98): A launch packet is delivered to every die, checked under R97, assigned an LSEQ, and split into per-die continuation records. -/
  | launch (m : MsgId) (packet : List Byte)
  /-- RESIDE_OK (R121): The control node confirms that the pages of a RESIDE run are mapped; the die acknowledges, walks the run again, and asks for any pages still missing. -/
  | resideOk (m : MsgId) (of : MsgId)
  /-- RESIDE_FAIL (R121): The control node refuses a RESIDE run; the die acknowledges it and holds the lease as failed. -/
  | resideFail (m : MsgId) (of : MsgId)
  /-- RESIDE_TIMEOUT (R122): Some leased page still has no valid leaf 1 s after the die's first RESIDE for the launch, so the lease fails. -/
  | resideTimeout (die lkey : Nat)
  /-- LEASE_READY (R122): An owning die reports its part of a lease resident and pinned; once a die holds it from every die, it checks the image header and may place crews. -/
  | leaseReady (die lkey : Nat)
  /-- LEASE_FAIL (R122): A die reports a failed lease; every die holding a record of the launch discards it with REJECT check 24. -/
  | leaseFail (die lkey : Nat)
  /-- CREW_PLACE (R127): A cluster dispatcher takes the crew that R105's order offers, chooses a cluster and cores, reserves and zeroes them, or restores a stopped crew. -/
  | crewPlace (die : Nat)
  /-- BACKFILL_TIMEOUT (R106): The first record has waited 100 µs of devtime, so backfill stops on that die until the record is placed. -/
  | backfillTimeout (die : Nat)
  /-- LATE (R108): Devtime passes a record's DEADLINE before its first crew is placed, so one LATE notice is sent. -/
  | late (die arrival : Nat)
  /-- PINSEG (R131): Creates a pinned segment: the owning die chooses n cores of the cluster, zeroes the regions, and reports the core list. -/
  | pinseg (m : MsgId) (b : PinSet)
  /-- PINFREE (R132): Frees a pinned segment, at once or when its holding crew retires. -/
  | pinfree (m : MsgId) (part seg : Nat)
  /-- INVALIDATE (R142): Removes a mapping: refused if pinned; otherwise TLB, region and expanded-tile entries are dropped, and a VA-range invalidation goes to every core once in-flight accesses drain. -/
  | invalidate (m : MsgId) (part : Nat) (va : W64) (pages : Nat)
  /-- INVAL_ACK (R142): A core has dropped its L1 lines for an invalidated range and acknowledges. -/
  | invalAck (die core inv : Nat)
  /-- HOME_AGENT_REQUEST (R136): A request arrives at the home agent of its page; it is translated through the TLB or a walk, with reads issued early by prediction. -/
  | homeAgentRequest (op lane : Nat)
  /-- PAGE_WALK_COMPLETE (R141): A page walk ends; a predicted read is confirmed and returned, or squashed and replayed or failed. -/
  | pageWalkComplete (op lane : Nat)
  /-- SLICE_ACCESS (R219): An access is performed at its line's home slice, and invalidations are sent to the L1s that may hold the line. -/
  | sliceAccess (op lane : Nat)
  /-- INVAL_BATCH (R339): A die receives a stamped batch of invalidations from another die and applies it in stamp order, merging vector clocks. -/
  | invalBatch (die src : Nat)
  /-- LOAD_DATA_RETURN (R229): The data of every lane of a load pass has returned, so the destination is written and the belt shifts. -/
  | loadDataReturn (op : Nat)
  /-- CREW_SCRATCHPAD_ACCESS (R232): A crew scratchpad access lands at the target core's view address, under its banks and presence bits. -/
  | crewScratchpadAccess (op : Nat)
  /-- XVREG (R239): Registers an expanded view: the home agents copy and check the descriptor and load and check the tables. -/
  | xvreg (m : MsgId) (part die xid : Nat) (desc : W64) (tabs : List W64)
  /-- XVFREE (R239): Removes an expanded-view registration once the reads already admitted under it have completed. -/
  | xvfree (m : MsgId) (part die xid : Nat)
  /-- EXPANDED_VIEW_READ (R240): A home agent resolves and decodes a tile, or serves a cached decoding, and returns BF16 bytes or an error response. -/
  | expandedViewRead (op lane : Nat)
  /-- COLLREG (R326): Registers a collective group's id, endpoints and indices for a partition. -/
  | collreg (m : MsgId) (part : Nat) (gid : W32) (ends idxs : List Nat)
  /-- FABRIC_FRAME (R326): A fabric frame arrives; one with an unknown or mismatched key is dropped and logged with KIND 4. -/
  | fabricFrame (f : FabricFrame)
  /-- PREEMPT (R352): The control node requests a stop of every resident crew of a launch on a die. -/
  | preempt (m : MsgId) (part die : Nat) (lid : W64)
  /-- WSWITCH (R352): A world switch stops every resident crew of a partition on a die and holds the partition unplaced. -/
  | wswitch (m : MsgId) (part die : Nat)
  /-- WRESUME (R352): Ends a world switch, so the partition's records may be placed again. -/
  | wresume (m : MsgId) (part die : Nat)
  /-- STOP_SAVE (R354): Once every bundle of a crew has stopped, engines stop at step boundaries, transits drain, a save slot is allocated, and the state is written and the cores freed. -/
  | stopSave (crew : Nat)
  /-- DUMP (R362): Requests a core dump of a crew: it halts, its engines stop at step boundaries, and its unperformed stores are held. -/
  | dump (m : MsgId) (part die : Nat) (lid : W64) (idx : Nat)
  /-- DUMP_DONE (R362): The crew block, with its pending-store list, has been written to a save slot and DUMP_DONE is sent. -/
  | dumpDone (crew : Nat)
  /-- DUMP_RELEASE (R362): Performs the held stores, clears the slot bit, and either resumes the crew or ends it. -/
  | dumpRelease (m : MsgId) (crew : Nat) (resume : Bool)
  /-- SXENTRY (R378): Sets a Sextant watch entry, 8–15, for a partition and die. -/
  | sxentry (m : MsgId) (part die e : Nat) (words : List W64)
  /-- SXPROG (R389): Loads a Sextant program for a partition and die after validating it. -/
  | sxprog (m : MsgId) (part die n : Nat) (words : List W32)
  /-- ATTACH (R389): Attaches or detaches a partition's debug session. -/
  | attach (m : MsgId) (body : Option PartFlag)
  /-- DEBUG (R389): Performs a dbg.* operation from the control node on a named die, answered with its status and values, or status 8 without a session. -/
  | debug (m : MsgId) (part die : Nat) (d : DbgCmd)
  /-- PERFSET (R402): Assigns the counters of a die to partitions, and clears them. -/
  | perfset (m : MsgId) (part die : Nat) (mask : BitVec 16)
  /-- SAMPRING (R404): Gives a partition and die a PC-sample ring. -/
  | sampring (m : MsgId) (part die : Nat) (va : W64) (entries : Nat)
  /-- PC_SAMPLE (R404): A sampling gang's interval expires and one sub-bundle's offset, planes and stall reason are written to the ring, or dropped. -/
  | pcSample (gid : Nat)
  /-- WAIT_TICK (R159): A bundle with a waiting sub-bundle has issued nothing for 256 cycles, so its yield-deadline counter falls by 1. -/
  | waitTick (gid b : Nat)
  /-- COPY_CHUNK (R272): The copy engine checks and performs one 4,096-byte chunk, sets presence bits where lines complete, and completes the copy after its last chunk. -/
  | copyChunk (op : Nat)
  /-- MATRIX_K_STEP (R282): The array completes one K-step of a matrix operation over its rows, and the operation completes after its last K-step. -/
  | matrixKStep (op : Nat)
  /-- BLOAD_SLOT_SWITCH (R285): A B slot's back copy becomes its front once the earlier operations that read the slot have finished. -/
  | bloadSlotSwitch (op : Nat)
  /-- DECODER_RESUME (R243): Stream bytes a decoder waited on arrive, or their line becomes present, and decoding resumes at the same bit. -/
  | decoderResume (gid b sub : Nat)
  /-- TEXP_DECODE_DONE (R253): The A-port decoder finishes checking a texp tile, and the destination registers are written. -/
  | texpDecodeDone (gid b sub : Nat)
  /-- TENC_PUBLISH (R257): The KV encoder writes the row, reallocating if needed, and stores the entry by compare with release, or faults RACE. -/
  | tencPublish (gid b sub : Nat)
  /-- CTLD_FILL (R259): An Atlas slot fill completes after its bytes arrive, and the slot becomes TABLE, BOOK or INVALID. -/
  | ctldFill (gid b sub : Nat)
  /-- SCAN_TILE_PERFORM (R312): The scan engine computes the local prefixes of a tile in sc order. -/
  | scanTilePerform (op : Nat)
  /-- CARRY_OUT_FORMED (R313): The carry-in of a published scan is known, so the carry-out is formed and sent to rank + 1. -/
  | carryOutFormed (gid : Nat)
  /-- SCAN_FIX_PERFORM (R315): With the carry-in known, the engine combines it into every element of a stored tile. -/
  | scanFixPerform (op : Nat)
  /-- CARRY_ARRIVE (R305): A carry arrives at a receiver's Meridian port, and is taken by the matching scan, held, or dropped. -/
  | carryArrive (carry : Nat)
  /-- REMOTE_ARRIVAL (R323): A remote barrier arrival reaches the target's barrier after the issuer's earlier accesses. -/
  | remoteArrival (arr : Nat)
  /-- COLL_COMPLETE (R329): A fabric collective completes; the destinations and status record are written at system scope and cl advances. -/
  | collComplete (op : Nat)
  /-- COLL_TIMEOUT (R330): TMO passes without completion, so the collective completes with RESULT 3 or 2 and writes no destination. -/
  | collTimeout (op : Nat)
  /-- SEXTANT_PROGRAM_RUN (R389): A Sextant program runs for a watch event, in event order, and ends with an action. -/
  | sextantProgramRun (run : Nat)
  /-- HALT_TAKES_EFFECT (R384): After its skid, a requested halt takes effect on a lane, bundle or gang, and a halt report is sent. -/
  | haltTakesEffect (halt : Nat)
  /-- SOFT_ERROR_CORRECTED (R369): ECC corrects a single-bit error and CECNT counts it. -/
  | softErrorCorrected (die core part : Nat)
  /-- DEVICE_STRUCTURE_ERROR (R369): A double-bit error in a device structure that has no consumer is refetched, or reported with a reset of the owning partition. -/
  | deviceStructureError (die part : Nat) (refetched : Bool)
  /-- GANG_RETIRE (R397): A gang's bundles have exited and its engine operations are done, so its accesses are performed and its resources freed. -/
  | gangRetire (gid : Nat)
  /-- CREW_RETIRE (R398): The last gang of a crew retires: release, join-counter decrement, record count, and freeing of the segment. -/
  | crewRetire (crew : Nat)
  /-- FRAME_CRC_FAIL (R11): A Tikel frame arrives that fails its CRC; it is discarded, along with every later frame out of LSN order, until the sender resends. -/
  | frameCrcFail
  /-- INSTRUCTION_CACHE_FILL (R148): The instruction words that a sub-bundle's fetch missed on arrive for every occupied plane, and the sub-bundle can check and issue the instruction. -/
  | instructionCacheFill (gid b sub : Nat)
  /-- LEASE_SHARE_REPORT (R123): A die receives another die's report that its share of a launch has retired, been dropped or been discarded, and unpins the launch's leases once every die has reported. -/
  | leaseShareReport (src die lkey : Nat)
  deriving DecidableEq, Repr

end Sys2Proof
end

