-- ==== Sys2Proof/Decode.lean ====
section
/-!
DEFINITION. Reading and writing instruction words (R27–R34, R39, R43, R151, R341, R371): the decoder tells a word's row by
LEN, OP and FN alone and keeps every other field as it stands, because the checks of R44 on those fields are the core's
(they raise faults); the encoder is written from the same layouts.
-/

namespace Sys2Proof

/-- Why no row of the opcode table fits a word: too few words (R28), a reserved major, a format the major does not list, or
an FN value that no row defines (R44, orders 2, 3, 4, 6); and, of the format S instructions without fields, a reserved bit, an unused
operand field or a guard that is not zero (orders 7, 8, 9). -/
inductive Reject where
  | truncated
  | opcode
  | format
  | fn
  | resbit
  | operand
  | guard
  deriving DecidableEq, Repr

namespace Decode

/-- LEN, bits 0–1 of W0 (R27). -/
def lenField (w0 : W32) : Nat := w0.toNat % 4

/-- OP, bits 2–8 of W0 (R29, R32). -/
def opField (w0 : W32) : Nat := w0.toNat / 4 % 128

/-- Words of an instruction by LEN (R27). -/
def lenWords (len : Nat) : Nat := if len = 0 then 1 else if len = 3 then 5 else 3

/-- Bits lo to lo + n − 1 of a word. -/
def field (w : W32) (lo n : Nat) : BitVec n := BitVec.ofNat n (w.toNat / 2 ^ lo)

/-- The S layout (R29). -/
def sFields (w : W32) : SWord :=
  ⟨field w 9 3, field w 12 1, field w 13 1, field w 14 6, field w 20 6, field w 26 6⟩

/-- The X layout (R32). -/
def xFields (w0 w1 w2 : W32) : XWord :=
  ⟨field w0 9 3, field w0 12 1, field w0 13 1, field w0 14 9, field w0 23 9, field w1 0 9, field w1 9 9, field w1 18 8,
    field w1 26 6, w2⟩

/-- The bra layout (R151): W1 whole is the join displacement. -/
def braFields (w0 w1 w2 : W32) : BraWord :=
  ⟨field w0 9 3, field w0 12 1, field w0 13 1, field w0 14 9, field w0 23 9, w1, w2⟩

/-- Bits lo to lo + n − 1 of the 96-bit instruction (R27, R39). -/
def field96 (w0 w1 w2 : W32) (lo n : Nat) : BitVec n :=
  BitVec.ofNat n ((w0.toNat + w1.toNat * 2 ^ 32 + w2.toNat * 2 ^ 64) / 2 ^ lo)

/-- The PAIR layout (R39). -/
def pairFields (w0 w1 w2 : W32) : PairWord :=
  let f (lo n : Nat) : BitVec n := field96 w0 w1 w2 lo n
  ⟨f 9 3, f 12 1, f 13 1, f 14 7, f 21 1, f 22 9, f 31 9, f 40 9, f 49 1, f 50 7, f 57 1, f 58 9, f 67 9, f 76 9,
    f 85 11⟩

/-- The trap layout (R371). -/
def trapFields (w : W32) : TrapWord := ⟨field w 9 3, field w 12 1, field w 13 1, field w 14 12, field w 26 6⟩

/-- The fence layout (R341). -/
def fenceFields (w : W32) : FenceWord :=
  ⟨field w 9 3, field w 12 1, field w 13 1, field w 14 2, field w 16 3, field w 19 2, field w 21 11⟩

/-- A 64-bit literal, low word first (R27). -/
def literal (lo hi : W32) : W64 := BitVec.ofNat 64 (lo.toNat + hi.toNat * 2 ^ 32)

/-- The reserved majors (R43). -/
def reservedMajor (op : Nat) : Bool :=
  (0x27 ≤ op && op ≤ 0x2F) || (0x4D ≤ op && op ≤ 0x4F) || op == 0x66 || op == 0x67 || op == 0x7E

/-- The refusal of a major in a format it does not list (R44, orders 3 and 4). -/
def noFormat (op : Nat) : Except Reject Instr := .error (if reservedMajor op then .opcode else .format)

/-- A format S instruction that has no field but LEN and OP: NWB is a reserved bit, an operand field that is not 0 an illegal operand
(R30, R33), and any guard but p0 illegal (R38). -/
def bare (i : Instr) (w : SWord) : Except Reject Instr :=
  if w.nwb ≠ 0 then .error .resbit
  else if w.d6 ≠ 0 ∨ w.a6 ≠ 0 ∨ w.b6 ≠ 0 then .error .operand
  else if w.pred ≠ 0 ∨ w.pn ≠ 0 then .error .guard
  else .ok i

/-- Format S (R29): the trap and fence layouts are their own; of nop and join every other bit is a reserved one (R147, R152). -/
def decodeS (op : Nat) (v : W32) : Except Reject Instr :=
  let w := sFields v
  if op = 0x0A then .ok (.trap (trapFields v))
  else if op = 0x0D then .ok (if (fenceFields v).kind.toNat % 2 = 0 then .fence (fenceFields v) else .fenceAlias (fenceFields v))
  else if op = 0x00 then (if v = 0x00000000#32 then .ok .nop else .error .resbit)
  else if op = 0x04 then bare .ret w
  else if op = 0x05 then (if v = 0x00000014#32 then .ok .join else .error .resbit)
  else if op = 0x06 then bare .regang w
  else if op = 0x09 then bare .exit w
  else if op = 0x10 then .ok (.saddSForm w)
  else if op = 0x11 then .ok (.ssubSForm w)
  else if op = 0x12 then .ok (.smulSForm w)
  else if op = 0x13 then .ok (.smulhSForm w)
  else if op = 0x15 then .ok (.sandSForm w)
  else if op = 0x16 then .ok (.sorSForm w)
  else if op = 0x17 then .ok (.sxorSForm w)
  else if op = 0x18 then .ok (.sshlSForm w)
  else if op = 0x19 then .ok (.sshrSForm w)
  else if op = 0x1A then .ok (.ssraSForm w)
  else if op = 0x1F then .ok (.smov w)
  else if op = 0x30 then .ok (.vaddSForm w)
  else if op = 0x31 then .ok (.vsubSForm w)
  else if op = 0x32 then .ok (.vmulSForm w)
  else if op = 0x33 then .ok (.vmulhSForm w)
  else if op = 0x36 then .ok (.vandSForm w)
  else if op = 0x37 then .ok (.vorSForm w)
  else if op = 0x38 then .ok (.vxorSForm w)
  else if op = 0x39 then .ok (.vshlSForm w)
  else if op = 0x3A then .ok (.vshrSForm w)
  else if op = 0x3B then .ok (.vsraSForm w)
  else if op = 0x40 then .ok (.vmovSForm w)
  else if op = 0x50 then .ok (.faddSForm w)
  else if op = 0x51 then .ok (.fsubSForm w)
  else if op = 0x52 then .ok (.fmulSForm w)
  else if op = 0x53 then .ok (.ffmaSForm w)
  else if op = 0x58 then .ok (.frcpSForm w)
  else if op = 0x59 then .ok (.frsqSForm w)
  else if op = 0x5A then .ok (.fsqrtSForm w)
  else if op = 0x5B then .ok (.fexp2SForm w)
  else if op = 0x5C then .ok (.flog2SForm w)
  else if op = 0x5D then .ok (.fsinSForm w)
  else if op = 0x5E then .ok (.fcosSForm w)
  else if op = 0x5F then .ok (.ftanhSForm w)
  else noFormat op

/-- Format SL (R31). -/
def decodeSl (op : Nat) (w : SWord) (lit : W64) : Except Reject Instr :=
  if op = 0x10 then .ok (.saddSlForm w lit)
  else if op = 0x11 then .ok (.ssubSlForm w lit)
  else if op = 0x12 then .ok (.smulSlForm w lit)
  else if op = 0x13 then .ok (.smulhSlForm w lit)
  else if op = 0x15 then .ok (.sandSlForm w lit)
  else if op = 0x16 then .ok (.sorSlForm w lit)
  else if op = 0x17 then .ok (.sxorSlForm w lit)
  else if op = 0x18 then .ok (.sshlSlForm w lit)
  else if op = 0x19 then .ok (.sshrSlForm w lit)
  else if op = 0x1A then .ok (.ssraSlForm w lit)
  else if op = 0x1E then .ok (.sli w lit)
  else if op = 0x40 then .ok (.vmovSlForm w lit)
  else noFormat op

/-- Format X, majors 0x02–0x0F (R43). -/
def decodeXControl (op : Nat) (w : XWord) : Except Reject Instr :=
  let fn := w.fn.toNat
  if op = 0x02 then .ok (.brx w)
  else if op = 0x03 then 
    if fn = 0 then .ok (.call w)
    else if fn = 1 then .ok (.callIndirect w)
    else .error .fn
  else if op = 0x07 then 
    if fn = 0 then .ok (.planeSet w)
    else if fn = 1 then .ok (.planeMov w)
    else if fn = 2 then .ok (.planeGet w)
    else if fn = 3 then .ok (.planeBal w)
    else .error .fn
  else if op = 0x08 then .ok (.yield w)
  else if op = 0x0B then 
    if fn = 0 then .ok (.barInit w)
    else if fn = 1 then .ok (.barArrive w)
    else if fn = 2 then .ok (.barWait w)
    else if fn = 3 then .ok (.barMeet w)
    else if fn = 4 then .ok (.barArriveRemote w)
    else if fn = 5 then .ok (.barRed w)
    else if fn = 6 then .ok (.barQuery w)
    else .error .fn
  else if op = 0x0C then 
    if fn = 0 then .ok (.waitTok w)
    else if fn = 1 then .ok (.waitTl w)
    else .error .fn
  else if op = 0x0E then .ok (.bru w)
  else if op = 0x0F then 
    if fn = 0 then .ok (.grpJoin w)
    else if fn = 1 then .ok (.grpLeave w)
    else if fn = 2 then .ok (.grpQuery w)
    else if fn = 3 then .ok (.grpPublish w)
    else .error .fn
  else noFormat op

/-- Format X, majors 0x10–0x26 (R43). -/
def decodeXScalar (op : Nat) (w : XWord) : Except Reject Instr :=
  let fn := w.fn.toNat
  if op = 0x10 then .ok (.saddXForm w)
  else if op = 0x11 then .ok (.ssubXForm w)
  else if op = 0x12 then .ok (.smulXForm w)
  else if op = 0x13 then 
    if fn = 0 then .ok (.smulhXForm w)
    else if fn = 1 then .ok (.smulhZ w)
    else .error .fn
  else if op = 0x14 then 
    if fn = 0 then .ok (.sdivS w)
    else if fn = 1 then .ok (.sdivZ w)
    else if fn = 2 then .ok (.sremS w)
    else if fn = 3 then .ok (.sremZ w)
    else .error .fn
  else if op = 0x15 then .ok (.sandXForm w)
  else if op = 0x16 then .ok (.sorXForm w)
  else if op = 0x17 then .ok (.sxorXForm w)
  else if op = 0x18 then .ok (.sshlXForm w)
  else if op = 0x19 then .ok (.sshrXForm w)
  else if op = 0x1A then .ok (.ssraXForm w)
  else if op = 0x1B then 
    if fn = 0 then .ok (.sminS w)
    else if fn = 1 then .ok (.sminZ w)
    else if fn = 2 then .ok (.smaxS w)
    else if fn = 3 then .ok (.smaxZ w)
    else .error .fn
  else if op = 0x1C then .ok (.scmp w)
  else if op = 0x1D then .ok (.ssel w)
  else if op = 0x20 then .ok (.saddr w)
  else if op = 0x21 then 
    if fn = 0 then .ok (.sbitPopc w)
    else if fn = 1 then .ok (.sbitClz w)
    else if fn = 2 then .ok (.sbitCtz w)
    else if fn = 3 then .ok (.sbitBfx w)
    else if fn = 4 then .ok (.sbitBfi w)
    else if fn = 5 then .ok (.sbitBrev w)
    else if fn = 6 then .ok (.sbitBfxS w)
    else .error .fn
  else if op = 0x22 then .ok (.srd w)
  else if op = 0x23 then 
    if fn = 0 then .ok (.vget w)
    else if fn = 1 then .ok (.vgetS w)
    else .error .fn
  else if op = 0x24 then .ok (.sld w)
  else if op = 0x25 then .ok (.sst w)
  else if op = 0x26 then .ok (.satom w)
  else noFormat op

/-- Format X, majors 0x30–0x4C (R43). -/
def decodeXInt (op : Nat) (w : XWord) : Except Reject Instr :=
  let fn := w.fn.toNat
  if op = 0x30 then .ok (.vaddXForm w)
  else if op = 0x31 then .ok (.vsubXForm w)
  else if op = 0x32 then .ok (.vmulXForm w)
  else if op = 0x33 then .ok (.vmulhXForm w)
  else if op = 0x34 then .ok (.vmad w)
  else if op = 0x35 then .ok (.vdot4 w)
  else if op = 0x36 then .ok (.vandXForm w)
  else if op = 0x37 then .ok (.vorXForm w)
  else if op = 0x38 then .ok (.vxorXForm w)
  else if op = 0x39 then .ok (.vshlXForm w)
  else if op = 0x3A then .ok (.vshrXForm w)
  else if op = 0x3B then .ok (.vsraXForm w)
  else if op = 0x3C then 
    if w.fn.toNat / 8 % 2 = 0 then .ok (.vmin w) else .ok (.vmax w)
  else if op = 0x3D then 
    if w.fn.toNat / 8 % 2 = 0 then .ok (.vabs w) else .ok (.vneg w)
  else if op = 0x3E then .ok (.vsel w)
  else if op = 0x3F then .ok (.vcmp w)
  else if op = 0x40 then .ok (.vmovXForm w)
  else if op = 0x41 then .ok (.vfsh w)
  else if op = 0x42 then 
    if fn = 0 then .ok (.vbitPopc w)
    else if fn = 1 then .ok (.vbitClz w)
    else if fn = 2 then .ok (.vbitCtz w)
    else if fn = 3 then .ok (.vbitBrev w)
    else if fn = 4 ∨ fn = 5 then .ok (.vbitBfx w)
    else if fn = 6 then .ok (.vbitBfi w)
    else .error .fn
  else if op = 0x43 then .ok (.vrsh w)
  else if op = 0x44 then .ok (.vpack w)
  else if op = 0x45 then .ok (.vunpk w)
  else if op = 0x46 then .ok (.vshfl w)
  else if op = 0x47 then .ok (.vred w)
  else if op = 0x48 then .ok (.vscn w)
  else if op = 0x49 then .ok (.vbal w)
  else if op = 0x4A then .ok (.plog w)
  else if op = 0x4B then .ok (.vprm w)
  else if op = 0x4C then 
    if fn = 0 then .ok (.vlut w)
    else if fn = 1 then .ok (.vlutHi w)
    else if fn = 2 then .ok (.vlutP2 w)
    else .error .fn
  else noFormat op

/-- Format X, majors 0x50–0x65 (R43). -/
def decodeXFloat (op : Nat) (w : XWord) : Except Reject Instr :=
  let fn := w.fn.toNat
  if op = 0x50 then .ok (.faddXForm w)
  else if op = 0x51 then .ok (.fsubXForm w)
  else if op = 0x52 then .ok (.fmulXForm w)
  else if op = 0x53 then .ok (.ffmaXForm w)
  else if op = 0x54 then 
    if fn / 4 = 0 then .ok (.fmin w)
    else if fn / 4 = 1 then .ok (.fmax w)
    else if fn / 4 = 2 then .ok (.fminn w)
    else if fn / 4 = 3 then .ok (.fmaxn w)
    else .error .fn
  else if op = 0x55 then 
    if fn / 4 = 0 then .ok (.fneg w)
    else if fn / 4 = 1 then .ok (.fabs w)
    else if fn / 4 = 2 then .ok (.fcpys w)
    else .error .fn
  else if op = 0x56 then .ok (.fcmp w)
  else if op = 0x57 then .ok (.fcvt w)
  else if op = 0x58 then .ok (.frcpXForm w)
  else if op = 0x59 then .ok (.frsqXForm w)
  else if op = 0x5A then .ok (.fsqrtXForm w)
  else if op = 0x5B then .ok (.fexp2XForm w)
  else if op = 0x5C then .ok (.flog2XForm w)
  else if op = 0x5D then .ok (.fsinXForm w)
  else if op = 0x5E then .ok (.fcosXForm w)
  else if op = 0x5F then .ok (.ftanhXForm w)
  else if op = 0x60 then .ok (.fcls w)
  else if op = 0x61 then .ok (.fscl w)
  else if op = 0x62 then .ok (.fdot2 w)
  else if op = 0x63 then .ok (.frnd w)
  else if op = 0x64 then .ok (.bfpq w)
  else if op = 0x65 then .ok (.bfpd w)
  else noFormat op

/-- Format X, majors 0x68–0x73 (R43). -/
def decodeXMem (op : Nat) (w : XWord) : Except Reject Instr :=
  let fn := w.fn.toNat
  if op = 0x68 then .ok (.ld w)
  else if op = 0x69 then .ok (.st w)
  else if op = 0x6A then .ok (.lds w)
  else if op = 0x6B then .ok (.sts w)
  else if op = 0x6C then .ok (.atom w)
  else if op = 0x6D then 
    if fn = 0 then .ok (.tlocEnt w)
    else if fn = 1 then .ok (.tloc w)
    else .error .fn
  else if op = 0x6E then .ok (.texp w)
  else if op = 0x6F then .ok (.tenc w)
  else if op = 0x70 then 
    if fn = 0 then .ok (.ctld w)
    else if fn = 1 then .ok (.ctldSpm w)
    else .error .fn
  else if op = 0x71 then 
    if fn = 0 then .ok (.tbind w)
    else if fn = 1 then .ok (.tbindClr w)
    else .error .fn
  else if op = 0x72 then 
    if fn = 0 then .ok (.presClr w)
    else if fn = 1 then .ok (.presSet w)
    else if fn = 2 then .ok (.presTest w)
    else .error .fn
  else if op = 0x73 then .ok (.ctst w)
  else noFormat op

/-- Format X, majors 0x76–0x7D (R43). -/
def decodeXSys (op : Nat) (w : XWord) : Except Reject Instr :=
  let fn := w.fn.toNat
  if op = 0x76 then 
    if fn = 0 then .ok (.accWin w)
    else if fn = 1 then .ok (.accLd w)
    else if fn = 2 then .ok (.accSt w)
    else if fn = 3 then .ok (.accZero w)
    else if fn = 4 then .ok (.accOut w)
    else .error .fn
  else if op = 0x77 then 
    if fn = 0 then .ok (.scanOpdef w)
    else if fn = 1 then .ok (.scanBegin w)
    else if fn = 2 then .ok (.scanTile w)
    else if fn = 3 then .ok (.scanPub w)
    else if fn = 4 then .ok (.scanCarry w)
    else if fn = 5 then .ok (.scanFix w)
    else if fn = 6 then .ok (.scanEnd w)
    else .error .fn
  else if op = 0x78 then 
    if fn = 0 then .ok (.spawn w)
    else if fn = 1 then .ok (.launchInstruction w)
    else if fn = 2 then .ok (.jcInit w)
    else if fn = 3 then .ok (.jcAdd w)
    else .error .fn
  else if op = 0x79 then 
    if fn = 0 then .ok (.collRed w)
    else if fn = 1 then .ok (.collAr w)
    else if fn = 2 then .ok (.collBc w)
    else .error .fn
  else if op = 0x7A then 
    if fn = 0 then .ok (.dbgHread w)
    else if fn = 1 then .ok (.dbgHwrite w)
    else if fn = 2 then .ok (.dbgHstep w)
    else if fn = 3 then .ok (.dbgHresume w)
    else if fn = 4 then .ok (.dbgHstat w)
    else if fn = 5 then .ok (.dbgHalt w)
    else .error .fn
  else if op = 0x7B then 
    if fn = 0 then .ok (.watchSet w)
    else if fn = 1 then .ok (.watchClr w)
    else if fn = 2 then .ok (.watchGet w)
    else if fn = 3 then .ok (.watchArm w)
    else .error .fn
  else if op = 0x7C then 
    if fn = 0 then .ok (.perfRd w)
    else if fn = 1 then .ok (.perfSel w)
    else if fn = 2 then .ok (.perfSamp w)
    else .error .fn
  else if op = 0x7D then 
    if fn = 0 then .ok (.csrRd w)
    else if fn = 1 ∧ w.imm = 1#32 then .ok (.csrWrFaultact w)
    else if fn = 1 ∧ w.imm = 2#32 then .ok (.csrWrCecnt w)
    else if fn = 1 ∧ w.imm = 3#32 then .ok (.csrWrUecnt w)
    else if fn = 1 ∧ w.imm = 7#32 then .ok (.csrWrStopreq w)
    else if fn = 1 then .ok (.csrWr w)
    else .error .fn
  else noFormat op

/-- cpy (R268): format X without CH, XL with it; CH only with FN 3 (R277). -/
def decodeCpy (w : XWord) : Except Reject Instr :=
  let fn := w.fn.toNat
  if w.m6.toNat % 2 = 1 then .error .format
  else if fn = 0 then .ok (.cpyLinG2s w)
  else if fn = 1 then .ok (.cpyLinS2g w)
  else if fn = 2 then .ok (.cpyLinG2g w)
  else if fn = 3 then .ok (.cpyTileG2s w)
  else if fn = 4 then .ok (.cpyRowsG2s w)
  else if fn = 5 then .ok (.cpyMcastG2s w)
  else if fn = 6 then .ok (.cpyMcastS2s w)
  else if fn = 7 then .ok (.cpyFill w)
  else .error .fn

/-- The mma family in format X (R280): mma.crew needs XL. -/
def decodeMma (w : XWord) : Except Reject Instr :=
  let fn := w.fn.toNat
  if fn = 1 then .error .format
  else if fn = 0 then .ok (.mma w)
  else if fn = 2 then .ok (.mmaSp w)
  else if fn = 3 then .ok (.bload w)
  else .error .fn

/-- Format X (R32). -/
def decodeX (op : Nat) (w0 w1 w2 : W32) : Except Reject Instr :=
  let w := xFields w0 w1 w2
  if op = 0x01 then .ok (.bra (braFields w0 w1 w2))
  else if op < 0x10 then decodeXControl op w
  else if op < 0x30 then decodeXScalar op w
  else if op < 0x50 then decodeXInt op w
  else if op < 0x68 then decodeXFloat op w
  else if op < 0x74 then decodeXMem op w
  else if op = 0x74 then decodeCpy w
  else if op = 0x75 then decodeMma w
  else if op = 0x7F then .ok (.pair (pairFields w0 w1 w2))
  else decodeXSys op w

/-- Format XL (R34): cpy with CH and mma.crew only. A reserved FN of major 0x75 is refused as FORMAT in this format, which mma.crew alone
takes. DESIGN CHOICE (log 25): R280 leaves it open whether FORMAT or FN comes first. -/
def decodeXl (op : Nat) (w : XWord) (lit : W64) : Except Reject Instr :=
  if op = 0x74 ∧ w.m6.toNat % 2 = 1 ∧ w.fn = 3#8 then .ok (.cpyTileG2sCh w lit)
  else if op = 0x75 ∧ w.fn = 1#8 then .ok (.mmaCrew w lit)
  else noFormat op

end Decode

/-- The instruction at the head of a list of words, with the words after it. -/
def decodeWords : List W32 → Except Reject (Instr × List W32)
  | [] => .error .truncated
  | w0 :: ws =>
    let len := Decode.lenField w0
    let op := Decode.opField w0
    if len = 0 then (Decode.decodeS op w0).map (fun i => (i, ws))
    else if len = 1 then
      match ws with
      | w1 :: w2 :: rest => (Decode.decodeX op w0 w1 w2).map (fun i => (i, rest))
      | _ => .error .truncated
    else if len = 2 then
      match ws with
      | lo :: hi :: rest => (Decode.decodeSl op (Decode.sFields w0) (Decode.literal lo hi)).map (fun i => (i, rest))
      | _ => .error .truncated
    else
      match ws with
      | w1 :: w2 :: lo :: hi :: rest =>
        (Decode.decodeXl op (Decode.xFields w0 w1 w2) (Decode.literal lo hi)).map (fun i => (i, rest))
      | _ => .error .truncated

/-- The 32-bit little-endian words of a list of bytes (R6, R27); a partial last word is dropped. -/
def wordsOfBytes : List Byte → List W32
  | b0 :: b1 :: b2 :: b3 :: rest =>
    BitVec.ofNat 32 (b0.toNat + b1.toNat * 2 ^ 8 + b2.toNat * 2 ^ 16 + b3.toNat * 2 ^ 24) :: wordsOfBytes rest
  | _ => []

/-- The bytes of a list of words, each little-endian (R6, R27). -/
def bytesOfWords : List W32 → List Byte
  | [] => []
  | w :: ws =>
    BitVec.ofNat 8 w.toNat :: BitVec.ofNat 8 (w.toNat / 2 ^ 8) :: BitVec.ofNat 8 (w.toNat / 2 ^ 16)
      :: BitVec.ofNat 8 (w.toNat / 2 ^ 24) :: bytesOfWords ws

/-- The instruction at the head of a list of bytes, with its length in bytes (R27): total on any bytes. -/
def decodeBytes (bs : List Byte) : Except Reject (Instr × Nat) :=
  (decodeWords (wordsOfBytes bs)).map (fun r => (r.1, 4 * ((wordsOfBytes bs).length - r.2.length)))

/-- The words of a number whose bit 0 is the least significant bit of the first word, padded with zero words to the longest
instruction (R27). -/
def tableWords (w : Nat) : List W32 := (List.range 5).map (fun i => BitVec.ofNat 32 (w / 2 ^ (32 * i)))

/-- The instruction the decoder reads from bits numbered as the opcode table numbers them; bits at and above nbits are 0. -/
def decodeTableWord (nbits w : Nat) : Option Instr :=
  match decodeWords (tableWords (w % 2 ^ nbits)) with
  | .ok r => some r.1
  | .error _ => none

namespace Encode

/-- W0 of an S layout (R29). -/
def sWord (len op : Nat) (w : SWord) : W32 :=
  BitVec.ofNat 32 (len + 2 ^ 2 * op + 2 ^ 9 * w.pred.toNat + 2 ^ 12 * w.pn.toNat + 2 ^ 13 * w.nwb.toNat
    + 2 ^ 14 * w.d6.toNat + 2 ^ 20 * w.a6.toNat + 2 ^ 26 * w.b6.toNat)

/-- The three words of an X layout (R32). -/
def xWords (len op : Nat) (w : XWord) : List W32 :=
  [BitVec.ofNat 32 (len + 2 ^ 2 * op + 2 ^ 9 * w.pred.toNat + 2 ^ 12 * w.pn.toNat + 2 ^ 13 * w.nwb.toNat
      + 2 ^ 14 * w.d9.toNat + 2 ^ 23 * w.a9.toNat),
    BitVec.ofNat 32 (w.b9.toNat + 2 ^ 9 * w.c9.toNat + 2 ^ 18 * w.fn.toNat + 2 ^ 26 * w.m6.toNat), w.imm]

/-- A 64-bit literal as two words, low first (R27). -/
def litWords (lit : W64) : List W32 := [BitVec.ofNat 32 lit.toNat, BitVec.ofNat 32 (lit.toNat / 2 ^ 32)]

/-- The three words of bra (R151). -/
def braWords (w : BraWord) : List W32 :=
  [BitVec.ofNat 32 (1 + 2 ^ 2 * 1 + 2 ^ 9 * w.pred.toNat + 2 ^ 12 * w.pn.toNat + 2 ^ 13 * w.nwb.toNat
      + 2 ^ 14 * w.d9.toNat + 2 ^ 23 * w.a9.toNat), w.w1, w.w2]

/-- The three words of a PAIR (R39). -/
def pairWords (w : PairWord) : List W32 :=
  let n := 1 + 2 ^ 2 * 0x7F + 2 ^ 9 * w.pred.toNat + 2 ^ 12 * w.pn.toNat + 2 ^ 13 * w.r13.toNat + 2 ^ 14 * w.hop1.toNat
    + 2 ^ 21 * w.nwb1.toNat + 2 ^ 22 * w.d1.toNat + 2 ^ 31 * w.a1.toNat + 2 ^ 40 * w.b1.toNat + 2 ^ 49 * w.r49.toNat
    + 2 ^ 50 * w.hop2.toNat + 2 ^ 57 * w.nwb2.toNat + 2 ^ 58 * w.d2.toNat + 2 ^ 67 * w.a2.toNat + 2 ^ 76 * w.b2.toNat
    + 2 ^ 85 * w.r85.toNat
  [BitVec.ofNat 32 n, BitVec.ofNat 32 (n / 2 ^ 32), BitVec.ofNat 32 (n / 2 ^ 64)]

/-- The word of a trap (R371). -/
def trapWord (w : TrapWord) : W32 :=
  BitVec.ofNat 32 (2 ^ 2 * 0x0A + 2 ^ 9 * w.pred.toNat + 2 ^ 12 * w.pn.toNat + 2 ^ 13 * w.nwb.toNat
    + 2 ^ 14 * w.code.toNat + 2 ^ 26 * w.rsv.toNat)

/-- The word of a fence (R341). -/
def fenceWord (w : FenceWord) : W32 :=
  BitVec.ofNat 32 (2 ^ 2 * 0x0D + 2 ^ 9 * w.pred.toNat + 2 ^ 12 * w.pn.toNat + 2 ^ 13 * w.nwb.toNat
    + 2 ^ 14 * w.ord.toNat + 2 ^ 16 * w.scope.toNat + 2 ^ 19 * w.kind.toNat + 2 ^ 21 * w.rsv.toNat)

end Encode

/-- The words of an instruction; a row that is an event or a message has none. -/
def encode (i : Instr) : List W32 :=
  match i with
  | .bra w => Encode.braWords w
  | .brx w => Encode.xWords 1 0x02 w
  | .bru w => Encode.xWords 1 0x0E w
  | .call w => Encode.xWords 1 0x03 w
  | .callIndirect w => Encode.xWords 1 0x03 w
  | .planeSet w => Encode.xWords 1 0x07 w
  | .planeMov w => Encode.xWords 1 0x07 w
  | .planeGet w => Encode.xWords 1 0x07 w
  | .planeBal w => Encode.xWords 1 0x07 w
  | .yield w => Encode.xWords 1 0x08 w
  | .trap w => [Encode.trapWord w]
  | .barInit w => Encode.xWords 1 0x0B w
  | .barArrive w => Encode.xWords 1 0x0B w
  | .barWait w => Encode.xWords 1 0x0B w
  | .barMeet w => Encode.xWords 1 0x0B w
  | .barArriveRemote w => Encode.xWords 1 0x0B w
  | .barRed w => Encode.xWords 1 0x0B w
  | .barQuery w => Encode.xWords 1 0x0B w
  | .waitTok w => Encode.xWords 1 0x0C w
  | .waitTl w => Encode.xWords 1 0x0C w
  | .fence w => [Encode.fenceWord w]
  | .fenceAlias w => [Encode.fenceWord w]
  | .grpJoin w => Encode.xWords 1 0x0F w
  | .grpLeave w => Encode.xWords 1 0x0F w
  | .grpQuery w => Encode.xWords 1 0x0F w
  | .grpPublish w => Encode.xWords 1 0x0F w
  | .saddSForm w => [Encode.sWord 0 0x10 w]
  | .saddSlForm w lit => Encode.sWord 2 0x10 w :: Encode.litWords lit
  | .saddXForm w => Encode.xWords 1 0x10 w
  | .ssubSForm w => [Encode.sWord 0 0x11 w]
  | .ssubSlForm w lit => Encode.sWord 2 0x11 w :: Encode.litWords lit
  | .ssubXForm w => Encode.xWords 1 0x11 w
  | .smulSForm w => [Encode.sWord 0 0x12 w]
  | .smulSlForm w lit => Encode.sWord 2 0x12 w :: Encode.litWords lit
  | .smulXForm w => Encode.xWords 1 0x12 w
  | .smulhSForm w => [Encode.sWord 0 0x13 w]
  | .smulhSlForm w lit => Encode.sWord 2 0x13 w :: Encode.litWords lit
  | .smulhXForm w => Encode.xWords 1 0x13 w
  | .smulhZ w => Encode.xWords 1 0x13 w
  | .sdivS w => Encode.xWords 1 0x14 w
  | .sdivZ w => Encode.xWords 1 0x14 w
  | .sremS w => Encode.xWords 1 0x14 w
  | .sremZ w => Encode.xWords 1 0x14 w
  | .sandSForm w => [Encode.sWord 0 0x15 w]
  | .sandSlForm w lit => Encode.sWord 2 0x15 w :: Encode.litWords lit
  | .sandXForm w => Encode.xWords 1 0x15 w
  | .sorSForm w => [Encode.sWord 0 0x16 w]
  | .sorSlForm w lit => Encode.sWord 2 0x16 w :: Encode.litWords lit
  | .sorXForm w => Encode.xWords 1 0x16 w
  | .sxorSForm w => [Encode.sWord 0 0x17 w]
  | .sxorSlForm w lit => Encode.sWord 2 0x17 w :: Encode.litWords lit
  | .sxorXForm w => Encode.xWords 1 0x17 w
  | .sshlSForm w => [Encode.sWord 0 0x18 w]
  | .sshlSlForm w lit => Encode.sWord 2 0x18 w :: Encode.litWords lit
  | .sshlXForm w => Encode.xWords 1 0x18 w
  | .sshrSForm w => [Encode.sWord 0 0x19 w]
  | .sshrSlForm w lit => Encode.sWord 2 0x19 w :: Encode.litWords lit
  | .sshrXForm w => Encode.xWords 1 0x19 w
  | .ssraSForm w => [Encode.sWord 0 0x1A w]
  | .ssraSlForm w lit => Encode.sWord 2 0x1A w :: Encode.litWords lit
  | .ssraXForm w => Encode.xWords 1 0x1A w
  | .sminS w => Encode.xWords 1 0x1B w
  | .sminZ w => Encode.xWords 1 0x1B w
  | .smaxS w => Encode.xWords 1 0x1B w
  | .smaxZ w => Encode.xWords 1 0x1B w
  | .scmp w => Encode.xWords 1 0x1C w
  | .ssel w => Encode.xWords 1 0x1D w
  | .sli w lit => Encode.sWord 2 0x1E w :: Encode.litWords lit
  | .smov w => [Encode.sWord 0 0x1F w]
  | .saddr w => Encode.xWords 1 0x20 w
  | .sbitPopc w => Encode.xWords 1 0x21 w
  | .sbitClz w => Encode.xWords 1 0x21 w
  | .sbitCtz w => Encode.xWords 1 0x21 w
  | .sbitBfx w => Encode.xWords 1 0x21 w
  | .sbitBfi w => Encode.xWords 1 0x21 w
  | .sbitBrev w => Encode.xWords 1 0x21 w
  | .sbitBfxS w => Encode.xWords 1 0x21 w
  | .srd w => Encode.xWords 1 0x22 w
  | .vget w => Encode.xWords 1 0x23 w
  | .vgetS w => Encode.xWords 1 0x23 w
  | .sld w => Encode.xWords 1 0x24 w
  | .sst w => Encode.xWords 1 0x25 w
  | .satom w => Encode.xWords 1 0x26 w
  | .vaddSForm w => [Encode.sWord 0 0x30 w]
  | .vaddXForm w => Encode.xWords 1 0x30 w
  | .vsubSForm w => [Encode.sWord 0 0x31 w]
  | .vsubXForm w => Encode.xWords 1 0x31 w
  | .vmulSForm w => [Encode.sWord 0 0x32 w]
  | .vmulXForm w => Encode.xWords 1 0x32 w
  | .vmulhSForm w => [Encode.sWord 0 0x33 w]
  | .vmulhXForm w => Encode.xWords 1 0x33 w
  | .vmad w => Encode.xWords 1 0x34 w
  | .vdot4 w => Encode.xWords 1 0x35 w
  | .vandSForm w => [Encode.sWord 0 0x36 w]
  | .vandXForm w => Encode.xWords 1 0x36 w
  | .vorSForm w => [Encode.sWord 0 0x37 w]
  | .vorXForm w => Encode.xWords 1 0x37 w
  | .vxorSForm w => [Encode.sWord 0 0x38 w]
  | .vxorXForm w => Encode.xWords 1 0x38 w
  | .vshlSForm w => [Encode.sWord 0 0x39 w]
  | .vshlXForm w => Encode.xWords 1 0x39 w
  | .vshrSForm w => [Encode.sWord 0 0x3A w]
  | .vshrXForm w => Encode.xWords 1 0x3A w
  | .vsraSForm w => [Encode.sWord 0 0x3B w]
  | .vsraXForm w => Encode.xWords 1 0x3B w
  | .vmin w => Encode.xWords 1 0x3C w
  | .vmax w => Encode.xWords 1 0x3C w
  | .vabs w => Encode.xWords 1 0x3D w
  | .vneg w => Encode.xWords 1 0x3D w
  | .vsel w => Encode.xWords 1 0x3E w
  | .vcmp w => Encode.xWords 1 0x3F w
  | .vmovSForm w => [Encode.sWord 0 0x40 w]
  | .vmovSlForm w lit => Encode.sWord 2 0x40 w :: Encode.litWords lit
  | .vmovXForm w => Encode.xWords 1 0x40 w
  | .vfsh w => Encode.xWords 1 0x41 w
  | .vbitPopc w => Encode.xWords 1 0x42 w
  | .vbitClz w => Encode.xWords 1 0x42 w
  | .vbitCtz w => Encode.xWords 1 0x42 w
  | .vbitBrev w => Encode.xWords 1 0x42 w
  | .vbitBfx w => Encode.xWords 1 0x42 w
  | .vbitBfi w => Encode.xWords 1 0x42 w
  | .vrsh w => Encode.xWords 1 0x43 w
  | .vpack w => Encode.xWords 1 0x44 w
  | .vunpk w => Encode.xWords 1 0x45 w
  | .vshfl w => Encode.xWords 1 0x46 w
  | .vred w => Encode.xWords 1 0x47 w
  | .vscn w => Encode.xWords 1 0x48 w
  | .vbal w => Encode.xWords 1 0x49 w
  | .plog w => Encode.xWords 1 0x4A w
  | .vprm w => Encode.xWords 1 0x4B w
  | .vlut w => Encode.xWords 1 0x4C w
  | .vlutHi w => Encode.xWords 1 0x4C w
  | .vlutP2 w => Encode.xWords 1 0x4C w
  | .pair w => Encode.pairWords w
  | .faddSForm w => [Encode.sWord 0 0x50 w]
  | .faddXForm w => Encode.xWords 1 0x50 w
  | .fsubSForm w => [Encode.sWord 0 0x51 w]
  | .fsubXForm w => Encode.xWords 1 0x51 w
  | .fmulSForm w => [Encode.sWord 0 0x52 w]
  | .fmulXForm w => Encode.xWords 1 0x52 w
  | .ffmaSForm w => [Encode.sWord 0 0x53 w]
  | .ffmaXForm w => Encode.xWords 1 0x53 w
  | .fmin w => Encode.xWords 1 0x54 w
  | .fmax w => Encode.xWords 1 0x54 w
  | .fminn w => Encode.xWords 1 0x54 w
  | .fmaxn w => Encode.xWords 1 0x54 w
  | .fneg w => Encode.xWords 1 0x55 w
  | .fabs w => Encode.xWords 1 0x55 w
  | .fcpys w => Encode.xWords 1 0x55 w
  | .fcmp w => Encode.xWords 1 0x56 w
  | .fcvt w => Encode.xWords 1 0x57 w
  | .frcpSForm w => [Encode.sWord 0 0x58 w]
  | .frcpXForm w => Encode.xWords 1 0x58 w
  | .frsqSForm w => [Encode.sWord 0 0x59 w]
  | .frsqXForm w => Encode.xWords 1 0x59 w
  | .fsqrtSForm w => [Encode.sWord 0 0x5A w]
  | .fsqrtXForm w => Encode.xWords 1 0x5A w
  | .fexp2SForm w => [Encode.sWord 0 0x5B w]
  | .fexp2XForm w => Encode.xWords 1 0x5B w
  | .flog2SForm w => [Encode.sWord 0 0x5C w]
  | .flog2XForm w => Encode.xWords 1 0x5C w
  | .fsinSForm w => [Encode.sWord 0 0x5D w]
  | .fsinXForm w => Encode.xWords 1 0x5D w
  | .fcosSForm w => [Encode.sWord 0 0x5E w]
  | .fcosXForm w => Encode.xWords 1 0x5E w
  | .ftanhSForm w => [Encode.sWord 0 0x5F w]
  | .ftanhXForm w => Encode.xWords 1 0x5F w
  | .fcls w => Encode.xWords 1 0x60 w
  | .fscl w => Encode.xWords 1 0x61 w
  | .fdot2 w => Encode.xWords 1 0x62 w
  | .frnd w => Encode.xWords 1 0x63 w
  | .bfpq w => Encode.xWords 1 0x64 w
  | .bfpd w => Encode.xWords 1 0x65 w
  | .ld w => Encode.xWords 1 0x68 w
  | .st w => Encode.xWords 1 0x69 w
  | .lds w => Encode.xWords 1 0x6A w
  | .sts w => Encode.xWords 1 0x6B w
  | .atom w => Encode.xWords 1 0x6C w
  | .presClr w => Encode.xWords 1 0x72 w
  | .presSet w => Encode.xWords 1 0x72 w
  | .presTest w => Encode.xWords 1 0x72 w
  | .tlocEnt w => Encode.xWords 1 0x6D w
  | .tloc w => Encode.xWords 1 0x6D w
  | .tbind w => Encode.xWords 1 0x71 w
  | .tbindClr w => Encode.xWords 1 0x71 w
  | .texp w => Encode.xWords 1 0x6E w
  | .tenc w => Encode.xWords 1 0x6F w
  | .ctld w => Encode.xWords 1 0x70 w
  | .ctldSpm w => Encode.xWords 1 0x70 w
  | .ctst w => Encode.xWords 1 0x73 w
  | .cpyLinG2s w => Encode.xWords 1 0x74 w
  | .cpyLinS2g w => Encode.xWords 1 0x74 w
  | .cpyLinG2g w => Encode.xWords 1 0x74 w
  | .cpyTileG2s w => Encode.xWords 1 0x74 w
  | .cpyTileG2sCh w lit => Encode.xWords 3 0x74 w ++ Encode.litWords lit
  | .cpyRowsG2s w => Encode.xWords 1 0x74 w
  | .cpyMcastG2s w => Encode.xWords 1 0x74 w
  | .cpyMcastS2s w => Encode.xWords 1 0x74 w
  | .cpyFill w => Encode.xWords 1 0x74 w
  | .mma w => Encode.xWords 1 0x75 w
  | .mmaCrew w lit => Encode.xWords 3 0x75 w ++ Encode.litWords lit
  | .mmaSp w => Encode.xWords 1 0x75 w
  | .bload w => Encode.xWords 1 0x75 w
  | .accWin w => Encode.xWords 1 0x76 w
  | .accLd w => Encode.xWords 1 0x76 w
  | .accSt w => Encode.xWords 1 0x76 w
  | .accZero w => Encode.xWords 1 0x76 w
  | .accOut w => Encode.xWords 1 0x76 w
  | .scanOpdef w => Encode.xWords 1 0x77 w
  | .scanBegin w => Encode.xWords 1 0x77 w
  | .scanTile w => Encode.xWords 1 0x77 w
  | .scanPub w => Encode.xWords 1 0x77 w
  | .scanCarry w => Encode.xWords 1 0x77 w
  | .scanFix w => Encode.xWords 1 0x77 w
  | .scanEnd w => Encode.xWords 1 0x77 w
  | .spawn w => Encode.xWords 1 0x78 w
  | .launchInstruction w => Encode.xWords 1 0x78 w
  | .jcInit w => Encode.xWords 1 0x78 w
  | .jcAdd w => Encode.xWords 1 0x78 w
  | .collRed w => Encode.xWords 1 0x79 w
  | .collAr w => Encode.xWords 1 0x79 w
  | .collBc w => Encode.xWords 1 0x79 w
  | .dbgHread w => Encode.xWords 1 0x7A w
  | .dbgHwrite w => Encode.xWords 1 0x7A w
  | .dbgHstep w => Encode.xWords 1 0x7A w
  | .dbgHresume w => Encode.xWords 1 0x7A w
  | .dbgHstat w => Encode.xWords 1 0x7A w
  | .dbgHalt w => Encode.xWords 1 0x7A w
  | .watchSet w => Encode.xWords 1 0x7B w
  | .watchClr w => Encode.xWords 1 0x7B w
  | .watchGet w => Encode.xWords 1 0x7B w
  | .watchArm w => Encode.xWords 1 0x7B w
  | .perfRd w => Encode.xWords 1 0x7C w
  | .perfSel w => Encode.xWords 1 0x7C w
  | .perfSamp w => Encode.xWords 1 0x7C w
  | .csrRd w => Encode.xWords 1 0x7D w
  | .csrWrFaultact w => Encode.xWords 1 0x7D w
  | .csrWrCecnt w => Encode.xWords 1 0x7D w
  | .csrWrUecnt w => Encode.xWords 1 0x7D w
  | .csrWrStopreq w => Encode.xWords 1 0x7D w
  | .csrWr w => Encode.xWords 1 0x7D w
  | .nop => [0x00000000#32]
  | .ret => [0x00000010#32]
  | .join => [0x00000014#32]
  | .regang => [0x00000018#32]
  | .exit => [0x00000024#32]
  | .powerRailEnable => []
  | .moduleReset _ => []
  | .powerDown => []
  | .tikelTraining _ => []
  | .trainingRetry => []
  | .ack _ _ => []
  | .ackOnlyTimer => []
  | .resendTimeout => []
  | .unlistedMessage _ _ => []
  | .firmware _ _ => []
  | .attestReq _ _ => []
  | .attestReport => []
  | .devtimeStart _ => []
  | .devtimeCheck _ _ => []
  | .memoryAndFabric => []
  | .thermalLimit _ => []
  | .overtempShutdown _ => []
  | .partset _ _ => []
  | .compass _ _ => []
  | .partattr _ _ => []
  | .partreset _ _ => []
  | .resetDone _ _ => []
  | .resetTimeout _ _ => []
  | .ringset _ _ _ _ _ => []
  | .memread _ _ => []
  | .memwrite _ _ _ => []
  | .launch _ _ => []
  | .resideOk _ _ => []
  | .resideFail _ _ => []
  | .resideTimeout _ _ => []
  | .leaseReady _ _ => []
  | .leaseFail _ _ => []
  | .crewPlace _ => []
  | .backfillTimeout _ => []
  | .late _ _ => []
  | .pinseg _ _ => []
  | .pinfree _ _ _ => []
  | .invalidate _ _ _ _ => []
  | .invalAck _ _ _ => []
  | .homeAgentRequest _ _ => []
  | .pageWalkComplete _ _ => []
  | .sliceAccess _ _ => []
  | .invalBatch _ _ => []
  | .loadDataReturn _ => []
  | .crewScratchpadAccess _ => []
  | .xvreg _ _ _ _ _ _ => []
  | .xvfree _ _ _ _ => []
  | .expandedViewRead _ _ => []
  | .collreg _ _ _ _ _ => []
  | .fabricFrame _ => []
  | .preempt _ _ _ _ => []
  | .wswitch _ _ _ => []
  | .wresume _ _ _ => []
  | .stopSave _ => []
  | .dump _ _ _ _ _ => []
  | .dumpDone _ => []
  | .dumpRelease _ _ _ => []
  | .sxentry _ _ _ _ _ => []
  | .sxprog _ _ _ _ _ => []
  | .attach _ _ => []
  | .debug _ _ _ _ => []
  | .perfset _ _ _ _ => []
  | .sampring _ _ _ _ _ => []
  | .pcSample _ => []
  | .waitTick _ _ => []
  | .copyChunk _ => []
  | .matrixKStep _ => []
  | .bloadSlotSwitch _ => []
  | .decoderResume _ _ _ => []
  | .texpDecodeDone _ _ _ => []
  | .tencPublish _ _ _ => []
  | .ctldFill _ _ _ => []
  | .scanTilePerform _ => []
  | .carryOutFormed _ => []
  | .scanFixPerform _ => []
  | .carryArrive _ => []
  | .remoteArrival _ => []
  | .collComplete _ => []
  | .collTimeout _ => []
  | .sextantProgramRun _ => []
  | .haltTakesEffect _ => []
  | .softErrorCorrected _ _ _ => []
  | .deviceStructureError _ _ _ => []
  | .gangRetire _ => []
  | .crewRetire _ => []
  | .frameCrcFail => []
  | .instructionCacheFill _ _ _ => []
  | .leaseShareReport _ _ _ => []

/-- The bytes of an instruction in memory order (R6, R27). -/
def encodeBytes (i : Instr) : List Byte := bytesOfWords (encode i)

end Sys2Proof
end

