-- ==== Sys2Proof/Config.lean ====
section
/-!
DEFINITION. What an implementation fixes and what the manual leaves open: the free values. Each is a constant with no
body, so nothing can be proved of its value.
-/

namespace Sys2Proof.Config

/-- The time in picoseconds that passes with a step, by the step's number (R5 leaves all timing open; log 11). Devtime and the
core clocks of the dies are all counted from it (R7, R21). -/
opaque elapsedPs : Nat → Nat

/-- How far a die's devtime drifts against CD0's in a step, in nanoseconds, by the step's number and the die (R17; log 11). -/
opaque drift : Nat → Nat → Int

/-- Whether a sub-bundle whose instruction is fetched is still kept from issuing by the latency of a source (R166, R168) or by a busy pipe
(R165), by the step's number, gang, bundle and sub-bundle. The model counts neither, so either answer may be the hardware's (R5;
log 11). -/
opaque late : Nat → Nat → Nat → Nat → Bool

/-- Whether the pipe or unit of a sub-bundle's next instruction is busy while it is kept (R166, R177): by the step's number, gang, bundle and
sub-bundle (log 11). -/
opaque pipeBusy : Nat → Nat → Nat → Nat → Bool

/-- The cycles that the reassignment of a counter takes on a die (R401), by the die's cycle of the PERFSET (log 95). -/
opaque assignDelay : Nat → Nat

/-- The FP32 result that an S8 would deliver for an approximated function (major, operand bits), used only when it lies
within the bound of R208 (log 12). -/
opaque specialBits : Nat → W32 → W32

/-- The private key that a die's physical unclonable function yields with its helper data, none where the helper data do not
correct it (R15; log 13). -/
opaque pufSecret : Nat → List Byte → Option Nat

/-- The per-message secret number of an ECDSA signature, by draw number (FIPS 186-5 leaves it to a random choice; log 13). -/
opaque signNonce : Nat → Nat

/-- A fresh 32-bit free value, by draw number (log 10). -/
opaque freeWord : Nat → W32

end Sys2Proof.Config
end

