-- ==== Sys2Proof/Machine/Bits.lean ====
section
/-!
DEFINITION. Bit-field, byte-order and list helpers that the other layers share (R6 little-endian order).
-/

namespace Sys2Proof.Machine

/-- Bits lo to lo + len − 1 of a natural number. -/
def bits (n lo len : Nat) : Nat := (n >>> lo) % 2 ^ len

/-- n with bits lo to lo + len − 1 replaced by the low bits of x. -/
def setBits (n lo len x : Nat) : Nat :=
  n % 2 ^ lo + (x % 2 ^ len) <<< lo + (n >>> (lo + len)) <<< (lo + len)

/-- Bit i of a natural number. -/
def bit (n i : Nat) : Bool := (n >>> i) % 2 == 1

/-- 1 for true, 0 for false. -/
def ofBool (b : Bool) : Nat := if b then 1 else 0

/-- Little-endian value of a list of bytes (R6). -/
def leNat : List Byte → Nat
  | [] => 0
  | b :: bs => b.toNat + 256 * leNat bs

/-- The k low bytes of a value, lowest first (R6). -/
def leBytes : Nat → Nat → List Byte
  | 0, _ => []
  | k + 1, n => BitVec.ofNat 8 n :: leBytes k (n / 256)

/-- The value of n bytes of a list from byte i, lowest first; bytes past the end read 0. -/
def leAt (bs : List Byte) (i n : Nat) : Nat := leNat ((bs.drop i).take n)

/-- Element i replaced, when the list has one. -/
def setNth {α : Type} : List α → Nat → α → List α
  | [], _, _ => []
  | _ :: xs, 0, y => y :: xs
  | x :: xs, i + 1, y => x :: setNth xs i y

/-- Element i changed by f, when the list has one. -/
def modNth {α : Type} : List α → Nat → (α → α) → List α
  | [], _, _ => []
  | x :: xs, 0, f => f x :: xs
  | x :: xs, i + 1, f => x :: modNth xs i f

/-- The numbers i for which bit i of a mask is set, below n, ascending. -/
def maskList (n mask : Nat) : List Nat := (List.range n).filter (fun i => bit mask i)

/-- The mask whose set bits are the members of a list. -/
def listMask (xs : List Nat) : Nat := xs.foldl (fun m i => m ||| 1 <<< i) 0

/-- Number of set bits among the low n. -/
def popCount (n x : Nat) : Nat := ((List.range n).filter (fun i => bit x i)).length

/-- Leading zero bits of an n-bit value. -/
def clz (n x : Nat) : Nat := if x % 2 ^ n == 0 then n else n - 1 - (x % 2 ^ n).log2

/-- Trailing zero bits of an n-bit value. -/
def ctz (n x : Nat) : Nat := ((List.range n).find? (fun i => bit x i)).getD n

/-- An n-bit value with bit i moved to bit n − 1 − i. -/
def brev (n x : Nat) : Nat :=
  (List.range n).foldl (fun r i => if bit x i then r ||| 1 <<< (n - 1 - i) else r) 0

/-- Signed value of an n-bit pattern (R57). -/
def toSigned (n x : Nat) : Int :=
  if x % 2 ^ n < 2 ^ (n - 1) then ((x % 2 ^ n : Nat) : Int) else ((x % 2 ^ n : Nat) : Int) - (2 ^ n : Nat)

/-- The n-bit pattern of an integer modulo 2^n (R57). -/
def ofInt (n : Nat) (x : Int) : Nat := (x % ((2 ^ n : Nat) : Int)).toNat

/-- x rounded up to a multiple of n. -/
def alignUp (x n : Nat) : Nat := (x + n - 1) / n * n

/-- The integer square root, by bits from bit k − 1 down. -/
def isqrtGo : Nat → Nat → Nat → Nat
  | 0, _, r => r
  | k + 1, n, r => isqrtGo k n (if (r + 2 ^ k) * (r + 2 ^ k) ≤ n then r + 2 ^ k else r)

/-- The largest r with r² ≤ n. -/
def isqrt (n : Nat) : Nat := isqrtGo (n.log2 / 2 + 1) n 0

/-- The first member that meets a condition, with its index. -/
def findIdx {α : Type} (p : α → Bool) (xs : List α) : Option (Nat × α) :=
  ((List.range xs.length).zip xs).find? (fun q => p q.2)

/-- The least member of a list, or d. -/
def minOr (d : Nat) : List Nat → Nat
  | [] => d
  | x :: xs => xs.foldl Nat.min x

/-- The greatest member of a list, or 0. -/
def maxOf (xs : List Nat) : Nat := xs.foldl Nat.max 0

end Sys2Proof.Machine
end

