-- ==== Sys2Proof/Machine/Numeric.lean ====
section
/-!
DEFINITION. Number formats (chapter 03): exact values, rounding and saturation, integer clamping, block floating point,
the reduction wire format, and the special functions of R206–R208.
-/

namespace Sys2Proof.Machine

/-! ## Exception sets (R61) -/

/-- The 6-bit exception set of one lane: I, Z, O, U, X, SAT in bits 0 to 5 (R61). -/
abbrev Exc := BitVec 6

/-- Invalid (R61). -/
def excI : Exc := 1#6
/-- Divide by zero (R61). -/
def excZ : Exc := 2#6
/-- Overflow (R61). -/
def excO : Exc := 4#6
/-- Underflow (R61). -/
def excU : Exc := 8#6
/-- Inexact (R61). -/
def excX : Exc := 16#6
/-- Clamped (R61). -/
def excSat : Exc := 32#6

/-! ## Formats (R53–R55) -/

/-- A floating-point format: exponent width w, fraction width f, bias, and whether it has infinities (R53). -/
structure Fmt where
  w : Nat
  f : Nat
  bias : Nat
  hasInf : Bool
  deriving DecidableEq, Repr

/-- FP32 (R53). -/
def fp32 : Fmt := ⟨8, 23, 127, true⟩
/-- FP16 (R53). -/
def fp16 : Fmt := ⟨5, 10, 15, true⟩
/-- BF16 (R53). -/
def bf16 : Fmt := ⟨8, 7, 127, true⟩
/-- E4M3 (R53): no infinity, one NaN magnitude. -/
def e4m3 : Fmt := ⟨4, 3, 7, false⟩
/-- E5M2 (R53). -/
def e5m2 : Fmt := ⟨5, 2, 15, true⟩

/-- Bits of a value of the format (R53). -/
def fmtWidth (t : Fmt) : Nat := 1 + t.w + t.f

/-- The canonical NaN of a format (R55). -/
def canonNaN (t : Fmt) : Nat :=
  if t.hasInf then (2 ^ t.w - 1) <<< t.f + 2 ^ (t.f - 1) else 2 ^ (t.w + t.f) - 1

/-- The bit pattern of an infinity, where the format has one (R53). -/
def infBits (t : Fmt) (neg : Bool) : Nat := ofBool neg <<< (t.w + t.f) + (2 ^ t.w - 1) <<< t.f

/-- The significand and power of two of the largest finite value (R53). -/
def maxFin (t : Fmt) : Nat × Int :=
  if t.hasInf then (2 ^ (t.f + 1) - 1, (t.bias : Int) - t.f)
  else (2 ^ (t.f + 1) - 2, (t.bias : Int) + 1 - t.f)

/-- The bit pattern of ± the largest finite value (R59). -/
def maxFinBits (t : Fmt) (neg : Bool) : Nat :=
  ofBool neg <<< (t.w + t.f) + (if t.hasInf then (2 ^ t.w - 1) <<< t.f - 1 else 2 ^ (t.w + t.f) - 2)

/-- A float operand or exact result: NaN, an infinity, or sign × m × 2^e, where m = 0 is a signed zero (R54). -/
inductive FVal where
  | nan
  | inf (neg : Bool)
  | fin (neg : Bool) (m : Nat) (e : Int)
  deriving DecidableEq, Repr

/-- A positive zero. -/
def FVal.zero : FVal := .fin false 0 0

/-- Whether a value is a NaN (R55). -/
def FVal.isNan : FVal → Bool
  | .nan => true
  | _ => false

/-- Whether a value is an infinity. -/
def FVal.isInf : FVal → Bool
  | .inf _ => true
  | _ => false

/-- Whether a value is a zero of either sign. -/
def FVal.isZero : FVal → Bool
  | .fin _ 0 _ => true
  | _ => false

/-- The sign of a value; a NaN counts as positive. -/
def FVal.sign : FVal → Bool
  | .nan => false
  | .inf n => n
  | .fin n _ _ => n

/-- The value with its sign inverted. -/
def FVal.flip : FVal → FVal
  | .nan => .nan
  | .inf n => .inf (!n)
  | .fin n m e => .fin (!n) m e

/-- The value of a bit pattern (R53, R54). -/
def unpack (t : Fmt) (x : Nat) : FVal :=
  let neg := bit x (t.w + t.f)
  let ex := bits x t.f t.w
  let fr := bits x 0 t.f
  if ex == 2 ^ t.w - 1 && t.hasInf then (if fr == 0 then .inf neg else .nan)
  else if !t.hasInf && ex == 2 ^ t.w - 1 && fr == 2 ^ t.f - 1 then .nan
  else if ex == 0 then .fin neg fr (1 - (t.bias : Int) - t.f)
  else .fin neg (2 ^ t.f + fr) ((ex : Int) - t.bias - t.f)

/-- Whether a pattern is a subnormal of its format (R54). -/
def isSubnormal (t : Fmt) (x : Nat) : Bool := bits x t.f t.w == 0 && bits x 0 t.f != 0

/-- A float operand as FTZ reads it: a subnormal becomes a zero of its sign (R60). -/
def readFloat (t : Fmt) (ftz : Bool) (x : Nat) : FVal :=
  if ftz && isSubnormal t x then .fin (bit x (t.w + t.f)) 0 0 else unpack t x

/-! ## Rounding (R58, R59) -/

/-- The rounding modes 0 to 3 of M6 (R32, R58). -/
inductive RMode where
  | rne | rtz | rdn | rup
  deriving DecidableEq, Repr

/-- The mode that a field value names; reserved values are refused before this is read (R58). -/
def rmode (n : Nat) : RMode :=
  if n == 1 then .rtz else if n == 2 then .rdn else if n == 3 then .rup else .rne

/-- m × 2^e as a multiple of 2^q, rounded under the mode, and whether it was exact. The sign decides RDN and RUP. -/
def roundMult (mode : RMode) (neg : Bool) (m : Nat) (e q : Int) : Nat × Bool :=
  if q ≤ e then (m <<< (e - q).toNat, true)
  else
    let d := (q - e).toNat
    let n := if d > m.log2 + 2 then 0 else m >>> d
    let exact := if d > m.log2 + 2 then m == 0 else n <<< d == m
    let half : Ordering :=
      if d > m.log2 + 2 then .lt else compare (2 * (m - n <<< d)) (2 ^ d)
    let up : Bool := if exact then false else
      match mode with
      | .rne => half == .gt || (half == .eq && n % 2 == 1)
      | .rtz => false
      | .rdn => neg
      | .rup => !neg
    (if up then n + 1 else n, exact)

/-- What a finite overflow delivers (R59). -/
def overflowResult (t : Fmt) (neg : Bool) (mode : RMode) (sat : Bool) : Nat × Exc :=
  if sat then (maxFinBits t neg, excSat)
  else
    let toInf : Bool := match mode with
      | .rne => true
      | .rtz => false
      | .rdn => neg
      | .rup => !neg
    if toInf then (if t.hasInf then infBits t neg else canonNaN t, 0)
    else (maxFinBits t neg, 0)

/-- round_to_format of R58 on an exact value: the delivered pattern and the exception set. -/
def roundTo (t : Fmt) (mode : RMode) (sat ftz : Bool) : FVal → Nat × Exc
  | .nan => (canonNaN t, 0)
  | .inf neg =>
    if sat then (maxFinBits t neg, excSat)
    else (if t.hasInf then infBits t neg else canonNaN t, 0)
  | .fin neg 0 _ => (ofBool neg <<< (t.w + t.f), 0)
  | .fin neg m e =>
    let lg : Int := (m.log2 : Int) + e
    let ex : Int := max lg (1 - (t.bias : Int))
    let q : Int := ex - t.f
    let r := roundMult mode neg m e q
    let y := r.1
    let mx := maxFin t
    let big : Bool := y != 0 && (q > mx.2 || decide (y > mx.1 <<< (mx.2 - q).toNat))
    if big then
      let o := overflowResult t neg mode sat
      (o.1, o.2 ||| excO ||| excX)
    else
      let tiny : Bool := decide (y < 2 ^ t.f) && ex == 1 - (t.bias : Int)
      let fl : Exc := if r.2 then 0 else if tiny then excX ||| excU else excX
      if ftz && y != 0 && tiny then (ofBool neg <<< (t.w + t.f), excU ||| excX)
      else
        (ofBool neg <<< (t.w + t.f) + ((ex + t.bias).toNat - 1) * 2 ^ t.f + y, fl)

/-! ## Exact arithmetic on values -/

/-- The exact integer of a signed significand. -/
def smant (neg : Bool) (m : Nat) : Int := if neg then -(m : Int) else (m : Int)

/-- m × 2^e as a finite value; a zero takes the given sign. -/
def finOf (m e : Int) (zneg : Bool) : FVal :=
  if m == 0 then .fin zneg 0 0 else .fin (m < 0) m.natAbs e

/-- A signed significand moved to a smaller power of two. -/
def alignTo (m e lo : Int) : Int := m * ((2 ^ (e - lo).toNat : Nat) : Int)

/-- Exact sum of two values with the zero-sign rule of R199, and whether it is invalid (∞ − ∞). -/
def fsumExact (mode : RMode) (a b : FVal) : FVal × Bool :=
  match a, b with
  | .nan, _ => (.nan, false)
  | _, .nan => (.nan, false)
  | .inf x, .inf y => if x == y then (.inf x, false) else (.nan, true)
  | .inf x, .fin _ _ _ => (.inf x, false)
  | .fin _ _ _, .inf y => (.inf y, false)
  | .fin x 0 _, .fin y 0 _ => (.fin (if x == y then x else mode == .rdn) 0 0, false)
  | .fin _ 0 _, .fin y m e => (.fin y m e, false)
  | .fin x m e, .fin _ 0 _ => (.fin x m e, false)
  | .fin x m e, .fin y m' e' =>
    let lo := min e e'
    (finOf (alignTo (smant x m) e lo + alignTo (smant y m') e' lo) lo (mode == .rdn), false)

/-- Exact product of two values, and whether it is invalid (0 × ∞), even beside a NaN elsewhere (R199). -/
def fmulExact (a b : FVal) : FVal × Bool :=
  match a, b with
  | .nan, _ => (.nan, false)
  | _, .nan => (.nan, false)
  | .inf x, .inf y => (.inf (x != y), false)
  | .inf x, .fin y m _ => if m == 0 then (.nan, true) else (.inf (x != y), false)
  | .fin x m _, .inf y => if m == 0 then (.nan, true) else (.inf (x != y), false)
  | .fin x m e, .fin y m' e' => (.fin (x != y) (m * m') (e + e'), false)

/-- The value times a power of two. -/
def FVal.scale (k : Int) : FVal → FVal
  | .fin n m e => .fin n m (e + k)
  | v => v

/-- Three-way order of two numbers, −0 equal to +0; none when either is a NaN (R202). -/
def fcompare (a b : FVal) : Option Ordering :=
  match a, b with
  | .nan, _ => none
  | _, .nan => none
  | .inf x, .inf y => some (if x == y then .eq else if x then .lt else .gt)
  | .inf x, .fin _ _ _ => some (if x then .lt else .gt)
  | .fin _ _ _, .inf y => some (if y then .gt else .lt)
  | .fin x m e, .fin y m' e' =>
    let lo := min e e'
    some (compare (alignTo (smant x m) e lo) (alignTo (smant y m') e' lo))

/-- Order with −0 below +0 (R200); only for numbers. -/
def fless (a b : FVal) : Bool :=
  match fcompare a b with
  | some .lt => true
  | some .eq => a.sign && !b.sign
  | _ => false

/-- An integer as a value. -/
def ofIntVal (x : Int) : FVal := .fin (x < 0) x.natAbs 0

/-! ## Integers (R57) -/

/-- The value of an n-bit element, signed or unsigned. -/
def intVal (n : Nat) (unsigned : Bool) (x : Nat) : Int :=
  if unsigned then ((x % 2 ^ n : Nat) : Int) else toSigned n x

/-- The least and greatest values of an n-bit integer type (R57). -/
def intRange (n : Nat) (unsigned : Bool) : Int × Int :=
  if unsigned then (0, ((2 ^ n - 1 : Nat) : Int)) else (-((2 ^ (n - 1) : Nat) : Int), ((2 ^ (n - 1) : Nat) : Int) - 1)

/-- A value clamped to a range, with SAT when it moved (R57). -/
def clampInt (lo hi x : Int) : Int × Exc :=
  if x < lo then (lo, excSat) else if x > hi then (hi, excSat) else (x, 0)

/-- An exact integer result delivered to n bits: wrapped, or clamped under .sat (R57). -/
def deliverInt (n : Nat) (unsigned sat : Bool) (x : Int) : Nat × Exc :=
  if sat then
    let r := clampInt (intRange n unsigned).1 (intRange n unsigned).2 x
    (ofInt n r.1, r.2)
  else (ofInt n x, 0)

/-- A finite value m × 2^e rounded to an integer under the mode, and whether it was exact. -/
def roundInt (mode : RMode) (neg : Bool) (m : Nat) (e : Int) : Int × Bool :=
  let r := roundMult mode neg m e 0
  (smant neg r.1, r.2)

/-- A finite value rounded to an integer and clamped to a range; the exponent is bounded first, so that no shift is
larger than the range needs. -/
def roundIntClamp (mode : RMode) (neg : Bool) (m : Nat) (e lo hi : Int) : Int × Bool × Bool :=
  if m != 0 && (m.log2 : Int) + e > 130 then ((if neg then lo else hi), false, true)
  else
    let r := roundInt mode neg m e
    if r.1 < lo then (lo, r.2, true) else if r.1 > hi then (hi, r.2, true) else (r.1, r.2, false)

/-! ## Block floating point (R62–R65) -/

/-- A BFPm group: exponent, eight micro-exponents, sixteen mantissas (R62). -/
structure BfpGroup where
  e : Nat
  mu : List Nat
  m : List Int
  deriving DecidableEq, Repr

/-- ex(v) of R63: floor(log2 |v|) + 127, none for zero. -/
def bfpEx : FVal → Option Int
  | .fin _ m e => if m == 0 then none else some ((m.log2 : Int) + e + 127)
  | _ => none

/-- Greatest of a list of exponents, none standing for −∞. -/
def maxEx (xs : List (Option Int)) : Option Int :=
  xs.foldl (fun a x => match a, x with
    | none, y => y
    | some p, some q => some (max p q)
    | some p, none => some p) none

/-- quantise_group of R63, with each element's (rounded, clamped) pair. -/
def quantise (m : Nat) (xs : List FVal) : BfpGroup × List (Bool × Bool) :=
  let none16 : List (Bool × Bool) := List.replicate 16 (false, false)
  if xs.any (fun x => x.isNan || x.isInf) then (⟨255, List.replicate 8 0, List.replicate 16 0⟩, none16)
  else
    match maxEx (xs.map bfpEx) with
    | none => (⟨0, List.replicate 8 0, List.replicate 16 0⟩, none16)
    | some em =>
      let e : Int := max em 1
      let mus := (List.range 8).map (fun j =>
        match maxEx [bfpEx (xs.getD (2 * j) .zero), bfpEx (xs.getD (2 * j + 1) .zero)] with
        | none => 1
        | some p => if p < e then 1 else 0)
      let el := (List.range 16).map (fun i =>
        match xs.getD i .zero with
        | .fin n mm ee =>
          let q : Int := e - 127 - ((m : Int) - 2) - (mus.getD (i / 2) 0 : Nat)
          let r := roundMult .rne n mm ee q
          let v := smant n r.1
          let hi : Int := ((2 ^ (m - 1) : Nat) : Int) - 1
          if v > hi then (hi, r.2, true) else (v, r.2, false)
        | _ => (0, true, false))
      (⟨e.toNat, mus, el.map (·.1)⟩, el.map (fun x => (!x.2.1, x.2.2)))

/-- The value of one BFPm element (R62). -/
def bfpVal (m e mu : Nat) (mant : Int) : FVal :=
  if e == 0 then .zero
  else if e == 255 then .nan
  else finOf mant ((e : Int) - 127 - ((m : Int) - 2) - mu) false

/-! ## Reduction wire format (R68–R70) -/

/-- The wire word of a sum of no contributions. -/
def wireZero : Wire := ⟨0, false, false, false, false, false⟩

/-- A contribution entering the wire format (R69). -/
def wireOf (q : Int) : FVal → Wire
  | .nan => ⟨0, true, false, false, false, false⟩
  | .inf false => ⟨0, false, true, false, false, false⟩
  | .inf true => ⟨0, false, false, true, false, false⟩
  | .fin neg m e =>
    let lim : Int := ((2 ^ 79 - 1 : Nat) : Int)
    if m != 0 && (m.log2 : Int) + e - q > 400 then
      ⟨BitVec.ofInt 96 (if neg then -lim else lim), false, false, false, true, false⟩
    else
      let r := roundMult .rne neg m e q
      let v := smant neg r.1
      if v > lim then ⟨BitVec.ofInt 96 lim, false, false, false, true, !r.2⟩
      else if v < -lim then ⟨BitVec.ofInt 96 (-lim), false, false, false, true, !r.2⟩
      else ⟨BitVec.ofInt 96 v, false, false, false, false, !r.2⟩

/-- The 128-bit word of a wire word (R68). -/
def Wire.word (w : Wire) : BitVec 128 :=
  BitVec.ofNat 128 (w.n.toNat + ofBool w.nan * 2 ^ 96 + ofBool w.pinf * 2 ^ 97 + ofBool w.ninf * 2 ^ 98 + ofBool w.ovf * 2 ^ 99 +
    ofBool w.inx * 2 ^ 100)

/-- The wire word in 128 bits, whose bits above 100 are reserved (R68). -/
def wireOfWord (x : BitVec 128) : Wire :=
  ⟨BitVec.ofNat 96 x.toNat, bit x.toNat 96, bit x.toNat 97, bit x.toNat 98, bit x.toNat 99, bit x.toNat 100⟩

/-- Two wire words added: N exactly, since no sum of at most 65,536 contributions leaves 96 bits; flags by OR (R69). -/
def wireAdd (a b : Wire) : Wire :=
  ⟨a.n + b.n, a.nan || b.nan, a.pinf || b.pinf, a.ninf || b.ninf, a.ovf || b.ovf, a.inx || b.inx⟩

/-- The value a final wire word stands for (R70): an exact zero is +0, for R58 leaves its sign to the operation and R70 names none.
DESIGN CHOICE (log 17). -/
def wireVal (q : Int) (w : Wire) : FVal :=
  if w.nan || (w.pinf && w.ninf) then .nan
  else if w.pinf then .inf false
  else if w.ninf then .inf true
  else finOf w.n.toInt q false

/-! ## Float element operations (R199–R212) -/

/-- The result of an operation whose exact value and invalidity are known (R58, R61). -/
def deliverFloat (t : Fmt) (mode : RMode) (sat ftz : Bool) (r : FVal × Bool) : Nat × Exc :=
  if r.2 then (canonNaN t, excI) else roundTo t mode sat ftz r.1

/-- a × b + c, exactly (R199). -/
def ffmaExact (mode : RMode) (a b c : FVal) : FVal × Bool :=
  let p := fmulExact a b
  if p.2 then (.nan, true) else fsumExact mode p.1 c

/-- a0 × b0 + a1 × b1 + c, exactly (R211). -/
def fdot2Exact (mode : RMode) (a0 b0 a1 b1 c : FVal) : FVal × Bool :=
  let p := fmulExact a0 b0
  let q := fmulExact a1 b1
  if p.2 || q.2 then (.nan, true)
  else
    let terms := [p.1, q.1, c]
    if terms.any (·.isNan) then (.nan, false)
    else if terms.any (·.isInf) then
      if terms.any (fun x => x == .inf true) && terms.any (fun x => x == .inf false) then (.nan, true)
      else (.inf (terms.any (fun x => x == .inf true)), false)
    else if terms.all (·.isZero) then
      (.fin (if terms.all (·.sign) then true else if terms.all (fun x => !x.sign) then false else mode == .rdn) 0 0, false)
    else
      let s := fsumExact .rne (fsumExact .rne p.1 q.1).1 c
      (match s.1 with
        | .fin _ 0 _ => .fin (mode == .rdn) 0 0
        | v => v, false)

/-- fmin and fmax (R200): max chooses the greater, num the number forms. -/
def fminmax (t : Fmt) (ftz mx num : Bool) (x y : Nat) : Nat :=
  let a := readFloat t ftz x
  let b := readFloat t ftz y
  let pat (v : FVal) (p : Nat) : Nat :=
    match v with
    | .nan => canonNaN t
    | .fin n 0 _ => ofBool n <<< (t.w + t.f)
    | _ => p
  if a.isNan && b.isNan then canonNaN t
  else if a.isNan then (if num then pat b y else canonNaN t)
  else if b.isNan then (if num then pat a x else canonNaN t)
  else if fless a b then (if mx then pat b y else pat a x)
  else (if mx then pat a x else pat b y)

/-- fcmp (R202): the condition codes 0 to 7. -/
def fcmpHolds (cond : Nat) (o : Option Ordering) : Bool :=
  match o with
  | none => cond == 1 || cond == 6
  | some x =>
    if cond == 0 then x == .eq else if cond == 1 then x != .eq else if cond == 2 then x == .lt
    else if cond == 3 then x != .gt else if cond == 4 then x == .gt else if cond == 5 then x != .lt
    else cond == 7

/-- fcls (R209): the class mask of a pattern. -/
def fclassMask (t : Fmt) (x : Nat) : Nat :=
  let neg := bit x (t.w + t.f)
  match unpack t x with
  | .nan => 2 ^ 8
  | .inf n => if n then 1 else 2 ^ 7
  | .fin _ 0 _ => (if neg then 2 ^ 3 else 2 ^ 4) + 2 ^ 9
  | .fin _ _ _ =>
    if isSubnormal t x then (if neg then 2 ^ 2 else 2 ^ 5) else (if neg then 2 else 2 ^ 6)

/-- frnd (R212): an integral value in its own format. -/
def frndBits (t : Fmt) (mode : RMode) (ftz : Bool) (x : Nat) : Nat × Exc :=
  match readFloat t ftz x with
  | .nan => (canonNaN t, 0)
  | .inf n => (infBits t n, 0)
  | .fin n 0 _ => (ofBool n <<< (t.w + t.f), 0)
  | .fin n m e =>
    if e ≥ 0 then (x, 0)
    else
      let r := roundMult mode n m e 0
      let v := roundTo t .rne false false (.fin n r.1 0)
      (v.1, if r.2 then 0 else excX)

/-! ## Special functions (R206–R208) -/

/-- An interval that an exact real lies in: from lo / 2^p to hi / 2^p. -/
structure Approx where
  lo : Int
  hi : Int
  p : Nat
  deriving DecidableEq, Repr

/-- How far a result may lie from the exact value: ulps of the result itself, or an absolute bound in 2^−p of the
interval, whichever is larger (R208). -/
structure Bound where
  ulps : Nat
  abs : Nat
  deriving DecidableEq, Repr

/-- 2^(x / 2^96) for x below 2^96, scaled by 2^160: one factor 2^(2^−k) for each set bit of x. -/
def exp2Go : Nat → Nat → Nat → Nat → Nat
  | 0, _, _, acc => acc
  | k + 1, x, r, acc =>
    let r' := isqrt (r <<< 160)
    exp2Go k x r' (if bit x k then (acc * r') >>> 160 else acc)

/-- 2^(x / 2^96) scaled by 2^160: never above it, and less than 2^10 below. -/
def exp2Fix (x : Nat) : Nat := exp2Go 96 x (2 <<< 160) (1 <<< 160)

/-- Fraction bits of log2 of y / 2^256, for y in [1, 2), by repeated squaring. -/
def log2Go : Nat → Nat → Nat → Nat
  | 0, _, acc => acc
  | k + 1, y, acc =>
    let y2 := (y * y) >>> 256
    if y2 ≥ 2 <<< 256 then log2Go k (y2 / 2) (2 * acc + 1) else log2Go k y2 (2 * acc)

/-- π scaled by 2^256. -/
def piFix : Nat := 363771576891766324280234942777729862653393377328392429958772151117938894466185

/-- Terms of the sine or cosine series at r / 2^192, from term number i. -/
def trigGo : Nat → Nat → Int → Int → Int → Int
  | 0, _, _, _, acc => acc
  | k + 1, i, r2, term, acc =>
    let t := -(term * r2) / ((2 ^ 192 : Nat) : Int) / (((i + 1) * (i + 2) : Nat) : Int)
    trigGo k (i + 2) r2 t (acc + t)

/-- sin or cos of r / 2^192, scaled by 2^192, for |r| up to π: within 2^20. -/
def trigFix (cosine : Bool) (r : Int) : Int :=
  let r2 := r * r / ((2 ^ 192 : Nat) : Int)
  if cosine then trigGo 40 0 r2 ((2 ^ 192 : Nat) : Int) ((2 ^ 192 : Nat) : Int) else trigGo 40 1 r2 r r

/-- Whether a finite number lies within a bound of every value of an interval. Its exponent is its own spacing, its ulp (R208). -/
def withinBound (a : Approx) (b : Bound) (x : FVal) : Bool :=
  match x with
  | .fin n m e =>
    let l := min e (-(a.p : Int))
    let reach := max (alignTo (b.ulps : Int) e l) (alignTo (b.abs : Int) (-(a.p : Int)) l)
    let near (v : Int) : Bool := decide (((alignTo (smant n m) e l - alignTo v (-(a.p : Int)) l).natAbs : Int) ≤ reach)
    near a.lo && near a.hi
  | _ => false

/-- The nearest FP32 pattern to the low end of an interval. -/
def nearestBits (a : Approx) : Nat := (roundTo fp32 .rne false false (finOf a.lo (-(a.p : Int)) false)).1

/-- Whether an FP32 pattern is a zero or a subnormal. -/
def tinyBits (r : Nat) : Bool := r % 2 ^ 31 < 2 ^ 23

/-- The delivered bits of an approximated function: the S8's own bits where they satisfy the bound's test, else the
nearest value (R208; log 12). An inexact zero or subnormal underflows (R58, R207). -/
def pickSpecial (major : Nat) (x : Nat) (a : Approx) (ok : Nat → Bool) : Nat × Exc :=
  let c := (Config.specialBits major (BitVec.ofNat 32 x)).toNat
  let r := if ok c then c else nearestBits a
  (r, excX ||| (if tinyBits r then excU else 0))

/-- An FP32 result within a bound of its exact value (R208). -/
def pickWithin (major x : Nat) (a : Approx) (b : Bound) : Nat × Exc :=
  pickSpecial major x a (fun c => withinBound a b (unpack fp32 c))

/-- A quotient or root as a significand with a sticky low bit, enough for one correct rounding. -/
def sticky (q : Nat) (exact : Bool) : Nat := 2 * q + ofBool (!exact)

/-- 1 / (m × 2^e) with a sticky bit. -/
def recipVal (neg : Bool) (m : Nat) (e : Int) : FVal :=
  let k := m.log2 + 64
  .fin neg (sticky (2 ^ k / m) (2 ^ k % m == 0)) (-(e + k) - 1)

/-- √(m × 2^e) with a sticky bit. -/
def sqrtVal (m : Nat) (e : Int) : FVal :=
  let e' := if e % 2 == 0 then e else e - 1
  let m' := (if e % 2 == 0 then m else 2 * m) <<< 128
  let r := isqrt m'
  .fin false (sticky r (r * r == m')) ((e' - 128) / 2 - 1)

/-- 1 / √(m × 2^e) with a sticky bit. -/
def rsqrtVal (m : Nat) (e : Int) : FVal :=
  let e' := if e % 2 == 0 then e else e - 1
  let m' := if e % 2 == 0 then m else 2 * m
  let k := 2 * (m'.log2 + 64)
  let r := isqrt (2 ^ k / m')
  .fin false (sticky r (r * r * m' == 2 ^ k)) (-(e' + k) / 2 - 1)

/-- Whether m is a power of two. -/
def isPow2 (m : Nat) : Bool := m != 0 && 2 ^ m.log2 == m

/-- An exact finite real delivered by frcp or frsq in FP32: rounded up or down as the S8's own bits choose, within one
ulp (R208). -/
def oneUlp (major x : Nat) (v : FVal) : Nat × Exc :=
  let near := roundTo fp32 .rne false false v
  if near.2 &&& excO != 0 || near.2 == 0 then near
  else
    let dn := roundTo fp32 .rtz false false v
    let up := roundTo fp32 (if v.sign then .rdn else .rup) false false v
    let c := (Config.specialBits major (BitVec.ofNat 32 (x % 2 ^ 31))).toNat
    let r := if c % 2 ^ 31 == dn.1 % 2 ^ 31 then dn else if c % 2 ^ 31 == up.1 % 2 ^ 31 then up else near
    (r.1, r.2 ||| excX)

/-- 2^a in FP32 for a finite non-zero operand (R206–R208); 2^a lies on the side of 1 on which a lies of 0. -/
def fexp2Bits (x : Nat) (neg : Bool) (m : Nat) (e : Int) : Nat × Exc :=
  let big : Nat × Exc := (infBits fp32 false, excO ||| excX)
  if (m.log2 : Int) + e ≥ 9 then (if neg then pickWithin 0x5B x ⟨0, 1, 512⟩ ⟨2, 0⟩ else big)
  else
    let fix : Int := if e ≥ -96 then smant neg m * ((2 ^ (e + 96).toNat : Nat) : Int)
      else (smant neg m) / ((2 ^ (-96 - e).toNat : Nat) : Int)
    let n : Int := fix / ((2 ^ 96 : Nat) : Int)
    let fr : Nat := (fix % ((2 ^ 96 : Nat) : Int)).toNat
    if n ≥ 128 then big
    else if e ≥ -96 && fr == 0 && n ≥ -149 then roundTo fp32 .rne false false (.fin false 1 n)
    else
      let v := exp2Fix fr
      let p : Nat := 160 + (-n).toNat
      let hi : Nat := (v + 2 ^ 66) <<< n.toNat
      pickWithin 0x5B x ⟨((v <<< n.toNat : Nat) : Int), ((if neg then min hi (2 ^ p) else hi : Nat) : Int), p⟩ ⟨2, 0⟩

/-- log2 a in FP32 for a finite positive operand (R206–R208). -/
def flog2Bits (x m : Nat) (e : Int) : Nat × Exc :=
  let lg : Int := (m.log2 : Int) + e
  if isPow2 m then roundTo fp32 .rne false false (ofIntVal lg)
  else
    let y := (m <<< 256) >>> m.log2
    let v : Int := lg * ((2 ^ 112 : Nat) : Int) + log2Go 112 y 0
    pickWithin 0x5C x ⟨v, v + 2, 112⟩ ⟨2, if lg == -1 || lg == 0 then 2 ^ 90 else 0⟩

/-- sin or cos in FP32 for a finite non-zero operand, at its magnitude (R206–R208). Beyond 2^24 an FP32 result only lies
in [−1, 1]; that of a 16-bit element, whose bound has no such limit, also rounds to an element within 1 ulp or 2^−9. -/
def ftrigBits (t : Fmt) (cosine : Bool) (x m : Nat) (e : Int) : Nat × Exc :=
  let major := if cosine then 0x5E else 0x5D
  let mag := x % 2 ^ 31
  let one : Int := ((2 ^ 192 : Nat) : Int)
  let fix : Int := ((m * 2 ^ (e + 192).toNat : Nat) : Int)
  let s : Int := ((2 ^ 64 : Nat) : Int)
  let twoPi : Int := ((2 * piFix : Nat) : Int)
  let k : Int := (fix * s + ((piFix : Nat) : Int)) / twoPi
  let v : Int := trigFix cosine ((fix * s - k * twoPi) / s)
  let err : Int := ((2 ^ 20 : Nat) : Int)
  let a : Approx := ⟨max (v - err) (-one), min (v + err) one, 192⟩
  if fix ≤ ((2 ^ 216 : Nat) : Int) then pickWithin major mag a ⟨0, 2 ^ 170⟩
  else pickSpecial major mag a (fun c =>
    withinBound ⟨0, 0, 0⟩ ⟨0, 1⟩ (unpack fp32 c) &&
    (t == fp32 || withinBound a ⟨1, 2 ^ 183⟩ (unpack t (roundTo t .rne false false (unpack fp32 c)).1)))

/-- tanh in FP32 for a finite non-zero operand, at its magnitude (R206–R208). -/
def ftanhBits (x m : Nat) (e : Int) : Nat × Exc :=
  let mag := x % 2 ^ 31
  let big : Bool := (m.log2 : Int) + e ≥ 4 || (e ≤ 0 && m ≥ 9 * 2 ^ (-e).toNat) || (e > 0 && m * 2 ^ e.toNat ≥ 9)
  if big then (0x3F800000, excX)
  else if (m.log2 : Int) + e < -6 then
    let t : Int := if 2 * e + 100 ≥ 0 then ((m * m * 2 ^ (2 * e + 100).toNat : Nat) : Int)
      else ((m * m / 2 ^ (-(2 * e + 100)).toNat : Nat) : Int)
    let one : Int := ((2 ^ 100 : Nat) : Int)
    let t2 := t * t / one
    let t3 := t2 * t / one
    let t4 := t2 * t2 / one
    let factor : Int := one - t / 3 + 2 * t2 / 15 - 17 * t3 / 315 + 62 * t4 / 2835
    let p : Nat := (100 - e).toNat
    let err : Int := ((2 ^ 35 : Nat) : Int)
    pickWithin 0x5F mag ⟨(m : Int) * (factor - err), (m : Int) * min (factor + err) one, p⟩ ⟨2, 0⟩
  else
    -- 2a × log2 e in 96 fraction bits, then (2^u − 1) / (2^u + 1)
    let log2e : Nat := 114302077158074026402637675936  -- log2 e scaled by 2^96
    let a96 : Nat := m * 2 ^ (e + 96).toNat
    let u : Nat := (2 * a96 * log2e) >>> 96
    let ex : Nat := exp2Fix (u % 2 ^ 96) <<< (u / 2 ^ 96)
    let one : Nat := 1 <<< 160
    let v : Nat := ((ex - one) <<< 160) / (ex + one)
    pickWithin 0x5F mag ⟨(v : Int), ((v + 2 ^ 70 : Nat) : Int), 160⟩ ⟨2, 0⟩

/-- An FP32 special function of an FP32 operand, before SAT and FTZ, for an element of format t (R206, R207). The flags
are those of the FP32 evaluation. -/
def specialFp32 (t : Fmt) (major : Nat) (x : Nat) (v : FVal) : Nat × Exc :=
  let nan : Nat := canonNaN fp32
  let one : Nat := 0x3F800000
  let neg1 (n : Bool) (r : Nat × Exc) : Nat × Exc := (if n then r.1 ^^^ 2 ^ 31 else r.1, r.2)
  if major == 0x58 then
    match v with
    | .nan => (nan, 0)
    | .inf n => (ofBool n <<< 31, 0)
    | .fin n 0 _ => (infBits fp32 n, excZ)
    | .fin n m e => oneUlp major x (recipVal n m e)
  else if major == 0x59 then
    match v with
    | .nan => (nan, 0)
    | .inf n => if n then (nan, excI) else (0, 0)
    | .fin n 0 _ => (infBits fp32 n, excZ)
    | .fin n m e => if n then (nan, excI) else oneUlp major x (rsqrtVal m e)
  else if major == 0x5B then
    match v with
    | .nan => (nan, 0)
    | .inf n => (if n then 0 else infBits fp32 false, 0)
    | .fin _ 0 _ => (one, 0)
    | .fin n m e => fexp2Bits x n m e
  else if major == 0x5C then
    match v with
    | .nan => (nan, 0)
    | .inf n => if n then (nan, excI) else (infBits fp32 false, 0)
    | .fin _ 0 _ => (infBits fp32 true, excZ)
    | .fin n m e => if n then (nan, excI) else flog2Bits x m e
  else if major == 0x5D then
    match v with
    | .nan => (nan, 0)
    | .inf _ => (nan, excI)
    | .fin n 0 _ => (ofBool n <<< 31, 0)
    | .fin n m e => neg1 n (ftrigBits t false x m e)
  else if major == 0x5E then
    match v with
    | .nan => (nan, 0)
    | .inf _ => (nan, excI)
    | .fin _ 0 _ => (one, 0)
    | .fin _ m e => ftrigBits t true x m e
  else
    match v with
    | .nan => (nan, 0)
    | .inf n => (ofBool n <<< 31 + one, 0)
    | .fin n 0 _ => (ofBool n <<< 31, 0)
    | .fin n m e => neg1 n (ftanhBits x m e)

/-- A special function of an element of format t, delivered with SAT and FTZ (R206, R207). -/
def specialBits (major : Nat) (t : Fmt) (mode : RMode) (sat ftz : Bool) (x : Nat) : Nat × Exc :=
  let v := readFloat t ftz x
  if major == 0x5A then
    match v with
    | .nan => (canonNaN t, 0)
    | .inf n => if n then (canonNaN t, excI) else roundTo t mode sat ftz (.inf false)
    | .fin n 0 _ => (ofBool n <<< (t.w + t.f), 0)
    | .fin n m e => if n then (canonNaN t, excI) else roundTo t mode sat ftz (sqrtVal m e)
  else
    let x32 := (roundTo fp32 .rne false false v).1
    let r := specialFp32 t major x32 v
    let base : Exc := r.2 &&& (excI ||| excZ)
    if t == fp32 then
      -- SAT and FTZ of the FP32 result itself
      if (unpack fp32 r.1).isInf && sat then
        (maxFinBits fp32 (bit r.1 31), r.2 ||| excSat)
      else if ftz && isSubnormal fp32 r.1 then (ofBool (bit r.1 31) <<< 31, base ||| excU ||| excX)
      else (r.1, r.2)
    else
      let d := roundTo t .rne sat ftz (unpack fp32 r.1)
      let ovf : Exc := if r.2 &&& excO != 0 then excO ||| excX ||| (if sat then excSat else 0) else 0
      let und : Exc := if (r.2 &&& excX != 0) && (tinyBits r.1) then excU ||| excX else 0
      let inx : Exc := r.2 &&& excX
      (d.1, d.2 ||| base ||| ovf ||| und ||| inx)

end Sys2Proof.Machine
end

