-- ==== Sys2Proof/Machine/Flags.lean ====
section
/-!
DEFINITION. Per-lane results with their exception sets: packed elements (R56, R57), the integer results of chapter 08 and
the float results of chapter 09.
-/

namespace Sys2Proof.Machine

/-- A per-lane result: the 32-bit value and its exception set (R61). -/
abbrev LaneResult := W32 × Exc

/-- The element width of an integer type code TY (R183). -/
def tyBits (ty : Nat) : Nat := if ty == 0 then 32 else if ty == 1 then 16 else 8

/-- The elements of a packed lane value, element 0 first (R56). -/
def elems (n : Nat) (x : W32) : List Nat := (List.range (32 / n)).map (fun i => bits x.toNat (n * i) n)

/-- A lane value from its elements, element 0 lowest (R56). -/
def ofElems (n : Nat) (xs : List Nat) : W32 :=
  BitVec.ofNat 32 ((xs.take (32 / n)).reverse.foldl (fun acc x => acc <<< n + x % 2 ^ n) 0)

/-- Each element on its own; the lane's set is the OR of the elements' sets (R56, R57). -/
def mapElems (n : Nat) (f : Nat → Nat → Nat → Nat × Exc) (a b c : W32) : LaneResult :=
  let rs := (List.range (32 / n)).map (fun i =>
    f (bits a.toNat (n * i) n) (bits b.toNat (n * i) n) (bits c.toNat (n * i) n))
  (ofElems n (rs.map (·.1)), rs.foldl (fun s r => s ||| r.2) 0)

/-! ## Scalar functions (R176–R180) -/

/-- The conditions of R154 on two scalars. -/
def scalarCond (cond : Nat) (a b : W64) : Bool :=
  if cond == 0 then a == b
  else if cond == 1 then a != b
  else if cond == 2 then a.slt b
  else if cond == 3 then !(a.slt b)
  else if cond == 4 then a.ult b
  else !(a.ult b)

/-- The high half of the exact 128-bit product (R176). -/
def mulHigh (unsigned : Bool) (a b : W64) : W64 :=
  if unsigned then BitVec.ofNat 64 ((a.toNat * b.toNat) >>> 64)
  else BitVec.ofInt 64 ((a.toInt * b.toInt) / (2 ^ 64 : Int))

/-- sshl (R176): 0 for counts of 64 and more. -/
def shiftL64 (a b : W64) : W64 := if b.toNat ≥ 64 then 0 else a <<< b.toNat
/-- sshr (R176): 0 for counts of 64 and more. -/
def shiftR64 (a b : W64) : W64 := if b.toNat ≥ 64 then 0 else a >>> b.toNat
/-- ssra (R176): the count is limited to 63. -/
def shiftRA64 (a b : W64) : W64 := a.sshiftRight (min b.toNat 63)

/-- Unsigned quotient (R177): all ones for a zero divisor. -/
def divU64 (a b : W64) : W64 := if b = 0 then -1 else a / b
/-- Unsigned remainder (R177): the dividend for a zero divisor. -/
def remU64 (a b : W64) : W64 := if b = 0 then a else a % b
/-- Signed quotient toward zero (R177); −2^63 / −1 wraps to −2^63. -/
def divS64 (a b : W64) : W64 := if b = 0 then -1 else BitVec.ofInt 64 (a.toInt.tdiv b.toInt)
/-- Signed remainder with the dividend's sign (R177). -/
def remS64 (a b : W64) : W64 := if b = 0 then a else BitVec.ofInt 64 (a.toInt.tmod b.toInt)

/-- Signed minimum (R176). -/
def minS64 (a b : W64) : W64 := if a.slt b then a else b
/-- Unsigned minimum (R176). -/
def minU64 (a b : W64) : W64 := if a.ult b then a else b
/-- Signed maximum (R176). -/
def maxS64 (a b : W64) : W64 := if a.slt b then b else a
/-- Unsigned maximum (R176). -/
def maxU64 (a b : W64) : W64 := if a.ult b then b else a

/-- sbit.bfx (R180): the field of len bits at pos, zero- or sign-extended. -/
def bitExtract (signed : Bool) (a : W64) (pos len : Nat) : W64 :=
  if len == 0 then 0
  else if signed then BitVec.ofInt 64 (toSigned len (bits a.toNat pos len))
  else BitVec.ofNat 64 (bits a.toNat pos len)

/-- sbit.bfi (R180): bits pos to pos + len − 1 of a replaced by the low bits of b. -/
def bitInsert (a b : W64) (pos len : Nat) : W64 := BitVec.ofNat 64 (setBits a.toNat pos len b.toNat)

/-! ## Integer lane results (R184–R190, R192–R194) -/

/-- vadd, vsub, vmul (R184): an exact result wrapped or clamped per element. -/
def intArith (op : Int → Int → Int) (ty : Nat) (z sat : Bool) (a b : W32) : LaneResult :=
  let n := tyBits ty
  mapElems n (fun x y _ => deliverInt n z sat (op (intVal n z x) (intVal n z y))) a b 0

/-- vmad (R184). -/
def intMad (ty : Nat) (z sat : Bool) (a b c : W32) : LaneResult :=
  let n := tyBits ty
  mapElems n (fun x y w => deliverInt n z sat (intVal n z x * intVal n z y + intVal n z w)) a b c

/-- vmulh (R184): bits n to 2n − 1 of the exact product. -/
def intMulh (ty : Nat) (z : Bool) (a b : W32) : LaneResult :=
  let n := tyBits ty
  mapElems n (fun x y _ => (ofInt n ((intVal n z x * intVal n z y) / ((2 ^ n : Nat) : Int)), 0)) a b 0

/-- vshl, vshr, vsra (R184): kind 0 left, 1 logical right, 2 arithmetic right. -/
def intShift (kind ty : Nat) (a b : W32) : LaneResult :=
  let n := tyBits ty
  mapElems n (fun x y _ =>
    (if kind == 0 then (if y ≥ n then 0 else (x <<< y) % 2 ^ n)
     else if kind == 1 then (if y ≥ n then 0 else x >>> y)
     else ofInt n (toSigned n x / ((2 ^ min y (n - 1) : Nat) : Int)), 0)) a b 0

/-- vmin, vmax (R184). -/
def intMinMax (mx : Bool) (ty : Nat) (z : Bool) (a b : W32) : LaneResult :=
  let n := tyBits ty
  mapElems n (fun x y _ =>
    (if (decide (intVal n z x < intVal n z y)) == mx then y else x, 0)) a b 0

/-- vabs, vneg (R184). -/
def intAbsNeg (neg : Bool) (ty : Nat) (z sat : Bool) (a : W32) : LaneResult :=
  let n := tyBits ty
  mapElems n (fun x _ _ =>
    let v := intVal n z x
    deliverInt n z sat (if neg then 0 - v else if v < 0 then -v else v)) a 0 0

/-- vdot4 (R185): signedness code 0 ss, 1 sz, 2 zs, 3 zz. -/
def intDot4 (sg : Nat) (sat : Bool) (a b c : W32) : LaneResult :=
  let s := (List.range 4).foldl (fun (acc : Int) i =>
    acc + intVal 8 (sg ≥ 2) (bits a.toNat (8 * i) 8) * intVal 8 (sg % 2 == 1) (bits b.toNat (8 * i) 8)) 0
  let r := deliverInt 32 false sat (s + toSigned 32 c.toNat)
  (BitVec.ofNat 32 r.1, r.2)

/-- The comparison codes of vcmp (R187). -/
def intCmpHolds (cond : Nat) (x y : Int) : Bool :=
  if cond == 0 then x == y else if cond == 1 then x != y else if cond == 2 then x < y
  else if cond == 3 then x ≤ y else if cond == 4 then x > y else x ≥ y

/-- vcmp (R187): every element, or any element under .any. -/
def intCompare (cond ty : Nat) (z anyEl : Bool) (a b : W32) : Bool :=
  let n := tyBits ty
  let hs := (elems n a).zip (elems n b) |>.map (fun p => intCmpHolds cond (intVal n z p.1) (intVal n z p.2))
  if anyEl then hs.any id else hs.all id

/-- vfsh (R188). -/
def funnel (a b : W32) (k : Nat) : W32 := BitVec.ofNat 32 ((a.toNat <<< 32 + b.toNat) >>> (k % 32))

/-- vbit.bfx (R188). -/
def laneExtract (signed : Bool) (a b : W32) : W32 :=
  let pos := bits b.toNat 0 5
  let len := min (bits b.toNat 5 6) 32
  if len == 0 then 0
  else if signed then BitVec.ofInt 32 (toSigned len (bits a.toNat pos len))
  else BitVec.ofNat 32 (bits a.toNat pos len)

/-- vbit.bfi (R188): C with the field replaced by the low bits of A. -/
def laneInsert (a b c : W32) : W32 :=
  let pos := bits b.toNat 0 5
  let len := min (bits b.toNat 5 6) 32
  let len' := min len (32 - pos)
  BitVec.ofNat 32 (setBits c.toNat pos len' a.toNat)

/-- vprm (R188): bytes 0–3 from A, 4–7 from B, 8 and above 0. -/
def bytePermute (a b : W32) (sel : Nat) : W32 :=
  let v := b.toNat <<< 32 + a.toNat
  ofElems 8 ((List.range 4).map (fun i =>
    let s := bits sel (4 * i) 4
    if s ≥ 8 then 0 else bits v (8 * s) 8))

/-- vrsh (R189): out is the output code, z unsigned, c the addend. -/
def requantise (out : Nat) (z : Bool) (mode : RMode) (n : Nat) (a c : W32) : LaneResult :=
  let v := intVal 32 z a.toNat
  let t := roundMult mode (v < 0) v.natAbs 0 n
  let tInt : Int := smant (v < 0) t.1
  let u := tInt + toSigned 32 c.toNat
  let w := if out == 0 then 32 else if out == 1 then 16 else 8
  let r := clampInt (intRange w z).1 (intRange w z).2 u
  (BitVec.ofInt 32 r.1, r.2)

/-- vpack (R190). -/
def packLanes (ty : Nat) (z sat : Bool) (a b : W32) : LaneResult :=
  let n := tyBits ty
  let src := (elems (2 * n) a) ++ (elems (2 * n) b)
  let rs := src.map (fun x => deliverInt n z sat (intVal (2 * n) z x))
  (ofElems n (rs.map (·.1)), rs.foldl (fun s r => s ||| r.2) 0)

/-- vunpk (R190). -/
def unpackLanes (ty : Nat) (hi z : Bool) (a : W32) : W32 :=
  let n := tyBits ty
  let k := 32 / (2 * n)
  let off := if hi then k else 0
  ofElems (2 * n) ((List.range k).map (fun i => ofInt (2 * n) (intVal n z (bits a.toNat (n * (off + i)) n))))

/-- The source lane of vshfl (R192), for segment size sz. -/
def shuffleSrc (mode sz lane : Nat) (b : W32) : Nat :=
  let base := lane - lane % sz
  let q := lane % sz
  let k := b.toNat % sz
  if mode == 0 then base + k
  else if mode == 1 then base + (q + k) % sz
  else if mode == 2 then base + (q + sz - k) % sz
  else base + (q ^^^ k)

/-! ## Float lane results (R199–R212) -/

/-- The format of a float type code FT (R196). -/
def ftFmt (ft : Nat) : Fmt := if ft == 0 then fp32 else if ft == 1 then fp16 else bf16

/-- Rounding mode, SAT and FTZ of an M6 field (R32, R196). -/
structure FloatMods where
  mode : RMode
  sat : Bool
  ftz : Bool
  deriving DecidableEq, Repr

/-- The modifiers an M6 field holds (R32). -/
def floatMods (m6 : Nat) : FloatMods := ⟨rmode (bits m6 0 3), bit m6 3, bit m6 4⟩

/-- An element-wise float operation given by its exact result (R199). -/
def floatArith (op : RMode → FVal → FVal → FVal → FVal × Bool) (ft : Nat) (m : FloatMods) (a b c : W32) : LaneResult :=
  let t := ftFmt ft
  mapElems (fmtWidth t) (fun x y w =>
    deliverFloat t m.mode m.sat m.ftz
      (op m.mode (readFloat t m.ftz x) (readFloat t m.ftz y) (readFloat t m.ftz w))) a b c

/-- fadd. -/
def floatAdd := floatArith (fun md a b _ => fsumExact md a b)
/-- fsub. -/
def floatSub := floatArith (fun md a b _ => fsumExact md a b.flip)
/-- fmul. -/
def floatMul := floatArith (fun _ a b _ => fmulExact a b)
/-- ffma. -/
def floatFma := floatArith (fun md a b c => ffmaExact md a b c)

/-- The fmin family (R200), by OPX bits 0–1. -/
def floatMinMax (opx ft : Nat) (m : FloatMods) (a b : W32) : LaneResult :=
  let t := ftFmt ft
  mapElems (fmtWidth t) (fun x y _ => (fminmax t m.ftz (opx % 2 == 1) (opx ≥ 2) x y, 0)) a b 0

/-- fneg, fabs, fcpys (R201): kind 0, 1, 2. -/
def floatSign (kind ft : Nat) (a b : W32) : LaneResult :=
  let t := ftFmt ft
  let s := fmtWidth t - 1
  mapElems (fmtWidth t) (fun x y _ =>
    (if kind == 0 then x ^^^ 2 ^ s
     else if kind == 1 then x % 2 ^ s
     else x % 2 ^ s + ofBool (bit y s) <<< s, 0)) a b 0

/-- fcmp (R202). -/
def floatCompare (cond ft : Nat) (anyEl ftz : Bool) (a b : W32) : Bool :=
  let t := ftFmt ft
  let n := fmtWidth t
  let hs := (elems n a).zip (elems n b) |>.map (fun p =>
    fcmpHolds cond (fcompare (readFloat t ftz p.1) (readFloat t ftz p.2)))
  if anyEl then hs.any id else hs.all id

/-- The kinds of fcvt formats (R203): a float format, or an integer of n bits. -/
inductive CvtFmt where
  | float (t : Fmt)
  | int (n : Nat) (unsigned : Bool)
  deriving DecidableEq, Repr

/-- The format of an fcvt code (R203); none for reserved codes. -/
def cvtFmt (code : Nat) : Option CvtFmt :=
  if code == 0 then some (.float fp32) else if code == 1 then some (.float fp16)
  else if code == 2 then some (.float bf16) else if code == 3 then some (.float e4m3)
  else if code == 4 then some (.float e5m2) else if code == 5 then some (.int 32 false)
  else if code == 6 then some (.int 32 true) else if code == 7 then some (.int 16 false)
  else if code == 8 then some (.int 16 true) else if code == 9 then some (.int 8 false)
  else if code == 10 then some (.int 8 true) else none

/-- Bits of one element of a conversion format (R203). -/
def cvtWidth : CvtFmt → Nat
  | .float t => fmtWidth t
  | .int n _ => n

/-- Whether a conversion format is a float format (R203). -/
def cvtIsFloat : CvtFmt → Bool
  | .float _ => true
  | .int _ _ => false

/-- conv of R205 for one element. -/
def convElem (src dst : CvtFmt) (m : FloatMods) (x : Nat) : Nat × Exc :=
  match src, dst with
  | .float s, .float d => roundTo d m.mode m.sat m.ftz (readFloat s m.ftz x)
  | .float s, .int n u =>
    let rng := intRange n u
    match readFloat s m.ftz x with
    | .nan => (0, excI)
    | .inf neg => (ofInt n (if neg then rng.1 else rng.2), excI)
    | .fin neg mm e =>
      let r := roundIntClamp m.mode neg mm e rng.1 rng.2
      if r.2.2 then (ofInt n r.1, excI) else (ofInt n r.1, if r.2.1 then 0 else excX)
  | .int n u, .float d => roundTo d m.mode m.sat m.ftz (ofIntVal (intVal n u x))
  | .int n u, .int k _ => (ofInt k (intVal n u x), 0)

/-- fcvt (R204): part selects the elements of the wider side. -/
def convertLane (src dst : CvtFmt) (m : FloatMods) (part : Nat) (a b : W32) : LaneResult :=
  let ws := cvtWidth src
  let wd := cvtWidth dst
  let ns := 32 / ws
  let nd := 32 / wd
  if ns ≥ nd then
    let rs := (List.range nd).map (fun i => convElem src dst m (bits a.toNat (ws * (part * nd + i)) ws))
    (ofElems wd (rs.map (·.1)), rs.foldl (fun s r => s ||| r.2) 0)
  else
    let rs := (List.range ns).map (fun i => convElem src dst m (bits a.toNat (ws * i) ws))
    (BitVec.ofNat 32 (((List.range ns).zip rs).foldl (fun acc p => setBits acc (wd * (part * ns + p.1)) wd p.2.1) b.toNat),
      rs.foldl (fun s r => s ||| r.2) 0)

/-- Whether an fcvt pair, its modifiers and its part are legal (R203, R204). -/
def cvtLegal (fn m6 part : Nat) : Bool :=
  match cvtFmt (bits fn 0 4), cvtFmt (bits fn 4 4) with
  | some s, some d =>
    let ns := 32 / cvtWidth s
    let nd := 32 / cvtWidth d
    (cvtIsFloat s || cvtIsFloat d) && (cvtIsFloat d || !bit m6 3) && bits m6 0 3 < 4 && !bit m6 5
      && part < max ns nd / min ns nd
  | _, _ => false

/-- A special function on every element (R206). -/
def floatSpecial (major ft : Nat) (m : FloatMods) (a : W32) : LaneResult :=
  let t := ftFmt ft
  mapElems (fmtWidth t) (fun x _ _ => specialBits major t m.mode m.sat m.ftz x) a 0 0

/-- fcls (R209). -/
def floatClass (ft : Nat) (a : W32) : LaneResult :=
  let t := ftFmt ft
  mapElems (fmtWidth t) (fun x _ _ => (fclassMask t x, 0)) a 0 0

/-- fscl (R210): imm tells that B is the immediate, which applies to every element. -/
def floatScale (ft : Nat) (m : FloatMods) (imm : Bool) (a b : W32) : LaneResult :=
  let t := ftFmt ft
  let n := fmtWidth t
  mapElems n (fun x y _ =>
    let k : Int := if imm || n == 32 then toSigned 32 b.toNat else toSigned 16 y
    match readFloat t m.ftz x with
    | .fin s 0 e => (roundTo t m.mode m.sat m.ftz (.fin s 0 e)).1 |> (fun r => (r, 0))
    | v => roundTo t m.mode m.sat m.ftz (v.scale k)) a b 0

/-- fdot2 (R211). -/
def floatDot2 (ft : Nat) (m : FloatMods) (a b c : W32) : LaneResult :=
  let t := ftFmt ft
  let rd (x : W32) (i : Nat) := readFloat t m.ftz (bits x.toNat (16 * i) 16)
  let r := deliverFloat fp32 m.mode m.sat m.ftz
    (fdot2Exact m.mode (rd a 0) (rd b 0) (rd a 1) (rd b 1) (readFloat fp32 m.ftz c.toNat))
  (BitVec.ofNat 32 r.1, r.2)

/-- frnd (R212). -/
def floatRound (ft : Nat) (m : FloatMods) (a : W32) : LaneResult :=
  let t := ftFmt ft
  mapElems (fmtWidth t) (fun x _ _ => frndBits t m.mode m.ftz x) a 0 0

/-- bfpd.m (R215). -/
def bfpDequant (m : Nat) (md : FloatMods) (a : W32) : LaneResult :=
  let e := bits a.toNat 8 8
  let r := roundTo fp32 md.mode md.sat false (bfpVal m e (bits a.toNat 16 1) (toSigned m (bits a.toNat 0 m)))
  (BitVec.ofNat 32 r.1, if e == 0 || e == 255 then 0 else r.2)

/-- bfpq.m (R214): the element of lane position i in a quantised group, and its flags; own is the lane's contribution. -/
def bfpElement (q : BfpGroup × List (Bool × Bool)) (i : Nat) (own : FVal) : LaneResult :=
  let g := q.1
  let fl := q.2.getD i (false, false)
  (BitVec.ofNat 32 (ofInt 8 (g.m.getD i 0) + g.e <<< 8 + (g.mu.getD (i / 2) 0) <<< 16),
    (if fl.1 then excX else 0) ||| (if fl.2 then excSat else 0) ||| (if own.isInf then excI else 0))

/-! ## Reductions (R67, R193) -/

/-- The float combining operations of R193: code 8 add, 9 min, 10 max. -/
def redFloat (op : Nat) (m : FloatMods) (x y : W32) : LaneResult :=
  if op == 8 then
    let r := deliverFloat fp32 m.mode false m.ftz
      (fsumExact m.mode (readFloat fp32 m.ftz x.toNat) (readFloat fp32 m.ftz y.toNat))
    (BitVec.ofNat 32 r.1, r.2)
  else (BitVec.ofNat 32 (fminmax fp32 m.ftz (op == 10) false x.toNat y.toNat), 0)

/-- The identity of a combining operation (R193). -/
def redIdentity (op : Nat) : W32 :=
  if op == 1 then 0x7FFFFFFF#32 else if op == 2 then 0xFFFFFFFF#32 else if op == 3 then 0x80000000#32
  else if op == 5 then 0xFFFFFFFF#32 else if op == 8 then 0x80000000#32 else if op == 9 then 0x7F800000#32
  else if op == 10 then 0xFF800000#32 else 0#32

/-- The integer combining operations 1 to 7 of R193. -/
def redInt (op : Nat) (x y : W32) : W32 :=
  if op == 1 then (if x.slt y then x else y) else if op == 2 then (if x.ult y then x else y)
  else if op == 3 then (if x.slt y then y else x) else if op == 4 then (if x.ult y then y else x)
  else if op == 5 then x &&& y else if op == 6 then x ||| y else x ^^^ y

/-- One level of the tree of R67. -/
def pairUp (f : W32 → W32 → LaneResult) : List LaneResult → List LaneResult
  | a :: b :: rest =>
    let r := f a.1 b.1
    (r.1, r.2 ||| a.2 ||| b.2) :: pairUp f rest
  | xs => xs

/-- The binary tree over lane index (R67): levels is log2 of the lane count. -/
def treeReduce (f : W32 → W32 → LaneResult) : Nat → List LaneResult → LaneResult
  | 0, xs => xs.headD (0, 0)
  | k + 1, xs => treeReduce f k (pairUp f xs)

/-- Exact sum of signed lanes, delivered to INT32 (R193). -/
def sumLanes (sat : Bool) (xs : List W32) : LaneResult :=
  let r := deliverInt 32 false sat (xs.foldl (fun (acc : Int) x => acc + toSigned 32 x.toNat) 0)
  (BitVec.ofNat 32 r.1, r.2)

/-- vred over all lane positions, none standing for a lane that does not take part (R193). -/
def reduceLanes (op : Nat) (sat : Bool) (m : FloatMods) (xs : List (Option W32)) : LaneResult :=
  let parts := xs.filterMap id
  if op == 0 then sumLanes sat parts
  else if op < 8 then (parts.foldl (redInt op) (redIdentity op), 0)
  else treeReduce (redFloat op m) xs.length.log2 (xs.map (fun x => (x.getD (redIdentity op), 0)))

/-- vscn's running values before and after each participant in ascending order (R193): exclusive and inclusive. -/
def scanLanesGo (op : Nat) (m : FloatMods) : LaneResult → List W32 → List (LaneResult × LaneResult)
  | _, [] => []
  | acc, x :: xs =>
    let nx : LaneResult :=
      if op < 8 then (redInt op acc.1 x, 0)
      else
        let r := redFloat op m acc.1 x
        (r.1, r.2 ||| acc.2)
    (acc, nx) :: scanLanesGo op m nx xs

/-- vscn over the participants' values (R193). -/
def scanLanes (op : Nat) (sat exc : Bool) (m : FloatMods) (xs : List W32) : List LaneResult :=
  if op == 0 then (List.range xs.length).map (fun t => sumLanes sat (xs.take (if exc then t else t + 1)))
  else (scanLanesGo op m (redIdentity op, 0) xs).map (fun p => if exc then p.1 else p.2)

end Sys2Proof.Machine
end

