-- ==== Sys2Proof/Machine/State.lean ====
section
/-!
DEFINITION. The state of the Synugor S8 module as plain data: bring-up and the Tikel link, the dies, the cores, partitions,
work (records, leases, crews, gangs, bundles, lanes), memory and its caches, engine operations and what is in transit.
Fields marked "model" belong to the model and not to the manual.
-/

namespace Sys2Proof.Machine

/-! ## Lanes, slices, sub-bundles, bundles -/

/-- One lane (R3, R144): registers, operand file, latch belt with valid bits, predicates (bit 0 unused), plane. -/
structure Lane where
  v : List W32
  o : List W32
  z : List (W32 × Bool)
  p : BitVec 8
  plane : Nat
  halted : Bool
  exited : Bool
  deriving DecidableEq, Repr

/-- A join-stack entry (R151): the join offset, the pending offset, the pending and full masks. -/
structure JoinEnt where
  j : Nat
  poff : Nat
  pend : BitVec 4
  full : BitVec 4
  deriving DecidableEq, Repr

/-- A slice, or a detached lane's own offset and stacks (R143, R387). home is the slice of the bundle; own is the mask of
the lanes it holds (all four for a slice, one for a detached lane, none for an unused detached record). -/
structure Slice where
  home : Nat
  own : BitVec 4
  offset : Nat
  active : BitVec 4
  join : List JoinEnt
  call : List Nat
  exited : Bool
  deriving DecidableEq, Repr

/-- What a sub-bundle waits for (R353, R401). -/
inductive Wait where
  | none
  /-- The instruction cache (R148, reason 1). -/
  | fetch
  /-- A barrier phase (R322, reason 8): barrier and phase, after the arrival that bar.meet and bar.red make. -/
  | barrier (n : Nat) (phase : BitVec 32)
  /-- An awaited phase of a barrier that has completed: the payload combination and AB as they stood then (R319, R321, R324). -/
  | met (n : Nat) (phase : BitVec 32) (value : W64) (ab : Bool)
  /-- regang (R156, reason 16). -/
  | regang
  /-- scan.carry (R314, reason 14). -/
  | carry
  /-- wait.tl for a target fixed when it issued (R266, reason 9). -/
  | timeline (target : Nat)
  /-- A fence that has begun (R342, reason 31): later accesses of its bundle wait for it. -/
  | fence
  /-- A grp.join in its fence, or a grp.leave or grp.publish that awaits accesses (R135, reason 25), after its change of the members'
  copies: the gang's membership and window before it. -/
  | group (fence member : Bool) (window : Nat × Nat)
  /-- The instruction at the offset is tried again (model: any wait that a later state ends), with its stall reason. Of an uncharged
  sub-bundle it has not issued: one that waits under a rule is not eligible (R167). DEDUCED (log 87). -/
  | retry (reason : Nat)
  /-- A dbg.halt whose halt is still to take effect (R393, reason 31), with the status that it will write. -/
  | halting (halt status : Nat)
  /-- A memory operation in progress (R230), with the stall reason. -/
  | mem (op reason : Nat)
  /-- texp, tenc or ctld in progress (R253, R257, R259), as an engine operation. -/
  | decoder (op : Nat)
  deriving DecidableEq, Repr

/-- Where a per-lane instruction stands between its passes (R147, R166): the planes still to run, ascending, the lanes as they stood
before the first pass (R191), the scalars as they stood then (R169), and the instruction's number in the bundle's program order (R332). -/
structure Pass where
  rest : List Nat
  snap : List Lane
  base : List W64
  seq : Nat
  deriving DecidableEq, Repr

/-- A sub-bundle: its slices (indices into the bundle's slices), what it waits for, whether the waiting instruction has
been charged to the yield counter, the live count of its last yield (R161), whether it has completed a yield since its gang was placed
or restored (R353), its last issue (R167), whether a join has just
turned it to a pending path (R152, reason 17), the cycles of bank conflicts counted and not yet passed (R220), the scalars as they stood when the instruction that it waits in issued (R169), and the die's cycle of its last issue (R401). -/
structure Sub where
  slices : List Nat
  wait : Wait
  charged : Bool
  live : Option Nat
  yielded : Bool
  atYield : Bool
  halted : Bool
  stepping : Bool
  stopped : Bool
  lastIssue : Nat
  rejoined : Bool
  conflict : Nat
  base : List W64
  issuedIn : Option Nat
  pass : Option Pass
  deriving DecidableEq, Repr

/-- A bundle (R3, R144, R164): slot is its bundle slot; report and record are the halt report and the fault record of a
HALT disposition (R386, R392). -/
structure Bundle where
  slot : Nat
  s : List W64
  tok : List Nat
  awb : Nat
  awl : Nat
  ycount : Nat
  lanes : List Lane
  slices : List Slice
  subs : List Sub
  killed : Bool
  report : List Byte
  faultRec : List Byte
  /-- The UNCORRECTABLE subcode to charge at the next issue (R369). -/
  damaged : Option Nat
  /-- The die's cycles when a sub-bundle last issued, when its first waiting sub-bundle began to wait, or at the last waiting tick (R159). -/
  lastCycle : Nat
  /-- Instructions issued, by which program order is numbered (R332, R347), and how many of them were fence.alias (R335). -/
  issues : Nat
  aliasFences : Nat
  deriving DecidableEq, Repr

/-! ## Gang state -/

/-- The kernel header fields a resident gang uses (R22), with the image address. -/
structure Kernel where
  kva : W64
  planes : Nat
  width : Nat
  bundles : Nat
  v : Nat
  barriers : Nat
  atlas : Nat
  scratch : Nat
  accRows : Nat
  yieldMax : Nat
  stride : Nat
  codeLen : Nat
  entry : Nat
  codeOff : Nat
  dataOff : Nat
  dataLen : Nat
  imgLen : Nat
  deriving DecidableEq, Repr

/-- A bound handle: the 128-byte descriptor or its bytes as captured, and its VA (R92). -/
structure Handle where
  va : W64
  desc : List Byte
  deriving DecidableEq, Repr

/-- An Atlas slot (R246): STATE as ctst reads it, the invalid reason, the object bytes and its CRC. -/
structure AtlasSlot where
  state : Nat
  reason : Nat
  crc : Nat
  bytes : List Byte
  deriving DecidableEq, Repr

/-- A named barrier (R318). -/
structure Barrier where
  phase : BitVec 32
  count : Nat
  arr : Nat
  ab : Bool
  red : Option (Nat × Nat)
  payload : List (Option W64)
  /-- The combination and AB that the last completed phase delivered (R324), by phase number. -/
  result : BitVec 32 × W64 × Bool
  deriving DecidableEq, Repr

/-- A carry: its status as scan.carry returns it (0 PRESENT, 1 ABANDONED, 2 NONE, 3 MISMATCH), its tags, and its words,
component j of channel c at c + NCH × j (R303, R305, R306). -/
structure CarryBlock where
  status : Nat
  epoch : Nat
  first : Nat
  last : Nat
  data : List W32
  deriving DecidableEq, Repr

/-- The scan context of a gang (R299): operator slots, the open scan and its accumulated state. g holds each channel's running
value by component, none while it is empty; a carry-in of none is awaited, a carry-out of none is not formed; ports holds the
carries that have arrived for later scans, outbox the carries of closed scans that still wait for a place (R306). -/
structure ScanCtx where
  ops : List (Option (List W32))
  isOpen : Bool
  published : Bool
  epoch : Nat
  opslot : Nat
  nch : Nat
  first : Nat
  last : Nat
  init : Nat
  prog : List W32
  g : List (Option (List W32))
  carryIn : Option CarryBlock
  carryOut : Option CarryBlock
  sent : Bool
  ports : List CarryBlock
  outbox : List CarryBlock
  deriving DecidableEq, Repr

/-- One copy of a B slot: 64 rows of 64 mantissas, per group an exponent and micro-exponents (R278), and the width m that the
mantissas were sign-extended from, which R62 needs (log 16). -/
structure BSlot where
  mant : List Byte
  scale : List Byte
  m : Nat
  deriving DecidableEq, Repr

/-- PC sampling of a gang: interval, the devtime-cycle of the next sample, and the rotation (R404). -/
structure Sampling where
  interval : Nat
  next : Nat
  rotation : Nat
  deriving DecidableEq, Repr

/-- A resident gang (R3, R126). gid identifies it in the model. Timelines are cp, mx, sc, cl in that order (R264). -/
structure Gang where
  gid : Nat
  die : Nat
  core : Nat
  gslot : Nat
  crew : Nat
  rank : Nat
  part : Nat
  kernel : Kernel
  bundles : List Bundle
  handles : List (Option Handle)
  atlas : List AtlasSlot
  barriers : List Barrier
  tl : List Nat
  issued : List Nat
  group : Nat
  windows : List (Nat × Nat)
  scan : ScanCtx
  acc : List (List W32)
  bFront : List BSlot
  bBack : List BSlot
  regBase : Nat
  regWords : Nat
  scratchBase : Nat
  pinBase : Nat
  pinSize : Nat
  sampling : Option Sampling
  retired : Bool
  /-- Damaged gang state (R369), as kind and number: 0 barrier, 1 Atlas slot, 2 accumulator row, 3 B slot, 4 handle. -/
  damage : List (Nat × Nat)
  /-- The scan operations whose hits hold the gang's later ones, with the bundles that issued them (R384). -/
  scanHeld : List (Nat × Nat)
  deriving DecidableEq, Repr

/-- A resident crew (R3, R128): gangs by rank as gid, none for a gang that had retired when the crew was saved (R400). -/
structure Crew where
  cid : Nat
  die : Nat
  arrival : Nat
  index : Nat
  part : Nat
  cluster : Nat
  gangs : List (Option Nat)
  seg : Option Nat
  /-- A bundle of the crew has been killed; ended: the crew has ended by a fault (R367, R368). -/
  faulted : Bool
  ended : Bool
  /-- A stop requested (R352): 0 pre-emption, 1 world switch. -/
  stop : Option Nat
  /-- A dump requested and not yet written: the DUMP message (R362). -/
  dump : Option MsgId
  /-- The save slot of a crew held by a dump (R362). -/
  dumpSlot : Option Nat
  /-- Memory operations whose stores a dump holds (R347, R362). -/
  held : List Nat
  /-- Sub-bundles that a dump did not halt, as gang, bundle and slices: they were halted before it (R362). -/
  kept : List (Nat × Nat × List Nat)
  /-- Whether a stop under R107 was cancelled for want of a save slot, so that the die chooses another victim (R354). -/
  spared : Bool
  deriving DecidableEq, Repr

/-! ## Launch state -/

/-- One die's part of a lease (R121–R123): 0 walking or waiting, 1 ready and pinned, 2 failed, 3 over; the RESIDE runs outstanding as MSGID,
first VA and pages; devtime of the first RESIDE. -/
structure LeaseShare where
  status : Nat
  resides : List (MsgId × W64 × Nat)
  first : Option Nat
  deriving DecidableEq, Repr

/-- The leases of one launch (R121–R123): its image, ranges as base and bytes, each die's part, and the dies that have
reported their share of the launch, as reporter and receiver (R123). -/
structure Lease where
  lkey : Nat
  part : Nat
  lid : W64
  kva : W64
  imgLen : Nat
  ranges : List (W64 × Nat)
  shares : List LeaseShare
  /-- The message that the dies hold from each die: 0 none, 1 ready, 2 failed. -/
  holds : List Nat
  /-- Whether the die that owns the image has read its header (R121). -/
  headed : Bool
  /-- Records of the launch on each die not yet reported (spawned children included). -/
  records : List Nat
  reported : List (Nat × Nat)
  deriving DecidableEq, Repr

/-! ## Partitions -/

/-- An overflow ring (R102): VA, entries, head, count; and, by entry from the head, the leases of its record, none once it
has been discarded, and the arrival numbers of the records whose LATE notice has been sent (model). -/
structure Ring where
  va : W64
  entries : Nat
  head : Nat
  count : Nat
  lkeys : List (Option Nat)
  late : List Nat
  deriving DecidableEq, Repr

/-- A partition (R18, R408, R351): its keys and shares, mode, LSEQ, violation SEQ and fault SEQ per die, dispositions as each die holds them (R373),
debug session, reset in progress as start time and dies done, and which dies hold it under a world switch. -/
structure Partition where
  key : BitVec 16
  weights : List Nat
  quota : Nat
  hbmWeight : Nat
  llcQuota : Nat
  roots : List W64
  vlog : W64
  privileged : Bool
  lseq : Nat
  vseq : List Nat
  vloss : List (Option Nat)
  fseq : List Nat
  faultact : List W64
  session : Bool
  resetting : Option Nat
  resetDone : List Nat
  /-- PARTRESET messages to be answered, and dies whose reset has been reported late (R114). -/
  resetMsgs : List MsgId
  resetLate : List Nat
  held : List Bool
  /-- Overflow ring per die (R102). -/
  rings : List Ring
  /-- Sampling ring per die: VA and entries (R404). -/
  sampRings : List (Option (W64 × Nat))
  deriving DecidableEq, Repr

/-- A pinned segment (R131, R132); its holder, resident or stopped, by arrival number × 2^24 + crew index (model). -/
structure Segment where
  part : Nat
  seg : Nat
  die : Nat
  cluster : Nat
  ps : Nat
  cores : List Nat
  holder : Option Nat
  freePending : Bool
  deriving DecidableEq, Repr

/-- An expanded-view registration (R239). -/
structure XView where
  part : Nat
  die : Nat
  xid : Nat
  desc : List Byte
  dva : W64
  tables : List (List Byte)
  deriving DecidableEq, Repr

/-- A participant of a group that is a gang of the module (R329): its index, the operations of the participants before it at that index, its
own last operation, both as numbers on the group, and the gang. -/
structure CollPart where
  idx : Nat
  base : Nat
  count : Nat
  gang : Nat
  deriving DecidableEq, Repr

/-- A registered collective group (R326): endpoints and participant indices; and the gangs of the module that have used an index (R329). -/
structure CollGroup where
  part : Nat
  gid : W32
  ends : List Nat
  idxs : List Nat
  issued : List CollPart
  deriving DecidableEq, Repr

/-- A Sextant program and its cells (R389). -/
structure SxProg where
  part : Nat
  die : Nat
  n : Nat
  words : List W32
  cells : List W64
  deriving DecidableEq, Repr

/-- A watch entry: the 256 bits, HITS, ARMED and the owning gang (R378, R379). -/
structure WatchEntry where
  w : List W64
  hits : Nat
  armed : Bool
  owner : Option Nat
  deriving DecidableEq, Repr

/-- A gang's copy of a Sextant entry (R378): HITS, ARMED, and the microsecond of devtime of its last ACTION 4 notice (R385). -/
structure SxCopy where
  gid : Nat
  hits : Nat
  armed : Bool
  notified : Option Nat
  deriving DecidableEq, Repr

/-- A Sextant entry of a partition and die (R378), with the copies of the gangs that it has matched; every other gang's copy is armed and has
no hits. -/
structure SxEntry where
  part : Nat
  die : Nat
  e : Nat
  w : List W64
  copies : List SxCopy
  deriving DecidableEq, Repr

/-- A counter (R402, R403): tag is the writing gang as LID, crew index and rank under GANG. -/
structure Counter where
  value : Nat
  ovf : Bool
  sel : W64
  tag : Option (W64 × Nat × Nat)
  deriving DecidableEq, Repr

/-! ## Memory system -/

/-- A TLB entry of a home agent (R136): partition, first VA and bytes of the page, and the leaf entry. -/
structure TlbEnt where
  agent : Nat
  part : Nat
  va : Nat
  size : Nat
  leaf : W64
  deriving DecidableEq, Repr

/-- A region-table entry (R141). -/
structure RegionEnt where
  agent : Nat
  part : Nat
  region : Nat
  va0 : Nat
  pa0 : Nat
  deriving DecidableEq, Repr

/-- A line present in an LLC slice: its way, line number (PA / 128), eviction class (R216, R225). -/
structure LlcLine where
  slice : Nat
  way : Nat
  line : Nat
  cls : Nat
  deriving DecidableEq, Repr

/-- A line held in an L1 (R216, R219): partition, VA of the line, its location in memory, its bytes, eviction class. -/
structure L1Line where
  part : Nat
  va : Nat
  loc : Nat
  data : List Byte
  cls : Nat
  deriving DecidableEq, Repr

/-- What one core holds outside its gangs; cores not listed hold nothing. -/
structure Core where
  die : Nat
  core : Nat
  l1 : List L1Line
  icache : List (Nat × Nat)
  watch : List WatchEntry
  counters : List Counter
  /-- CECNT and UECNT by partition (R373). -/
  errors : List (Nat × Nat × Nat)
  /-- Devtime of the last ACTION 4 notice of each of the sixteen entries (R385). -/
  notified : List (Option Nat)
  /-- Cycles that reads of one register bank took, counted and not yet passed, as gang, bundle, sub-bundle and cycles (R174). -/
  banked : List (Nat × Nat × Nat × Nat)
  deriving DecidableEq, Repr

/-- One lane's part of a memory operation: 0 waiting for its home agent, 1 walking, 2 at its slice, 3 done, 4 error
response (R229). The data are the bytes to write, or the bytes returned. -/
structure LaneReq where
  lane : Nat
  va : W64
  size : Nat
  status : Nat
  predicted : Option Nat
  /-- Whether a predicted read has been squashed, so that it is replayed (R141). -/
  replay : Bool
  loc : Nat
  /-- The home slice of the line (R140). -/
  slice : Nat
  data : List Byte
  /-- The comparand of .cas (R233); after the access, the new value (R381). -/
  cmp : List Byte
  /-- The fault of an error response (class, subcode, and for the expanded view XID, tile row, tile column, bit offset,
  descriptor VA). -/
  err : List Nat
  /-- The sender's vector clock on a response that crosses dies (R339). -/
  clock : List Nat
  /-- The line to fill L1 with, and whether an invalidation has made the fill non-filling (R142, R219). -/
  line : List Byte
  noFill : Bool
  deriving DecidableEq, Repr

/-- A memory operation of an instruction (R222–R235): what it does, its scope, order and attributes, its destination. -/
structure MemOp where
  id : Nat
  gid : Nat
  bundle : Nat
  sub : Nat
  plane : Nat
  offset : Nat
  /-- 0 load, 1 store, 2 atomic. -/
  kind : Nat
  uniform : Bool
  /-- Attribute word (R222). -/
  attr : Nat
  aop : Nat
  dest : Nat
  nwb : Bool
  len : Nat
  /-- Space: 0 global, 1 own scratchpad, 2 crew scratchpad with its rank. -/
  space : Nat
  rank : Nat
  lanes : List LaneReq
  /-- The instruction's number in the bundle's program order (R332, R347), and the fence.alias instructions before it (R335). -/
  seq : Nat
  fences : Nat
  held : Bool
  /-- The scratchpad bytes that the loads and atomics of all passes read, as gang, address and size: the first pass waits for their
  lines (R221). -/
  gate : List (Nat × Nat × Nat)
  deriving DecidableEq, Repr

/-- An invalidation batch in transit between dies (R339): source, destination, stamp, lines, and the vector clock it
carries; spare is the core, as die and core, whose store made the write (R219). -/
structure InvalBatch where
  src : Nat
  dst : Nat
  stamp : Nat
  lines : List Nat
  spare : Option (Nat × Nat)
  clock : List Nat
  deriving DecidableEq, Repr

/-- An INVALIDATE in progress (R142). -/
structure InvalReq where
  id : Nat
  msg : MsgId
  part : Nat
  die : Nat
  va : W64
  bytes : Nat
  acks : List (Nat × Nat)
  deriving DecidableEq, Repr

/-! ## Engines and the network -/

/-- What a fault's defining rule says of it; absent fields are zero in the record (R365). -/
structure FaultInfo where
  cls : Nat
  sub : Nat := 0
  plane : Option Nat := none
  lane : Option Nat := none
  engine : Nat := 0
  detail : Nat := 0
  offset : Option Nat := none
  addr : Nat := 0
  opnum : Nat := 0
  handle : Nat := 0
  xvf : Bool := false
  trow : Nat := 0
  tcol : Nat := 0
  bitoff : Nat := 0
  progress : Nat := 0
  /-- The devtime of its detection, where that is not the time at which it is taken (R328, R365). -/
  time : Option Nat := none
  deriving DecidableEq, Repr

/-- An engine operation of a gang (R264, R361): engine 1 copy, 2 matrix or bload, 3 scan, 4 collective; and, waited for by
its sub-bundle, 5 texp, 6 tenc, 7 ctld (R255, R258, R259). -/
structure EngOp where
  id : Nat
  gid : Nat
  bundle : Nat
  eng : Nat
  /-- FN of the major, and the major. -/
  major : Nat
  fn : Nat
  number : Nat
  tok : Option Nat
  offset : Nat
  /-- The lowest occupied plane of the issuing sub-bundle (R250). -/
  plane : Nat
  words : List W32
  params : List W64
  desc : List Byte
  /-- 0 not started, 1 stopped or running at a step, 2 waiting on EB, 3 chained and not handed on, 4 faulted (it never
  completes, R267), 5 abandoned by its EB (R275); of engines 5–7: 0 waiting for its bytes, 1 served. -/
  state : Nat
  pos : Nat
  pos2 : Nat
  chain : Nat
  held : Bool
  /-- Of a collective, the devtime of its issue; of a matrix operation, when its next K-step came to the A port (R244; model). -/
  time : Nat
  /-- Phase that a multicast awaits on its EB (R275). -/
  ebPhase : Option (BitVec 32)
  /-- Targets of a crew-wide operation as gids (R274, R283). -/
  targets : List Nat
  /-- The number of its instruction in the bundle's program order (R332). -/
  order : Nat
  /-- Partition, die and core at issue: a collective may outlive its gang's stay (R330, R368). -/
  site : Nat × Nat × Nat
  /-- A fault found and still to be delivered: of a collective, because its gang was not resident (R328); of a tile run, because the
  tiles before it are still to be written (R276). -/
  owed : Option FaultInfo
  /-- Of a chained matrix operation: its copy faulted, so that it is never handed on and never arrives at the array (R277, R290). -/
  lost : Bool
  /-- Of a copy: the words of its source, with whether each is poisoned, that were read whole with a 16-byte block and are still to be
  written (R75). -/
  ahead : List (W32 × Bool)
  deriving DecidableEq, Repr

/-- What a halted sub-bundle of a stopped gang waits for, by bundle and place, whether its instruction has issued, and the scalars as they
stood then (log 16). -/
structure SavedWait where
  bundle : Nat
  place : Nat
  wait : Wait
  charged : Bool
  base : List W64
  deriving DecidableEq, Repr

/-- What the dies keep of a stopped bundle besides its block (log 16): its damage (R369), and the instructions and fence.alias that it has
issued (R332, R335). -/
structure SavedBundle where
  damaged : Option Nat
  issues : Nat
  aliasFences : Nat
  deriving DecidableEq, Repr

/-- What the dies keep of a stopped gang besides its saved block (log 16): its crew index and rank, its identity, the address of
its block, the widths m of its B slots, of each engine operation what its record does not hold (R361), which operator slots are set, what
halted sub-bundles wait for, the lanes that have exited by themselves, the carries of closed scans still to be sent, the number of words
of the carries in its ports, the hits that hold its scan operations, its damaged items, the poisoned words of its working region as offsets
divided by 4 (R369), and its bundles. -/
structure SavedGang where
  index : Nat
  rank : Nat
  gid : Nat
  block : W64
  widths : List Nat
  ops : List EngOp
  programs : List Bool
  waits : List SavedWait
  gone : List (Nat × Nat)
  outbox : List CarryBlock
  ports : List Nat
  scanHeld : List (Nat × Nat)
  damage : List (Nat × Nat)
  poison : List Nat
  bundles : List SavedBundle
  deriving DecidableEq, Repr

/-- A continuation record (R100, R102), with what a store entry keeps besides (R102): crews stopped and awaiting resumption
as index, save slot and whether a bundle was killed, crews retired and ended by faults. lkey names its launch's leases. -/
structure Record where
  packet : List Byte
  lkey : Nat
  lseq : Nat
  wt : List Nat
  arrival : Nat
  next : Nat
  left : Nat
  ncrew : Nat
  mode : Nat
  mask : Nat
  reserve : Bool
  stoppedCrews : List (Nat × Nat × Bool)
  retired : Nat
  faulted : Nat
  imageOk : Bool
  placedAny : Bool
  /-- The record was the first of its partition when a crew of it was placed, and has crews to place still (R105). -/
  leads : Bool
  lateSent : Bool
  waitSince : Option Nat
  /-- The gangs of stopped crews (model). -/
  saved : List SavedGang
  deriving DecidableEq, Repr

/-- A carry in transit on the Meridian network (R304), from a gang to a gang. -/
structure CarryMsg where
  id : Nat
  src : Nat
  dst : Nat
  block : CarryBlock
  deriving DecidableEq, Repr

/-- A remote barrier arrival in transit (R323), with the number of its instruction in the bundle's program order. -/
structure RemoteArr where
  id : Nat
  seq : Nat
  srcGid : Nat
  srcBundle : Nat
  dstGid : Nat
  barrier : Nat
  deriving DecidableEq, Repr

/-- What a collective has received, by group and operation number (R329): each participant's shape and contribution. -/
structure CollState where
  part : Nat
  gid : W32
  k : Nat
  contribs : List (Nat × CollShape × List Wire × List Byte)
  outcome : Option (Nat × Bool × Bool × Nat × List Byte)
  ended : List Nat
  deriving DecidableEq, Repr

/-- A fabric frame that leaves a port (R326): the die, the endpoint that it is sent to, the key of the partition that issued it, the
group, the number of the operation, and what it brings. -/
structure FabricOut where
  die : Nat
  dst : Nat
  key : BitVec 16
  gid : W32
  k : Nat
  body : FabricBody
  deriving DecidableEq, Repr

/-- A halt that falls due (R384): level 1 lane, 2 bundle, 3 gang, with its report; the event that asked for it, the DEBUG
message that it answers (R389), and the operation that it holds; the instructions that the bundle had issued at the event, the most that it
may issue before the halt, and the memory operation whose access raised it, after whose return it issues none (R384, log 89). -/
structure PendingHalt where
  id : Nat
  ev : Nat
  reply : Option MsgId
  gid : Nat
  bundle : Nat
  lane : Nat
  level : Nat
  report : List Byte
  op : Option Nat
  base : Nat
  bound : Nat
  mem : Option Nat
  deriving DecidableEq, Repr

/-- A Sextant program run that waits its turn (R389): the event fields and where its halt would fall. -/
structure SxRun where
  id : Nat
  ev : Nat
  part : Nat
  die : Nat
  prog : Nat
  event : List W64
  gid : Nat
  bundle : Nat
  lane : Nat
  report : List Byte
  /-- The sub-bundle whose skid-0 event waits for the run, as its first slice. -/
  waits : Option Nat
  op : Option Nat
  /-- The most instructions that the bundle may issue between the run's end and its halt, and the memory operation of the event (R384). -/
  bound : Nat
  mem : Option Nat
  deriving DecidableEq, Repr

/-! ## Dies, link, module -/

/-- The identity certificate (R15): the module's part number and serial number, and the public keys of the eight dies. -/
structure Certificate where
  partNumber : List Byte
  serial : List Byte
  keys : List (List Byte)
  deriving DecidableEq, Repr

/-- The authenticated configuration (R14): repair maps for cores, SRAM rows, LLC slices and link lanes, voltage and clock trims,
the minimum firmware version, the PUF helper data and the identity certificate. The manual gives the maps and trims no layout;
they are kept as bytes (log 13). -/
structure FlashConfig where
  repairCores : List Byte
  repairRows : List Byte
  repairSlices : List Byte
  repairLanes : List Byte
  voltageTrims : List Byte
  clockTrims : List Byte
  minVersion : Nat
  helper : List Byte
  cert : Certificate
  deriving DecidableEq, Repr

/-- A compute die (R2): firmware, configuration and identity status; clock; devtime offset; cycles; vector clock; arrival
counter; deficit-round-robin turns; backfill; pending-launch store; translation tables; LLC; counter assignment. -/
structure Die where
  /-- The die's own copy of the firmware that it runs (R13). -/
  fw : Option FwImage
  fwStatus : Nat
  /-- The minimum-version record as the boot ROM read it (R14). -/
  minRead : Nat
  /-- The configuration that the die has applied (R14). -/
  applied : Option FlashConfig
  /-- The private identity key (R15); no instruction, command or message reads it. -/
  secret : Option Nat
  cfgStatus : Nat
  idStatus : Nat
  clock : Nat
  shutdown : Bool
  /-- Offset of the die's devtime from CD0's in nanoseconds; devtime of its last check; and, while the offset is being slewed,
  the nanoseconds passed since its last correction by 1 ns (R17). -/
  devOffset : Int
  lastCheck : Nat
  slew : Option Nat
  cycles : Nat
  /-- The part of a cycle that has passed, in 10^-6 of a cycle (R7, R21). -/
  cycRem : Nat
  vclock : List Nat
  arrivals : Nat
  /-- Credits of each partition in classes 0 and 1, the partition whose turn it is, and the last zero-weight partition
  served (R105; log 7). -/
  credits : List (List Nat)
  turn : List Nat
  zeroTurn : List Nat
  backfillStop : Option Nat
  store : List Record
  tlb : List TlbEnt
  regions : List RegionEnt
  llc : List LlcLine
  ctrOwner : List (Option Nat)
  /-- The die's cycles when a PERFSET last changed each counter's partition (R402). -/
  ctrMoved : List (Option Nat)
  deriving DecidableEq, Repr

/-- A frame of a message before it is sent: TYPE, FIRST, LAST, MSGID and the payload bytes in use (R12). -/
structure TxFrame where
  kind : Nat
  first : Bool
  last : Bool
  msg : MsgId
  payload : List Byte
  deriving DecidableEq, Repr

/-- The Tikel link (R10–R12). rxBody: the bytes that have come of the message whose LAST frame has not. -/
structure Link where
  trained : Option LinkSetting
  degraded : Bool
  retries : Nat
  txLsn : BitVec 16
  txMsg : MsgId
  /-- Frames sent and not acknowledged, oldest first (at most 1,024). -/
  unacked : List (List Byte)
  /-- Frames of messages waiting for room. -/
  backlog : List TxFrame
  /-- Every frame put on the line since the reset of the module, oldest first (model). -/
  sent : List (List Byte)
  resends : Nat
  rxLast : Option (BitVec 16)
  ackOwed : Bool
  rxBody : List Byte
  deriving DecidableEq, Repr

/-- The configuration flash (R14): the minimum-version record as the boot ROM reads it, the configuration, and the signature over
the whole configuration. -/
structure Flash where
  minRecord : Nat
  config : FlashConfig
  sig : List Byte
  deriving DecidableEq, Repr

/-- A message to the control node (R12). -/
inductive OutMsg where
  /-- NOTICE (R113): type, partition, die, detail, LID, devtime and the body bytes from bit 192. -/
  | notice (kind part die detail : Nat) (lid : W64) (time : Nat) (body : List Byte)
  /-- REPLY (R12): the request's MSGID, the status and any values. -/
  | reply (req : MsgId) (status : Nat) (vals : List W64)
  /-- The REPLY of status 0 to a PINSEG, with the segment's cores (R131). -/
  | cores (req : MsgId) (cs : List Nat)
  /-- BRINGUP (R8, R9, R12): phase, die, reason code, and values of a report. -/
  | bringup (phase die reason : Nat) (vals : List Nat)
  /-- BRINGUP of phase 5 (R8, R15): a die's public identity key and the certificate. -/
  | identity (die : Nat) (key : List Byte) (cert : Certificate)
  /-- ATTEST_REPORT (R16): the signed bytes and the signature. -/
  | attest (req : MsgId) (body sig : List Byte)
  /-- RESIDE (R121): MSGID, die, partition, first VA, pages. -/
  | reside (id : MsgId) (die part : Nat) (va : W64) (pages : Nat)
  /-- INVAL_DONE (R142). -/
  | invalDone (req : MsgId) (status : Nat)
  /-- DUMP_DONE (R362): status and slot. -/
  | dumpDone (req : MsgId) (status slot : Nat)
  /-- MEMDATA (R12). -/
  | memData (req : MsgId) (status : Nat) (data : List Byte)
  deriving DecidableEq, Repr

/-- An uncorrectable soft error (R369), which the environment brings: of a 4-byte word of memory or scratchpad, by its location; of an item
of a gang's state, as Gang.damage has it; or of a bundle's own state. -/
inductive SoftError where
  | word (loc : Nat)
  | item (gid kind n : Nat)
  | bundle (gid bundle : Nat)
  deriving DecidableEq, Repr

/-- What the next step does (model): an event of the opcode table, the issue of a sub-bundle's next instruction, or a soft error. -/
inductive Turn where
  | event (i : Instr)
  | issue (gid bundle sub : Nat)
  | soft (e : SoftError)
  deriving DecidableEq, Repr

/-- The sub-bundle whose instruction exec runs (model): the words it fetched in every occupied plane, the plane of this
pass, the planes of the passes after it, whether it is the first pass, and the lanes as they stood before the first pass
(R191). -/
structure Issuer where
  gid : Nat
  bundle : Nat
  sub : Nat
  plane : Nat
  rest : List Nat
  first : Bool
  words : List (Nat × List W32)
  snap : List Lane
  /-- The scalars as they stood before the first pass (R169). -/
  base : List W64
  deriving DecidableEq, Repr

/-- The module. -/
structure State where
  /-- Bring-up phase 0–8 (R8): the last phase that has completed; failed and down stop everything but power and reset. -/
  phase : Nat
  failed : Bool
  /-- The HBM rails are on; rails: the core rails are on too (R8). -/
  hbmRails : Bool
  rails : Bool
  resetHeld : Bool
  link : Link
  flash : Flash
  /-- Each die's boot ROM: the digest of the firmware-signing key (R13; it never changes). -/
  roms : List (List Byte)
  dies : List Die
  /-- CD0's devtime in nanoseconds, and the picoseconds beyond it (R17). -/
  devtime : Nat
  psRem : Nat
  devRunning : Bool
  /-- Attestation requests held: MSGID and nonce (R16). -/
  attest : List (MsgId × List Byte)
  out : List OutMsg
  parts : List (Option Partition)
  segs : List Segment
  xviews : List XView
  groups : List CollGroup
  leases : List Lease
  invals : List InvalReq
  crews : List Crew
  gangs : List Gang
  cores : List Core
  /-- Memory: HBM of die d at d × 2^37 + PA; the scratchpads from 2^40 on (padLoc, pinLoc). -/
  mem : List Host.Cell
  /-- Scratchpad lines whose presence bit is clear, as location / 128 (R221). -/
  absent : List Nat
  /-- Poisoned 4-byte words, as location / 4 (R369). -/
  poison : List Nat
  memOps : List MemOp
  batches : List InvalBatch
  ops : List EngOp
  carries : List CarryMsg
  remotes : List RemoteArr
  colls : List CollState
  /-- The frames that have left the fabric ports, oldest first (R326), the peers' endpoints whose keys are revoked, and the keys of the module's
  own partitions that are (R370). -/
  fabric : List FabricOut
  revoked : List Nat
  ownRevoked : List (BitVec 16)
  sxEntries : List SxEntry
  sxProgs : List SxProg
  sxRuns : List SxRun
  halts : List PendingHalt
  /-- model: the turns that the environment has fixed, first to be taken first. -/
  inputs : List Turn
  /-- model: the frames on the line toward the module (R11, R12), oldest first; the environment puts them there. A message may also come
  whole, as its event in inputs. -/
  arriving : List (List Byte)
  /-- model: the die and reason code of the failure that phase 7 will meet, none when HBM and fabric ports come up (R8, R9); the
  environment fixes it. -/
  trainFault : Option (Nat × Nat)
  /-- model: the issuer of the instruction that exec runs. -/
  cur : Option Issuer
  /-- model: steps taken. -/
  tick : Nat
  /-- model: free values drawn. -/
  draws : Nat
  /-- model: fresh identifiers given. -/
  nextId : Nat
  deriving DecidableEq, Repr

/-- Why a step stops. -/
inductive Fault where
  /-- An instruction row was given to exec while no sub-bundle issues it; raised by exec alone, never by step. Safe: the
  hardware has no such step. -/
  | noIssuer
  /-- An event row that cannot occur in this state (a phase out of order, a name of nothing in progress, a message on a
  link that is not up). Safe: the hardware takes no such step. -/
  | notEnabled
  deriving DecidableEq, Repr

/-- Why a meaning is refused. -/
inductive Refusal where
  /-- The instruction has no meaning in the model yet; raised by exec's own arms. Safe: nothing follows from it. -/
  | notModelled (mnemonic : String)
  deriving DecidableEq, Repr

/-- A die with its rails off (R8, R2: 3.0 GHz is the clock it starts at). -/
def Die.reset : Die :=
  { fw := none, fwStatus := 0, minRead := 0, applied := none, secret := none, cfgStatus := 0, idStatus := 0, clock := 3000,
    shutdown := false, devOffset := 0, lastCheck := 0, slew := none, cycles := 0, cycRem := 0, vclock := [0, 0, 0, 0, 0, 0, 0, 0], arrivals := 0, credits := [[], []], turn := [15, 15],
    zeroTurn := [15, 15], backfillStop := none, store := [], tlb := [], regions := [], llc := [],
    ctrOwner := List.replicate 16 none, ctrMoved := List.replicate 16 none }

/-- The link before training (R10, R12). -/
def Link.reset : Link :=
  { trained := none, degraded := false, retries := 0, txLsn := 0, txMsg := 0, unacked := [], backlog := [], sent := [], resends := 0,
    rxLast := none, ackOwed := false, rxBody := [] }

/-- A configuration flash with nothing in it; R8 keeps its contents across power cycles and gives none. DESIGN CHOICE (log 4), as
are the eight key digests of 32 zero bytes in State.reset's ROMs. -/
def Flash.blank : Flash :=
  { minRecord := 0, sig := [],
    config := { repairCores := [], repairRows := [], repairSlices := [], repairLanes := [], voltageTrims := [], clockTrims := [],
                minVersion := 0, helper := [], cert := { partNumber := [], serial := [], keys := [] } } }

/-- The module with every rail off (R8): it holds nothing but the configuration flash. -/
def State.reset : State :=
  { phase := 0, failed := false, hbmRails := false, rails := false, resetHeld := true, link := Link.reset, flash := Flash.blank,
    roms := List.replicate 8 (List.replicate 32 0), dies := List.replicate 8 Die.reset, devtime := 0, psRem := 0, devRunning := false, attest := [], out := [],
    parts := List.replicate 16 none, segs := [], xviews := [], groups := [], leases := [], invals := [], crews := [],
    gangs := [], cores := [], mem := [], absent := [], poison := [], memOps := [], batches := [], ops := [],
    carries := [], remotes := [], colls := [], fabric := [], revoked := [], ownRevoked := [], sxEntries := [], sxProgs := [], sxRuns := [], halts := [],
    inputs := [], arriving := [], trainFault := none, cur := none, tick := 0, draws := 0, nextId := 0 }

end Sys2Proof.Machine
end

