-- ==== Sys2Proof/Machine/Link.lean ====
section
/-!
DEFINITION. The Tikel link as bytes (R11, R12, R113): frames with their CRC, the bodies of the messages from the module, and the
queue of frames waiting, sent and unacknowledged.
-/

namespace Sys2Proof.Machine

/-! ## CRC-32 (R12, R87) -/

/-- One bit of the CRC-32 of IEEE 802.3, reflected. -/
def crcBit (c : Nat) : Nat := if c % 2 == 1 then (c / 2) ^^^ 0xEDB88320 else c / 2

/-- CRC-32 of bytes (IEEE 802.3). -/
def crc32 (bs : List Byte) : Nat :=
  (bs.foldl (fun c b => (List.range 8).foldl (fun c _ => crcBit c) (c ^^^ b.toNat)) 0xFFFFFFFF) ^^^ 0xFFFFFFFF

/-! ## Frames (R12) -/

/-- A list of bytes cut or filled with zeros to n bytes. -/
def fitBytes (n : Nat) (bs : List Byte) : List Byte := (bs ++ List.replicate n 0).take n

/-- The 268 bytes of a frame before its CRC: LSN, ACK, TYPE, FIRST, LAST and AV, USED, MSGID, PAYLOAD. -/
def TxFrame.head (f : TxFrame) (lsn : BitVec 16) (ack : Option (BitVec 16)) : List Byte :=
  leBytes 2 lsn.toNat ++ leBytes 2 (ack.getD 0).toNat ++ leBytes 1 f.kind ++
    leBytes 1 (ofBool f.first + 2 * ofBool f.last + 4 * ofBool ack.isSome) ++ leBytes 2 f.payload.length ++ leBytes 4 f.msg.toNat ++
    fitBytes 256 f.payload

/-- The 272 bytes of a frame (R12). -/
def TxFrame.bytes (f : TxFrame) (lsn : BitVec 16) (ack : Option (BitVec 16)) : List Byte :=
  f.head lsn ack ++ leBytes 4 (crc32 (f.head lsn ack))

/-- The LSN of a frame. -/
def lsnOf (frame : List Byte) : BitVec 16 := BitVec.ofNat 16 (leAt frame 0 2)

/-- Whether a frame passes its CRC (R11, R12). -/
def crcOk (frame : List Byte) : Bool := frame.length == 272 && leAt frame 268 4 == crc32 (frame.take 268)

/-- The bytes of a message cut into payloads; n bounds their number. -/
def payloads : Nat → List Byte → List (List Byte)
  | 0, _ => []
  | n + 1, bs => if bs.length ≤ 256 then [bs] else bs.take 256 :: payloads n (bs.drop 256)

/-- The frames of a message, in order, under one MSGID (R12). -/
def framesOf (kind : Nat) (msg : MsgId) (body : List Byte) : List TxFrame :=
  let ps := payloads (body.length / 256 + 1) body
  ((List.range ps.length).zip ps).map (fun p => { kind := kind, first := p.1 == 0, last := p.1 + 1 == ps.length, msg := msg, payload := p.2 })

/-- A frame put on the line: the next LSN, the acknowledgement of what has arrived, and a place among the unacknowledged. -/
def Link.emit (l : Link) (f : TxFrame) : Link :=
  let b := f.bytes l.txLsn l.rxLast
  { l with unacked := l.unacked ++ [b], sent := l.sent ++ [b], txLsn := l.txLsn + 1, ackOwed := false }

/-- Waiting frames sent while the link is up and fewer than 1,024 are unacknowledged. -/
def Link.pump (l : Link) : Link :=
  if l.trained.isNone then l
  else
    let k := 1024 - l.unacked.length
    (l.backlog.take k).foldl Link.emit { l with backlog := l.backlog.drop k }

/-- A message handed to the link: its frames follow those that wait, under the next MSGID (R12). -/
def Link.post (l : Link) (kind : Nat) (body : List Byte) : Link :=
  Link.pump { l with backlog := l.backlog ++ framesOf kind l.txMsg body, txMsg := l.txMsg + 1 }

/-- Every unacknowledged frame sent again, byte-identical (R11, R12). -/
def Link.resend (l : Link) : Link := { l with sent := l.sent ++ l.unacked }

/-- An acknowledgement applied (R12): the frames up to an LSN are forgotten, and waiting frames are sent. -/
def Link.acked (l : Link) (lsn : BitVec 16) : Link :=
  if l.unacked.any (fun f => lsnOf f == lsn) then
    Link.pump { l with unacked := (l.unacked.dropWhile (fun f => lsnOf f != lsn)).drop 1, resends := 0 }
  else l

/-- An ACK-only frame (R12). It is none of the frames that LSN counts: it takes the LSN of the next frame and MSGID 0.
DESIGN CHOICE (log 24): were it counted, it would have to be acknowledged in turn. -/
def Link.ackOnly (l : Link) : Link :=
  { l with sent := l.sent ++ [TxFrame.bytes { kind := 0, first := false, last := false, msg := 0, payload := [] } l.txLsn l.rxLast]
           ackOwed := false }

/-! ## Message bodies (R12, R113) -/

/-- A little-endian structure of n bytes from its fields, as first bit and value (R6). -/
def packFields (n : Nat) (fs : List (Nat × Nat)) : List Byte :=
  leBytes n (fs.foldl (fun acc f => acc + f.2 <<< f.1) 0)

/-- The 128 bytes of a notice (R113): TYPE, PART, DIE, DETAIL, LID, TIME, BODY. -/
def noticeBytes (kind part die detail : Nat) (lid : W64) (time : Nat) (body : List Byte) : List Byte :=
  packFields 24 [(0, kind % 256), (8, part % 16), (12, die % 8), (16, detail % 65536), (64, lid.toNat), (128, time % 2 ^ 64)] ++ fitBytes 104 body

/-- A variable-length object within a body: its length, then its bytes. DESIGN CHOICE (log 24). -/
def object (bs : List Byte) : List Byte := leBytes 4 bs.length ++ bs

/-- The bytes of an identity certificate, each item with its length. DESIGN CHOICE (log 13): the manual gives no layout. -/
def Certificate.bytes (c : Certificate) : List Byte := object c.partNumber ++ object c.serial ++ c.keys.flatMap object

/-- The TYPE of a message from the module (R12). -/
def OutMsg.kind : OutMsg → Nat
  | .notice _ _ _ _ _ _ _ => 2
  | .reply _ _ _ => 3
  | .cores _ _ => 3
  | .bringup _ _ _ _ => 4
  | .identity _ _ _ => 4
  | .attest _ _ _ => 7
  | .reside _ _ _ _ _ => 12
  | .invalDone _ _ => 16
  | .dumpDone _ _ _ => 33
  | .memData _ _ _ => 36

/-- The body of a message from the module: a layout of its own, or its fields packed in order, each in the fewest of 1, 2, 4 or 8
bytes that hold its range (R12). DESIGN CHOICE (log 24): the values of a BRINGUP report take 8 bytes each, INVAL_DONE and DUMP_DONE begin
with the request's MSGID and a 16-bit status, as REPLY and MEMDATA do, and ATTEST_REPORT begins with the request's MSGID, which R16 does not
name: without it nothing would tell which request a report answers. -/
def OutMsg.body : OutMsg → List Byte
  | .notice kind part die detail lid time body => noticeBytes kind part die detail lid time body
  | .reply req status vals => leBytes 4 req.toNat ++ leBytes 2 status ++ vals.flatMap (fun v => leBytes 8 v.toNat)
  | .cores req cs => leBytes 4 req.toNat ++ leBytes 2 0 ++ cs.flatMap (leBytes 2)
  | .bringup phase die reason vals => leBytes 1 phase ++ leBytes 1 die ++ leBytes 2 reason ++ vals.flatMap (leBytes 8)
  | .identity die key cert => leBytes 1 5 ++ leBytes 1 die ++ leBytes 2 0 ++ key ++ cert.bytes
  | .attest req body sig => leBytes 4 req.toNat ++ body ++ sig
  | .reside _ _ part va pages => leBytes 1 part ++ leBytes 8 va.toNat ++ leBytes 4 pages
  | .invalDone req status => leBytes 4 req.toNat ++ leBytes 2 status
  | .dumpDone req status slot => leBytes 4 req.toNat ++ leBytes 2 status ++ leBytes 2 slot
  | .memData req status data => leBytes 4 req.toNat ++ leBytes 2 status ++ data

end Sys2Proof.Machine
end

