-- ==== Sys2Proof/Machine/Ops.lean ====
section
/-!
DEFINITION. The named operations on the state: memory bytes, access to gangs, bundles, lanes and registers, messages to the
control node, the violation log, and taking a fault (R363–R368).
-/

namespace Sys2Proof.Machine

/-! ## Memory cells -/

/-- What an unlisted byte of memory reads as (log 2). -/
def blankByte : Byte := 0

/-- The byte at a location. -/
def memRead : List Host.Cell → Nat → Byte
  | [], _ => blankByte
  | c :: cs, a => if c.1 = a then c.2 else memRead cs a

/-- The byte at a location replaced, keeping the canonical form. -/
def memWrite : List Host.Cell → Nat → Byte → List Host.Cell
  | [], a, b => if b = blankByte then [] else [(a, b)]
  | c :: cs, a, b =>
    if a < c.1 then (if b = blankByte then c :: cs else (a, b) :: c :: cs)
    else if a = c.1 then (if b = blankByte then cs else (a, b) :: cs)
    else c :: memWrite cs a b

/-- Addresses strictly rising from above lo, and no entry equal to what an unlisted address reads as. -/
def memWfFrom : Option Nat → List Host.Cell → Bool
  | _, [] => true
  | lo, c :: cs => (match lo with | none => true | some a => decide (a < c.1)) && decide (c.2 ≠ blankByte) && memWfFrom (some c.1) cs

/-- The canonical form of memory. -/
def Memory.wf (m : List Host.Cell) : Bool := memWfFrom none m

/-- n bytes from a location. -/
def readBytes (m : List Host.Cell) (a : Nat) : Nat → List Byte
  | 0 => []
  | n + 1 => memRead m a :: readBytes m (a + 1) n

/-- Bytes written at ascending locations. -/
def writeBytes (m : List Host.Cell) (a : Nat) : List Byte → List Host.Cell
  | [] => m
  | b :: bs => writeBytes (memWrite m a b) (a + 1) bs

/-- The location of physical address pa of a die's HBM (R138). -/
def hbmLoc (die pa : Nat) : Nat := die * 2 ^ 37 + pa

/-- The location of byte b of the working regions of a core's four gang slots, 2^18 apart (R130; model: where a region lies in
the physical scratchpad is not visible). -/
def padLoc (die core b : Nat) : Nat := 2 ^ 40 + (die * 384 + core) * 2 ^ 20 + b

/-- The location of a pinned segment's region for a rank (R131; model). -/
def pinLoc (part seg rank : Nat) : Nat := 2 ^ 41 + ((part * 65536 + seg) * 64 + rank) * 2 ^ 18

/-- Whether a location lies in a scratchpad. -/
def isPad (loc : Nat) : Bool := loc ≥ 2 ^ 40

/-- n bytes of memory from a location. -/
def State.bytesAt (s : State) (a n : Nat) : List Byte := readBytes s.mem a n

/-- Bytes written to memory; whole words written lose their poison (R369). -/
def State.putBytes (s : State) (a : Nat) (bs : List Byte) : State :=
  { s with mem := writeBytes s.mem a bs
           poison := s.poison.filter (fun w => !(a ≤ 4 * w && 4 * w + 4 ≤ a + bs.length)) }

/-- Whether a poisoned word lies among n bytes from a location (R369). -/
def State.poisoned (s : State) (a n : Nat) : Bool := s.poison.any (fun w => 4 * w < a + n && a < 4 * w + 4)

/-! ## Parts of the module -/

/-- The die with a number. -/
def State.die (s : State) (d : Nat) : Die := s.dies.getD d Die.reset

/-- A die changed. -/
def State.modDie (s : State) (d : Nat) (f : Die → Die) : State := { s with dies := modNth s.dies d f }

/-- A core that holds nothing. -/
def Core.blank (die core : Nat) : Core :=
  { die := die, core := core, l1 := [], icache := [], watch := List.replicate 8 ⟨[0, 0, 0, 0], 0, false, none⟩,
    counters := List.replicate 16 ⟨0, false, 0, none⟩, errors := [], notified := List.replicate 16 none, banked := [] }

/-- The core with a number (R2). -/
def State.core (s : State) (die core : Nat) : Core :=
  (s.cores.find? (fun c => c.die == die && c.core == core)).getD (Core.blank die core)

/-- A core changed. -/
def State.modCore (s : State) (die core : Nat) (f : Core → Core) : State :=
  if s.cores.any (fun c => c.die == die && c.core == core) then
    { s with cores := s.cores.map (fun c => if c.die == die && c.core == core then f c else c) }
  else { s with cores := s.cores ++ [f (Core.blank die core)] }

/-- The partition with an id (R18). -/
def State.part (s : State) (p : Nat) : Option Partition := (s.parts[p]?).join

/-- A partition changed. -/
def State.modPart (s : State) (p : Nat) (f : Partition → Partition) : State :=
  { s with parts := modNth s.parts p (Option.map f) }

/-- The resident gang with a model id. -/
def State.gang (s : State) (gid : Nat) : Option Gang := s.gangs.find? (fun g => g.gid == gid)

/-- A gang changed. -/
def State.modGang (s : State) (gid : Nat) (f : Gang → Gang) : State :=
  { s with gangs := s.gangs.map (fun g => if g.gid == gid then f g else g) }

/-- The resident crew with a model id. -/
def State.crew (s : State) (cid : Nat) : Option Crew := s.crews.find? (fun c => c.cid == cid)

/-- A crew changed. -/
def State.modCrew (s : State) (cid : Nat) (f : Crew → Crew) : State :=
  { s with crews := s.crews.map (fun c => if c.cid == cid then f c else c) }

/-- The record with an arrival number on a die (R100). -/
def State.record (s : State) (d arrival : Nat) : Option Record := (s.die d).store.find? (fun r => r.arrival == arrival)

/-- A record changed. -/
def State.modRecord (s : State) (d arrival : Nat) (f : Record → Record) : State :=
  s.modDie d (fun x => { x with store := x.store.map (fun r => if r.arrival == arrival then f r else r) })

/-- A bundle of a gang changed. -/
def State.modBundle (s : State) (gid b : Nat) (f : Bundle → Bundle) : State :=
  s.modGang gid (fun g => { g with bundles := modNth g.bundles b f })

/-- The instructions that a bundle has issued (R332, R384). -/
def Gang.issuesOf (g : Gang) (b : Nat) : Nat := ((g.bundles[b]?).map (·.issues)).getD 0

/-- A sub-bundle changed. -/
def Bundle.modSub (b : Bundle) (k : Nat) (f : Sub → Sub) : Bundle := { b with subs := modNth b.subs k f }

/-- A fresh identifier (model). -/
def State.fresh (s : State) : Nat × State := (s.nextId, { s with nextId := s.nextId + 1 })

/-- A free 32-bit value (model, log 10). -/
def State.draw (s : State) : W32 × State := (Config.freeWord s.draws, { s with draws := s.draws + 1 })

/-- Devtime as a die reads it, 64 bits (R17). -/
def State.devtimeOf (s : State) (d : Nat) : Nat := ((s.devtime : Int) + (s.die d).devOffset).toNat % 2 ^ 64

/-! ## Fields of packets and bodies -/

/-- Bits lo to lo + len − 1 of a little-endian structure (R6). -/
def fieldOf (bs : List Byte) (lo len : Nat) : Nat :=
  bits (leNat ((bs.drop (lo / 8)).take (len / 8 + 2))) (lo % 8) len

/-- A 64-bit field of a little-endian structure. -/
def wordOf (bs : List Byte) (lo : Nat) : W64 := BitVec.ofNat 64 (fieldOf bs lo 64)

/-! ## Messages (R12, R113) -/

/-- A message to the control node. -/
def State.send (s : State) (m : OutMsg) : State := { s with out := s.out ++ [m], link := s.link.post m.kind m.body }

/-- A REPLY with a status and no values (R12). -/
def State.reply (s : State) (m : MsgId) (status : Nat) : State := s.send (.reply m status [])

/-- A NOTICE of a die (R113). -/
def State.notice (s : State) (kind part die detail : Nat) (lid : W64) (body : List Byte) : State :=
  s.send (.notice kind part die detail lid (s.devtimeOf die) body)

/-- A module error, as a BRINGUP message (R12: R17, R20, R21, R369). The rules give it no coding: phase 9, which is none of the
eight, with the reasons 17 devtime, 20 log entry lost, 21 clock lowered, 22 overtemperature, 114 reset late and 369 device
structure. DESIGN CHOICE (log 15). -/
def State.moduleError (s : State) (die reason : Nat) (vals : List Nat) : State := s.send (.bringup 9 die reason vals)

/-- A refusal whose reason code the rule leaves open (log 15): a free value, not 0 and not 0xFFFF. -/
def State.refuse (s : State) (m : MsgId) : State :=
  let d := s.draw
  d.2.reply m (1 + d.1.toNat % 65534)

/-- Whether the module receives messages: powered, out of reset, trained, and not failed (R8–R10). -/
def State.linkUp (s : State) : Bool := s.rails && !s.resetHeld && s.link.trained.isSome && !s.failed

/-- n frames received in order: an acknowledgement is owed (R12). -/
def State.received (s : State) (n : Nat) : State :=
  { s with link := { s.link with ackOwed := true, rxLast := some (match s.link.rxLast with
      | some l => l + BitVec.ofNat 16 n
      | none => BitVec.ofNat 16 (n - 1)) } }

/-- A message of n frames: before the ready notice it is discarded and answered by a NOT_READY notice (R9). The notice's PART and
DIE are 0, which the rule leaves open. DESIGN CHOICE (log 24). -/
def onMessage (n : Nat) (lid : W64) (s : State) (f : State → State) : Host.Outcome State Fault Refusal :=
  if !s.linkUp then .fault .notEnabled
  else if s.phase < 8 then .next ((s.received n).notice 1 0 0 0 lid [])
  else .next (f (s.received n))

/-! ## Registers -/

/-- A scalar register (R3, R36): s0 and the code 268 read zero. -/
def Bundle.readS (b : Bundle) (code : Nat) : W64 := if code = 0 ∨ code ≥ 64 then 0 else b.s.getD code 0

/-- A scalar register written (R36): a write to s0, or to the code 268, is discarded. -/
def Bundle.writeS (b : Bundle) (code : Nat) (x : W64) : Bundle :=
  if code = 0 ∨ code ≥ 64 then b else { b with s := setNth b.s code x }

/-- A predicate of a lane (R3): p0 reads true. -/
def Lane.readP (l : Lane) (n : Nat) : Bool := n % 8 == 0 || l.p.getLsbD (n % 8)

/-- A predicate written (R3): a write to p0 is discarded. -/
def Lane.writeP (l : Lane) (n : Nat) (x : Bool) : Lane :=
  if n % 8 = 0 then l
  else { l with p := BitVec.ofNat 8 (setBits l.p.toNat (n % 8) 1 (ofBool x)) }

/-- A source operand of a lane by its OC9 code (R35); index is the lane index. -/
def Lane.read (l : Lane) (index code : Nat) : W32 :=
  if code < 256 then l.v.getD code 0
  else if code < 260 then (l.z.getD (code - 256) (0, false)).1
  else if code < 268 then l.o.getD (code - 260) 0
  else if code = 269 then BitVec.ofNat 32 index
  else if code = 270 then BitVec.ofNat 32 l.plane
  else if code = 271 then BitVec.ofNat 32 (index / 4)
  else 0

/-- A destination operand written by its OC9 code (R35); 268 names no register. -/
def Lane.write (l : Lane) (code : Nat) (x : W32) : Lane :=
  if code < 256 then { l with v := setNth l.v code x }
  else if 260 ≤ code ∧ code < 268 then { l with o := setNth l.o (code - 260) x }
  else l

/-- belt_shift of R170. -/
def Lane.shift (l : Lane) (r : W32) : Lane := { l with z := (r, true) :: l.z.take 3 }

/-- The belt after a control instruction (R148): every latch invalid; the values stay (log 8). -/
def Lane.invalidate (l : Lane) : Lane := { l with z := l.z.map (fun q => (q.1, false)) }

/-- A lane of a bundle changed. -/
def Bundle.modLane (b : Bundle) (l : Nat) (f : Lane → Lane) : Bundle := { b with lanes := modNth b.lanes l f }

/-! ## Slices and sub-bundles -/

/-- The lane indices of a slice mask (R143). -/
def Slice.lanesOf (sl : Slice) (m : BitVec 4) : List Nat :=
  (List.range 4).filterMap (fun i => if m.getLsbD i then some (4 * sl.home + i) else none)

/-- The slices of a sub-bundle. -/
def Bundle.slicesOf (b : Bundle) (sub : Sub) : List Slice := sub.slices.filterMap (fun i => b.slices[i]?)

/-- Whether a lane may be active (R145): not exited, and not halted unless it is being stepped (R147). -/
def laneAwake (b : Bundle) (stepping : Bool) (l : Nat) : Bool :=
  match b.lanes[l]? with
  | none => false
  | some x => !x.exited && (!x.halted || stepping)

/-- The active lanes of a sub-bundle, ascending (R145). -/
def Bundle.activeLanes (b : Bundle) (sub : Sub) : List Nat :=
  ((b.slicesOf sub).flatMap (fun sl => sl.lanesOf (sl.active &&& sl.own))).filter (laneAwake b sub.stepping)

/-- The lanes a sub-bundle holds that have not exited, active or not (R147). -/
def Bundle.liveLanes (b : Bundle) (sub : Sub) : List Nat :=
  ((b.slicesOf sub).flatMap (fun sl => sl.lanesOf sl.own)).filter
    (fun l => match b.lanes[l]? with | none => false | some x => !x.exited)

/-- The occupied planes of a sub-bundle, ascending; with no active lane, the plane of its lowest live lane (R145, R147). -/
def Bundle.planesOf (b : Bundle) (sub : Sub) : List Nat :=
  let ps := (b.activeLanes sub).map (fun l => ((b.lanes[l]?).map (·.plane)).getD 0)
  let occ := (List.range 4).filter (fun p => ps.contains p)
  if occ.isEmpty then [((b.liveLanes sub).head?.bind (fun l => (b.lanes[l]?).map (·.plane))).getD 0] else occ

/-- The offset that the slices of a sub-bundle share (R145). -/
def Bundle.offsetOf (b : Bundle) (sub : Sub) : Nat := (((b.slicesOf sub).head?).map (·.offset)).getD 0

/-- A sub-bundle that holds a slice (R156: live when a slice has not exited). -/
def Sub.isLive (sub : Sub) : Bool := !sub.slices.isEmpty

/-- Whether a slice index names a detached record (R387): the four after the bundle's slices. -/
def Bundle.isDetached (b : Bundle) (i : Nat) : Bool := i ≥ b.lanes.length / 4

/-- Whether a bundle has exited: all its slices have, and every detached lane (R162). -/
def Bundle.exited (b : Bundle) : Bool := b.subs.all (fun q => !q.isLive)

/-- Whether a bundle is done: exited or killed (R397). -/
def Bundle.done (b : Bundle) : Bool := b.killed || b.exited

/-- Whether any lane of a bundle is halted (R386). -/
def Bundle.anyHalted (b : Bundle) : Bool := b.subs.any (·.halted) || b.lanes.any (fun l => l.halted && !l.exited)

/-! ## Barriers (R318–R321) -/

/-- The identity of a payload operation (R324). -/
def payIdentity (op : Nat) : W64 :=
  if op = 1 then 0x7FFFFFFFFFFFFFFF#64 else if op = 2 then 0xFFFFFFFFFFFFFFFF#64
  else if op = 3 then 0x8000000000000000#64 else if op = 5 then 0xFFFFFFFFFFFFFFFF#64
  else if op = 8 then 0x80000000#64 else if op = 9 then 0x7F800000#64 else if op = 10 then 0xFF800000#64 else 0

/-- One combination of R324. -/
def payCombine (op m6 : Nat) (a b : W64) : W64 :=
  let ftz := bit m6 4
  let fa := readFloat fp32 ftz (bits a.toNat 0 32)
  let fb := readFloat fp32 ftz (bits b.toNat 0 32)
  if op = 0 then a + b
  else if op = 1 then (if a.slt b then a else b)
  else if op = 2 then (if a.ult b then a else b)
  else if op = 3 then (if a.slt b then b else a)
  else if op = 4 then (if a.ult b then b else a)
  else if op = 5 then a &&& b else if op = 6 then a ||| b else if op = 7 then a ^^^ b
  else if op = 8 then
    BitVec.ofNat 64 (deliverFloat fp32 (rmode (bits m6 0 3)) false ftz (fsumExact (rmode (bits m6 0 3)) fa fb)).1
  else BitVec.ofNat 64 (fminmax fp32 ftz (op == 10) false (bits a.toNat 0 32) (bits b.toNat 0 32))

/-- The combination of the contributions present, in ascending bundle index (R324). -/
def Barrier.combined (b : Barrier) : W64 :=
  match b.red with
  | none => 0
  | some (op, m6) => (b.payload.filterMap id).foldl (payCombine op m6) (payIdentity op)

/-- Completion of the current phase (R319). -/
def Barrier.complete (b : Barrier) : Barrier :=
  { b with phase := b.phase + 1, arr := 0, red := none, payload := b.payload.map (fun _ => none),
           result := (b.phase, b.combined, b.ab) }

/-- An arrival (R319): while AB is set, every arrival completes the phase. -/
def Barrier.arrive (b : Barrier) : Barrier :=
  let b' := { b with arr := b.arr + 1 }
  if b'.ab ∨ b'.arr ≥ b'.count then b'.complete else b'

/-- Whether phase P is complete (R319); while AB is set every wait completes (R319). -/
def Barrier.isComplete (b : Barrier) (p : BitVec 32) : Bool :=
  b.ab || (1 ≤ (b.phase - p).toNat && (b.phase - p).toNat ≤ 2 ^ 31)

/-- Abandonment (R321): AB is set and the current phase completes at once. -/
def Barrier.abandon (b : Barrier) : Barrier := { b with ab := true }.complete

/-- A barrier at gang start (R318). -/
def Barrier.start (bundles : Nat) : Barrier :=
  { phase := 0, count := bundles + 1, arr := 0, ab := false, red := none, payload := List.replicate 32 none,
    result := (BitVec.ofNat 32 (2 ^ 32 - 1), 0, false) }

/-! ## Killing, halting -/

/-- A killed bundle (R367): its sub-bundles never issue again and its token counts are discarded. -/
def Bundle.kill (b : Bundle) : Bundle :=
  { b with killed := true, tok := b.tok.map (fun _ => 0),
           subs := b.subs.map (fun q => { q with wait := .none, halted := false, stepping := false }) }

/-- A sub-bundle whose awaited phase of barrier n has completed takes what the completion delivered (R319, R324). -/
def Sub.meet (q : Sub) (n : Nat) (b : Barrier) : Sub :=
  match q.wait with
  | .barrier m p => if m == n && b.isComplete p then { q with wait := .met m p b.result.2.1 b.ab } else q
  | _ => q

/-- A barrier of a gang after an operation on it, its waits that are over ended (R319). -/
def Gang.putBarrier (g : Gang) (n : Nat) (b : Barrier) : Gang :=
  { g with barriers := setNth g.barriers n b
           bundles := g.bundles.map (fun y => { y with subs := y.subs.map (fun q => q.meet n b) }) }

/-- AB set in every barrier of a gang (R321). -/
def Gang.abandonBarriers (g : Gang) : Gang :=
  ((List.range g.barriers.length).zip g.barriers).foldl (fun h p => h.putBarrier p.1 p.2.abandon) g

/-- AB set in every barrier of every gang of a crew (R321, R367); multicasts waiting on them are abandoned (R275). -/
def State.abandonCrew (s : State) (cid : Nat) : State :=
  let gids := (s.gangs.filter (fun g => g.crew == cid)).map (·.gid)
  { s with gangs := s.gangs.map (fun g => if g.crew == cid then g.abandonBarriers else g)
           ops := s.ops.map (fun o => if o.eng == 1 && o.state == 2 && gids.contains o.gid then { o with state := 5 } else o) }

/-- The effects of killing a bundle (R367); its decoder, encoder and slot-fill operations end with their instructions. -/
def State.killBundle (s : State) (gid b : Nat) : State :=
  let s := s.modBundle gid b Bundle.kill
  let s := { s with ops := s.ops.filter (fun o => !(o.gid == gid && o.bundle == b && 5 ≤ o.eng)) }
  match s.gang gid with
  | none => s
  | some g => (s.abandonCrew g.crew).modCrew g.crew (fun c => { c with faulted := true })

/-- Whether a sub-bundle stands between instructions, or waits in one that has begun nothing it must finish (R386). -/
def Sub.between (q : Sub) : Bool := q.pass.isNone && (match q.wait with | .mem _ _ | .decoder _ => false | _ => true)

/-- Whether a sub-bundle stands at an instruction boundary (R368): between instructions, or at a crew load or atomic of which nothing has
been performed. -/
def State.atBoundary (s : State) (q : Sub) : Bool :=
  q.between || (match q.wait with
    | .mem i _ => s.memOps.any (fun o => o.id == i && !o.gate.isEmpty && o.lanes.all (fun r => r.status == 0))
    | _ => false)

/-- Whether every sub-bundle of a bundle stands at an instruction boundary. -/
def State.bundleAtBoundary (s : State) (b : Bundle) : Bool := b.subs.all (fun q => !q.isLive || s.atBoundary q)

/-- The bundles of an ended crew that stand at instruction boundaries stop there without saving, with the loads, atomics and decoder
operations that have not begun; the others go on to their next boundary (R368). -/
def State.stopEnded (s : State) (cid : Nat) : State :=
  let stops (gid b : Nat) : Bool := s.gangs.any (fun g => g.gid == gid && g.crew == cid &&
    (match g.bundles[b]? with | some y => s.bundleAtBoundary y | none => true))
  { s with gangs := s.gangs.map (fun (g : Gang) => if g.crew == cid then
             { g with bundles := g.bundles.map (fun b => if s.bundleAtBoundary b then b.kill else b) } else g)
           ops := s.ops.filter (fun o => !(5 ≤ o.eng && stops o.gid o.bundle))
           memOps := s.memOps.filter (fun o => !((o.kind == 0 || !o.gate.isEmpty) && stops o.gid o.bundle)) }

/-- The end of a crew (R368): its gangs stop at their next instruction boundaries without saving, their engine operations but collectives
are discarded, a stop in progress is cancelled; the crew retires as one ended by a fault. -/
def State.endCrew (s : State) (cid : Nat) : State :=
  let gids := (s.gangs.filter (fun g => g.crew == cid)).map (·.gid)
  let s := { s with ops := s.ops.filter (fun o => !(gids.contains o.gid && o.eng < 4)) }
  (s.stopEnded cid).modCrew cid (fun c => { c with faulted := true, ended := true, stop := none })

/-- A bundle of a gang has come to an instruction boundary: that of a crew that has ended stops there (R368). -/
def State.dueEnd (s : State) (gid : Nat) : State :=
  match s.gang gid with
  | none => s
  | some g => match s.crew g.crew with
    | some c => if c.ended then s.stopEnded c.cid else s
    | none => s

/-- A stop requested of a crew (R352); a world switch overrides a pre-emption. -/
def State.requestStop (s : State) (cid reason : Nat) : State :=
  s.modCrew cid (fun c => { c with stop := some (max reason (c.stop.getD 0)) })

/-- Every sub-bundle and live lane of a bundle halted (R386). -/
def Bundle.haltAll (b : Bundle) (report : List Byte) : Bundle :=
  if b.done then b
  else
    { b with report := report,
             subs := b.subs.map (fun q => if q.isLive then { q with halted := true, stepping := false } else q),
             lanes := b.lanes.map (fun l => if l.exited then l else { l with halted := true }) }

/-- Every bundle of a gang halted (R386). -/
def Gang.haltAll (g : Gang) (report : Nat → List Byte) : Gang :=
  { g with bundles := ((List.range g.bundles.length).zip g.bundles).map (fun p => p.2.haltAll (report p.1)) }

/-! ## Faults (R363–R366) -/

/-- Who raises a fault: gang, bundle, sub-bundle offset and plane. -/
structure FaultAt where
  gid : Nat
  bundle : Nat
  offset : Nat
  plane : Nat
  deriving DecidableEq, Repr

/-- The 64-byte fault record (R365). -/
def faultRecord (g : Gang) (w : FaultAt) (f : FaultInfo) (time seq : Nat) : List Byte :=
  packFields 64
    [(0, f.cls), (8, f.sub), (16, f.plane.getD w.plane), (18, f.lane.getD 0), (24, ofBool f.lane.isSome),
      (25, ofBool (f.engine == 0)), (26, f.engine), (32, f.detail % 2 ^ 32), (64, f.offset.getD w.offset),
      (96, w.bundle), (101, g.rank), (107, g.die), (110, g.core), (119, g.part), (128, f.addr % 2 ^ 64),
      (192, f.opnum), (256, f.handle), (268, ofBool f.xvf), (272, f.trow), (288, f.tcol), (304, f.bitoff),
      (352, f.progress), (384, time % 2 ^ 64), (448, seq % 2 ^ 64)]

/-- The disposition of a class as a die holds it: 0 BUNDLE, 1 CREW, 2 HALT (R366, R373): LEASE is always CREW, UNCORRECTABLE always
BUNDLE, 3 reads as BUNDLE, and HALT without a debug session acts as BUNDLE. -/
def disposition (p : Partition) (die cls : Nat) : Nat :=
  if cls = 4 then 1
  else if cls = 0x0D then 0
  else
    let d := bits (p.faultact.getD die 0).toNat (2 * (cls - 1)) 2
    if d = 3 then 0 else if d = 2 ∧ !p.session then 0 else d

/-- A halt report (R385) of a whole bundle that is not a watch hit: entry 16 fault, 17 dbg.halt, 18 step, 19 merged. -/
def plainReport (g : Gang) (b entry level : Nat) (lane : Option Nat) (offset time : Nat) : List Byte :=
  packFields 48
    [(0, entry), (5, level), (7, 1), (14, lane.getD 0), (20, b), (40, g.rank), (46, g.core), (55, g.die), (58, g.gslot),
      (64, offset), (320, time % 2 ^ 64)]

/-- The LID of a crew's launch, from its record's packet (R95). -/
def State.lidOf (s : State) (cid : Nat) : W64 :=
  match s.crew cid with
  | none => 0
  | some c => ((s.record c.die c.arrival).map (fun r => wordOf r.packet 640)).getD 0

/-! ## Counters (R402, R403) -/

/-- Whether a counter counts an event of a gang: enabled, its selector names the event (EVENT, and REASON for stall cycles),
its partition owns it on the die, and under GANG the gang wrote the selector. -/
def counts (owner : Option Nat) (part : Nat) (tag : W64 × Nat × Nat) (ev reason : Nat) (c : Counter) : Bool :=
  owner == some part && bit c.sel.toNat 12 && bits c.sel.toNat 0 5 == ev && (ev != 3 || bits c.sel.toNat 5 5 == reason) &&
    (!bit c.sel.toNat 10 || c.tag == some tag)

/-- A counter after n more counts: 48 bits, wrapping to 0 with OVF. -/
def Counter.add (c : Counter) (n : Nat) : Counter :=
  { c with value := (c.value + n) % 2 ^ 48, ovf := c.ovf || c.value + n ≥ 2 ^ 48 }

/-- The tag of a gang: LID, crew index, rank (R402). -/
def State.gangTag (s : State) (g : Gang) : W64 × Nat × Nat :=
  (s.lidOf g.crew, ((s.crew g.crew).map (·.index)).getD 0, g.rank)

/-- n counts of an event by a gang on its core; reason is the stall code for EVENT 3. -/
def State.perfWith (s : State) (g : Gang) (ev reason n : Nat) : State :=
  let cs := (s.core g.die g.core).counters
  if n == 0 || cs.all (fun c => !bit c.sel.toNat 12) then s
  else
    let tag := s.gangTag g
    let owners := (s.die g.die).ctrOwner
    s.modCore g.die g.core (fun c => { c with counters := (owners.zip c.counters).map (fun p =>
      if counts p.1 g.part tag ev reason p.2 then p.2.add n else p.2) })

/-- n counts of an event other than stall cycles. -/
def State.perf (s : State) (g : Gang) (ev n : Nat) : State := s.perfWith g ev 0 n

/-- UECNT of a core and partition counted up, with the counters (R369, R373). -/
def State.countUe (s : State) (g : Gang) : State :=
  (s.modCore g.die g.core (fun c =>
    if c.errors.any (fun e => e.1 == g.part) then
      { c with errors := c.errors.map (fun e => if e.1 == g.part then (e.1, e.2.1, e.2.2 + 1) else e) }
    else { c with errors := c.errors ++ [(g.part, 0, 1)] })).perf g 10 1

/-- The halt of a gang under disposition HALT (R366, R386): the record is kept, and a gang-level halt with ENTRY 16 falls due;
the faulting bundle issues nothing before it. -/
def State.faultHalt (s : State) (g : Gang) (w : FaultAt) (image : List Byte) : State :=
  let r := plainReport g w.bundle 16 3 none w.offset (s.devtimeOf g.die)
  let s := s.modBundle g.gid w.bundle (fun b => { b with faultRec := image })
  { s with nextId := s.nextId + 1
           halts := s.halts ++ [{ id := s.nextId, ev := s.nextId, reply := none, gid := g.gid, bundle := w.bundle, lane := 0, level := 3,
                                  report := r, op := none, base := 0, bound := 0, mem := none }] }

/-- Taking a fault (R363–R368): the record, the FAULT notice, the next FSEQ, and the disposition of the class. Nothing of
the faulting instruction is left except what its rule says. -/
def State.takeFault (s : State) (w : FaultAt) (f : FaultInfo) : State :=
  match s.gang w.gid with
  | none => s
  | some g =>
    match s.part g.part with
    | none => s.killBundle w.gid w.bundle
    | some p =>
      let s := if f.cls = 0x0D then s.countUe g else s
      let image := faultRecord g w f (f.time.getD (s.devtimeOf g.die)) (p.fseq.getD g.die 0)
      let s := s.modPart g.part (fun q => { q with fseq := modNth q.fseq g.die (· + 1) })
      let s := s.notice 5 g.part g.die f.cls (s.lidOf g.crew) image
      let d := disposition p g.die f.cls
      if d = 1 then s.endCrew g.crew
      else if d = 2 then s.faultHalt g w image
      else s.killBundle w.gid w.bundle

/-! ## The violation log (R19, R20) -/

/-- A 32-byte violation entry (R19). -/
def violationEntry (va time part die agentIdx agentType kind rdie seq : Nat) : List Byte :=
  packFields 32
    [(0, va % 2 ^ 64), (64, time % 2 ^ 64), (128, part), (132, die), (135, agentIdx + agentType * 2 ^ 9), (147, kind),
      (151, rdie), (192, seq)]

/-! ## Shared shapes -/

/-- The fault raised when a condition fails. -/
def failIf (c : Bool) (f : FaultInfo) : Option FaultInfo := if c then some f else none

/-- ILLEGAL with a subcode (R44, R45). -/
def illegal (sub : Nat) : FaultInfo := { cls := 1, sub := sub }

/-- The first fault of a list of checks, in order. -/
def firstFault : List (Option FaultInfo) → Option FaultInfo
  | [] => none
  | some f :: _ => some f
  | none :: cs => firstFault cs

end Sys2Proof.Machine
end

