-- ==== Sys2Proof/Machine/Translate.lean ====
section
/-!
DEFINITION. Virtual addresses, page tables, leases and permissions (R120, R125, R136–R140), the violation log (R19, R20), and
reads and writes of global memory by agents that make them whole.
-/

namespace Sys2Proof.Machine

/-- The die that owns a virtual address (R120). -/
def vaDie (va : Nat) : Nat := bits va 54 3

/-- Whether a virtual address lies in the expanded view (R120). -/
def vaIsXv (va : Nat) : Bool := bit va 53

/-- Whether bits 57–63 are zero (R120). -/
def vaLegal (va : Nat) : Bool := bits va 57 7 == 0

/-- The home agent of a page (R136). -/
def homeAgent (part va : Nat) : Nat :=
  let v := bits va 16 38
  (bits v 0 16 ^^^ bits v 16 16 ^^^ bits v 32 6 ^^^ (7 * part)) % 96

/-- The home slice of a line (R140), from its leaf entry and physical address. -/
def homeSlice (leaf pa : Nat) : Nat :=
  if bit leaf 4 then bits leaf 8 10
  else
    let q := bits pa 7 41
    (bits q 0 16 ^^^ bits q 16 16 ^^^ bits q 32 9) % 96

/-- The physical address that an entry forms (R137). -/
def entryPa (e : Nat) : Nat := bits e 20 32 <<< 16

/-- Whether an entry with V = 1 is malformed at a level 1 (root), 2 or 3 (R138). -/
def entryMalformed (level e : Nat) : Bool :=
  bits e 6 2 != 0 || bits e 18 2 != 0 || bits e 52 12 != 0 || entryPa e ≥ 2 ^ 37 ||
  (if level == 3 || (level == 2 && bit e 5) then
    (level == 3 && bit e 5) || (!bit e 4 && bits e 8 10 != 0) || bits e 8 10 ≥ 96 ||
      (level == 2 && bits e 20 13 != 0)
  else bits e 1 19 != 0)

/-- The result of a walk (R137, R138). -/
inductive Walk where
  | leaf (entry base size : Nat)
  | invalid
  | malformed
  deriving DecidableEq, Repr

/-- A page-table entry of a die (R137). -/
def State.entryAt (s : State) (d pa : Nat) : Nat := leNat (s.bytesAt (hbmLoc d pa) 8)

/-- The walk of a virtual address in a partition's tree of the owning die (R137). -/
def State.walk (s : State) (p : Partition) (va : Nat) : Walk :=
  let d := vaDie va
  let root := (p.roots.getD d 0).toNat
  let e1 := s.entryAt d (root + 8 * bits va 42 12)
  if !bit e1 0 then .invalid
  else if entryMalformed 1 e1 then .malformed
  else
    let e2 := s.entryAt d (entryPa e1 + 8 * bits va 29 13)
    if !bit e2 0 then .invalid
    else if entryMalformed 2 e2 then .malformed
    else if bit e2 5 then .leaf e2 (entryPa e2) (2 ^ 29)
    else
      let e3 := s.entryAt d (entryPa e2 + 8 * bits va 16 13)
      if !bit e3 0 then .invalid
      else if entryMalformed 3 e3 then .malformed
      else .leaf e3 (entryPa e3) (2 ^ 16)

/-- The TLB entry of a page at its home agent (R136); a large page occupies one entry of an agent. -/
def Die.tlbFind (d : Die) (part va : Nat) : Option TlbEnt :=
  d.tlb.find? (fun t => t.part == part && t.va ≤ va && va < t.va + t.size && t.agent == homeAgent part va)

/-- An entry added to a full list of at most n: the oldest that a condition picks leaves. -/
def addBounded {α : Type} (n : Nat) (same : α → Bool) (xs : List α) (x : α) : List α :=
  if (xs.filter same).length < n then xs ++ [x]
  else
    match findIdx same xs with
    | some (i, _) => xs.eraseIdx i ++ [x]
    | none => xs ++ [x]

/-- A translation kept by its home agent: the TLB entry, and the last translation of its 512 MiB region (R136, R141). Of a full TLB or region
table the oldest entry leaves: the rules name none. DESIGN CHOICE (log 98). -/
def Die.keepTranslation (d : Die) (part va leaf base size : Nat) : Die :=
  let h := homeAgent part va
  let reg := va / 2 ^ 29
  { d with
    tlb := if (d.tlbFind part va).isSome then d.tlb
           else addBounded 2048 (fun t => t.agent == h) d.tlb ⟨h, part, va / size * size, size, BitVec.ofNat 64 leaf⟩
    regions := addBounded 64 (fun e => e.agent == h && e.part == part)
      (d.regions.filter (fun e => !(e.agent == h && e.part == part && e.region == reg)))
      ⟨h, part, reg, va / 2 ^ 16 * 2 ^ 16, base + va % size / 2 ^ 16 * 2 ^ 16⟩ }

/-- The leaf that translates an address at its home agent: that of its TLB, else that of a walk (R136, R137). -/
def State.leafOf (s : State) (part va : Nat) : Option (Nat × Nat × Nat) :=
  match (s.die (vaDie va)).tlbFind part va with
  | some t => some (t.leaf.toNat, entryPa t.leaf.toNat, t.size)
  | none =>
    match (s.part part).map (fun p => s.walk p va) with
    | some (.leaf e base size) => some (e, base, size)
    | _ => none

/-- The permission bit of a kind of access: 0 read RD, 1 write WR, 2 atomic AT (R137, R139). -/
def permBit (kind : Nat) : Nat := kind + 1

/-- Whether a leaf of a partition's tree on a die covers a physical address (R137). -/
def State.treeMaps (s : State) (p : Partition) (d pa : Nat) : Bool :=
  let live (level e : Nat) : Bool := bit e 0 && !entryMalformed level e
  let inPage (e size : Nat) : Bool := entryPa e ≤ pa && pa < entryPa e + size
  (List.range 2048).any (fun i =>
    let e1 := s.entryAt d ((p.roots.getD d 0).toNat + 8 * i)
    live 1 e1 && (List.range 8192).any (fun j =>
      let e2 := s.entryAt d (entryPa e1 + 8 * j)
      live 2 e2 && (if bit e2 5 then inPage e2 (2 ^ 29)
        else (List.range 8192).any (fun k =>
          let e3 := s.entryAt d (entryPa e2 + 8 * k)
          live 3 e3 && inPage e3 (2 ^ 16)))))

/-- Whether a physical address of a die belongs to the memory of another partition that the die is resetting: an access to it receives
an error response, that of a protection failure (R114, step 4). DEDUCED (log 34). -/
def State.resetBars (s : State) (part d pa : Nat) : Bool :=
  (List.range 16).any (fun q => q != part && (match s.part q with
    | some p => p.resetting.isSome && !p.resetDone.contains d && s.treeMaps p d pa
    | none => false))

/-- Whether an access of a gang to a physical address of a die receives an error response because of a partition reset (R114, step 4): the
memory is of another partition that the die is resetting, or the access comes from another die and its own partition is being reset there. -/
def State.resetStops (s : State) (g : Gang) (d pa : Nat) : Bool :=
  s.resetBars g.part d pa ||
    (g.die != d && (match s.part g.part with | some p => p.resetting.isSome && !p.resetDone.contains d | none => false))

/-- The location of a virtual address for a kind of access, none without a translation or the permission (R138, R139), or in memory
of a partition under reset (R114). -/
def State.locate (s : State) (part kind va : Nat) : Option Nat :=
  if !vaLegal va || vaIsXv va then none
  else
    match s.leafOf part va with
    | some (e, base, size) =>
      if bit e (permBit kind) && !s.resetBars part (vaDie va) (base + va % size) then some (hbmLoc (vaDie va) (base + va % size)) else none
    | none => none

/-- The runs of locations of n bytes from a virtual address, page by page; none when some byte has none. fuel bounds the
pages. -/
def State.locateRun (s : State) (part kind : Nat) : Nat → Nat → Nat → Option (List (Nat × Nat))
  | 0, _, n => if n = 0 then some [] else none
  | fuel + 1, va, n =>
    if n = 0 then some []
    else
      let k := min n (2 ^ 16 - va % 2 ^ 16)
      match s.locate part kind va with
      | none => none
      | some loc =>
        match s.locateRun part kind fuel (va + k) (n - k) with
        | none => none
        | some rs => some ((loc, k) :: rs)

/-- The runs of locations of n bytes of global memory (R138, R139). -/
def State.runs (s : State) (part kind va n : Nat) : Option (List (Nat × Nat)) :=
  s.locateRun part kind (n / 2 ^ 16 + 2) va n

/-- The bytes of runs of locations. -/
def State.readRuns (s : State) (rs : List (Nat × Nat)) : List Byte := rs.flatMap (fun r => s.bytesAt r.1 r.2)

/-- Whether a poisoned word lies in runs of locations (R369). -/
def State.poisonedRuns (s : State) (rs : List (Nat × Nat)) : Bool := rs.any (fun r => s.poisoned r.1 r.2)

/-! ## Home slices, and writes at the home (R216–R219, R225, R339, R340) -/

/-- A line brought into an LLC slice (R216, R218, R225): one of its set's ways below the partition's quota, an empty one first, else
that of an evict-first line, else of one that is not keep-high, else of the oldest. The set of a line, which the rules leave open, is
its number modulo 1,024. DESIGN CHOICE (log 23). -/
def Die.llcTouch (d : Die) (quota slice line cls : Nat) : Die :=
  let same (l : LlcLine) : Bool := l.slice == slice && l.line % 1024 == line % 1024
  if quota == 0 || cls == 4 || d.llc.any (fun l => same l && l.line == line) then d
  else
    let mine (l : LlcLine) : Bool := same l && l.way < quota
    match (List.range (min quota 16)).find? (fun w => !(d.llc.any (fun l => mine l && l.way == w))) with
    | some w => { d with llc := d.llc ++ [⟨slice, w, line, cls⟩] }
    | none =>
      match ([fun l => l.cls == 3, fun l => l.cls != 1, fun _ => true] : List (LlcLine → Bool)).findSome? (fun p =>
          findIdx (fun l => mine l && p l) d.llc) with
      | some (i, v) => { d with llc := d.llc.eraseIdx i ++ [⟨slice, v.way, line, cls⟩] }
      | none => d

/-- The later of two vector clocks, entry by entry (R339). -/
def mergeClock (a b : List Nat) : List Nat := (a.zip b).map (fun p => Nat.max p.1 p.2)

/-- A message between two dies carries the sender's clock (R339). -/
def State.carryClock (s : State) (src dst : Nat) : State :=
  if src == dst then s
  else
    let c := (s.die src).vclock
    s.modDie dst (fun d => { d with vclock := mergeClock d.vclock c })

/-- The lines that n bytes from a location touch, as location / 128. -/
def linesOf (loc n : Nat) : List Nat :=
  if n = 0 then [] else (List.range ((loc + n - 1) / 128 - loc / 128 + 1)).map (fun i => loc / 128 + i)

/-- Lines dropped from the L1s of the cores of a die that a condition picks, and fills of those lines in flight to them made
non-filling (R142, R219). -/
def State.dropLines (s : State) (d : Nat) (hit : Nat → Bool) (lines : List Nat) : State :=
  { s with
    cores := s.cores.map (fun c =>
      if c.die == d && hit c.core then { c with l1 := c.l1.filter (fun l => !lines.contains (l.loc / 128)) } else c)
    memOps := s.memOps.map (fun o =>
      match s.gang o.gid with
      | some g =>
        if g.die == d && hit g.core then
          { o with lanes := o.lanes.map (fun r => if lines.contains (r.loc / 128) then { r with noFill := true } else r) }
        else o
      | none => o) }

/-- Whether an L1 of a die other than that of one core may hold one of the lines, or a load whose data have been read may yet fill it
(R219, R141). -/
def State.mayHold (s : State) (d : Nat) (except : Option (Nat × Nat)) (lines : List Nat) : Bool :=
  s.cores.any (fun c => c.die == d && except != some (d, c.core) && c.l1.any (fun l => lines.contains (l.loc / 128))) ||
  s.memOps.any (fun o => match s.gang o.gid with
    | some g => g.die == d && except != some (d, g.core) && o.lanes.any (fun r => (r.status == 3 || r.status == 1 && !r.data.isEmpty) && lines.contains (r.loc / 128))
    | none => false)

/-- The invalidations of a write at its home die (R219, R339): at once on the home die, in a stamped batch to every other die
whose L1s may hold a line; except names the core whose store made the write, which neither drops its line. -/
def State.invalidate (s : State) (home : Nat) (except : Option (Nat × Nat)) (lines : List Nat) : State :=
  let others := (List.range 8).filter (fun d => d != home && s.mayHold d except lines)
  let s := s.dropLines home (fun c => except != some (home, c)) lines
  if others.isEmpty then s
  else
    let s := s.modDie home (fun x => { x with vclock := modNth x.vclock home (· + 1) })
    let vc := (s.die home).vclock
    { s with batches := s.batches ++ others.map (fun d =>
        { src := home, dst := d, stamp := vc.getD home 0, lines := lines, spare := except, clock := vc }) }

/-- Bytes written at one run of HBM locations, with the invalidations they send; the writing core, if a store made the write,
keeps its own lines (R340). -/
def State.writeHome (s : State) (except : Option (Nat × Nat)) (loc : Nat) (bs : List Byte) : State :=
  (s.putBytes loc bs).invalidate (loc / 2 ^ 37) except (linesOf loc bs.length)

/-- Bytes written over runs of locations. -/
def State.writeRuns (s : State) (except : Option (Nat × Nat)) : List (Nat × Nat) → List Byte → State
  | [], _ => s
  | r :: rs, bs => (s.writeHome except r.1 (bs.take r.2)).writeRuns except rs (bs.drop r.2)

/-- What an access to a virtual range leaves at its home agents and slices, page by page (R136, R140, R216): its translation is kept,
and its lines are brought into their slices with an eviction class. fuel bounds the pages. -/
def State.touchRange (s : State) (part cls : Nat) : Nat → Nat → Nat → State
  | 0, _, _ => s
  | fuel + 1, va, n =>
    if n = 0 then s
    else
      let k := min n (2 ^ 16 - va % 2 ^ 16)
      let s' :=
        match s.leafOf part va with
        | none => s
        | some (e, base, size) =>
          let quota := ((s.part part).map Partition.llcQuota).getD 0
          let pa := base + va % size
          s.modDie (vaDie va) (fun d => (linesOf pa k).foldl (fun d l => d.llcTouch quota (homeSlice e (128 * l)) l cls)
            (d.keepTranslation part va e base size))
      s'.touchRange part cls fuel (va + k) (n - k)

/-- An access made whole by an agent of a die, with an eviction class (R136, R140, R339): the home agents and slices take it, and its request carries the
die's clock to the home. -/
def State.useRange (s : State) (die part cls va n : Nat) : State :=
  if n = 0 || vaIsXv va then s else (s.touchRange part cls (n / 2 ^ 16 + 2) va n).carryClock die (vaDie va)

/-- Bytes written whole at a virtual address by an agent of a die, with a kind of permission; none where they may not be. -/
def State.writeVa (s : State) (die part kind va : Nat) (bs : List Byte) : Option State :=
  (s.runs part kind va bs.length).map (fun rs => (s.useRange die part 0 va bs.length).writeRuns none rs bs)

/-- The response of an access made whole (R339): it carries the home's clock, once the die has applied every batch that it names. -/
def State.hearRange (s : State) (die va : Nat) : State := s.carryClock (vaDie va) die

/-! ## The violation log (R19, R20) -/

/-- An entry appended to a partition's violation log on a die (R20): bytes 0–23, then SEQ; a lost entry advances SEQ and is
reported at most once per millisecond. -/
def State.logViolation (s : State) (part die va agentIdx agentType kind rdie : Nat) : State :=
  match s.part part with
  | none => s
  | some p =>
    let n := p.vseq.getD die 1
    let entry := violationEntry va (s.devtimeOf die) part die agentIdx agentType kind rdie n
    let s' := s.modPart part (fun q => { q with vseq := modNth q.vseq die (· + 1) })
    let at_ := p.vlog.toNat + 8192 * die + 32 * ((n - 1) % 256)
    match s'.writeVa die part 1 at_ entry with
    | some s' => s'
    | none =>
      let ms := s.devtimeOf die / 1000000
      if p.vloss.getD die none = some ms then s'
      else
        (s'.modPart part (fun q => { q with vloss := setNth q.vloss die (some ms) })).moduleError die 20 [part, die, n]

/-- The entry of an access refused by its owner: an address with bits 57–63 set has no owner and is logged by the requester's
die (R19). -/
def State.logAccess (s : State) (part va agentIdx agentType kind rdie : Nat) : State :=
  let d := if vaLegal va then vaDie va else rdie
  s.logViolation part d va agentIdx agentType kind rdie

/-! ## Leases (R125) and the image (R26) -/

/-- Whether every byte from va, n of them, lies in the union of ranges; fuel is at least their number plus one. -/
def covered (ranges : List (Nat × Nat)) : Nat → Nat → Nat → Bool
  | 0, _, n => n == 0
  | fuel + 1, va, n =>
    if n == 0 then true
    else
      match ranges.find? (fun r => r.1 ≤ va && va < r.1 + r.2) with
      | none => false
      | some r =>
        let k := min n (r.1 + r.2 - va)
        covered ranges fuel (va + k) (n - k)

/-- The lease of a crew's launch (R123). -/
def State.leaseOf (s : State) (cid : Nat) : Option Lease :=
  match s.crew cid with
  | none => none
  | some c =>
    match s.record c.die c.arrival with
    | none => none
    | some r => s.leases.find? (fun l => l.lkey == r.lkey)

/-- The image and the lease ranges of a launch, as base and length. -/
def Lease.allRanges (l : Lease) : List (Nat × Nat) :=
  (l.kva.toNat, l.imgLen) :: l.ranges.map (fun r => (r.1.toNat, r.2))

/-- Whether n bytes pass the lease check of a gang's launch (R125). -/
def State.leaseOk (s : State) (g : Gang) (va n : Nat) : Bool :=
  match s.leaseOf g.crew with
  | none => false
  | some l => covered l.allRanges (l.ranges.length + 2) va n

/-- Whether n bytes lie in the leases of a gang's launch, its image apart (R328). -/
def State.inLease (s : State) (g : Gang) (va n : Nat) : Bool :=
  match s.leaseOf g.crew with
  | none => false
  | some l => covered (l.ranges.map (fun r => (r.1.toNat, r.2))) (l.ranges.length + 1) va n

/-- Whether bytes meet a resident kernel image of the partition (R26). -/
def State.hitsImage (s : State) (part va n : Nat) : Bool :=
  s.leases.any (fun l => l.part == part && l.kva.toNat < va + n && va < l.kva.toNat + l.imgLen)

/-- The fault LEASE (R125). -/
def leaseFault (va : Nat) : FaultInfo := { cls := 4, addr := va }

/-- The fault PROTECTION at an address. -/
def protFault (va : Nat) : FaultInfo := { cls := 5, addr := va }

/-- The first byte of a virtual range, page by page, that a kind of access may not reach (R19, R138, R139). -/
def State.firstBad (s : State) (part kind va n : Nat) : Nat :=
  (((List.range (n / 2 ^ 16 + 2)).map (fun i => if i = 0 then va else (va / 2 ^ 16 + i) * 2 ^ 16)).find?
    (fun a => a < va + n && (s.locate part kind a).isNone)).getD va

/-- PROTECTION where the translation of n bytes from va fails: the first address that has none. -/
def State.untranslated (s : State) (part kind va n : Nat) : FaultInfo := protFault (s.firstBad part kind va n)

/-- The fault ALIGN at an address. -/
def alignFault (va : Nat) : FaultInfo := { cls := 3, addr := va }

/-- The checks of an access made whole by an instruction of a gang (R120, R125, R26, R138, R139): kind 0 read, 1 write,
2 atomic. A PROTECTION failure is logged under AGENT type 0 (R19). -/
def State.checkAccess (s : State) (g : Gang) (kind va n : Nat) : Option FaultInfo :=
  if !vaLegal va then some (protFault va)
  else if !s.leaseOk g va n then some (leaseFault va)
  else if kind != 0 && (s.hitsImage g.part va n || vaIsXv va) then some (protFault va)
  else if (s.runs g.part kind va n).isNone then some (s.untranslated g.part kind va n)
  else none

/-- The log entry that a PROTECTION failure of an instruction's access leaves (R19); other faults leave none. -/
def State.logFault (s : State) (g : Gang) (kind : Nat) (f : FaultInfo) : State :=
  if f.cls = 5 then
    s.logAccess g.part f.addr g.core 0 (if vaIsXv f.addr && kind != 0 then 3 else kind) g.die
  else s

/-! ## The scratchpad view (R130) -/

/-- The physical location of a view address, none in neither region (R130). -/
def Gang.viewLoc (g : Gang) (a : Nat) : Option Nat :=
  if a < g.kernel.scratch then some (padLoc g.die g.core (g.scratchBase + a))
  else if 2 ^ 18 - g.pinSize ≤ a && a < 2 ^ 18 then
    some (g.pinBase + (a - (2 ^ 18 - g.pinSize)))
  else none

/-- Whether every one of n bytes lies in the regions of the view (R130). -/
def Gang.inView (g : Gang) (a n : Nat) : Bool :=
  n == 0 || (a + n ≤ 2 ^ 18 &&
    covered [(0, g.kernel.scratch), (2 ^ 18 - g.pinSize, g.pinSize)] 3 a n)

/-- Whether every one of n bytes lies within one region of the view (R130, R237, R271). -/
def Gang.inOneRegion (g : Gang) (a n : Nat) : Bool :=
  n == 0 || (a + n ≤ g.kernel.scratch) || (2 ^ 18 - g.pinSize ≤ a && a + n ≤ 2 ^ 18)

/-- The runs of locations of n view bytes, at most one per region. -/
def Gang.viewRuns (g : Gang) (a n : Nat) : List (Nat × Nat) :=
  let k := if a < g.kernel.scratch then min n (g.kernel.scratch - a) else n
  ([(a, k), (a + k, n - k)].filter (fun r => r.2 != 0)).filterMap (fun r => (g.viewLoc r.1).map (fun l => (l, r.2)))

/-- n bytes of a gang's view. -/
def State.readView (s : State) (g : Gang) (a n : Nat) : List Byte := s.readRuns (g.viewRuns a n)

/-- Bytes written over runs of scratchpad locations. -/
def State.putRuns (s : State) : List (Nat × Nat) → List Byte → State
  | [], _ => s
  | r :: rs, bs => (s.putBytes r.1 (bs.take r.2)).putRuns rs (bs.drop r.2)

/-- Bytes written to a gang's view. -/
def State.writeView (s : State) (g : Gang) (a : Nat) (bs : List Byte) : State := s.putRuns (g.viewRuns a bs.length) bs

/-- Whether every line that n view bytes touch is present (R221). -/
def State.viewPresent (s : State) (g : Gang) (a n : Nat) : Bool :=
  (g.viewRuns a n).all (fun r => (linesOf r.1 r.2).all (fun l => !s.absent.contains l))

/-- The log entry of a view address in neither region (R130): the owning die is the gang's own. -/
def State.logView (s : State) (g : Gang) (a kind : Nat) : State := s.logViolation g.part g.die a g.core 0 kind g.die

end Sys2Proof.Machine
end

