-- ==== Sys2Proof/Machine/Operands.lean ====
section
/-!
DEFINITION. Operand forms: how each field of a word is typed (R35, R36), which values of FN, M6 and W2 a major allows, the
translation of format S (R30), and the checks of R44 in their order.
-/

namespace Sys2Proof.Machine

/-- How an operand field is typed (R35, R36, R93, R187, R246). -/
inductive Kind where
  /-- Holds 268 (R33). -/
  | unused
  /-- A per-lane destination: v, o or 268. -/
  | dst
  /-- A per-lane source. -/
  | src
  /-- A vector field of a uniform instruction: no z code. -/
  | vfield
  /-- A predicate p0–p7. -/
  | pred
  /-- A scalar s0–s63, or 268 for none. -/
  | scalar
  /-- A scalar s0–s63 that the rule says must be named. -/
  | named
  /-- A scalar pair: even, 2–62 (SPAIR). -/
  | pair
  /-- A group of four scalars: a multiple of 4, 4–60 (SPAIR). -/
  | quad
  /-- A handle t0–t15. -/
  | handle
  /-- An Atlas slot of the kernel. -/
  | slot
  deriving DecidableEq, Repr

/-- Whether a code is legal for a field (R44, order 8); atlas is the kernel's ATLAS. -/
def codeLegal (atlas : Nat) (k : Kind) (c : Nat) : Bool :=
  match k with
  | .unused => c == 268
  | .dst => c < 256 || (260 ≤ c && c ≤ 268)
  | .src => c < 272
  | .vfield => c < 256 || (260 ≤ c && c < 272)
  | .pred => c < 8
  | .scalar => c < 64 || c == 268
  | .named => c < 64
  | .pair => c < 64 || c == 268
  | .quad => c < 64 || c == 268
  | .handle => c < 16
  | .slot => c < atlas

/-- Whether a field names per-lane registers. -/
def kindIsLane (k : Kind) : Bool := k == .dst || k == .src || k == .vfield

/-- Whether a register group is misaligned (R44, order 13): scalar pairs and quads, and groups of v or o registers (R227). -/
def groupBad (group : Nat) (k : Kind) (c : Nat) : Bool :=
  match k with
  | .pair => c % 2 == 1 || c < 2 || c > 62
  | .quad => c % 4 != 0 || c < 4 || c > 60
  | .dst | .src | .vfield =>
    group > 1 && c != 268 && !((c < 256 && c % group == 0) || (260 ≤ c && c < 268 && (c - 260) % group == 0))
  | _ => false

/-- The checks of R44 that a word's own fields decide. group is the number of registers that D and C name (R227). -/
structure Form where
  d : Kind
  a : Kind
  b : Kind
  c : Kind
  fnOk : Bool
  resOk : Bool
  operandOk : Bool := true
  litOk : Bool := true
  uniform : Bool := false
  result : Bool := true
  group : Nat := 1
  deriving DecidableEq, Repr

/-- A form by its kinds and its FN and reserved-bit checks. -/
def opForm (d a b c : Kind) (fnOk resOk : Bool) : Form := { d := d, a := a, b := b, c := c, fnOk := fnOk, resOk := resOk }

/-- R44, orders 6 to 13, of a word under a form, for a kernel of V registers and ATLAS slots. -/
def Form.check (f : Form) (v atlas : Nat) (w : XWord) : Option FaultInfo :=
  let d := w.d9.toNat
  let a := w.a9.toNat
  let b := w.b9.toNat
  let c := w.c9.toNat
  let past (k : Kind) (code n : Nat) : Bool := kindIsLane k && code < 256 && code + n > v
  firstFault
    [failIf (!f.fnOk) (illegal 3),
      failIf (!f.resOk || (w.nwb == 1 && !f.result)) (illegal 4),
      failIf (!(codeLegal atlas f.d d && codeLegal atlas f.a a && codeLegal atlas f.b b && codeLegal atlas f.c c
        && f.operandOk)) (illegal 5),
      failIf (f.uniform && (w.pred != 0 || w.pn != 0)) (illegal 6),
      failIf (past f.d d f.group || past f.a a 1 || past f.b b 1 || past f.c c f.group) (illegal 7),
      failIf (!f.litOk) (illegal 8),
      failIf (groupBad f.group f.d d || groupBad 1 f.a a || groupBad 1 f.b b || groupBad f.group f.c c) (illegal 16)]

/-! ## Format S (R29–R31) -/

/-- The 9-bit code of a per-lane 6-bit code (R35). -/
def oc9 (c : BitVec 6) : BitVec 9 :=
  let n := c.toNat
  if n < 4 then BitVec.ofNat 9 (256 + n) else if n < 12 then BitVec.ofNat 9 (256 + n) else BitVec.ofNat 9 (n - 12)

/-- An unused 6-bit field: 0 stands for 268, anything else for an illegal code (R30). -/
def unusedS (c : BitVec 6) : BitVec 9 := if c = 0 then 268 else 511

/-- The X word that a per-lane S word stands for (R30). -/
def laneS (usesB : Bool) (w : SWord) : XWord :=
  { pred := w.pred, pn := w.pn, nwb := w.nwb, d9 := oc9 w.d6, a9 := oc9 w.a6,
    b9 := if usesB then oc9 w.b6 else unusedS w.b6, c9 := 268, fn := 0, m6 := 0, imm := 0 }

/-- The X word that a scalar S word stands for (R30, R36): used fields keep their number. -/
def scalarS (usesA usesB : Bool) (w : SWord) : XWord :=
  { pred := w.pred, pn := w.pn, nwb := w.nwb, d9 := w.d6.setWidth 9,
    a9 := if usesA then w.a6.setWidth 9 else unusedS w.a6, b9 := if usesB then w.b6.setWidth 9 else unusedS w.b6,
    c9 := 268, fn := 0, m6 := 0, imm := 0 }

/-- The X word that an SL word stands for, its B field checked under R31 and the literal kept apart. -/
def scalarSl (usesA : Bool) (w : SWord) : XWord :=
  { pred := w.pred, pn := w.pn, nwb := w.nwb, d9 := w.d6.setWidth 9,
    a9 := if usesA then w.a6.setWidth 9 else unusedS w.a6, b9 := 268, c9 := 268, fn := 0, m6 := 0, imm := 0 }

/-- The X word that a per-lane SL word (vmov) stands for: A6 must be 0 (R186). -/
def laneSl (w : SWord) : XWord :=
  { pred := w.pred, pn := w.pn, nwb := w.nwb, d9 := oc9 w.d6, a9 := unusedS w.a6, b9 := 268, c9 := 268, fn := 0, m6 := 0,
    imm := 0 }

/-! ## Immediates -/

/-- W2 is zero unless the B operand is the immediate (R175, R183, R196). -/
def immB (w : XWord) : Bool := w.b9 = 268 || w.imm = 0

/-- W2 is zero (R33). -/
def noImm (w : XWord) : Bool := w.imm = 0

/-- M6 has no bit outside a mask, and a rounding field of at most mx where the mask allows one (R183, R196). -/
def m6Within (w : XWord) (mask mx : Nat) : Bool :=
  (w.m6.toNat &&& (63 - mask)) == 0 && (mask % 8 == 0 || w.m6.toNat % 8 ≤ mx)

/-! ## The memory attribute word (R222) -/

/-- ORD of an attribute word. -/
def attrOrd (a : W32) : Nat := bits a.toNat 0 2
/-- SCOPE of an attribute word. -/
def attrScope (a : W32) : Nat := bits a.toNat 2 3
/-- EVICT of an attribute word. -/
def attrEvict (a : W32) : Nat := bits a.toNat 5 3
/-- VOL of an attribute word. -/
def attrVol (a : W32) : Bool := bit a.toNat 8
/-- DISP of an attribute word, signed (R222). -/
def attrDisp (a : W32) : Int := toSigned 22 (bits a.toNat 10 22)

/-- Whether ORD, SCOPE, EVICT and VOL are permitted for an access: kind 0 load, 1 store, 2 atomic (R222). -/
def attrOk (global : Bool) (kind : Nat) (a : W32) : Bool :=
  let o := attrOrd a
  (if kind == 0 then o ≤ 1 else if kind == 1 then o == 0 || o == 2 else true) &&
  (if global then attrScope a ≤ 6 else attrScope a ≤ 2) &&
  (if global && kind != 2 then attrEvict a ≤ 4 && (!attrVol a || attrEvict a == 0)
   else attrEvict a == 0 && !attrVol a)

/-- Bit 9 of an attribute word is reserved (R222). -/
def attrRes (a : W32) : Bool := !bit a.toNat 9

/-- Bytes of a WD code (R226). -/
def wdBytes (wd : Nat) : Nat :=
  if wd ≤ 1 then 1 else if wd ≤ 3 then 2 else if wd == 4 then 4 else if wd == 5 then 8 else 16

/-- Registers of a WD code (R227). -/
def wdGroup (wd : Nat) : Nat := if wd == 5 then 2 else if wd == 6 then 4 else 1

/-- The address space of an atom or satom FN (R226): 0 global, 1 own scratchpad, 2 crew scratchpad. -/
def atomSpace (fn : Nat) : Nat := fn / 64

/-- Whether the OP, W64 and SPACE of an atom FN are legal (R226, R233). -/
def atomFnOk (fn : Nat) : Bool :=
  fn % 16 ≤ 11 && !bit fn 5 && atomSpace fn ≤ 2 && !(fn % 16 == 10 && bit fn 4)

/-! ## Per-lane forms (R183–R194, R196–R215, R226, R262) -/

/-- Integer TY legal, Z and OPX as masks of allowed FN bits above TY (R183). -/
def tyOk (fn allowed : Nat) : Bool := fn % 4 ≤ 2 && (fn / 4 &&& (63 - allowed)) == 0

/-- Float FT legal, with the OPX bits a mask allows (R196). -/
def ftOk (fn allowed : Nat) : Bool := fn % 4 ≤ 2 && (fn / 4 &&& (63 - allowed)) == 0

/-- A form with two sources. -/
def form2 (b : Kind) (fnOk resOk : Bool) : Form := { d := .dst, a := .src, b := b, c := .unused, fnOk := fnOk, resOk := resOk }

/-- A form with three sources. -/
def form3 (fnOk resOk : Bool) : Form := { d := .dst, a := .src, b := .src, c := .src, fnOk := fnOk, resOk := resOk }

/-- The modifiers that a reduction allows (R193): SAT for add.i32, mode and FTZ for add.f32, FTZ for min and max. -/
def redM6 (op : Nat) (w : XWord) : Bool :=
  if op == 0 then m6Within w 8 0 else if op == 8 then m6Within w 23 3
  else if op == 9 || op == 10 then m6Within w 16 0 else m6Within w 0 0

/-- The segment size of vshfl (R192); 0 where the code is reserved. -/
def shflSeg (width fn : Nat) : Nat :=
  let k := fn / 4 % 8
  let sz := if k == 0 then width else if k ≤ 4 then 2 ^ (k + 1) else 0
  if sz ≤ width then sz else 0

/-- The form of a vector-integer major, by its X word (R183–R194, R262). -/
def intForm (op width : Nat) (w : XWord) : Form :=
  let fn := w.fn.toNat
  if op ≤ 0x32 then form2 .src (tyOk fn 1 && m6Within w 8 0) (immB w)
  else if op == 0x33 then form2 .src (tyOk fn 1 && m6Within w 0 0) (immB w)
  else if op == 0x34 then form3 (tyOk fn 1 && m6Within w 8 0) (noImm w)
  else if op == 0x35 then form3 (fn < 4 && m6Within w 8 0) (noImm w)
  else if op ≤ 0x38 then form2 .src (fn == 0 && m6Within w 0 0) (immB w)
  else if op ≤ 0x3B then form2 .src (tyOk fn 0 && m6Within w 0 0) (immB w)
  else if op == 0x3C then form2 .src (tyOk fn 3 && m6Within w 0 0) (immB w)
  else if op == 0x3D then form2 .unused (tyOk fn 3 && (!bit fn 2 || bit fn 3) && m6Within w 8 0) (noImm w)
  else if op == 0x3E then form2 .src (fn < 16 && m6Within w 0 0) (noImm w)
  else if op == 0x3F then
    { form2 .src (fn % 4 ≤ 2 && fn / 8 % 8 < 6 && fn < 128 && m6Within w 0 0) (immB w) with d := .pred, result := false }
  else if op == 0x40 then form2 .unused (fn == 0 && m6Within w 0 0) (w.a9 = 268 || w.imm = 0)
  else if op == 0x41 then
    form3 (fn == 0 && m6Within w 0 0) (if w.c9 = 268 then w.imm.toNat < 32 else noImm w)
  else if op == 0x42 then
    if fn < 4 then form2 .unused (m6Within w 0 0) (noImm w)
    else if fn < 6 then form2 .src (m6Within w 0 0) (immB w)
    else form3 (fn == 6 && m6Within w 0 0) (noImm w)
  else if op == 0x43 then
    form3 (fn % 4 != 3 && !(bit fn 2 && fn % 4 == 0) && fn < 8 && m6Within w 7 3)
      (if w.b9 = 268 then w.imm.toNat < 32 else noImm w)
  else if op == 0x44 then form2 .src ((fn % 4 == 1 || fn % 4 == 2) && fn < 8 && m6Within w 8 0) (noImm w)
  else if op == 0x45 then form2 .unused ((fn % 4 == 1 || fn % 4 == 2) && fn < 16 && m6Within w 0 0) (noImm w)
  else if op == 0x46 then form2 .src (fn < 32 && shflSeg width fn != 0 && m6Within w 0 0) (immB w)
  else if op == 0x47 then form2 .unused (fn < 11 && redM6 fn w) (noImm w)
  else if op == 0x48 then form2 .unused (fn < 32 && fn % 16 ≤ 10 && redM6 (fn % 16) w) (noImm w)
  else if op == 0x49 then form2 .unused (fn < 2 && m6Within w 0 0) (noImm w)
  else if op == 0x4A then
    { d := .pred, a := .pred, b := .pred, c := .unused, fnOk := fn < 16 && m6Within w 0 0, resOk := noImm w,
      result := false }
  else if op == 0x4B then
    form3 (fn == 0 && m6Within w 0 0) (if w.c9 = 268 then w.imm.toNat < 2 ^ 16 else noImm w)
  else form2 .slot (fn < 3) (w.m6 = 0 && noImm w)

/-- The form of a float major, by its X word (R196–R215). -/
def floatForm (op : Nat) (w : XWord) : Form :=
  let fn := w.fn.toNat
  if op ≤ 0x52 then form2 .src (ftOk fn 0 && m6Within w 31 3) (immB w)
  else if op == 0x53 then form3 (ftOk fn 0 && m6Within w 31 3) (noImm w)
  else if op == 0x54 then form2 .src (ftOk fn 3 && m6Within w 16 0) (immB w)
  else if op == 0x55 then
    if fn / 4 == 2 then form2 .src (ftOk fn 2 && m6Within w 0 0) (immB w)
    else form2 .unused (ftOk fn 1 && m6Within w 0 0) (noImm w)
  else if op == 0x56 then
    { form2 .src (fn % 4 ≤ 2 && fn < 64 && m6Within w 16 0) (immB w) with d := .pred, result := false }
  else if op == 0x57 then
    form2 .src (cvtLegal fn w.m6.toNat (bits w.imm.toNat 0 2)) (w.imm.toNat < 4)
  else if op == 0x5A then form2 .unused (ftOk fn 0 && m6Within w 31 3) (noImm w)
  else if op ≤ 0x5F then form2 .unused (ftOk fn 0 && m6Within w 31 0) (noImm w)
  else if op == 0x60 then form2 .unused (ftOk fn 0 && m6Within w 0 0) (noImm w)
  else if op == 0x61 then form2 .src (ftOk fn 0 && m6Within w 31 3) (immB w)
  else if op == 0x62 then form3 (ftOk fn 0 && fn % 4 != 0 && m6Within w 31 3) (noImm w)
  else if op == 0x63 then form2 .unused (ftOk fn 0 && m6Within w 23 3) (noImm w)
  else if op == 0x64 then form2 .unused (fn % 4 == 0 && fn / 4 % 8 < 7 && fn < 64 && m6Within w 0 0) (noImm w)
  else form2 .unused (fn % 4 == 0 && fn / 4 % 8 < 7 && fn < 32 && m6Within w 15 3) (noImm w)

/-- The form of a vector-memory major, by its X word (R222, R226, R227, R233). -/
def memForm (op : Nat) (w : XWord) : Form :=
  let fn := w.fn.toNat
  let res := w.m6 = 0 && attrRes w.imm
  if op == 0x68 then
    { d := .dst, a := .src, b := .scalar, c := .unused, fnOk := fn < 7 && attrOk true 0 w.imm, resOk := res,
      group := wdGroup fn }
  else if op == 0x69 then
    { d := .unused, a := .src, b := .scalar, c := .src, fnOk := fn < 7 && attrOk true 1 w.imm, resOk := res,
      result := false, group := wdGroup fn }
  else if op == 0x6A then
    { d := .dst, a := .src, b := .scalar, c := .unused, fnOk := fn < 16 && fn % 8 < 7 && attrOk false 0 w.imm,
      resOk := res, operandOk := !(bit fn 3 && w.b9 = 268), group := wdGroup (fn % 8) }
  else if op == 0x6B then
    { d := .unused, a := .src, b := .scalar, c := .src, fnOk := fn < 16 && fn % 8 < 7 && attrOk false 1 w.imm,
      resOk := res, operandOk := !(bit fn 3 && w.b9 = 268), result := false, group := wdGroup (fn % 8) }
  else
    { d := .dst, a := .src, b := .scalar, c := .src,
      fnOk := atomFnOk fn && attrOk (atomSpace fn == 0) 2 w.imm, resOk := res,
      operandOk := !(atomSpace fn == 2 && w.b9 = 268) && !(fn % 16 == 9 && w.d9 = 268),
      group := if bit fn 4 then 2 else 1 }

/-- The form of a per-lane major (R146). -/
def laneForm (op width : Nat) (w : XWord) : Form :=
  if op < 0x50 then intForm op width w else if op < 0x68 then floatForm op w else memForm op w

/-! ## The per-lane instructions as majors with X words -/

/-- The major of a per-lane instruction and the X word it stands for (R30); the literal of vmov is the immediate. None for
uniform instructions, nop and PAIR. -/
def laneWord (i : Instr) : Option (Nat × XWord) :=
  match i with
  | .vaddSForm w => some (0x30, laneS true w) | .vaddXForm w => some (0x30, w)
  | .vsubSForm w => some (0x31, laneS true w) | .vsubXForm w => some (0x31, w)
  | .vmulSForm w => some (0x32, laneS true w) | .vmulXForm w => some (0x32, w)
  | .vmulhSForm w => some (0x33, laneS true w) | .vmulhXForm w => some (0x33, w)
  | .vmad w => some (0x34, w) | .vdot4 w => some (0x35, w)
  | .vandSForm w => some (0x36, laneS true w) | .vandXForm w => some (0x36, w)
  | .vorSForm w => some (0x37, laneS true w) | .vorXForm w => some (0x37, w)
  | .vxorSForm w => some (0x38, laneS true w) | .vxorXForm w => some (0x38, w)
  | .vshlSForm w => some (0x39, laneS true w) | .vshlXForm w => some (0x39, w)
  | .vshrSForm w => some (0x3A, laneS true w) | .vshrXForm w => some (0x3A, w)
  | .vsraSForm w => some (0x3B, laneS true w) | .vsraXForm w => some (0x3B, w)
  | .vmin w => some (0x3C, w) | .vmax w => some (0x3C, w)
  | .vabs w => some (0x3D, w) | .vneg w => some (0x3D, w)
  | .vsel w => some (0x3E, w) | .vcmp w => some (0x3F, w)
  | .vmovSForm w => some (0x40, laneS false w) | .vmovXForm w => some (0x40, w)
  | .vmovSlForm w _ => some (0x40, laneSl w)
  | .vfsh w => some (0x41, w)
  | .vbitPopc w => some (0x42, w) | .vbitClz w => some (0x42, w) | .vbitCtz w => some (0x42, w)
  | .vbitBrev w => some (0x42, w) | .vbitBfx w => some (0x42, w) | .vbitBfi w => some (0x42, w)
  | .vrsh w => some (0x43, w) | .vpack w => some (0x44, w) | .vunpk w => some (0x45, w)
  | .vshfl w => some (0x46, w) | .vred w => some (0x47, w) | .vscn w => some (0x48, w)
  | .vbal w => some (0x49, w) | .plog w => some (0x4A, w) | .vprm w => some (0x4B, w)
  | .vlut w => some (0x4C, w) | .vlutHi w => some (0x4C, w) | .vlutP2 w => some (0x4C, w)
  | .faddSForm w => some (0x50, laneS true w) | .faddXForm w => some (0x50, w)
  | .fsubSForm w => some (0x51, laneS true w) | .fsubXForm w => some (0x51, w)
  | .fmulSForm w => some (0x52, laneS true w) | .fmulXForm w => some (0x52, w)
  | .ffmaSForm w => some (0x53, laneS true w) | .ffmaXForm w => some (0x53, w)
  | .fmin w => some (0x54, w) | .fmax w => some (0x54, w) | .fminn w => some (0x54, w) | .fmaxn w => some (0x54, w)
  | .fneg w => some (0x55, w) | .fabs w => some (0x55, w) | .fcpys w => some (0x55, w)
  | .fcmp w => some (0x56, w) | .fcvt w => some (0x57, w)
  | .frcpSForm w => some (0x58, laneS false w) | .frcpXForm w => some (0x58, w)
  | .frsqSForm w => some (0x59, laneS false w) | .frsqXForm w => some (0x59, w)
  | .fsqrtSForm w => some (0x5A, laneS false w) | .fsqrtXForm w => some (0x5A, w)
  | .fexp2SForm w => some (0x5B, laneS false w) | .fexp2XForm w => some (0x5B, w)
  | .flog2SForm w => some (0x5C, laneS false w) | .flog2XForm w => some (0x5C, w)
  | .fsinSForm w => some (0x5D, laneS false w) | .fsinXForm w => some (0x5D, w)
  | .fcosSForm w => some (0x5E, laneS false w) | .fcosXForm w => some (0x5E, w)
  | .ftanhSForm w => some (0x5F, laneS false w) | .ftanhXForm w => some (0x5F, w)
  | .fcls w => some (0x60, w) | .fscl w => some (0x61, w) | .fdot2 w => some (0x62, w) | .frnd w => some (0x63, w)
  | .bfpq w => some (0x64, w) | .bfpd w => some (0x65, w)
  | .ld w => some (0x68, w) | .st w => some (0x69, w) | .lds w => some (0x6A, w) | .sts w => some (0x6B, w)
  | .atom w => some (0x6C, w)
  | _ => none

/-- The literal of vmov in format SL is a sign-extended 32-bit value (R31). -/
def laneLitOk (i : Instr) : Bool :=
  match i with
  | .vmovSlForm _ lit => (lit.setWidth 32).signExtend 64 == lit
  | _ => true

/-- B6 of an SL word is zero (R31). -/
def laneB6Ok (i : Instr) : Bool :=
  match i with
  | .vmovSlForm w _ => w.b6 == 0
  | _ => true

/-! ## PAIR (R39–R42) -/

/-- The vector-integer majors eligible for PAIR (R40). -/
def pairInt (h : Nat) : Bool := [0x30, 0x31, 0x32, 0x36, 0x37, 0x38, 0x39, 0x3A, 0x3B, 0x40].contains h

/-- The float majors eligible for PAIR (R40). -/
def pairFloat (h : Nat) : Bool := [0x50, 0x51, 0x52, 0x58, 0x59, 0x5A, 0x5B, 0x5C].contains h

/-- The X word that half 1 or half 2 of a PAIR stands for (R40). -/
def pairHalf (second : Bool) (w : PairWord) : XWord :=
  { pred := w.pred, pn := w.pn, nwb := if second then w.nwb2 else w.nwb1, d9 := if second then w.d2 else w.d1,
    a9 := if second then w.a2 else w.a1, b9 := if second then w.b2 else w.b1, c9 := 268, fn := 0, m6 := 0, imm := 0 }

/-- Whether a code names a register (v or o). -/
def codeIsReg (c : Nat) : Bool := c < 256 || (260 ≤ c && c < 268)

/-- The distinct v registers among the sources of a PAIR (R41). -/
def pairSources (w : PairWord) : List Nat :=
  ([w.a1.toNat, w.b1.toNat, w.a2.toNat, w.b2.toNat].filter (· < 256)).eraseDups

/-- The first rule of R41 that a PAIR breaks, 0 for none. -/
def pairRule (w : PairWord) : Nat :=
  let h1 := w.hop1.toNat
  let h2 := w.hop2.toNat
  let d1 := w.d1.toNat
  let d2 := w.d2.toNat
  let vs := pairSources w
  if w.r13 != 0 || w.r49 != 0 || w.r85 != 0 || !((pairInt h1 && pairFloat h2) || (pairFloat h1 && pairInt h2)) then 1
  else if (codeIsReg d2 && (w.a1.toNat == d2 || w.b1.toNat == d2)) ||
    (codeIsReg d1 && (w.a2.toNat == d1 || w.b2.toNat == d1)) then 2
  else if codeIsReg d1 && codeIsReg d2 && (d1 == d2 || (d1 < 256 && d2 < 256 && d1 % 4 == d2 % 4)) then 3
  else if (List.range 4).any (fun k => (vs.filter (fun r => r % 4 == k)).length > 2) then 4
  else if vs.length > 3 then 5
  else 0

/-- The operand and register checks of a half (R35, R37, R41): orders 8 and 10 only. A half whose HOP is not eligible has a destination
and two sources. -/
def halfOperands (v : Nat) (h : Nat) (w : XWord) : Option FaultInfo :=
  let f := if pairInt h || pairFloat h then laneForm h 64 w else form2 .src true true
  { f with fnOk := true, resOk := true, result := true }.check v 0 w

/-- The checks of a PAIR word (R41, R44): the operand codes of its halves, then the rules in order. -/
def pairCheck (v : Nat) (w : PairWord) : Option FaultInfo :=
  let r := pairRule w
  let h1 := halfOperands v w.hop1.toNat (pairHalf false w)
  let h2 := halfOperands v w.hop2.toNat (pairHalf true w)
  let operand (f : Option FaultInfo) : Option FaultInfo := f.bind (fun x => failIf (x.sub == 5) x)
  firstFault [operand h1, operand h2, h1, h2, failIf (r != 0) { illegal 9 with detail := r }]

/-- The source codes that a per-lane instruction reads (R171). -/
def sourceCodes (i : Instr) : List Nat :=
  match i with
  | .pair w => [w.a1.toNat, w.b1.toNat, w.a2.toNat, w.b2.toNat]
  | _ =>
    match laneWord i with
    | none => []
    | some (op, w) =>
      let f := laneForm op 64 w
      (if f.a == .src then [w.a9.toNat] else []) ++ (if f.b == .src then [w.b9.toNat] else []) ++
        (if f.c == .src then [w.c9.toNat] else [])

/-- The checks of R44, orders 6 to 13, of a per-lane instruction (R44, R41). -/
def laneFieldCheck (k : Kernel) (i : Instr) : Option FaultInfo :=
  match i with
  | .nop => none
  | .pair w => pairCheck k.v w
  | _ =>
    match laneWord i with
    | none => none
    | some (op, w) =>
      let f := laneForm op k.width w
      { f with litOk := laneLitOk i, resOk := f.resOk && laneB6Ok i }.check k.v k.atlas w

/-- The guard of a per-lane instruction: predicate and negation (R38). -/
def guardOf (i : Instr) : Nat × Bool :=
  match i with
  | .pair w => (w.pred.toNat, w.pn == 1)
  | .bra w => (w.pred.toNat, w.pn == 1)
  | _ =>
    match laneWord i with
    | some (_, w) => (w.pred.toNat, w.pn == 1)
    | none => (0, false)

end Sys2Proof.Machine
end

