-- ==== Sys2Proof/Machine/WatchMatch.lean ====
section
/-!
DEFINITION. Watch entries and events (R378–R385): which entries an event matches, and what a match does. Halting itself is in
Watch.lean.
-/

namespace Sys2Proof.Machine

/-- An event that watch entries are evaluated on (R381, R382). A uniform access carries its plane and no lane; an engine event
carries neither. space is 0 for a VA at the issuing core, 1 for a view address landing in the owner's scratchpad, 2 for a VA
at its home slice (on die home), 3 for an exception. owner names the gang whose entries see the event when it is not the
gang whose bundle would halt (R384, REMOTE); mem is the memory operation of a remote access; late is 1 when
the instruction that makes the event is still to be counted as issued. -/
structure WatchEvent where
  gid : Nat
  bundle : Nat
  part : Nat
  space : Nat
  /-- 0 read, 1 write, 2 atomic, 3 exception. -/
  kind : Nat
  agent : Nat
  plane : Option Nat
  lane : Option Nat
  addr : Nat
  data : List Byte
  exc : Exc
  offset : Nat
  opnum : Nat
  op : Option Nat
  owner : Option Nat := none
  home : Nat := 0
  mem : Option Nat := none
  late : Nat := 0
  deriving DecidableEq, Repr

/-- The 256 bits of an entry (R379). -/
def entryNat (w : List W64) : Nat :=
  (w.getD 0 0).toNat + (w.getD 1 0).toNat <<< 64 + (w.getD 2 0).toNat <<< 128 + (w.getD 3 0).toNat <<< 192

/-- ACTION of an entry (R379). -/
def entryAction (e : Nat) : Nat := bits e 225 3

/-- The indices of the bytes of an access that an entry's range and BMASK select (R381). -/
def matchingBytes (e addr n : Nat) : List Nat :=
  (List.range n).filter (fun i =>
    let a := addr + i
    bits e 0 64 ≤ a && a < bits e 0 64 + bits e 64 32 && bit (bits e 96 16) (a % 16))

/-- The aligned 32-bit word that holds an address, with untouched bytes zero (R381). -/
def wordAround (addr : Nat) (data : List Byte) (a : Nat) : Nat :=
  let w := a / 4 * 4
  leNat ((List.range 4).map (fun i => if addr ≤ w + i then data.getD (w + i - addr) 0 else 0))

/-- The comparison of VOP on a word (R381). -/
def vopHolds (e word : Nat) : Bool :=
  let v := bits e 128 32
  let m := bits e 160 32
  let x := word &&& m
  let y := v &&& m
  match bits e 192 3 with
  | 0 => true
  | 1 => x == y
  | 2 => x != y
  | 3 => x < y
  | 4 => x ≥ y
  | 5 => toSigned 32 x < toSigned 32 y
  | _ => toSigned 32 x ≥ toSigned 32 y

/-- The first matching byte whose word satisfies VOP, with that word (R381). -/
def matchWord (e addr : Nat) (data : List Byte) : Option (Nat × Nat) :=
  ((matchingBytes e addr data.length).map (fun i => (addr + i, wordAround addr data (addr + i)))).find?
    (fun p => vopHolds e p.2)

/-- Whether the filters of an entry let an event through (R381). -/
def filtersHold (e : Nat) (v : WatchEvent) : Bool :=
  (match v.plane with
    | some p => bit (bits e 208 4) p
    | none => bits e 208 4 == 0xF) &&
  (!bit e 212 || (match v.lane with | some l => bits e 213 6 == l | none => false)) &&
  (!bit e 219 || bits e 220 5 == v.bundle)

/-- Whether an event matches an entry, with the first matching byte and its word (R381); at a home slice every access is
also one of an agent of another core (R382). -/
def entryMatches (e : Nat) (v : WatchEvent) : Option (Nat × Nat) :=
  if !(bit (bits e 115 4) v.kind && bits e 112 3 == v.space && (bit (bits e 201 7) v.agent || v.space == 2 && bit e 207) &&
      filtersHold e v) then none
  -- an exception set has no word for VOP to compare
  else if v.kind == 3 then (if bits e 192 3 == 0 && bits e 195 6 &&& v.exc.toNat != 0 then some (0, 0) else none)
  else matchWord e v.addr v.data

/-- A gang's copy of a Sextant entry (R378). -/
def SxEntry.copy (x : SxEntry) (gid : Nat) : SxCopy := (x.copies.find? (fun c => c.gid == gid)).getD ⟨gid, 0, true, none⟩

/-- A gang's copy of a Sextant entry changed. -/
def SxEntry.modCopy (x : SxEntry) (gid : Nat) (f : SxCopy → SxCopy) : SxEntry :=
  { x with copies := x.copies.filter (fun c => c.gid != gid) ++ [f (x.copy gid)] }

/-- The Sextant entries of a partition and die in the order of their numbers, with each as a gang copies it. -/
def State.sextant (s : State) (part die gid : Nat) : List (SxEntry × SxCopy) :=
  (List.range 8).flatMap (fun i =>
    (s.sxEntries.filter (fun x => x.part == part && x.die == die && x.e == 8 + i)).map (fun x => (x, x.copy gid)))

/-- Whether entries are armed that could match an event of a gang's core: a quick test that skips the evaluation. -/
def State.anyArmed (s : State) (g : Gang) : Bool :=
  (s.core g.die g.core).watch.any (fun e => e.armed) || s.sxEntries.any (fun e => e.part == g.part && e.die == g.die)

/-- The halt report of a hit (R385); the level and the skid are filled in when the halt falls. -/
def hitReport (g : Gang) (v : WatchEvent) (entry value addr time level skid0 : Nat) : List Byte :=
  packFields 48
    [(0, entry), (5, level), (7, skid0), (9, v.agent), (12, v.plane.getD 0), (14, v.lane.getD 0), (20, v.bundle),
      (35, v.kind), (40, g.rank), (46, g.core), (55, g.die), (58, g.gslot), (64, v.offset), (96, value),
      (128, addr % 2 ^ 64), (192, v.exc.toNat), (256, v.opnum), (320, time % 2 ^ 64)]

/-- Whether an event is evaluated with its instruction, so that the skid is 0 (R384). -/
def WatchEvent.precise (v : WatchEvent) : Bool := v.agent ≤ 1 && v.space != 2

/-- The most instructions that the bundle may issue between an event and its halt (R384). -/
def WatchEvent.bound (v : WatchEvent) : Nat :=
  if v.precise then 0 else if v.space == 2 || v.agent == 5 then 1000 else if v.agent == 6 then 60 else 32

/-- The engine operation that a hit holds (R384): of a copy, a matrix or a scan engine at its own core. -/
def WatchEvent.holds (v : WatchEvent) : Option Nat := if 2 ≤ v.agent && v.agent ≤ 4 && v.space != 2 then v.op else none

/-- A hit counted: HITS saturates at 0xFFFF, and ONCE disarms (R379, R383). -/
def countHit (once : Bool) (e : WatchEntry) : WatchEntry :=
  { e with hits := min (e.hits + 1) 0xFFFF, armed := e.armed && !once }

/-- The fields of an event as a Sextant program reads them (R389). -/
def eventFields (v : WatchEvent) (rank entry value addr time hits : Nat) : List W64 :=
  [addr, value, v.kind, v.agent, v.lane.getD 0, v.plane.getD 0, v.bundle, rank, v.exc.toNat, entry, time, hits].map
    (fun n => BitVec.ofNat 64 n)

/-- A matching entry: its number, its word, and the byte and word that matched. -/
structure Hit where
  entry : Nat
  e : Nat
  addr : Nat
  value : Nat
  hits : Nat
  deriving DecidableEq, Repr

/-- The entries of a core and a gang that an event matches, ascending (R378, R381). -/
def State.hitsOf (s : State) (g : Gang) (v : WatchEvent) : List Hit :=
  let c := s.core g.die g.core
  let own := ((List.range 8).zip c.watch).filterMap (fun p =>
    if p.2.armed && p.2.owner == some g.gid && v.space != 2 then
      (entryMatches (entryNat p.2.w) v).map (fun m => ⟨p.1, entryNat p.2.w, m.1, m.2, p.2.hits⟩)
    else none)
  let sx := (s.sextant g.part (if v.space == 2 then v.home else g.die) g.gid).filterMap (fun x =>
    if x.2.armed then (entryMatches (entryNat x.1.w) v).map (fun m => ⟨x.1.e, entryNat x.1.w, m.1, m.2, x.2.hits⟩) else none)
  own ++ sx

/-- A gang's copy of a Sextant entry changed in the state. -/
def State.modSextant (s : State) (part die e gid : Nat) (f : SxCopy → SxCopy) : State :=
  { s with sxEntries := s.sxEntries.map (fun (x : SxEntry) => if x.e == e && x.part == part && x.die == die then x.modCopy gid f else x) }

/-- The hit counted in its entry (R383). -/
def State.countHit (s : State) (g : Gang) (v : WatchEvent) (h : Hit) : State :=
  let s := s.perf g 9 1
  let once := bit h.e 231
  if h.entry < 8 then
    s.modCore g.die g.core (fun c => { c with watch := modNth c.watch h.entry (Machine.countHit once) })
  else
    s.modSextant g.part (if v.space == 2 then v.home else g.die) h.entry g.gid (fun c =>
      { c with hits := min (c.hits + 1) 0xFFFF, armed := c.armed && !once })

/-- The notice of an entry, on a core or a gang's copy, unless the entry has sent one in this microsecond (R385). -/
def State.noticeHit (s : State) (g : Gang) (die entry : Nat) (report : List Byte) : State :=
  let us := s.devtimeOf g.die / 1000
  let last := if entry < 8 then (s.core g.die g.core).notified.getD entry none
    else ((s.sextant g.part die g.gid).find? (fun x => x.1.e == entry)).bind (fun x => x.2.notified)
  if last == some us then s
  else
    (if entry < 8 then s.modCore g.die g.core (fun c => { c with notified := setNth c.notified entry (some us) })
     else s.modSextant g.part die entry g.gid (fun c => { c with notified := some us })).notice 10 g.part g.die 0 (s.lidOf g.crew) report

/-- The notice of an ACTION 4 entry, at most one per entry per microsecond (R385). -/
def State.notifyHit (s : State) (g : Gang) (v : WatchEvent) (h : Hit) : State :=
  s.noticeHit g (if v.space == 2 then v.home else g.die) h.entry
    (hitReport g v h.entry h.value h.addr (s.devtimeOf g.die) 0 (ofBool (v.precise)))

/-- A Sextant program run queued for an ACTION 5 entry (R383, R389). -/
def State.queueRun (s : State) (g : Gang) (v : WatchEvent) (ev : Nat) (h : Hit) (waits : Option Nat) : State :=
  let t := s.devtimeOf g.die
  let r := hitReport g v h.entry h.value h.addr t 0 (ofBool (v.precise))
  { s with nextId := s.nextId + 1, sxRuns := s.sxRuns ++
      [{ id := s.nextId, ev := ev, part := g.part, die := g.die, prog := (bits h.e 228 3),
         event := eventFields v g.rank h.entry h.value h.addr t (min (h.hits + 1) 0xFFFF), gid := g.gid, bundle := v.bundle,
         lane := v.lane.getD 0, report := r, waits := waits, op := v.holds, bound := v.bound, mem := v.mem }] }


/-- The halt that the matching entries ask for: the highest level, reported by the lowest entry that asked for it (R383). -/
def State.askHalt (s : State) (g : Gang) (v : WatchEvent) (ev : Nat) (hs : List Hit) : State :=
  let lvl (h : Hit) : Nat := let a := entryAction h.e; if 1 ≤ a ∧ a ≤ 3 then a else 0
  let top := maxOf (hs.map lvl)
  if top = 0 then s
  else
    match hs.find? (fun h => lvl h == top) with
    | none => s
    | some h =>
      -- an engine event halts the bundle where a lane is asked for (R384)
      let level := if v.precise ∨ top ≠ 1 then top else 2
      let r := hitReport g v h.entry h.value h.addr (s.devtimeOf g.die) level (ofBool (v.precise))
      let halt : PendingHalt :=
        { id := s.nextId, ev := ev, reply := none, gid := v.gid, bundle := v.bundle, lane := v.lane.getD 0, level := level, report := r, op := v.holds,
          base := g.issuesOf v.bundle + v.late, bound := v.bound, mem := v.mem }
      { s with nextId := s.nextId + 1, halts := s.halts ++ [halt] }

/-- An operation held by a hit (R384): of the scan engine, the gang's later ones wait. -/
def State.holdOp (s : State) (op : Option Nat) : State :=
  match op.bind (fun o => s.ops.find? (fun x => x.id == o)) with
  | none => s
  | some o =>
    if o.eng == 3 then s.modGang o.gid (fun g => { g with scanHeld := g.scanHeld ++ [(o.id, o.bundle)] })
    else { s with ops := s.ops.map (fun x => if x.id == o.id then { x with held := true } else x) }

/-- Whether a bundle stands halted: it has live sub-bundles, and all stand. -/
def Bundle.stands (b : Bundle) : Bool :=
  b.subs.any Sub.isLive && b.subs.all (fun q => !q.isLive || q.halted && !q.stepping)

/-- The evaluation of one event (R381–R384): hits counted, notices sent, programs queued, and the halt asked for. An event
of an agent whose bundle is halted counts HITS only (R383). waits is the first slice of the sub-bundle that a skid-0
program run keeps waiting. -/
def State.observe (s : State) (v : WatchEvent) (waits : Option Nat) : State :=
  match s.gang v.gid, s.gang (v.owner.getD v.gid) with
  | some g, some ge =>
    if !(s.anyArmed ge || v.space == 2 && !s.sxEntries.isEmpty) then s
    else
      let hs := s.hitsOf ge v
      if hs.isEmpty then s
      else
        let s1 := hs.foldl (fun t h => t.countHit ge v h) s
        if (match g.bundles[v.bundle]? with | some b => b.stands | none => false) then s1
        else
          let s2 := (hs.filter (fun h => entryAction h.e == 4)).foldl (fun t h => t.notifyHit g v h) s1
          let s3 := (hs.filter (fun h => entryAction h.e == 5)).foldl (fun t h => t.queueRun g v s.nextId h waits) s2
          let s4 := s3.askHalt g v s.nextId hs
          if hs.any (fun h => 1 ≤ entryAction h.e && entryAction h.e ≤ 3) then s4.holdOp v.holds else s4
  | _, _ => s

/-- Whether any entry of the module is armed: a quick test that skips the evaluation. -/
def State.watching (s : State) : Bool := !s.sxEntries.isEmpty || s.cores.any (fun c => c.watch.any (fun e => e.armed))

/-- The events of a long access, one for each step bytes (R384: a copy word, a stream granule). -/
def State.observeEach (s : State) (v : WatchEvent) (step : Nat) (bs : List Byte) : State :=
  (List.range ((bs.length + step - 1) / step)).foldl (fun s i =>
    s.observe { v with addr := v.addr + step * i, data := (bs.drop (step * i)).take step } none) s

/-- The events of a global access of an agent: at the issuing core, and at the home slices (R382). -/
def State.seeGlobal (s : State) (v : WatchEvent) (step : Nat) (bs : List Byte) : State :=
  if !s.watching then s
  else
    (s.observeEach { v with space := 0 } step bs).observeEach { v with space := 2, home := bits v.addr 54 3 } step bs

/-- The events of an access that lands in a gang's view: the agent's own in its own view, REMOTE in another's (R382). -/
def State.seeView (s : State) (v : WatchEvent) (owner step : Nat) (bs : List Byte) : State :=
  if !s.watching then s
  else if owner == v.gid then s.observeEach { v with space := 1 } step bs
  else s.observeEach { v with space := 1, agent := 6, owner := some owner } step bs

/-- Whether an armed entry of a gang with VOP ≠ 0 and KIND bit 0 could match a load of a space, so that its sub-bundle waits for the
data (R384). -/
def State.loadWatched (s : State) (g : Gang) (space : Nat) : Bool :=
  let could (w : List W64) : Bool := bits (entryNat w) 192 3 != 0 && bit (entryNat w) 115 && bits (entryNat w) 112 3 == space
  (s.core g.die g.core).watch.any (fun e => e.armed && e.owner == some g.gid && could e.w) ||
    (s.sextant g.part g.die g.gid).any (fun x => x.2.armed && could x.1.w)

end Sys2Proof.Machine
end

