-- ==== Sys2Proof/Machine/Issue.lean ====
section
/-!
DEFINITION. What every instruction's issue shares: the issuing sub-bundle, the yield-deadline counter (R159, R160), passes
(R147, R166), the latch belt and its check (R148, R170, R171), regrouping (R149), halts that fall due (R386, R387), and how
an effect ends.
-/

namespace Sys2Proof.Machine

/-- The issuing sub-bundle with its gang and bundle. -/
structure Ctx where
  c : Issuer
  g : Gang
  b : Bundle
  q : Sub
  deriving DecidableEq, Repr

/-- A bundle as an instruction of a sub-bundle sees it: one that has issued and waits reads the scalars as they stood at its issue
(R169). -/
def Bundle.asIssued (b : Bundle) (q : Sub) : Bundle := if q.charged && !q.base.isEmpty then { b with s := q.base } else b

/-- The issuer of a state with the parts it names; none when it names nothing resident. -/
def State.ctx (s : State) : Option Ctx :=
  match s.cur with
  | none => none
  | some c =>
    match s.gang c.gid with
    | none => none
    | some g =>
      match g.bundles[c.bundle]? with
      | none => none
      | some b =>
        match b.subs[c.sub]? with
        | none => none
        | some q => if b.killed then none else some ⟨c, g, b.asIssued q, q⟩

/-- The offset of the issuing sub-bundle. -/
def Ctx.offset (x : Ctx) : Nat := x.b.offsetOf x.q

/-- Where a fault of the issuing instruction is raised. -/
def Ctx.faultAt (x : Ctx) : FaultAt := ⟨x.c.gid, x.c.bundle, x.offset, x.c.plane⟩

/-- The occupied planes of the instruction in progress. -/
def Ctx.allPlanes (x : Ctx) : List Nat := x.c.words.map (·.1)

/-- A scalar of the issuing bundle (R36). -/
def Ctx.s (x : Ctx) (code : Nat) : W64 := x.b.readS code

/-- A scalar that a per-lane instruction reads: as it stood at the first pass (R169). -/
def Ctx.base (x : Ctx) (code : Nat) : W64 :=
  if x.c.first then x.b.readS code else if code = 0 ∨ code ≥ 64 then 0 else x.c.base.getD code 0

/-- A scalar of the issuing bundle as a number. -/
def Ctx.sn (x : Ctx) (code : Nat) : Nat := (x.b.readS code).toNat

/-- A scalar of the issuing bundle written (R36). -/
def State.setS (s : State) (x : Ctx) (code : Nat) (v : W64) : State :=
  s.modBundle x.c.gid x.c.bundle (fun b => b.writeS code v)

/-- The 128-bit value of a scalar pair (R157). -/
def Ctx.pairVal (x : Ctx) (code : Nat) : Nat := x.sn code + x.sn (code + 1) <<< 64

/-- A scalar pair written. -/
def State.setPair (s : State) (x : Ctx) (code v : Nat) : State :=
  (s.setS x code (BitVec.ofNat 64 v)).setS x (code + 1) (BitVec.ofNat 64 (v >>> 64))

/-! ## Halting (R386, R387) -/

/-- A field of a report changed. -/
def reportSet (r : List Byte) (lo len v : Nat) : List Byte := leBytes r.length (setBits (leNat r) lo len v)

/-- A sub-bundle that holds nothing, free for reuse (model). -/
def Sub.free : Sub :=
  { slices := [], wait := .none, charged := false, live := none, yielded := false, atYield := false, halted := false, stepping := false,
    stopped := false, lastIssue := 0, rejoined := false, conflict := 0, base := [], issuedIn := none, pass := none }

/-- A sub-bundle added at the first free place. -/
def addSub : List Sub → Sub → List Sub
  | [], q => [q]
  | p :: ps, q => if p.isLive then p :: addSub ps q else q :: ps

/-- The mask bit of a lane within its slice. -/
def laneBit (l : Nat) : BitVec 4 := BitVec.ofNat 4 (1 <<< (l % 4))

/-- The slice record that holds a lane now: its detached record, or its slice. -/
def Bundle.sliceOf (b : Bundle) (l : Nat) : Option Nat :=
  ((List.range b.slices.length).find? (fun i =>
    match b.slices[i]? with
    | none => false
    | some sl => sl.home == l / 4 && (sl.own &&& laneBit l) != 0))

/-- Whether a lane is in the active mask of the slice record that holds it. -/
def Bundle.laneActive (b : Bundle) (l : Nat) : Bool :=
  match b.sliceOf l with
  | none => false
  | some i =>
    match b.slices[i]? with
    | none => false
    | some sl => !sl.exited && (sl.active &&& laneBit l) != 0 && laneAwake b true l

/-- A free detached record (R387). -/
def Bundle.freeRecord (b : Bundle) : Option Nat :=
  (List.range b.slices.length).find? (fun i =>
    b.isDetached i && (match b.slices[i]? with | some sl => sl.own == 0 | none => false))

/-- Detached lanes a bundle holds. -/
def Bundle.detachedCount (b : Bundle) : Nat :=
  ((List.range b.slices.length).filter (fun i =>
    b.isDetached i && (match b.slices[i]? with | some sl => sl.own != 0 | none => false))).length

/-- Lane l detached from slice i into record k (R387). -/
def Bundle.detach (b : Bundle) (i k l : Nat) (sl : Slice) : Bundle :=
  let m := laneBit l
  let rec' : Slice :=
    { home := sl.home, own := m, offset := sl.offset, active := m,
      join := sl.join.map (fun e => { e with pend := 0, full := m }), call := sl.call, exited := false }
  let sl' : Slice :=
    { sl with own := sl.own &&& ~~~m, active := sl.active &&& ~~~m,
              join := sl.join.map (fun e => { e with pend := e.pend &&& ~~~m, full := e.full &&& ~~~m }) }
  let q := (b.subs.find? (fun q => q.slices.contains i)).getD Sub.free
  { b with slices := setNth (setNth b.slices i sl') k rec',
           lanes := modNth b.lanes l (fun x => { x with halted := true }),
           subs := addSub b.subs { Sub.free with slices := [k], live := q.live, yielded := q.yielded, halted := true } }

/-- A lane halt (R387): the bundle after it, whether it was escalated to the bundle, and whether anything was halted. -/
def Bundle.haltLane (b : Bundle) (l : Nat) (report : List Byte) : Bundle × Bool × Bool :=
  match b.sliceOf l with
  | none => (b, false, false)
  | some i =>
    match b.slices[i]? with
    | none => (b, false, false)
    | some sl =>
      if (sl.active &&& laneBit l) = 0 ∨ !laneAwake b true l then (b, false, false)
      else if b.isDetached i then
        -- a running detached lane halts where it stands
        ({ b with report := report, lanes := modNth b.lanes l (fun x => { x with halted := true }),
                  subs := b.subs.map (fun q => if q.slices.contains i then { q with halted := true, stepping := false } else q) },
          false, true)
      else
        match b.freeRecord with
        | none => (b.haltAll report, true, true)
        | some k =>
          if sl.active = laneBit l then (b.haltAll report, true, true)
          else ({ b.detach i k l sl with report := report }, false, true)

/-- An operation that a halt held goes on (R386). -/
def State.releaseOp (s : State) (op : Option Nat) : State :=
  match op with
  | none => s
  | some o => { s with ops := s.ops.map (fun x => if x.id == o then { x with held := false } else x)
                       gangs := s.gangs.map (fun g => { g with scanHeld := g.scanHeld.filter (fun p => p.1 != o) }) }

/-- The sub-bundles that a halt would halt. -/
def State.haltTargets (s : State) (h : PendingHalt) : List Sub :=
  match s.gang h.gid with
  | none => []
  | some g =>
    let bs := if h.level == 3 then g.bundles else (g.bundles[h.bundle]?).toList
    bs.flatMap (fun b => if b.done then [] else b.subs.filter (fun q => q.isLive &&
      (h.level != 1 || (match b.sliceOf h.lane with | some i => q.slices.contains i | none => false))))

/-- The sub-bundles that stand halted by a halt, as gang, bundle and slices. -/
def State.haltedBy (s : State) (h : PendingHalt) : List (Nat × Nat × List Nat) :=
  match s.gang h.gid with
  | none => []
  | some g => ((List.range g.bundles.length).zip g.bundles).flatMap (fun p =>
      if h.level != 3 && p.1 != h.bundle then []
      else (p.2.subs.filter (fun q => q.isLive && q.halted &&
        (h.level != 1 || (match p.2.sliceOf h.lane with | some i => q.slices.contains i | none => false)))).map (fun q => (h.gid, p.1, q.slices)))

/-- A halt that takes effect while a dump holds the crew is not one that the dump made: it stays in force after the dump (R362). -/
def State.keepHalt (s : State) (h : PendingHalt) : State :=
  match s.gang h.gid with
  | none => s
  | some g => s.modCrew g.crew (fun c => if c.dumpSlot.isSome then { c with kept := c.kept ++ s.haltedBy h } else c)

/-- Whether a halt is of a lane that is not active where it falls, so that it halts nothing (R387). -/
def State.haltVain (s : State) (h : PendingHalt) : Bool :=
  h.level == 1 && (match s.gang h.gid with
    | none => true
    | some g => match g.bundles[h.bundle]? with
      | none => true
      | some b => b.done || !(b.haltLane h.lane h.report).2.2)

/-- The status of a dbg.halt told to whoever asked for its halt (R389, R393). -/
def State.answerHalt (s : State) (h : PendingHalt) (status : Nat) : State :=
  let s := match h.reply with | some m => s.reply m status | none => s
  { s with gangs := s.gangs.map (fun (g : Gang) => { g with bundles := g.bundles.map (fun (b : Bundle) => { b with subs := b.subs.map (fun (q : Sub) =>
      match q.wait with | .halting i _ => if i == h.id then { q with wait := .halting i status } else q | _ => q) }) }) }

/-- Whether a halt is of dbg.halt, and not of a hit or a fault (R385). -/
def PendingHalt.asked (h : PendingHalt) : Bool := fieldOf h.report 0 5 == 17

/-- A halt with its skid in its report (R384, R385): the instructions that the bundle has issued since the event. -/
def State.withSkid (s : State) (h : PendingHalt) : PendingHalt :=
  if fieldOf h.report 0 5 ≥ 16 || h.bound == 0 then h
  else
    let n := (((s.gang h.gid).map (fun g => g.issuesOf h.bundle)).getD 0) - h.base
    { h with report := reportSet (reportSet h.report 25 10 n) 7 1 (ofBool (n == 0)) }

/-- The effect of a halt: its report is sent, with LEVEL 0 when nothing was halted; a dbg.halt of a lane that is not active does nothing
(R384–R387). -/
def State.makeHalt (s : State) (h0 : PendingHalt) : State :=
  let h := s.withSkid h0
  let s := { s with halts := s.halts.filter (fun y => y.id != h.id) }
  if h.asked && s.haltVain h then s.answerHalt h 7
  else
  let s := s.answerHalt h 0
  match s.gang h.gid with
  | none => s.releaseOp h.op
  | some g =>
    match g.bundles[h.bundle]? with
    | none => s.releaseOp h.op
    | some b =>
      let lid := s.lidOf g.crew
      if h.level = 3 then
        let any := g.bundles.any (fun y => !y.done)
        let r := if any then h.report else reportSet h.report 5 2 0
        let s := s.modGang h.gid (fun y => y.haltAll (fun k => reportSet h.report 20 5 k))
        (if b.done then s.releaseOp h.op else s).notice 10 g.part g.die 0 lid r
      else if b.done then
        (s.releaseOp h.op).notice 10 g.part g.die 0 lid (reportSet h.report 5 2 0)
      else if h.level = 2 then
        (s.modBundle h.gid h.bundle (fun y => y.haltAll h.report)).notice 10 g.part g.die 0 lid h.report
      else
        let r := b.haltLane h.lane h.report
        if !r.2.2 then s.notice 10 g.part g.die 0 lid (reportSet h.report 5 2 0)
        else
          let rep := if r.2.1 then reportSet (reportSet h.report 8 1 1) 5 2 2 else h.report
          (s.modBundle h.gid h.bundle (fun _ => { r.1 with report := rep })).notice 10 g.part g.die 0 lid rep

/-- A halt performed (R362, R384–R387). -/
def State.performHalt (s : State) (h : PendingHalt) : State := (s.makeHalt h).keepHalt h

/-- Whether no instruction may be issued before a halt any more (R384): the bundle has issued as many as it may since the event, or the
access that raised it has returned. DEDUCED (log 89). -/
def State.haltDue (s : State) (h : PendingHalt) : Bool :=
  (match s.gang h.gid with | none => true | some g => h.base + h.bound ≤ g.issuesOf h.bundle) ||
    (match h.mem with | some i => s.memOps.all (fun o => o.id != i) | none => false)

/-- Whether a halt keeps a sub-bundle from starting an instruction: it is due, and of the gang, of the bundle, or, of dbg.halt, of its lane
(R384, R393). -/
def State.haltBars (s : State) (h : PendingHalt) (gid bundle : Nat) (b : Bundle) (q : Sub) : Bool :=
  h.gid == gid && s.haltDue h && (h.level == 3 || h.bundle == bundle &&
    (h.level != 1 || !h.asked || (match b.sliceOf h.lane with | some i => q.slices.contains i | none => false)))

/-- What falls due after an instruction of a bundle: the end of a crew that has ended (R368), and the due halts of the bundle (R384),
unless an instruction that has begun must complete, or a program of the event must run (R389), first. -/
def State.dueHalts (s : State) (gid b : Nat) : State :=
  let s := s.dueEnd gid
  (s.halts.filter (fun h => h.gid == gid && (h.bundle == b || h.level == 3) && s.haltDue h)).foldl
    (fun s h => if (s.haltTargets h).all Sub.between && s.sxRuns.all (fun r => r.ev != h.ev) then s.performHalt h else s) s

/-! ## Ends of an issue -/

/-- How an instruction's effect ends: done, with the offset moved past it; moved, with the offsets already set; a wait in the
instruction, which has issued; a wait before its issue, with its stall reason (R167); or a fault, with a state in which nothing but log
entries has changed. -/
inductive Eff where
  | hold (reason : Nat)
  | done (s : State)
  | moved (s : State)
  | wait (w : Wait) (s : State)
  | fault (f : FaultInfo) (s : State)
  /-- A yield (R158): the deadline it loads and the live count; stop tells that a stop is pending. -/
  | yielded (deadline live : Nat) (stop : Bool) (s : State)

/-- One count of the yield-deadline counter, the cycle of the issue (R159), and at its first pass the instruction's place in program
order (R332). -/
def Bundle.charge (now : Nat) (first : Bool) (b : Bundle) : Bundle :=
  { b with ycount := b.ycount - 1, lastCycle := now, issues := b.issues + ofBool first }

/-- A bundle one of whose sub-bundles begins to wait: with the first of them its waiting cycles begin (R159). -/
def Bundle.beginWait (now : Nat) (b : Bundle) : Bundle :=
  if b.subs.any (fun q => q.isLive && q.wait != .none) then b else { b with lastCycle := now }

/-- The number of the issuing instruction in the bundle's program order (R332). -/
def Ctx.seq (x : Ctx) : Nat := (x.q.pass.map Pass.seq).getD x.b.issues

/-- The slices of a sub-bundle moved by a number of bytes. -/
def Bundle.advance (b : Bundle) (q : Sub) (n : Nat) : Bundle :=
  { b with slices := ((List.range b.slices.length).zip b.slices).map (fun p =>
      if q.slices.contains p.1 then { p.2 with offset := p.2.offset + n } else p.2) }

/-- The latches of lanes invalidated (R148). -/
def Bundle.invalidateLanes (b : Bundle) (ls : List Nat) : Bundle :=
  { b with lanes := ((List.range b.lanes.length).zip b.lanes).map (fun p => if ls.contains p.1 then p.2.invalidate else p.2) }

/-- The lanes of every slice of a sub-bundle, inactive and pending ones among them (R148). -/
def Bundle.heldLanes (b : Bundle) (q : Sub) : List Nat := (b.slicesOf q).flatMap (fun sl => sl.lanesOf sl.own)

/-- The latches of every lane of every slice of a sub-bundle invalidated (R148). -/
def Bundle.invalidate (b : Bundle) (q : Sub) : Bundle := b.invalidateLanes (b.heldLanes q)

/-- The slices of a list grouped by offset, in the order of their first members (R149). -/
def groupByOffset (off : Nat → Nat) : List Nat → List (List Nat)
  | [] => []
  | i :: is =>
    let gs := groupByOffset off is
    if gs.any (fun g => g.head?.map off == some (off i)) then
      gs.map (fun g => if g.head?.map off == some (off i) then i :: g else g)
    else [i] :: gs

/-- Sub-bundle k regrouped after a control instruction (R149): exited slices leave it, and each group of equal offsets
becomes a sub-bundle; the group of the first slice keeps the place. -/
def Bundle.regroup (b : Bundle) (k : Nat) : Bundle :=
  match b.subs[k]? with
  | none => b
  | some q =>
    let off (i : Nat) : Nat := ((b.slices[i]?).map (·.offset)).getD 0
    let alive := q.slices.filter (fun i => match b.slices[i]? with | some sl => !sl.exited | none => false)
    match groupByOffset off alive with
    | [] => { b with subs := setNth b.subs k Sub.free }
    | g :: gs => { b with subs := gs.foldl (fun ss m => addSub ss { q with slices := m }) (setNth b.subs k { q with slices := g }) }

/-- A sub-bundle after it has issued: waiting for nothing, charged for nothing, with its issue stamped (R167). -/
def Sub.issued (q : Sub) (t : Nat) : Sub :=
  { q with wait := .none, charged := false, lastIssue := t + 1, pass := none, base := [], atYield := false, stopped := false, rejoined := false }

/-- Whether a hit of the stepped instruction halts the step's target, so that the step makes no report (R393). -/
def State.stepHit (s : State) (x : Ctx) (lane : Option Nat) : Bool :=
  s.halts.any (fun h => h.gid == x.c.gid && h.bundle == x.c.bundle && fieldOf h.report 0 5 < 16 && s.haltDue h &&
    (h.level ≥ 2 || lane == some h.lane))

/-- The end of a step of a stepped sub-bundle: it halts again with ENTRY 18, unless a hit halts it (R393); a stepped lane that has exited
is reported with LEVEL 0. DESIGN CHOICE (log 55). -/
def State.endStep (s : State) (x : Ctx) : State :=
  if x.q.stepping && !s.stepHit x (if x.q.slices.any x.b.isDetached then (x.b.liveLanes x.q).head? else none) then
    match s.gang x.c.gid with
    | none => s
    | some g =>
      let t := s.devtimeOf g.die
      let det := x.q.slices.any x.b.isDetached
      let lane := if det then (x.b.liveLanes x.q).head? else none
      -- a stepped lane that merged has no record left (R388)
      let gone := det && (match g.bundles[x.c.bundle]? with
        | some b => x.q.slices.all (fun i => match b.slices[i]? with | some sl => sl.own == 0 | none => true)
        | none => false)
      let left := gone && (match g.bundles[x.c.bundle]?, lane with
        | some b, some l => (match b.lanes[l]? with | some y => y.exited | none => false)
        | _, _ => false)
      let rep := plainReport g x.c.bundle (if gone && !left then 19 else 18) (if left then 0 else if det then 1 else 2) lane x.offset t
      let s := s.modBundle x.c.gid x.c.bundle (fun b =>
        { b with subs := b.subs.map (fun q =>
            if q.stepping && q.wait == .none && q.isLive && q.lastIssue == s.tick + 1 then
              { q with stepping := false, halted := true } else q) })
      let busy := match s.gang x.c.gid with
        | some g' => match g'.bundles[x.c.bundle]? with | some b => b.subs.any (fun q => q.stepping && q.isLive) | none => false
        | none => false
      -- the target halts again when its last stepping sub-bundle has completed
      if busy then s
      else
        (s.modBundle x.c.gid x.c.bundle (fun b => { b with report := rep })).notice 10 g.part g.die 0 (s.lidOf g.crew) rep
  else s

/-- The sub-bundle's stamp and wait after a completed instruction. -/
def State.completeSub (s : State) (x : Ctx) : State :=
  s.modBundle x.c.gid x.c.bundle (fun b => b.modSub x.c.sub (fun q => q.issued s.tick))

/-- The counts of an issue (R403): an instruction at its first issue, its passes and their executing lanes, and a cycle that
carries no stall; and the stamp of the bundle's last issue (R159). -/
def State.countIssue (s : State) (x : Ctx) (passes lanes : Nat) : State :=
  if x.q.charged then s
  else
    (((s.perf x.g 1 (ofBool x.c.first)).perf x.g 2 passes).perf x.g 4 lanes).perfWith x.g 3 0 1

/-- An instruction or a pass that issues counts once against the yield deadline, and its cycle is noted (R159, R401). -/
def State.charge (s : State) (x : Ctx) : State :=
  if x.q.charged then s
  else
    let now := (s.die x.g.die).cycles
    s.modBundle x.c.gid x.c.bundle (fun b => (b.charge now x.c.first).modSub x.c.sub (fun q => { q with issuedIn := some now }))

/-- A sub-bundle that cannot issue its next instruction yet, with its stall reason (R167, R401): it is counted and charged for nothing,
and the instruction is tried again. -/
def State.hold (s : State) (x : Ctx) (reason : Nat) : State :=
  s.modBundle x.c.gid x.c.bundle (fun b =>
    (b.beginWait (s.die x.g.die).cycles).modSub x.c.sub (fun q => { q with wait := .retry reason }))

/-- The counts of one pass. -/
def State.countPass (s : State) (x : Ctx) (lanes : Nat) : State := s.countIssue x 1 lanes

/-- Whether the three v sources of an instruction are distinct registers of one bank, its number modulo 4, outside PAIR (R174). -/
def bankClash (i : Instr) : Bool :=
  match i with
  | .pair _ => false
  | _ =>
    let cas := match i with | .atom w => if w.fn.toNat % 16 == 9 then [w.d9.toNat] else [] | _ => []
    let vs := ((sourceCodes i ++ cas).filter (· < 256)).eraseDups
    vs.length == 3 && vs.all (fun c => c % 4 == vs.headD 0 % 4)

/-- The extra scheduler cycle of a pass whose v sources lie in one bank, under stall reason 3 (R174): its sub-bundle owes it. -/
def State.countBank (s : State) (x : Ctx) (i : Instr) : State :=
  if bankClash i && s.cores.any (fun c => c.die == x.g.die && c.core == x.g.core) then
    (s.perfWith x.g 3 3 1).modCore x.g.die x.g.core (fun c => { c with banked := c.banked ++ [(x.c.gid, x.c.bundle, x.c.sub, 1)] })
  else s

/-- The end of a uniform or control instruction (R148, R149, R159). -/
def State.finishUniform (s0 : State) (x : Ctx) (control : Bool) (len : Nat) (e : Eff) : State :=
  let charge (s : State) : State :=
    (s.countIssue x 0 0).charge x
  let latches (s : State) : State :=
    if control then s.modBundle x.c.gid x.c.bundle (fun b => b.invalidateLanes (x.b.heldLanes x.q)) else s
  match e with
  | .hold r => s0.hold x r
  | .done s =>
    let s := (latches (charge s)).modBundle x.c.gid x.c.bundle (fun b => b.advance x.q len)
    ((s.completeSub x).endStep x).dueHalts x.c.gid x.c.bundle
  | .moved s =>
    let s := (latches (charge s)).completeSub x
    let s := s.modBundle x.c.gid x.c.bundle (fun b => b.regroup x.c.sub)
    (s.endStep x).dueHalts x.c.gid x.c.bundle
  | .wait w s =>
    (charge s).modBundle x.c.gid x.c.bundle (fun b => b.modSub x.c.sub (fun q =>
      { q with wait := w, charged := true, lastIssue := if x.q.charged then q.lastIssue else s0.tick + 1,
               base := if x.q.charged then q.base else x.b.s }))
  | .fault f s => s.takeFault x.faultAt f
  | .yielded deadline live stop s =>
    let s := (latches (s.countIssue x 0 0)).modBundle x.c.gid x.c.bundle (fun b =>
      { b.advance x.q len with ycount := deadline, lastCycle := (s0.die x.g.die).cycles, issues := b.issues + 1 })
    let s := (s.completeSub x).modBundle x.c.gid x.c.bundle (fun b => b.modSub x.c.sub (fun q =>
      { q with live := some live, yielded := true, atYield := true, stopped := stop, issuedIn := some (s0.die x.g.die).cycles }))
    (s.endStep x).dueHalts x.c.gid x.c.bundle

/-- WATCHDOG 1 (R160): the counter is 0 when an instruction other than yield or exit would issue. -/
def watchdogIssue (x : Ctx) : Option FaultInfo :=
  failIf (x.b.ycount == 0 && !x.q.charged && x.c.first) { cls := 0x0A, sub := 1 }

/-! ## Uniform instructions -/

/-- A uniform or control instruction: the checks of its form (R44), its own checks, what it waits for before it issues, the watchdog of an
instruction that would issue (R160), and its effect. -/
def runUniformWith (dog : Ctx → Option FaultInfo) (control : Bool) (len : Nat) (form : Ctx → Form) (w : XWord)
    (extra : Ctx → Option FaultInfo) (eff : Ctx → State → Eff) (s : State) : Host.Outcome State Fault Refusal :=
  match s.ctx with
  | none => .fault .noIssuer
  | some x =>
    match firstFault [{ form x with uniform := true, result := false }.check x.g.kernel.v x.g.kernel.atlas w, extra x] with
    | some f => .next (s.finishUniform x control len (.fault f s))
    | none =>
      match eff x s with
      | .hold r => .next (s.hold x r)
      | e =>
        match dog x with
        | some f => .next (s.finishUniform x control len (.fault f s))
        | none => .next (s.finishUniform x control len e)

/-- A uniform or control instruction that the yield deadline bounds (R160). -/
def runUniform (control : Bool) (len : Nat) (form : Ctx → Form) (w : XWord) (extra : Ctx → Option FaultInfo)
    (eff : Ctx → State → Eff) (s : State) : Host.Outcome State Fault Refusal :=
  runUniformWith watchdogIssue control len form w extra eff s

/-- No check beyond those of R44. -/
def noExtra (_ : Ctx) : Option FaultInfo := none

/-! ## Per-lane instructions -/

/-- The lanes that execute in a pass (R38, R170): active, in the pass's plane, guard satisfied. -/
def Ctx.lanesIn (x : Ctx) (plane : Nat) (guard : Nat × Bool) : List Nat :=
  (x.b.activeLanes x.q).filter (fun l =>
    match x.b.lanes[l]? with
    | none => false
    | some y => y.plane == plane && (y.readP guard.1 != guard.2))

/-- LATCH_INVALID (R171) in a plane: the lowest executing lane that reads an invalid latch. -/
def Ctx.latchCheck (x : Ctx) (plane : Nat) (i : Instr) : Option FaultInfo :=
  let zs := (sourceCodes i).filter (fun c => 256 ≤ c && c < 260)
  if zs.isEmpty then none
  else
    let bad := (x.lanesIn plane (guardOf i)).filterMap (fun l =>
      match x.b.lanes[l]? with
      | none => none
      | some y => (zs.find? (fun c => !(y.z.getD (c - 256) (0, false)).2)).map (fun c => (l, c - 256)))
    bad.head?.map (fun p => { cls := 2, plane := some plane, detail := p.2 + p.1 <<< 8 })

/-- The exception event of a lane, for watch entries (R382). -/
def Ctx.excEvent (x : Ctx) (lane : Nat) (e : Exc) : WatchEvent :=
  { gid := x.c.gid, bundle := x.c.bundle, part := x.g.part, space := 3, kind := 3, agent := 0, plane := some x.c.plane,
    lane := some lane, addr := 0, data := [], exc := e, offset := x.offset, opnum := 0, op := none }

/-- What is left of an instruction after a pass. -/
def Ctx.passLeft (x : Ctx) : Pass := ⟨x.c.rest, x.c.snap, if x.c.first then x.b.s else x.c.base, x.seq⟩

/-- The end of a pass (R147, R159, R166): one count, then the next pass or the next offset. -/
def State.finishPass (s : State) (x : Ctx) (len : Nat) : State :=
  let s := s.charge x
  match x.c.rest with
  | [] =>
    let s := s.modBundle x.c.gid x.c.bundle (fun b => b.advance x.q len)
    ((s.completeSub x).endStep x).dueHalts x.c.gid x.c.bundle
  | _ =>
    s.modBundle x.c.gid x.c.bundle (fun b => b.modSub x.c.sub (fun q =>
      { q with wait := .none, charged := false, lastIssue := s.tick + 1, pass := some x.passLeft }))

/-- A pass that waits for a memory operation (R230): charged, with the passes after it kept. -/
def State.waitPass (s : State) (x : Ctx) (w : Wait) : State :=
  (s.charge x).modBundle x.c.gid x.c.bundle (fun b =>
    b.modSub x.c.sub (fun q => { q with wait := w, charged := true, lastIssue := s.tick + 1, pass := some x.passLeft }))

/-- A per-lane instruction of one pass: the checks of its own word (R44, R171), then its effect and the end of the pass. -/
def runLane (i : Instr) (len : Nat) (extra : Ctx → Option FaultInfo) (eff : Ctx → List Nat → State → State) (s : State) :
    Host.Outcome State Fault Refusal :=
  match s.ctx with
  | none => .fault .noIssuer
  | some x =>
    match firstFault [laneFieldCheck x.g.kernel i, extra x, x.latchCheck x.c.plane i, watchdogIssue x] with
    | some f => .next (s.takeFault x.faultAt f)
    | none =>
      let ls := x.lanesIn x.c.plane (guardOf i)
      .next ((eff x ls ((s.countPass x ls.length).countBank x i)).finishPass x len)

/-- A result delivered to a lane (R170, R172, R183): the destination unless D is 268 or NWB is set, then the belt. -/
def Lane.deliver (y : Lane) (w : XWord) (r : W32) : Lane :=
  (if w.nwb = 1 then y else y.write w.d9.toNat r).shift r

/-- The results of a pass delivered to its executing lanes, each result from the lanes as they stand (R183, R197), and the
exception sets observed (R382). -/
def State.deliverPass (s : State) (x : Ctx) (w : XWord) (ls : List Nat) (f : Nat → Lane → LaneResult) : State :=
  let rs := ls.filterMap (fun l => (x.b.lanes[l]?).map (fun y => (l, f l y)))
  let s := s.modBundle x.c.gid x.c.bundle (fun b => rs.foldl (fun b r => b.modLane r.1 (fun y => y.deliver w r.2.1)) b)
  (rs.filter (fun r => r.2.2 != 0)).foldl (fun s r => s.observe (x.excEvent r.1 r.2.2) (x.q.slices.head?)) s

/-- The A operand of a lane. -/
def argA (w : XWord) (l : Nat) (y : Lane) : W32 := y.read l w.a9.toNat

/-- The B operand of a lane: the immediate where B9 is 268 (R183, R196); an instruction without imm has W2 = 0 there. -/
def argB (w : XWord) (l : Nat) (y : Lane) : W32 := if w.b9 = 268 then w.imm else y.read l w.b9.toNat

/-- The C operand of a lane (268 reads 0). -/
def argC (w : XWord) (l : Nat) (y : Lane) : W32 := y.read l w.c9.toNat

/-- A per-lane instruction whose result depends on its own lane's A, B and C. -/
def runCompute (i : Instr) (w : XWord) (len : Nat) (f : W32 → W32 → W32 → LaneResult) (s : State) :
    Host.Outcome State Fault Refusal :=
  runLane i len noExtra (fun x ls s => s.deliverPass x w ls (fun l y => f (argA w l y) (argB w l y) (argC w l y))) s

end Sys2Proof.Machine
end

