-- ==== Sys2Proof/Machine/MemAccess.lean ====
section
/-!
DEFINITION. The access instructions at issue (R222–R237): their addresses and checks, scratchpad accesses performed at once,
and the memory operations that global and crew scratchpad accesses become.
-/

namespace Sys2Proof.Machine

/-! ## The words of a plane (R27, R28, R143) -/

/-- The address of the word at an offset in a plane (R143). -/
def Kernel.codeAt (k : Kernel) (plane off : Nat) : Nat := k.kva.toNat + k.codeOff + plane * k.stride + off

/-- The words of a plane from an offset: at most five, none at or beyond CODELEN, and none from the first that may not be read on
(R27, R28, R139). -/
def State.codeWords (s : State) (g : Gang) (plane off : Nat) : List W32 :=
  let n := min 5 ((g.kernel.codeLen - off) / 4)
  let a := g.kernel.codeAt plane off
  match s.runs g.part 0 a (4 * n) with
  | some rs => wordsOfBytes (s.readRuns rs)
  | none =>
    (((List.range n).map (fun i => s.runs g.part 0 (a + 4 * i) 4)).takeWhile Option.isSome).flatMap (fun r =>
      wordsOfBytes (s.readRuns (r.getD [])))

/-- The first address that an instruction's fetch in a plane may not read (R139), none where all its words were read. -/
def State.codeRefused (s : State) (g : Gang) (plane off : Nat) : Option Nat :=
  let ws := s.codeWords g plane off
  let n := min ((g.kernel.codeLen - off) / 4) (match ws with | [] => 1 | w :: _ => Decode.lenWords (Decode.lenField w))
  if ws.length < n then some (s.firstBad g.part 0 (g.kernel.codeAt plane off) (4 * n)) else none

/-! ## What an access instruction does -/

/-- An access: kind 0 load, 1 store, 2 atomic; space 0 global, 1 own scratchpad, 2 crew scratchpad; WD, bytes, attribute word,
atomic operation. -/
structure MemInfo where
  kind : Nat
  space : Nat
  wd : Nat
  size : Nat
  attr : W32
  aop : Nat
  deriving DecidableEq, Repr

/-- The access of a per-lane memory word by its major (R226). -/
def memInfo (op : Nat) (w : XWord) : MemInfo :=
  let fn := w.fn.toNat
  if op == 0x68 then ⟨0, 0, fn % 8, wdBytes (fn % 8), w.imm, 0⟩
  else if op == 0x69 then ⟨1, 0, fn % 8, wdBytes (fn % 8), w.imm, 0⟩
  else if op == 0x6A then ⟨0, if bit fn 3 then 2 else 1, fn % 8, wdBytes (fn % 8), w.imm, 0⟩
  else if op == 0x6B then ⟨1, if bit fn 3 then 2 else 1, fn % 8, wdBytes (fn % 8), w.imm, 0⟩
  else ⟨2, atomSpace fn, if bit fn 4 then 5 else 4, if bit fn 4 then 8 else 4, w.imm, fn % 16⟩

/-- The access of a scalar memory word by its major (R235). -/
def scalarMemInfo (op : Nat) (w : XWord) : MemInfo :=
  let fn := w.fn.toNat
  if op == 0x24 then ⟨0, fn / 8 % 4, fn % 8, wdBytes (fn % 8), w.imm, 0⟩
  else if op == 0x25 then ⟨1, fn / 8 % 4, fn % 8, wdBytes (fn % 8), w.imm, 0⟩
  else ⟨2, atomSpace fn, if bit fn 4 then 5 else 4, if bit fn 4 then 8 else 4, w.imm, fn % 16⟩

/-- A load's result words: word 0 extended by WD (R227). -/
def loadWords (wd : Nat) (data : List Byte) : List W32 :=
  let n := leNat data
  if wd == 0 then [BitVec.ofNat 32 (bits n 0 8)]
  else if wd == 1 then [BitVec.ofInt 32 (toSigned 8 (bits n 0 8))]
  else if wd == 2 then [BitVec.ofNat 32 (bits n 0 16)]
  else if wd == 3 then [BitVec.ofInt 32 (toSigned 16 (bits n 0 16))]
  else (List.range (wdGroup wd)).map (fun i => BitVec.ofNat 32 (bits n (32 * i) 32))

/-- A scalar load's result: the field extended to 64 bits (R235). -/
def scalarLoad (wd : Nat) (data : List Byte) : W64 :=
  let n := leNat data
  if wd == 1 then BitVec.ofInt 64 (toSigned 8 (bits n 0 8))
  else if wd == 3 then BitVec.ofInt 64 (toSigned 16 (bits n 0 16))
  else BitVec.ofNat 64 (bits n 0 (8 * wdBytes wd))

/-- The new memory value of an atomic (R233): m old, b operand, d comparand, of n bits. -/
def atomNew (op n m b d : Nat) : Nat :=
  if op == 0 then (m + b) % 2 ^ n
  else if op == 1 then m &&& b
  else if op == 2 then m ||| b
  else if op == 3 then m ^^^ b
  else if op == 4 then (if toSigned n b < toSigned n m then b else m)
  else if op == 5 then (if b < m then b else m)
  else if op == 6 then (if toSigned n m < toSigned n b then b else m)
  else if op == 7 then (if m < b then b else m)
  else if op == 8 then b
  else if op == 9 then (if m == d then b else m)
  else if op == 10 then
    (deliverFloat fp32 .rne false false (fsumExact .rne (readFloat fp32 false m) (readFloat fp32 false b))).1
  else if m ≥ b then 0 else m + 1

/-- The registers of a lane from a code, as bytes (R227); 268 gives zeros. -/
def Lane.group (y : Lane) (l code n : Nat) : List Byte :=
  (List.range n).flatMap (fun i => leBytes 4 (if code = 268 then 0 else (y.read l (code + i)).toNat))

/-- Words written to a register group (R227). -/
def Lane.writeGroup (y : Lane) (code : Nat) (ws : List W32) : Lane :=
  if code = 268 then y else ((List.range ws.length).zip ws).foldl (fun y p => y.write (code + p.1) p.2) y

/-- A result group delivered to a lane: the registers unless D is 268 or NWB is set, and word 0 to the belt (R227, R230). -/
def Lane.deliverGroup (y : Lane) (dest : Nat) (nwb : Bool) (ws : List W32) : Lane :=
  (if nwb then y else y.writeGroup dest ws).shift (ws.headD 0)

/-! ## Addresses and checks -/

/-- The gang of a rank of a gang's crew (R133). -/
def State.gangOfRank (s : State) (cid rank : Nat) : Option Gang :=
  match s.crew cid with
  | none => none
  | some c => ((c.gangs[rank]?).join).bind s.gang

/-- The number of ranks of a crew, GANGS + 1. -/
def State.ranks (s : State) (cid : Nat) : Nat := ((s.crew cid).map (·.gangs.length)).getD 1

/-- R133, orders 1 to 3, for a rank other than the issuer's own. -/
def State.memberFault (s : State) (g : Gang) (k : W64) : Option FaultInfo :=
  if k.toNat == g.rank then none
  else
    firstFault [failIf (k.toNat ≥ s.ranks g.crew) { cls := 7, sub := 4 }, failIf (!bit g.group g.rank) { cls := 7, sub := 2 },
      failIf (!bit g.group k.toNat) { cls := 7, sub := 1 }]

/-- R133, orders 4 and 5: the published window and the regions of the target; a retired gang has none (R397). -/
def State.windowFault (s : State) (g : Gang) (k : W64) (a n : Nat) : Option FaultInfo :=
  let w := g.windows.getD k.toNat (0, 0x40000)
  if !(w.1 ≤ a && a + n ≤ w.1 + w.2) then some { cls := 7, sub := 3, addr := a }
  else
    match s.gangOfRank g.crew k.toNat with
    | some t => failIf (t.retired || !t.inView a n) (protFault a)
    | none => some (protFault a)

/-- The space an access has in effect: a crew form that names the issuer's own rank is local (R232). -/
def MemInfo.spaceOf (m : MemInfo) (g : Gang) (rank : W64) : Nat :=
  if m.space == 2 && rank.toNat == g.rank then 1 else m.space

/-- The address of an access (R228, R235) from its base and index. -/
def MemInfo.ea (m : MemInfo) (base index : W64) : W64 :=
  (if m.space == 2 then 0 else base) + index + BitVec.ofInt 64 (attrDisp m.attr)

/-- The checks of R228 on one address, in order; base holds the rank in a crew form. -/
def State.accessFault (s : State) (g : Gang) (m : MemInfo) (base ea : W64) : Option FaultInfo :=
  let a := ea.toNat
  let sp := m.spaceOf g base
  let misaligned := failIf (a % m.size != 0) (alignFault a)
  if sp == 0 then
    firstFault [failIf (!vaLegal a) (protFault a), misaligned, failIf (!s.leaseOk g a m.size) (leaseFault a),
      failIf (m.kind != 0 && (s.hitsImage g.part a m.size || vaIsXv a)) (protFault a)]
  else if sp == 1 then firstFault [misaligned, failIf (!g.inView a m.size) (protFault a)]
  else firstFault [s.memberFault g base, misaligned, s.windowFault g base a m.size]

/-- The violation that a failed check of R228 leaves (R19, R130, R238). -/
def State.logIssue (s : State) (g : Gang) (m : MemInfo) (f : FaultInfo) : State :=
  if f.cls = 5 then
    if m.space == 0 then
      s.logAccess g.part f.addr g.core 0 (if m.kind != 0 && vaIsXv f.addr then 3 else m.kind) g.die
    else s.logView g f.addr m.kind
  else s

/-- The address of a lane's access (R228). -/
def Ctx.laneEa (x : Ctx) (m : MemInfo) (w : XWord) (l : Nat) : W64 :=
  match x.b.lanes[l]? with
  | none => 0
  | some y => m.ea (x.base w.b9.toNat) ((y.read l w.a9.toNat).signExtend 64)

/-- A per-lane memory instruction as its major and word. -/
def memWord (i : Instr) : Option (Nat × XWord) :=
  match i with
  | .ld w => some (0x68, w)
  | .st w => some (0x69, w)
  | .lds w => some (0x6A, w)
  | .sts w => some (0x6B, w)
  | .atom w => some (0x6C, w)
  | _ => none

/-- The checks of R228 on every executing lane of the pass's plane; the first failing lane decides. -/
def State.memPrecheck (s : State) (x : Ctx) (i : Instr) : Option FaultInfo :=
  match memWord i with
  | none => none
  | some (op, w) =>
    let m := memInfo op w
    firstFault ((x.lanesIn x.c.plane (guardOf i)).map (fun l =>
      (s.accessFault x.g m (x.base w.b9.toNat) (x.laneEa m w l)).map (fun f => { f with lane := some l })))

/-- The state in which a failed check of a per-lane instruction is taken: its violation logged. -/
def State.logPrecheck (s : State) (x : Ctx) (i : Instr) (f : FaultInfo) : State :=
  match memWord i with
  | none => s
  | some (op, w) => s.logIssue x.g (memInfo op w) f

/-! ## Order (R223, R342) -/

/-- The accesses of a per-lane instruction, by the words of its planes: what each does, its rank operand and its addresses. -/
def Ctx.planeAccesses (x : Ctx) (ws : List (Nat × List W32)) : List (MemInfo × W64 × List W64) :=
  ws.filterMap (fun p =>
    match decodeWords p.2 with
    | .error _ => none
    | .ok (i, _) =>
      match memWord i with
      | none => none
      | some (op, w) =>
        let m := memInfo op w
        let ls := x.lanesIn p.1 (guardOf i)
        if ls.isEmpty then none else some (m, x.base w.b9.toNat, ls.map (x.laneEa m w)))

/-- The accesses of a bundle that belong to passes still to issue, with the numbers of their instructions: they come before those of any
instruction that issues later (R147, R332). -/
def State.restAccesses (s : State) (g : Gang) (bi : Nat) (b : Bundle) : List (Nat × MemInfo × W64 × List W64) :=
  if b.killed then []
  else
    ((List.range b.subs.length).zip b.subs).flatMap (fun p =>
      match p.2.pass with
      | none => []
      | some r =>
        if !p.2.isLive then []
        else
          let x : Ctx := ⟨⟨g.gid, bi, p.1, 0, r.rest, false, [], r.snap, r.base⟩, g, b, p.2⟩
          (x.planeAccesses (r.rest.map (fun j => (j, s.codeWords g j (b.offsetOf p.2))))).map (fun a => (r.seq, a)))

/-- Whether a bundle has accesses in passes still to issue whose instruction's number, kind and attribute word meet a condition. -/
def State.restPending (s : State) (gid b : Nat) (pick : Nat → Nat → W32 → Bool) : Bool :=
  match s.gang gid with
  | none => false
  | some g => match g.bundles[b]? with
    | none => false
    | some y => (s.restAccesses g b y).any (fun a => pick a.1 a.2.1.kind a.2.1.attr)

/-- Whether a bundle has accesses, of a kind and attribute word that a condition picks, that are issued and not performed for it, or
belong to an instruction whose passes are not all issued. -/
def State.pendingIf (s : State) (gid b : Nat) (pick : Nat → W32 → Bool) : Bool :=
  s.memOps.any (fun o => o.gid == gid && o.bundle == b && pick o.kind (BitVec.ofNat 32 o.attr)) ||
    s.restPending gid b (fun _ => pick)

/-- Whether a bundle has accesses not yet performed: a store is, for the agents of its own die, once its response has come (R339). -/
def State.accessesPending (s : State) (gid b : Nat) : Bool := s.pendingIf gid b (fun _ _ => true)

/-- Whether a die has no batch still to apply: what an engine or a table read waits for (model: at least what R339 asks). -/
def State.settled (s : State) (die : Nat) : Bool := s.batches.all (fun b => b.dst != die)

/-- What a release awaits (R223, R339): the bundle's earlier accesses are performed, and the writes of other agents that it has observed
are for every agent of its die. -/
def State.unreleased (s : State) (x : Ctx) : Bool := s.accessesPending x.c.gid x.c.bundle || !s.settled x.g.die

/-- Whether a bundle has a read whose value has not returned. -/
def State.readsPending (s : State) (gid b : Nat) : Bool := s.pendingIf gid b (fun k _ => k != 1)

/-- Whether an acquire of a bundle is still to be performed (R223), so that its later accesses wait. -/
def State.acquirePending (s : State) (gid b : Nat) : Bool := s.pendingIf gid b (fun k a => k != 1 && bit (attrOrd a) 0)

/-- Whether a wait is that of a fence (R342), grp.join's among them (R135). -/
def Wait.isFence (w : Wait) : Bool :=
  match w with
  | .fence | .group true _ _ => true
  | _ => false

/-- Whether another sub-bundle of the bundle waits in a fence, so that no access is issued (R342). -/
def Ctx.fenceWaits (x : Ctx) : Bool := x.b.subs.any (fun q => q.isLive && q.wait.isFence)

/-- The lowest of the stall reasons that apply (R401). -/
def leastReason : List Nat → Option Nat
  | [] => none
  | r :: rs => some (minOr r (r :: rs))

/-- Why no access of a bundle may issue: 7 an acquire that awaits its value, 31 a fence (R223, R342). -/
def State.barWaits (s : State) (x : Ctx) : List Nat :=
  (if s.acquirePending x.c.gid x.c.bundle then [7] else []) ++ (if x.fenceWaits then [31] else [])

/-- Whether the core's store queue is full: 64 stores not performed at their homes (R401). -/
def State.queueFull (s : State) (x : Ctx) : Bool :=
  64 ≤ (s.memOps.filter (fun o => o.kind == 1 && o.space == 0 && o.lanes.any (fun r => r.status != 3 && r.status != 4) &&
    (match s.gang o.gid with | some g => g.die == x.g.die && g.core == x.g.core | none => false))).length

/-- The stall reason of an access that must wait before it issues (R223, R342, R401), the lowest that applies: 7 an acquire that awaits
its value, 21 a full store queue, 24 a release awaiting earlier accesses, 31 a fence. -/
def State.orderWait (s : State) (x : Ctx) (m : MemInfo) : Option Nat :=
  leastReason (s.barWaits x ++ (if bit (attrOrd m.attr) 1 && s.unreleased x then [24] else []) ++
    (if m.kind == 1 && m.space == 0 && s.queueFull x then [21] else []))

/-- Whether two accesses of a bundle name the same bytes by one address (R335): global, of the issuer's own view, or of one rank's. -/
def MemInfo.meets (m : MemInfo) (g : Gang) (rank : W64) (m' : MemInfo) (rank' : W64) (a a' : W64) : Bool :=
  m.spaceOf g rank == m'.spaceOf g rank' && (m.spaceOf g rank != 2 || rank == rank') &&
    a.toNat < a'.toNat + m'.size && a'.toNat < a.toNat + m.size

/-- Whether an access of the issuing instruction names bytes that a pass still to issue of an earlier instruction of the bundle accesses:
it comes after that pass (R332, R335). -/
def State.meetsRest (s : State) (x : Ctx) (as : List (MemInfo × W64 × List W64)) : Bool :=
  let rest := s.restAccesses x.g x.c.bundle x.b
  as.any (fun a => rest.any (fun r => a.2.2.any (fun ea => r.2.2.2.any (fun ea' => a.1.meets x.g a.2.1 r.2.1 r.2.2.1 ea ea'))))

/-! ## L1 (R216, R219) -/

/-- The line of a core's L1 that holds an address of a partition. -/
def State.l1Line (s : State) (g : Gang) (va : Nat) : Option L1Line :=
  (s.core g.die g.core).l1.find? (fun l => l.part == g.part && l.va == va / 128 * 128)

/-- Whether an earlier access of the bundle to bytes that meet these is still in progress, or any that a fence.alias separates from the
next: what it writes or observes is not to be missed by a hit on an older line (R335). -/
def State.accessInFlight (s : State) (g : Gang) (b va n : Nat) : Bool :=
  s.memOps.any (fun o => o.gid == g.gid && o.bundle == b && o.space == 0 &&
    (o.fences < ((g.bundles[b]?).map (·.aliasFences)).getD 0 || o.lanes.any (fun r => r.va.toNat < va + n && va < r.va.toNat + r.size)))

/-- Whether a load may hit L1: not volatile, and no access of the bundle to its bytes in progress (R219, R224, R335). -/
def State.l1Hit (s : State) (g : Gang) (b : Nat) (m : MemInfo) (va : Nat) : Option (List Byte) :=
  if m.kind != 0 || m.space != 0 || attrVol m.attr || s.accessInFlight g b va m.size then none
  else (s.l1Line g va).map (fun l => (l.data.drop (va % 128)).take m.size)

/-! ## Memory operations -/

/-- A lane's request. -/
def MemInfo.request (m : MemInfo) (lane : Nat) (ea : W64) (data cmp : List Byte) (hit : Option (List Byte)) : LaneReq :=
  { lane := lane, va := ea, size := m.size, status := if hit.isSome then 3 else 0, predicted := none, loc := 0,
    data := hit.getD data, cmp := cmp, err := [], clock := [], line := [], noFill := true, replay := false, slice := 0 }

/-- A memory operation of the issuing instruction's pass, as yet without lanes. -/
def Ctx.memOp (x : Ctx) (m : MemInfo) (id : Nat) (uniform : Bool) (dest : Nat) (nwb : Bool) (rank : Nat) : MemOp :=
  { id := id, gid := x.c.gid, bundle := x.c.bundle, sub := x.c.sub, plane := x.c.plane, offset := x.offset, kind := m.kind,
    uniform := uniform, attr := m.attr.toNat, aop := m.aop + 16 * m.wd, dest := dest, nwb := nwb, len := 12, space := m.space,
    rank := rank, lanes := [], seq := x.seq, fences := x.b.aliasFences, held := false, gate := [] }

/-- The stall reason of an access in progress (R217, R232, R242, R384, R401); hit tells that every lane hits L1, so that the sub-bundle only
awaits the result (R166), as it does that of a store's checks (log 46); watched, that an armed entry could match the load's value. -/
def MemInfo.reason (m : MemInfo) (hit watched : Bool) (ea : Nat) : Nat :=
  if m.space == 2 then 18 else if m.kind == 2 then 22 else if m.kind == 1 then 2 else if vaIsXv ea then 23
  else if hit then 2 else if watched && bit (attrOrd m.attr) 0 == false then 31 else 7

/-- The event of a lane's or scalar's access for watch entries (R381, R382): data are the value written, the value returned
by a read, or the new value left by an atomic. -/
def Ctx.accessEvent (x : Ctx) (m : MemInfo) (lane : Option Nat) (ea : Nat) (data : List Byte) : WatchEvent :=
  { gid := x.c.gid, bundle := x.c.bundle, part := x.g.part, space := if m.space == 0 then 0 else 1, kind := m.kind,
    agent := if lane.isSome then 0 else 1, plane := some x.c.plane, lane := lane, addr := ea, data := data, exc := 0,
    offset := x.offset, opnum := 0, op := none }

/-! ## The scratchpad (R221, R230, R232) -/

/-- One access performed at a gang's view: the bytes returned and the new value (R230, R233). -/
def State.padAccess (s : State) (t : Gang) (m : MemInfo) (a : Nat) (data cmp : List Byte) : State × List Byte × List Byte :=
  if m.kind == 0 then
    let r := s.readView t a m.size
    (s, r, r)
  else if m.kind == 1 then (s.writeView t a data, [], data)
  else
    let old := s.readView t a m.size
    let new := leBytes m.size (atomNew m.aop (8 * m.size) (leNat old) (leNat data) (leNat cmp))
    (s.writeView t a new, old, new)

/-- Whether a view access meets a poisoned word (R369); a store reads nothing. -/
def State.padPoisoned (s : State) (t : Gang) (m : MemInfo) (a : Nat) : Bool :=
  m.kind != 1 && s.poisonedRuns (t.viewRuns a m.size)

/-- The view accesses of the executing lanes of a pass, as lane, address, data and comparand. -/
def Ctx.laneAccesses (x : Ctx) (m : MemInfo) (w : XWord) (ls : List Nat) : List (Nat × W64 × List Byte × List Byte) :=
  let n := wdGroup m.wd
  ls.filterMap (fun l => (x.b.lanes[l]?).map (fun y =>
    (l, x.laneEa m w l, (if m.kind == 0 then [] else (y.group l w.c9.toNat n).take m.size),
      (if m.kind == 2 && m.aop == 9 then (y.group l w.d9.toNat n).take m.size else []))))

/-- The cycles beyond one that each half of a scratchpad pass takes (R220), from its lanes' addresses and sizes: the requests of the
busiest of 32 banks, one for each word of a half however many lanes touch it. -/
def bankExtra (as : List (Nat × Nat × Nat)) : Nat :=
  let half (h : Nat) : Nat :=
    let words := ((as.filter (fun q => q.1 / 32 == h)).flatMap (fun q => (List.range (max 1 (q.2.2 / 4))).map (q.2.1 / 4 + ·))).eraseDups
    (List.range 32).foldl (fun k b => max k (words.filter (fun v => v % 32 == b)).length) 0 - 1
  half 0 + half 1

/-- Cycles of bank conflicts that a sub-bundle carries under reason 5 (R220, R401). -/
def State.countConflicts (s : State) (g : Gang) (b k n : Nat) : State :=
  if n == 0 then s
  else (s.perfWith g 3 5 n).modBundle g.gid b (fun y => y.modSub k (fun q => { q with conflict := q.conflict + n }))

/-- A pass of a local scratchpad access, lanes in ascending order, with its results and watch events. -/
def State.padPass (s : State) (x : Ctx) (m : MemInfo) (w : XWord) (ls : List Nat) : State :=
  (x.laneAccesses m w ls).foldl (fun s q =>
    let r := s.padAccess x.g m q.2.1.toNat q.2.2.1 q.2.2.2
    let s := if m.kind == 1 then r.1
      else r.1.modBundle x.c.gid x.c.bundle (fun b => b.modLane q.1 (fun y =>
        y.deliverGroup w.d9.toNat (w.nwb == 1) (loadWords m.wd r.2.1)))
    s.observe (x.accessEvent m (some q.1) q.2.1.toNat r.2.2) x.q.slices.head?) s

/-- The gang whose view a scratchpad access lands in. -/
def State.padTarget (s : State) (g : Gang) (m : MemInfo) (rank : W64) : Option Gang :=
  if m.spaceOf g rank == 1 then some g else s.gangOfRank g.crew rank.toNat

/-- The scratchpad bytes that the loads and atomics of an instruction's passes read, as gang, address and size (R221). -/
def State.padRanges (s : State) (g : Gang) (as : List (MemInfo × W64 × List W64)) : List (Nat × Nat × Nat) :=
  as.flatMap (fun a =>
    if a.1.kind == 1 || a.1.space == 0 then []
    else match s.padTarget g a.1 a.2.1 with
      | none => []
      | some t => a.2.2.map (fun ea => (t.gid, ea.toNat, a.1.size)))

/-- Whether the lines of a scratchpad range are present; a gang that has gone has none to wait for. -/
def State.gatePresent (s : State) (r : Nat × Nat × Nat) : Bool :=
  match s.gang r.1 with | some t => s.viewPresent t r.2.1 r.2.2 | none => true

/-- Whether a fill of a slot is in progress (R247). -/
def State.slotFilling (s : State) (gid n : Nat) : Bool := s.ops.any (fun o => o.eng == 7 && o.gid == gid && o.number == n)

/-- A codebook slot field of a vlut, by its instruction. -/
def vlutSlot (i : Instr) : Option Nat :=
  match i with
  | .vlut w => some w.b9.toNat
  | .vlutHi w => some w.b9.toNat
  | .vlutP2 w => some w.b9.toNat
  | _ => none

/-- Whether the slot of some plane's vlut is being filled (R262). -/
def State.vlutWaits (s : State) (gid : Nat) (ws : List (Nat × List W32)) : Bool :=
  ws.any (fun p =>
    match decodeWords p.2 with
    | .error _ => false
    | .ok (i, _) => (match vlutSlot i with | some n => s.slotFilling gid n | none => false))

/-- Whether an absent line keeps accesses from issuing (R221); the lines of other cores' scratchpads are awaited there when the first pass
is a crew load or atomic. -/
def State.linesAbsent (s : State) (g : Gang) (crewFirst : Bool) (as : List (MemInfo × W64 × List W64)) : Bool :=
  !((s.padRanges g as).all (fun r => crewFirst && r.1 != g.gid || s.gatePresent r))

/-- Why an instruction waits before its first pass (R221, R223, R262, R335), the lowest reason that applies (R401): the order that an access
of any of its planes must keep, an absent line that one of them touches (6), a fill of a slot that one looks up (11), an earlier
instruction's pass on the same bytes (2). -/
def State.passGate (s : State) (x : Ctx) (crewFirst : Bool) (ws : List (Nat × List W32)) : Option Nat :=
  let as := x.planeAccesses ws
  leastReason (as.filterMap (fun a => s.orderWait x a.1) ++ (if s.meetsRest x as then [2] else []) ++
    (if s.linesAbsent x.g crewFirst as then [6] else []) ++
    (if s.vlutWaits x.c.gid ws then [11] else []))

/-! ## One pass -/

/-- A pass of a per-lane access, counted already: a scratchpad access at once, or a memory operation. -/
def State.memPass (s : State) (x : Ctx) (m : MemInfo) (w : XWord) (ls : List Nat) : State :=
  let rank := x.base w.b9.toNat
  let sp := m.spaceOf x.g rank
  if ls.isEmpty then s.finishPass x 12
  else if sp == 1 then
    let n := bankExtra (ls.map (fun l => (l, (x.laneEa m w l).toNat, m.size)))
    ((s.countConflicts x.g x.c.bundle x.c.sub n).padPass x m w ls).finishPass x 12
  else
    let base := x.memOp m s.nextId false w.d9.toNat (w.nwb == 1) rank.toNat
    let reqs := (x.laneAccesses m w ls).map (fun q =>
      { m.request q.1 q.2.1 q.2.2.1 q.2.2.2 (s.l1Hit x.g x.c.bundle m q.2.1.toNat) with
        noFill := sp != 0 || attrVol m.attr || attrEvict m.attr == 4 })
    let gate := if sp == 2 && x.c.first && m.kind != 1 then s.padRanges x.g (x.planeAccesses x.c.words) else []
    let misses := (reqs.filter (fun (r : LaneReq) => r.status == 0)).length
    let s := { s with nextId := s.nextId + 1, memOps := s.memOps ++ [{ base with lanes := reqs, gate := gate }] }
    let s := if sp == 0 && m.kind == 0 then s.perf x.g 8 misses else s
    if sp == 2 && m.kind == 1 then s.finishPass x 12
    else s.waitPass x (.mem base.id (m.reason (misses == 0) (s.loadWatched x.g 0) (((reqs.head?).map LaneReq.va).getD 0).toNat))

/-- UNCORRECTABLE of the lowest executing lane whose scratchpad word is poisoned (R369). -/
def State.padDamage (s : State) (x : Ctx) (m : MemInfo) (w : XWord) (ls : List Nat) : Option FaultInfo :=
  if m.spaceOf x.g (x.base w.b9.toNat) != 1 then none
  else (ls.find? (fun l => s.padPoisoned x.g m (x.laneEa m w l).toNat)).map (fun l => { cls := 0x0D, sub := 1, lane := some l })

/-- A per-lane access instruction: the checks of its word and of R228, the waits before its first pass (R221, R223), then its pass. -/
def runMem (i : Instr) (op : Nat) (w : XWord) (s : State) : Host.Outcome State Fault Refusal :=
  match s.ctx with
  | none => .fault .noIssuer
  | some x =>
    match firstFault [laneFieldCheck x.g.kernel i, x.latchCheck x.c.plane i, if x.c.first then s.memPrecheck x i else none] with
    | some f => .next ((s.logPrecheck x i f).takeFault x.faultAt f)
    | none =>
      let m := memInfo op w
      let ls := x.lanesIn x.c.plane (guardOf i)
      match if x.c.first then s.passGate x (m.spaceOf x.g (x.base w.b9.toNat) == 2 && m.kind != 1 && !ls.isEmpty) x.c.words else none with
      | some r => .next (s.hold x r)
      | none =>
        match firstFault [watchdogIssue x, s.padDamage x m w ls] with
        | some f => .next (s.takeFault x.faultAt f)
        | none => .next (((s.countPass x ls.length).countBank x i).memPass x m w ls)

/-- LD (R226, R230). -/
def execLd (w : XWord) (s : State) : Host.Outcome State Fault Refusal := runMem (.ld w) 0x68 w s
/-- ST (R226, R230). -/
def execSt (w : XWord) (s : State) : Host.Outcome State Fault Refusal := runMem (.st w) 0x69 w s
/-- LDS (R226, R230, R232). -/
def execLds (w : XWord) (s : State) : Host.Outcome State Fault Refusal := runMem (.lds w) 0x6A w s
/-- STS (R226, R230, R232). -/
def execSts (w : XWord) (s : State) : Host.Outcome State Fault Refusal := runMem (.sts w) 0x6B w s
/-- ATOM (R226, R233, R234). -/
def execAtom (w : XWord) (s : State) : Host.Outcome State Fault Refusal := runMem (.atom w) 0x6C w s

/-! ## Scalar accesses (R235) -/

/-- The form of sld, sst and satom (R222, R235). -/
def scalarMemForm (op : Nat) (w : XWord) : Form :=
  let fn := w.fn.toNat
  let sp := if op == 0x26 then atomSpace fn else fn / 8 % 4
  let res := w.m6 = 0 && attrRes w.imm && w.nwb = 0
  let crew := !(sp == 2 && w.b9 = 268)
  if op == 0x24 then
    { d := .scalar, a := .scalar, b := .scalar, c := .unused, operandOk := crew, resOk := res,
      fnOk := fn < 32 && fn % 8 < 6 && sp ≤ 2 && attrOk (sp == 0) 0 w.imm }
  else if op == 0x25 then
    { d := .unused, a := .scalar, b := .scalar, c := .scalar, operandOk := crew, resOk := res,
      fnOk := fn < 32 && fn % 8 < 6 && sp ≤ 2 && attrOk (sp == 0) 1 w.imm }
  else
    { d := .scalar, a := .scalar, b := .scalar, c := .scalar, operandOk := crew && !(fn % 16 == 9 && w.d9 = 268), resOk := res,
      fnOk := atomFnOk fn && attrOk (sp == 0) 2 w.imm }

/-- The address of a scalar access (R235). -/
def Ctx.scalarEa (x : Ctx) (m : MemInfo) (w : XWord) : W64 := m.ea (x.b.readS w.b9.toNat) (x.b.readS w.a9.toNat)

/-- A scalar access's data and comparand. -/
def Ctx.scalarData (x : Ctx) (m : MemInfo) (w : XWord) : List Byte × List Byte :=
  (if m.kind == 0 then [] else leBytes m.size (x.sn w.c9.toNat), if m.kind == 2 then leBytes m.size (x.sn w.d9.toNat) else [])

/-- A scalar access's result delivered. -/
def State.deliverScalar (s : State) (x : Ctx) (kind wd dest : Nat) (data : List Byte) : State :=
  if kind == 1 then s
  else s.setS x dest (if kind == 0 then scalarLoad wd data else BitVec.ofNat 64 (leNat data))

/-- The effect of a scalar access that has passed its checks. -/
def State.scalarMem (s : State) (x : Ctx) (m : MemInfo) (w : XWord) : Eff :=
  let rank := x.b.readS w.b9.toNat
  let sp := m.spaceOf x.g rank
  let ea := x.scalarEa m w
  let dc := x.scalarData m w
  let absent := sp == 1 && m.kind != 1 && !s.viewPresent x.g ea.toNat m.size
  match leastReason ((s.orderWait x m).toList ++ (if s.meetsRest x [(m, rank, [ea])] then [2] else []) ++ (if absent then [6] else [])) with
  | some r => .hold r
  | none =>
    if sp == 1 then
      if s.padPoisoned x.g m ea.toNat then .fault { cls := 0x0D, sub := 1 } s
      else
        let r := s.padAccess x.g m ea.toNat dc.1 dc.2
        .done ((r.1.deliverScalar x m.kind m.wd w.d9.toNat r.2.1).observe (x.accessEvent m none ea.toNat r.2.2) x.q.slices.head?)
    else
      let base := x.memOp m s.nextId true w.d9.toNat false rank.toNat
      let req := { m.request 0 ea dc.1 dc.2 (s.l1Hit x.g x.c.bundle m ea.toNat) with
        noFill := sp != 0 || attrVol m.attr || attrEvict m.attr == 4 }
      let gate := if m.kind != 1 then s.padRanges x.g [(m, rank, [ea])] else []
      let s := { s with nextId := s.nextId + 1, memOps := s.memOps ++ [{ base with lanes := [req], gate := gate }] }
      let s := if sp == 0 && m.kind == 0 && req.status == 0 then s.perf x.g 8 1 else s
      if sp == 2 && m.kind == 1 then .done s else .wait (.mem base.id (m.reason (req.status == 3) (s.loadWatched x.g 0) ea.toNat)) s

/-- A scalar access instruction: its form, the checks of R228, and its effect. -/
def runScalarMem (op : Nat) (w : XWord) (s : State) : Host.Outcome State Fault Refusal :=
  runUniform false 12 (fun _ => scalarMemForm op w) w noExtra (fun x s =>
    let m := scalarMemInfo op w
    match s.accessFault x.g m (x.b.readS w.b9.toNat) (x.scalarEa m w) with
    | some f => .fault f (s.logIssue x.g m f)
    | none => s.scalarMem x m w) s

/-- SLD (R235). -/
def execSld (w : XWord) (s : State) : Host.Outcome State Fault Refusal := runScalarMem 0x24 w s
/-- SST (R235). -/
def execSst (w : XWord) (s : State) : Host.Outcome State Fault Refusal := runScalarMem 0x25 w s
/-- SATOM (R235). -/
def execSatom (w : XWord) (s : State) : Host.Outcome State Fault Refusal := runScalarMem 0x26 w s

/-! ## Presence instructions (R237) -/

/-- The form of pres.* (R237). -/
def presForm (w : XWord) : Form :=
  { d := if w.fn = 2 then .scalar else .unused, a := .scalar, b := .scalar, c := .unused, fnOk := w.fn.toNat ≤ 2,
    resOk := w.m6 = 0 && w.nwb = 0 }

/-- View address and line count of a pres.* instruction (R237). -/
def Ctx.presRange (x : Ctx) (w : XWord) : W64 × Nat :=
  (x.b.readS w.a9.toNat + w.imm.signExtend 64, (x.b.readS w.b9.toNat).toNat)

/-- The presence bits of n view lines cleared or set. -/
def State.setPresence (s : State) (g : Gang) (a n : Nat) (present : Bool) : State :=
  let ls := (g.viewRuns a n).flatMap (fun r => linesOf r.1 r.2)
  { s with absent := if present then s.absent.filter (fun l => !ls.contains l)
                     else s.absent.filter (fun l => !ls.contains l) ++ ls }

/-- A pres.* instruction's checks and effect (R237). -/
def runPres (w : XWord) (eff : Ctx → Nat → Nat → State → Eff) (s : State) : Host.Outcome State Fault Refusal :=
  runUniform false 12 (fun _ => presForm w) w noExtra (fun x s =>
    let r := x.presRange w
    let a := r.1.toNat
    if a % 128 != 0 then .fault (alignFault a) s
    else if r.2 != 0 && !x.g.inOneRegion a (128 * r.2) then
      .fault (protFault a) (s.logView x.g a (if w.fn = 2 then 0 else 1))
    else eff x a r.2 s) s

/-- PRES_CLR (R237). -/
def execPresClr (w : XWord) (s : State) : Host.Outcome State Fault Refusal :=
  runPres w (fun x a n s => .done (s.setPresence x.g a (128 * n) false)) s

/-- PRES_SET (R237): a release at crew scope, then the bits. -/
def execPresSet (w : XWord) (s : State) : Host.Outcome State Fault Refusal :=
  runPres w (fun x a n s =>
    if n != 0 && s.unreleased x then .hold 24
    else .done (s.setPresence x.g a (128 * n) true)) s

/-- PRES_TEST (R237). -/
def execPresTest (w : XWord) (s : State) : Host.Outcome State Fault Refusal :=
  runPres w (fun x a n s =>
    .done (s.setS x w.d9.toNat (BitVec.ofNat 64
      (listMask ((List.range (min n 64)).filter (fun i => s.viewPresent x.g (a + 128 * i) 128)))))) s

end Sys2Proof.Machine
end

