-- ==== Sys2Proof/Machine/MemSystem.lean ====
section
/-!
DEFINITION. The memory system's own steps: home agents (R136–R141), home slices (R219, R234, R236), invalidation batches
(R339), returns to cores (R229, R230), crew scratchpad accesses (R232), and the removal of mappings (R142).
-/

namespace Sys2Proof.Machine

/-! ## Memory operations in progress -/

/-- The memory operation with an id. -/
def State.memOp (s : State) (id : Nat) : Option MemOp := s.memOps.find? (fun o => o.id == id)

/-- A memory operation changed. -/
def State.modMemOp (s : State) (id : Nat) (f : MemOp → MemOp) : State :=
  { s with memOps := s.memOps.map (fun o => if o.id == id then f o else o) }

/-- A lane's request changed. -/
def State.modReq (s : State) (id lane : Nat) (f : LaneReq → LaneReq) : State :=
  s.modMemOp id (fun o => { o with lanes := o.lanes.map (fun r => if r.lane == lane then f r else r) })

/-- A memory operation removed. -/
def State.dropMemOp (s : State) (id : Nat) : State := { s with memOps := s.memOps.filter (fun o => o.id != id) }

/-- The context of the instruction that waits for a memory operation; none once its bundle is killed. -/
def State.opCtx (s : State) (o : MemOp) : Option Ctx :=
  match s.gang o.gid with
  | none => none
  | some g =>
    match g.bundles[o.bundle]? with
    | none => none
    | some b =>
      match b.subs[o.sub]? with
      | none => none
      | some q =>
        match q.wait with
        | .mem i _ =>
          if i == o.id && !b.killed then
            some ⟨⟨o.gid, o.bundle, o.sub, o.plane, (q.pass.map (·.rest)).getD [], false, [], (q.pass.map (·.snap)).getD [],
                (q.pass.map (·.base)).getD []⟩,
              g, b, q⟩
          else none
        | _ => none

/-- The instruction of a memory operation completed: its pass, or the uniform instruction. -/
def State.finishMem (s : State) (x : Ctx) (o : MemOp) : State :=
  if o.uniform then s.finishUniform x false o.len (.done s) else s.finishPass x o.len

/-- The fault that an error response stands for (R229, R242, R365, R369): one of the expanded view names XID and the descriptor. A fault of
the coded path names the lowest occupied plane, low, and every other the failing plane. DEDUCED (log 88). -/
def LaneReq.faultOf (r : LaneReq) (o : MemOp) (low : Nat) : FaultInfo :=
  { cls := r.err.getD 0 5, sub := r.err.getD 1 0, lane := if o.uniform then none else some r.lane,
    plane := some (if [8, 9, 0x11].contains (r.err.getD 0 5) then low else o.plane), offset := some o.offset, addr := r.err.getD 6 r.va.toNat, xvf := r.err.length > 2, handle := r.err.getD 2 0,
    trow := r.err.getD 3 0, tcol := r.err.getD 4 0, bitoff := r.err.getD 5 0 }

/-- What the checks of a pass come to once every lane's is known (R229): a failing lane fails the pass, and a store
completes for its sub-bundle. -/
def State.resolveMem (s : State) (id : Nat) : State :=
  match s.memOp id with
  | none => s
  | some o =>
    if o.lanes.any (fun r => r.status ≤ 1) then s
    else
      match o.lanes.find? (fun r => r.status == 4) with
      | some r =>
        let s1 := s.dropMemOp id
        match s.opCtx o with
        | none => s1
        | some x =>
          (s1.modBundle o.gid o.bundle (fun b => b.modSub o.sub (fun q =>
            { q with wait := .none, charged := false, pass := none }))).takeFault ⟨o.gid, o.bundle, x.offset, o.plane⟩
              (r.faultOf o ((x.b.planesOf x.q).headD 0))
      | none =>
        if o.kind != 1 then s
        else
          match s.opCtx o with
          | none => s
          | some x =>
            let s := s.finishMem x o
            o.lanes.foldl (fun s r => s.observe
              (x.accessEvent ⟨1, 0, o.aop / 16, r.size, BitVec.ofNat 32 o.attr, 0⟩
                (if o.uniform then none else some r.lane) r.va.toNat r.data) x.q.slices.head?) s

/-- An error response to a lane, logged under R19 (R229), but for a poisoned word's, which R369 reports. -/
def State.failReq (s : State) (o : MemOp) (r : LaneReq) (err : List Nat) : State :=
  let s :=
    if err.getD 0 0 != 0x0D then
      match s.gang o.gid with
      | some g => s.logAccess g.part r.va.toNat g.core 0 o.kind g.die
      | none => s
    else s
  (s.modReq o.id r.lane (fun r => { r with status := 4, err := err })).resolveMem o.id

/-! ## Home agents (R136, R141) -/

/-- The address a home agent predicts for a read (R141); none outside HBM. -/
def Die.predict (d : Die) (part va : Nat) : Option Nat :=
  (d.regions.find? (fun e => e.agent == homeAgent part va && e.part == part && e.region == va / 2 ^ 29)).bind (fun e =>
    let pa : Int := (e.pa0 : Int) + ((va : Int) - (e.va0 : Int))
    if 0 ≤ pa ∧ pa < 2 ^ 37 then some pa.toNat else none)

/-- A line brought into its slice for a request of a partition (R218, R225). -/
def State.touchLine (s : State) (part d slice loc attr : Nat) : State :=
  s.modDie d (fun x => x.llcTouch (((s.part part).map Partition.llcQuota).getD 0) slice (loc % 2 ^ 37 / 128) (attrEvict (BitVec.ofNat 32 attr)))

/-- A translation made at a home agent, which keeps it (R136, R141): the request goes to its slice (R140), a predicted read is
confirmed or squashed, or the request fails for want of permission (R139). -/
def State.translated (s : State) (o : MemOp) (r : LaneReq) (g : Gang) (leaf base size : Nat) : State :=
  let va := r.va.toNat
  let d := vaDie va
  let s := s.modDie d (fun d => d.keepTranslation g.part va leaf base size)
  if bit leaf (permBit o.kind) && !s.resetStops g d (base + va % size) then
    let loc := hbmLoc d (base + va % size)
    let slice := homeSlice leaf (loc % 2 ^ 37)
    let read := r.status == 1 && r.predicted == some loc && !r.data.isEmpty && o.kind == 0
    let s := if read then s.touchLine g.part d slice loc o.attr else s
    (s.modReq o.id r.lane (fun r => { r with
      status := if read then 3 else 2, loc := loc, slice := slice, data := if o.kind == 0 && !read then [] else r.data,
      replay := r.predicted.isSome && r.predicted != some loc, predicted := none })).resolveMem o.id
  else s.failReq o r [5, 0]

/-- HOME_AGENT_REQUEST (R136, R141): translated by the TLB, or a walk begins; a read may be predicted. -/
def execHomeAgentRequest (op lane : Nat) (s : State) : Host.Outcome State Fault Refusal :=
  match s.memOp op with
  | none => .fault .notEnabled
  | some o =>
    match o.lanes.find? (fun r => r.lane == lane), s.gang o.gid with
    | some r, some g =>
      if r.status != 0 || o.space != 0 || vaIsXv r.va.toNat || (o.held && o.kind != 0) then .fault .notEnabled
      else
        let d := vaDie r.va.toNat
        match (s.die d).tlbFind g.part r.va.toNat with
        | some t => .next (s.translated o r g t.leaf.toNat (entryPa t.leaf.toNat) t.size)
        | none =>
          let pred := if o.kind == 0 then ((s.die d).predict g.part r.va.toNat).map (hbmLoc d) else none
          .next (s.modReq op lane (fun r => { r with status := 1, predicted := pred, data := if o.kind == 0 then [] else r.data }))
    | _, _ => .fault .notEnabled

/-- PAGE_WALK_COMPLETE (R137, R138, R141): the walk's leaf is kept, a predicted read confirmed or squashed, or the request
fails. -/
def execPageWalkComplete (op lane : Nat) (s : State) : Host.Outcome State Fault Refusal :=
  match s.memOp op with
  | none => .fault .notEnabled
  | some o =>
    match o.lanes.find? (fun r => r.lane == lane), s.gang o.gid with
    | some r, some g =>
      if r.status != 1 then .fault .notEnabled
      else
        match (s.part g.part).map (fun p => s.walk p r.va.toNat) with
        | some (.leaf e base size) => .next (s.translated o r g e base size)
        | _ => .next (s.failReq o r [5, 0])
    | _, _ => .fault .notEnabled

/-! ## Home slices (R216–R219, R225, R234, R236) -/

/-- Whether accesses of two requests name the same bytes by their virtual addresses. -/
def reqsMeet (a b : LaneReq) : Bool :=
  a.va.toNat < b.va.toNat + b.size && b.va.toNat < a.va.toNat + a.size

/-- Whether accesses of two translated requests meet the same bytes of memory, whatever their virtual addresses. -/
def reqsAlias (a b : LaneReq) : Bool := a.loc < b.loc + b.size && b.loc < a.loc + a.size

/-- Whether a memory operation comes before another of its bundle in program order (R332): by instruction, then by pass. -/
def MemOp.precedes (q o : MemOp) : Bool := q.seq < o.seq || q.seq == o.seq && q.id < o.id

/-- Whether an access not yet performed keeps a later one of its bundle from being performed: it names the same bytes (R335); or it may
meet the same location, and a fence.alias stands between them (R335), or it is a store and the later an atomic (R236); or both are
volatile accesses of one lane (R224). -/
def MemOp.blocks (q o : MemOp) (p r : LaneReq) : Bool :=
  let located := p.status < 2 || reqsAlias p r
  reqsMeet p r || located && (q.fences < o.fences || q.kind == 1 && o.kind == 2) || bit q.attr 8 && bit o.attr 8 && p.lane == r.lane

/-- Whether a request may be performed at its slice now: every earlier access of its bundle that must come first is, as are those of
lower lanes of its own pass to the same bytes (R332, R335) and, for a write, to the same location (R230, R234), once every lane has passed
its checks (R229). -/
def State.mayPerform (s : State) (o : MemOp) (r : LaneReq) : Bool :=
  let undone (p : LaneReq) : Bool := p.status != 3 && p.status != 4
  s.memOps.all (fun q =>
    if q.id == o.id then
      if o.kind == 0 then q.lanes.all (fun p => !(p.lane < r.lane && undone p && reqsMeet p r))
      else q.lanes.all (fun p => p.status ≥ 2 && !(p.lane < r.lane && undone p && reqsAlias p r))
    else
      !(q.gid == o.gid && q.bundle == o.bundle && q.space == 0 && q.precedes o && q.lanes.any (fun p => undone p && q.blocks o p r)))

/-- Whether a die has applied every batch that a clock names (R339). -/
def State.delivered (s : State) (die : Nat) (clock : List Nat) : Bool :=
  s.batches.all (fun b => b.dst != die || clock.getD b.src 0 < b.stamp)

/-- Whether the response to a global store may be delivered: every lane is performed at its home, and the storing core's die has applied
every batch that the responses name (R339). -/
def State.storeAnswered (s : State) (o : MemOp) : Bool :=
  o.kind == 1 && o.space == 0 && (match s.gang o.gid with
    | some g => o.lanes.all (fun r => r.status == 3 && s.delivered g.die r.clock)
    | none => true)

/-- The responses to stores that may be delivered now: their clocks are merged, and the stores are performed for the agents of their
own die too (R333, R339). -/
def State.answerStores (s : State) : State :=
  let s1 := s.memOps.foldl (fun s1 o => match s.gang o.gid with
    | some g => if s.storeAnswered o then
        o.lanes.foldl (fun s1 r => if r.clock.isEmpty then s1 else s1.modDie g.die (fun d => { d with vclock := mergeClock d.vclock r.clock })) s1
      else s1
    | none => s1) s
  { s1 with memOps := s.memOps.filter (fun o => !(s.storeAnswered o)) }

/-- The L1 lines of the storing core that hold the stored virtual address brought up to date (R219, R340), and its fills of the line
whose data were read before the store made non-filling, so that a later load sees the store (R230, R335). -/
def State.storeToL1 (s : State) (g : Gang) (va loc : Nat) (bs : List Byte) : State :=
  let stale (r : LaneReq) : Bool := r.loc / 128 == loc / 128 && (r.status == 3 || r.status == 1)
  let s := { s with memOps := s.memOps.map (fun (o : MemOp) => match s.gang o.gid with
    | some h => if h.die == g.die && h.core == g.core && o.kind == 0 then
        { o with lanes := o.lanes.map (fun r => if stale r then { r with noFill := true } else r) } else o
    | none => o) }
  if (s.core g.die g.core).l1.isEmpty then s
  else
    s.modCore g.die g.core (fun c => { c with l1 := c.l1.map (fun l =>
      if l.part == g.part && l.va == va / 128 * 128 && l.loc == loc / 128 * 128 then
        { l with data := l.data.take (va % 128) ++ bs ++ l.data.drop (va % 128 + bs.length) }
      else l) })

/-- The event of an access at its home slice (R382, SPACE 2). -/
def MemOp.homeEvent (o : MemOp) (g : Gang) (r : LaneReq) (data : List Byte) : WatchEvent :=
  { gid := o.gid, bundle := o.bundle, part := g.part, space := 2, kind := o.kind, agent := if o.uniform then 1 else 0,
    plane := some o.plane, lane := if o.uniform then none else some r.lane, addr := r.va.toNat, data := data, exc := 0,
    offset := o.offset, opnum := 0, op := none, home := vaDie r.va.toNat }

/-- The lowest lane of an atomic whose word is poisoned, before any lane of it has been performed: the pass is whole or not at all
(R229, R369). -/
def State.poisonedLane (s : State) (o : MemOp) : Option LaneReq :=
  if o.lanes.any (fun p => p.status == 3) then none else o.lanes.find? (fun p => s.poisoned p.loc p.size)

/-- A request performed at its line's home slice: a read, a write, or one indivisible read-modify-write. A response carries the home's
clock as it stands after the invalidations that the access sent (R236, R339). -/
def State.performReq (s : State) (o : MemOp) (r : LaneReq) (g : Gang) (loc : Nat) : State :=
  let d := vaDie r.va.toNat
  let s := s.carryClock g.die d
  let clock := (s.die d).vclock
  let quota := ((s.part g.part).map Partition.llcQuota).getD 0
  let touch (s : State) : State := s.touchLine g.part d r.slice loc o.attr
  if o.kind == 0 then
    if s.poisoned loc r.size then s.failReq o r [0x0D, 1]
    else
      let data := s.bytesAt loc r.size
      let line := s.bytesAt (loc / 128 * 128) 128
      let confirmed := r.status == 2
      let s := if confirmed then touch s else s
      (s.modReq o.id r.lane (fun r => { r with
        status := if confirmed then 3 else r.status, data := data, line := line, clock := clock, loc := loc,
        noFill := r.noFill || quota == 0 })).observe (o.homeEvent g r data) none
  else if o.kind == 1 then
    let s := ((touch s).writeHome (some (g.die, g.core)) loc r.data).storeToL1 g r.va.toNat loc r.data
    let clock := if d == g.die then [] else (s.die d).vclock
    ((s.modReq o.id r.lane (fun r => { r with status := 3, clock := clock })).observe (o.homeEvent g r r.data) none).answerStores
  else
    match s.poisonedLane o with
    | some p => s.failReq o p [0x0D, 1]
    | none =>
      let old := s.bytesAt loc r.size
      let new := leBytes r.size (atomNew (o.aop % 16) (8 * r.size) (leNat old) (leNat r.data) (leNat r.cmp))
      let s := (touch s).writeHome none loc new
      let clock := (s.die d).vclock
      (s.modReq o.id r.lane (fun r => { r with
        status := 3, data := old, cmp := new, clock := clock })).observe (o.homeEvent g r new) none

/-- SLICE_ACCESS (R219, R236): one request is performed at its home slice; a predicted read is made early (R141). A request to the
memory of a partition under reset receives an error response (R114). -/
def execSliceAccess (op lane : Nat) (s : State) : Host.Outcome State Fault Refusal :=
  match s.memOp op with
  | none => .fault .notEnabled
  | some o =>
    match o.lanes.find? (fun r => r.lane == lane), s.gang o.gid with
    | some r, some g =>
      if (o.held && o.kind != 0) || o.space != 0 || !s.mayPerform o r then .fault .notEnabled
      else if r.status == 2 && s.resetStops g (vaDie r.va.toNat) (r.loc % 2 ^ 37) then .next (s.failReq o r [5, 0])
      else if r.status == 2 then .next (s.performReq o r g r.loc)
      else
        match r.status == 1 && r.data.isEmpty, r.predicted with
        | true, some loc => if s.poisoned loc r.size then .fault .notEnabled else .next (s.performReq o r g loc)
        | _, _ => .fault .notEnabled
    | _, _ => .fault .notEnabled

/-! ## Invalidation between dies (R339) -/

/-- INVAL_BATCH (R339): the oldest batch from a die is applied by every core but the one whose store made the write (R219), its clock
merged, and the responses that waited for it delivered. -/
def execInvalBatch (die src : Nat) (s : State) : Host.Outcome State Fault Refusal :=
  match s.batches.find? (fun b => b.dst == die && b.src == src) with
  | none => .fault .notEnabled
  | some b =>
    let s := { s with batches := s.batches.erase b }
    let s := s.dropLines die (fun c => b.spare != some (die, c)) b.lines
    .next ((s.modDie die (fun d => { d with vclock := mergeClock d.vclock b.clock })).answerStores)

/-! ## Returns (R219, R229, R230) -/

/-- A line filled into an L1 (R216): four ways of 128 sets, the line leaving by eviction class, else the oldest. -/
def Core.l1Fill (c : Core) (new : L1Line) : Core :=
  let set (l : L1Line) : Bool := l.va / 128 % 128 == new.va / 128 % 128
  let l1 := c.l1.filter (fun l => !(l.part == new.part && l.va == new.va))
  if (l1.filter set).length < 4 then { c with l1 := l1 ++ [new] }
  else
    let pick (p : L1Line → Bool) : Option Nat := (findIdx (fun l => set l && p l) l1).map (·.1)
    match pick (fun l => l.cls == 3), pick (fun l => l.cls != 1), pick (fun _ => true) with
    | some i, _, _ => { c with l1 := l1.eraseIdx i ++ [new] }
    | none, some i, _ => { c with l1 := l1.eraseIdx i ++ [new] }
    | none, none, some i => { c with l1 := l1.eraseIdx i ++ [new] }
    | none, none, none => { c with l1 := l1 ++ [new] }

/-- The results of a returned operation in its lanes or its scalar (R227, R230, R233, R235). -/
def State.deliverMem (s : State) (x : Ctx) (o : MemOp) : State :=
  if o.uniform then
    s.deliverScalar x o.kind (o.aop / 16) o.dest ((o.lanes.head?.map (·.data)).getD [])
  else
    s.modBundle o.gid o.bundle (fun b => o.lanes.foldl (fun b r => b.modLane r.lane (fun y =>
      y.deliverGroup o.dest o.nwb (loadWords (o.aop / 16) r.data))) b)

/-- LOAD_DATA_RETURN (R229, R339): every lane's data has returned, and the batches that the responses name are applied. -/
def execLoadDataReturn (op : Nat) (s : State) : Host.Outcome State Fault Refusal :=
  match s.memOp op with
  | none => .fault .notEnabled
  | some o =>
    match s.gang o.gid with
    | none => .next (s.dropMemOp op)
    | some g =>
      if o.kind == 1 || !(o.lanes.all (fun r => r.status == 3 && s.delivered g.die r.clock)) then .fault .notEnabled
      else
        let ctx := s.opCtx o
        let s := s.dropMemOp op
        let s := o.lanes.foldl (fun s r =>
          let s := if r.clock.isEmpty then s else s.modDie g.die (fun d => { d with vclock := mergeClock d.vclock r.clock })
          if r.noFill || r.line.isEmpty then s
          else s.modCore g.die g.core (fun c => c.l1Fill
            ⟨g.part, r.va.toNat / 128 * 128, r.loc / 128 * 128, r.line, attrEvict (BitVec.ofNat 32 o.attr)⟩)) s
        match ctx with
        | none => .next s
        | some x =>
          let s := (s.deliverMem x o).finishMem x o
          let m : MemInfo := ⟨o.kind, o.space, o.aop / 16, 0, BitVec.ofNat 32 o.attr, o.aop % 16⟩
          -- a crew access is an event of the view in which it landed (R381, R382)
          .next ((o.lanes.foldl (fun s r => if o.space == 2 then s else s.observe
            (x.accessEvent m (if o.uniform then none else some r.lane) r.va.toNat (if o.kind == 0 then r.data else r.cmp))
            x.q.slices.head?) s).dueHalts o.gid o.bundle)

/-! ## Crew scratchpad (R221, R232) -/

/-- The event of a crew access landing in its target's view (R382, REMOTE). -/
def MemOp.remoteEvent (o : MemOp) (g t : Gang) (r : LaneReq) (data : List Byte) : WatchEvent :=
  { gid := o.gid, bundle := o.bundle, part := g.part, space := 1, kind := o.kind, agent := 6, plane := some o.plane,
    lane := if o.uniform then none else some r.lane, addr := r.va.toNat, data := data, exc := 0, offset := o.offset,
    opnum := 0, op := none, owner := some t.gid, mem := if o.kind == 1 then none else some o.id }

/-- A crew access performed lane by lane at its target (R230, R232, R233). -/
def State.crewPerform (s : State) (o : MemOp) (g t : Gang) : State :=
  o.lanes.foldl (fun s r =>
    let m : MemInfo := ⟨o.kind, 1, o.aop / 16, r.size, BitVec.ofNat 32 o.attr, o.aop % 16⟩
    let q := s.padAccess t m r.va.toNat r.data r.cmp
    (q.1.modReq o.id r.lane (fun r => { r with status := 3, data := q.2.1, cmp := q.2.2 })).observe
      (o.remoteEvent g t r q.2.2) none) s

/-- Whether an earlier crew access of the bundle to the same bytes of the same rank is still to land (R332, R335). -/
def State.crewEarlier (s : State) (o : MemOp) : Bool :=
  s.memOps.any (fun q => q.gid == o.gid && q.bundle == o.bundle && q.space == 2 && q.rank == o.rank && q.precedes o &&
    q.lanes.any (fun p => p.status != 3 && o.lanes.any (reqsMeet p)))

/-- Whether a stop of a gang's crew is pending (R352). -/
def State.stopPending (s : State) (g : Gang) : Bool := ((s.crew g.crew).bind (·.stop)).isSome

/-- Whether a crew load or atomic is parked on an absent line that a pass of its instruction touches (R221). -/
def State.parked (s : State) (o : MemOp) : Bool := o.space == 2 && o.kind != 1 && !(o.gate.all s.gatePresent)

/-- CREW_SCRATCHPAD_ACCESS (R221, R232): a crew access lands; a load or atomic waits for the lines of all its passes. -/
def execCrewScratchpadAccess (op : Nat) (s : State) : Host.Outcome State Fault Refusal :=
  match s.memOp op with
  | none => .fault .notEnabled
  | some o =>
    match s.gang o.gid with
    | none => .fault .notEnabled
    | some g =>
      match s.gangOfRank g.crew o.rank with
      | none => if o.space == 2 then .next (s.dropMemOp op) else .fault .notEnabled
      | some t =>
        if o.space != 2 || o.held || o.lanes.all (fun r => r.status == 3) || s.crewEarlier o || !(o.gate.all s.gatePresent) then
          .fault .notEnabled
        else
          match o.lanes.find? (fun r => o.kind != 1 && s.poisonedRuns (t.viewRuns r.va.toNat r.size)) with
          | some r =>
            .next ((s.modMemOp op (fun q => { q with lanes := q.lanes.map (fun p =>
              { p with status := if p.lane == r.lane then 4 else 3, err := [0x0D, 1] }) })).resolveMem op)
          | none =>
            let n := bankExtra (o.lanes.map (fun r => (r.lane, r.va.toNat, r.size)))
            let s := (s.crewPerform o g t).countConflicts g o.bundle o.sub (if o.uniform then 0 else n)
            .next (if o.kind == 1 then s.dropMemOp op else s)

/-! ## Removing a mapping (R142) -/

/-- Whether the pages of a range are pinned by a lease on a die (R123, R124): of an image of unknown or broken IMGLEN, the header's page
(R121, R122). -/
def State.pinned (s : State) (part die va n : Nat) : Bool :=
  s.leases.any (fun l => l.part == part && ((l.shares[die]?).map (·.status)) == some 1 &&
    ((l.kva.toNat, max 1 l.imgLen) :: l.ranges.map (fun r => (r.1.toNat, r.2))).any (fun r => r.1 / 2 ^ 16 * 2 ^ 16 < va + n && va < (r.1 + r.2 + 65535) / 2 ^ 16 * 2 ^ 16))

/-- INVALIDATE (R142): refused, or the home agents drop what covers the range and the cores are told. -/
def execInvalidate (m : MsgId) (part : Nat) (va : W64) (pages : Nat) (s : State) : Host.Outcome State Fault Refusal :=
  onMessage 1 0 s (fun s =>
    let a := va.toNat
    let n := pages * 2 ^ 16
    let d := vaDie a
    if a % 2 ^ 16 != 0 || pages == 0 || (s.part part).isNone then s.send (.invalDone m 3)
    else if !vaLegal a || (a + n - 1) / 2 ^ 54 != a / 2 ^ 54 then s.send (.invalDone m 2)
    else if s.pinned part d a n then s.send (.invalDone m 1)
    else
      let covers (lo size : Nat) : Bool := lo < a + n && a < lo + size
      let s := s.modDie d (fun x => { x with
        tlb := x.tlb.filter (fun t => !(t.part == part && covers t.va t.size))
        regions := x.regions.filter (fun e => !(e.part == part && covers (e.region * 2 ^ 29) (2 ^ 29))) })
      { s with nextId := s.nextId + 1, invals := s.invals ++ [⟨s.nextId, m, part, d, va, n, []⟩] })

/-- Whether every access translated through a dropped entry has completed at its slice (R142, step 3). -/
def State.drained (s : State) (q : InvalReq) : Bool :=
  s.memOps.all (fun o =>
    match s.gang o.gid with
    | some g => g.part != q.part || o.space != 0 || o.lanes.all (fun r =>
        !((r.status == 1 || r.status == 2) && r.va.toNat < q.va.toNat + q.bytes && q.va.toNat < r.va.toNat + r.size))
    | none => true)

/-- INVAL_ACK (R142, steps 3–5): a core drops its lines in the range and acknowledges; the last acknowledgement is
answered. -/
def execInvalAck (die core inv : Nat) (s : State) : Host.Outcome State Fault Refusal :=
  match s.invals.find? (fun q => q.id == inv) with
  | none => .fault .notEnabled
  | some q =>
    if die ≥ 8 || core ≥ 384 || q.acks.contains (die, core) || !s.drained q then .fault .notEnabled
    else
      let inRange (va : Nat) : Bool := q.va.toNat ≤ va && va < q.va.toNat + q.bytes
      let cores := s.cores.map (fun (c : Core) => if c.die == die && c.core == core then
          { c with l1 := c.l1.filter (fun l => !(l.part == q.part && inRange l.va)) } else c)
      let memOps := s.memOps.map (fun (o : MemOp) =>
          match s.gang o.gid with
          | some g => if g.die == die && g.core == core && g.part == q.part then
              { o with lanes := o.lanes.map (fun r => if inRange r.va.toNat then { r with noFill := true } else r) } else o
          | none => o)
      let s := { s with cores := cores, memOps := memOps }
      if q.acks.length + 1 < 3072 then
        .next { s with invals := s.invals.map (fun (p : InvalReq) => if p.id == inv then { p with acks := (die, core) :: p.acks } else p) }
      else .next ({ s with invals := s.invals.filter (fun (p : InvalReq) => p.id != inv) }.send (.invalDone q.msg 0))

end Sys2Proof.Machine
end

