-- ==== Sys2Proof/Machine/Stream.lean ====
section
/-!
DEFINITION. Coded streams as functions of bytes (chapter 04): descriptors, code tables and codebooks, the four kinds of tile,
the delivery of their elements (R254, R240), the encoding of a row (R257), and CRC-32 (R261).
-/

namespace Sys2Proof.Machine

/-! ## Descriptors (R72, R73) and index entries (R74, R75) -/

/-- The fields of a tensor descriptor (R72). -/
structure Desc where
  ibase : Nat
  pool : Nat
  trows : Nat
  tcols : Nat
  kind : Nat
  wcode : Nat
  sp : Bool
  seg : Bool
  shape : Nat
  vec : Nat
  ce : Nat
  cm : Nat
  cb : Nat
  deriving DecidableEq, Repr

/-- A descriptor read from its 64 bytes. -/
def descOf (d : List Byte) : Desc :=
  { ibase := fieldOf d 0 64, pool := fieldOf d 64 64, trows := fieldOf d 128 16, tcols := fieldOf d 144 16,
    kind := fieldOf d 160 2, wcode := fieldOf d 162 3, sp := fieldOf d 165 1 == 1, seg := fieldOf d 166 1 == 1,
    shape := fieldOf d 167 2, vec := fieldOf d 169 2, ce := fieldOf d 171 4, cm := fieldOf d 175 4, cb := fieldOf d 179 4 }

/-- Rows of a tile (R72). -/
def Desc.rows (d : Desc) : Nat := if d.shape == 0 then 64 else if d.shape == 1 then 32 else 16

/-- The entry length V of a VQC tensor (R72). -/
def vecLen (vec : Nat) : Nat := 2 ^ vec

/-- Whether a slot field is a slot below a bound, or 15. -/
def slotOr15 (atlas c : Nat) : Bool := c == 15 || (c < 8 && c < atlas)

/-- Whether a descriptor is well-formed under R72 and R73, for slots below atlas. -/
def descOk (bytes : List Byte) (atlas : Nat) : Bool :=
  let d := descOf bytes
  d.ibase % 16 == 0 && d.pool % 16 == 0 && d.trows ≥ 1 && d.tcols ≥ 1 && d.shape ≤ 2 && fieldOf bytes 183 57 == 0 &&
  ((List.range 34).all (fun i => fieldOf bytes (240 + 8 * i) 8 == 0)) &&
  (match d.kind with
    | 0 => !d.sp && !d.seg && d.vec == 0 && d.ce == 15 && d.cm == 15 && d.cb == 15
    | 1 => d.wcode ≥ 1 && !d.seg && d.vec == 0 && slotOr15 atlas d.ce && slotOr15 atlas d.cm && d.cb == 15
    | 2 => !d.sp && d.vec ≤ 2 && d.ce == 15 && slotOr15 atlas d.cm &&
        (if d.seg then d.cb == 15 else d.cb < 8 && d.cb < atlas)
    | _ => d.wcode ≤ 3 && !d.sp && !d.seg && d.vec == 0 && slotOr15 atlas d.ce && d.cm == 15 && d.cb == 15)

/-- The address of a tile's index entry (R74). -/
def Desc.entryVa (d : Desc) (row col : Nat) : Nat := (d.ibase + (row * d.tcols + col) * 16) % 2 ^ 64

/-- An index entry (R74). -/
structure IdxEntry where
  sva : Nat
  len : Nat
  cap : Nat
  valid : Bool
  append : Bool
  rsv : Nat
  deriving DecidableEq, Repr

/-- An index entry read from its 16 bytes. -/
def entryOf (b : List Byte) : IdxEntry :=
  { sva := fieldOf b 0 64, len := fieldOf b 64 32, cap := fieldOf b 96 16, valid := fieldOf b 112 1 == 1,
    append := fieldOf b 113 1 == 1, rsv := fieldOf b 114 14 }

/-- The 16 bytes of an index entry. -/
def IdxEntry.bytes (e : IdxEntry) : List Byte :=
  packFields 16 [(0, e.sva), (64, e.len), (96, e.cap), (112, ofBool e.valid), (113, ofBool e.append), (114, e.rsv)]

/-- Whether an entry is well-formed, except for APPEND (R75, R76 step 5). -/
def IdxEntry.ok (e : IdxEntry) : Bool :=
  e.sva % 32 == 0 && e.len % 4 == 0 && e.len ≥ 4 && e.len ≤ 32 * e.cap && e.rsv == 0

/-! ## Code tables and codebooks (R86, R87, R260) -/

/-- The length in bytes of an object by its header (R259). -/
def objectLen (h : Nat) : Nat :=
  if bits h 0 2 == 0 then 34 + bits h 8 8 + 1
  else if bits h 0 2 == 1 && bits h 2 2 ≤ 2 then 2 + (bits h 8 8 + 1) * 2 ^ bits h 2 2 * 2
  else 2

/-- The counts of a code table by length, 1 to 16. -/
def tableCounts (b : List Byte) : List Nat := (List.range 16).map (fun i => leAt b (2 + 2 * i) 2)

/-- The symbols of a code table in listed order, with their lengths. -/
def tableSyms (b : List Byte) : List (Nat × Nat) :=
  let lens := ((List.range 16).zip (tableCounts b)).flatMap (fun p => List.replicate (min p.2 257) (p.1 + 1))
  ((List.range (leAt b 1 1 + 1)).zip lens).map (fun p => (p.2, leAt b (34 + p.1) 1))

/-- Canonical codewords (R87): length, codeword, symbol. -/
def canonical : Nat → Nat → List (Nat × Nat) → List (Nat × Nat × Nat)
  | _, _, [] => []
  | len, code, (n, y) :: rest =>
    let c := code <<< (n - len)
    (n, c, y) :: canonical n (c + 1) rest

/-- A code table: codewords with their lengths and symbols. -/
abbrev CodeTable := List (Nat × Nat × Nat)

/-- The code table of an object (R87). -/
def tableOf (b : List Byte) : CodeTable := canonical 1 0 (tableSyms b)

/-- Whether a list of numbers has a repeat. -/
def hasRepeat : List Nat → Bool
  | [] => false
  | x :: xs => xs.contains x || hasRepeat xs

/-- Whether consecutive entries of equal length ascend. -/
def ascending : List (Nat × Nat) → Bool
  | a :: b :: rest => (a.1 != b.1 || a.2 < b.2) && ascending (b :: rest)
  | _ => true

/-- The reason of the first failure of R260 in an object, 0 for none. -/
def objectReason (b : List Byte) : Nat :=
  let h := leAt b 0 2
  let type := bits h 0 2
  let vec := bits h 2 2
  let alpha := bits h 4 4
  let nsym := bits h 8 8
  if type ≥ 2 then 1
  else if (type == 0 && vec != 0) || (type == 1 && vec == 3) then 2
  else if !(1 ≤ alpha && alpha ≤ 8) then 3
  else if type == 1 then (if nsym + 1 != 2 ^ alpha then 4 else 0)
  else if (tableCounts b).foldl (· + ·) 0 != nsym + 1 then 5
  else
    let ys := tableSyms b
    if ys.any (fun p => p.2 ≥ 2 ^ alpha) then 6
    else if hasRepeat (ys.map (·.2)) then 7
    else if !ascending ys then 8
    else if (ys.map (fun p => 2 ^ (16 - p.1))).foldl (· + ·) 0 > 2 ^ 16 then 9
    else 0

/-- The slot that a load of an object leaves (R246, R259). -/
def slotOf (b : List Byte) : AtlasSlot :=
  let r := objectReason b
  { state := if r != 0 then 3 else if bits (leAt b 0 2) 0 2 == 0 then 1 else 2, reason := r, crc := crc32 b, bytes := b }

/-- An empty slot. -/
def AtlasSlot.empty : AtlasSlot := { state := 0, reason := 0, crc := 0, bytes := [] }

/-- ALPHA of a slot's object. -/
def AtlasSlot.alpha (c : AtlasSlot) : Nat := bits (leAt c.bytes 0 2) 4 4

/-- The V code of a slot's object. -/
def AtlasSlot.vec (c : AtlasSlot) : Nat := bits (leAt c.bytes 0 2) 2 2

/-- Element v of entry y of a codebook object (R86). -/
def bookElem (b : List Byte) (vec y v : Nat) : Nat := leAt b (2 + 2 * (2 ^ vec * y + v)) 2

/-- The word that ctst writes (R261). -/
def AtlasSlot.word (c : AtlasSlot) : Nat :=
  let h := leAt c.bytes 0 2
  if c.state == 0 then 0
  else
    let inv := c.state == 3
    let maxlen := if c.state == 1 then maxOf ((tableSyms c.bytes).map (·.1)) else 0
    c.state + (bits h 4 4) <<< 2 + (if c.state == 1 then 0 else bits h 2 2) <<< 6 +
      (if inv then bits h 8 8 else bits h 8 8 + 1) <<< 8 + maxlen <<< 17 + (if inv then c.reason else 0) <<< 24 + c.crc <<< 32

/-! ## Reading streams (R78) -/

/-- A stream violation: class (8 DECODE, 9 TABLE), subcode, bit offset or detail. -/
structure StreamFault where
  cls : Nat
  sub : Nat
  off : Nat
  detail : Nat := 0
  deriving DecidableEq, Repr

/-- A stream as a number with its length in bits. -/
structure BitStream where
  n : Nat
  len : Nat
  deriving DecidableEq, Repr

/-- A stream of bytes. -/
def streamOf (b : List Byte) : BitStream := ⟨leNat b, 8 * b.length⟩

/-- DECODE with a subcode at a bit offset. -/
def decodeErr {α : Type} (sub off : Nat) : Except StreamFault α := .error { cls := 8, sub := sub, off := off }

/-- raw(n) of R78: the value and the next position. -/
def rawRead (st : BitStream) (pos n : Nat) : Except StreamFault (Nat × Nat) :=
  if pos + n > st.len then decodeErr 3 st.len else .ok (bits st.n pos n, pos + n)

/-- The codeword search of sym (R78): lengths still to try, the length and the bits so far. -/
def symGo (t : CodeTable) (st : BitStream) (start : Nat) : Nat → Nat → Nat → Except StreamFault (Nat × Nat)
  | 0, _, _ => decodeErr 1 start
  | fuel + 1, len, c =>
    if start + len > st.len then decodeErr 3 st.len
    else
      let c := 2 * c + ofBool (bit st.n (start + len - 1))
      match t.find? (fun p => p.1 == len && p.2.1 == c) with
      | some p => .ok (p.2.2, start + len)
      | none => symGo t st start fuel (len + 1) c

/-- sym(slot, a) of R78: no table means a raw field. -/
def symRead (t : Option CodeTable) (st : BitStream) (pos a : Nat) : Except StreamFault (Nat × Nat) :=
  match t with
  | none => rawRead st pos a
  | some t => symGo t st pos 16 1 0

/-- A reader repeated n times, its results in order. -/
def readMany {α : Type} (f : Nat → Except StreamFault (α × Nat)) : Nat → Nat → Except StreamFault (List α × Nat)
  | 0, pos => .ok ([], pos)
  | n + 1, pos =>
    match f pos with
    | .error e => .error e
    | .ok (x, pos) =>
      match readMany f n pos with
      | .error e => .error e
      | .ok (xs, pos) => .ok (x :: xs, pos)

/-! ## Elements -/

/-- A decoded element: a bit pattern of a PLAIN format code (R79), or a BFP element. -/
inductive Elem where
  | pat (fmt : Nat) (p : Nat)
  | bfp (m e mu : Nat) (mant : Int)
  deriving DecidableEq, Repr

/-- Bits of a PLAIN element format (R79, R80). -/
def plainBits (wcode : Nat) : Nat :=
  if wcode == 2 || wcode == 3 || wcode == 4 then 8 else if wcode ≥ 6 then 32 else 16

/-- The float format of a format code, none for the integers (R79). -/
def plainFmt (wcode : Nat) : Option Fmt :=
  if wcode == 0 then some bf16 else if wcode == 1 then some fp16 else if wcode == 2 then some e4m3
  else if wcode == 3 then some e5m2 else if wcode == 6 then some fp32 else none

/-- The value of an element. -/
def Elem.val : Elem → FVal
  | .pat f p =>
    match plainFmt f with
    | some t => unpack t p
    | none => ofIntVal (toSigned (plainBits f) p)
  | .bfp m e mu mant => bfpVal m e mu mant

/-- An element converted to a float format, rounded to nearest even, a NaN canonical (R240, R254). -/
def Elem.toFmt (t : Fmt) (x : Elem) : Nat := (roundTo t .rne false false x.val).1

/-- An element as texp's .b32 delivers it (R254). -/
def Elem.raw : Elem → Nat
  | .pat _ p => p
  | .bfp _ e mu mant => ofInt 8 mant + e <<< 8 + mu <<< 16

/-- The BF16 pattern of an element (R240): BF16 patterns pass unchanged but NaNs. -/
def Elem.bf16 (x : Elem) : Nat := x.toFmt Machine.bf16

/-! ## The four kinds (R80–R84) -/

/-- What a decoder reads its symbols by: tables for CE and CM, and a codebook object for CB. -/
structure Tables where
  ce : Option CodeTable
  cm : Option CodeTable
  book : List Byte
  deriving DecidableEq, Repr

/-- bfpc_group of R81: the new Eprev, and the sixteen elements. -/
def bfpcGroup (d : Desc) (tb : Tables) (st : BitStream) (eprev pos : Nat) : Except StreamFault ((Nat × List Elem) × Nat) :=
  let m := d.wcode + 1
  match symRead tb.ce st pos 8 with
  | .error e => .error e
  | .ok (y, pos) =>
    let e := (eprev + y) % 256
    if !d.sp then
      match rawRead st pos 8 with
      | .error x => .error x
      | .ok (mu, pos) =>
        match readMany (fun p => symRead tb.cm st p m) 16 pos with
        | .error x => .error x
        | .ok (ms, pos) =>
          .ok ((e, ((List.range 16).zip ms).map (fun q => .bfp m e (bits mu (q.1 / 2) 1) (toSigned m q.2))), pos)
    else
      let quad (p : Nat) : Except StreamFault (List Elem × Nat) :=
        match rawRead st p 5 with
        | .error x => .error x
        | .ok (h, p) =>
          match readMany (fun p => symRead tb.cm st p m) 2 p with
          | .error x => .error x
          | .ok (ab, p) =>
            let p0 := bits h 0 2
            let p1 := bits h 2 2
            let mq := bits h 4 1
            .ok ((List.range 4).map (fun i => .bfp m e mq
              (if i == p1 then toSigned m (ab.getD 1 0) else if i == p0 then toSigned m (ab.getD 0 0) else 0)), p)
      match readMany quad 4 pos with
      | .error x => .error x
      | .ok (qs, pos) => .ok ((e, qs.flatten), pos)

/-- Groups of a BFPC tile in order (R81). -/
def bfpcGroups (d : Desc) (tb : Tables) (st : BitStream) : Nat → Nat → Nat → Except StreamFault (List Elem × Nat)
  | 0, _, pos => .ok ([], pos)
  | n + 1, eprev, pos =>
    match bfpcGroup d tb st eprev pos with
    | .error e => .error e
    | .ok ((e, xs), pos) =>
      match bfpcGroups d tb st n e pos with
      | .error e => .error e
      | .ok (ys, pos) => .ok (xs ++ ys, pos)

/-- vqc_segment of R82. -/
def vqcSegment (d : Desc) (tb : Tables) (st : BitStream) (pos : Nat) : Except StreamFault (List Elem × Nat) :=
  let k := d.wcode + 1
  let v := vecLen d.vec
  let inline : Except StreamFault (List Nat × Nat) :=
    if d.seg then readMany (fun p => rawRead st p 16) (2 ^ k * v) pos
    else .ok ((List.range (2 ^ k * v)).map (fun i => bookElem tb.book 0 i 0), pos)
  match inline with
  | .error e => .error e
  | .ok (book, pos) =>
    match readMany (fun p => symRead tb.cm st p k) (128 / v) pos with
    | .error e => .error e
    | .ok (ys, pos) => .ok (ys.flatMap (fun y => (List.range v).map (fun i => Elem.pat 0 (book.getD (v * y + i) 0))), pos)

/-- The greatest biased exponent of an EXPC format (R83). -/
def expcMax (wcode : Nat) : Nat := if wcode == 0 then 255 else if wcode == 2 then 15 else 31

/-- The fraction width of an EXPC format (R53, R83). -/
def expcFrac (wcode : Nat) : Nat := ((plainFmt wcode).map (·.f)).getD 0

/-- expc_group of R83. -/
def expcGroup (d : Desc) (tb : Tables) (st : BitStream) (pos : Nat) : Except StreamFault (List Elem × Nat) :=
  let f := expcFrac d.wcode
  match rawRead st pos 8 with
  | .error e => .error e
  | .ok (base, pos') =>
    if base > expcMax d.wcode then decodeErr 2 pos
    else
      let one (p : Nat) : Except StreamFault (Elem × Nat) :=
        match symRead tb.ce st p 8 with
        | .error e => .error e
        | .ok (y, p') =>
          if y > base then decodeErr 2 p
          else
            match rawRead st p' (f + 1) with
            | .error e => .error e
            | .ok (sf, p') =>
              .ok (.pat d.wcode (bits sf 0 f + (base - y) <<< f + (bits sf f 1) <<< (plainBits d.wcode - 1)), p')
      readMany one 16 pos'

/-- The first non-zero bit among n from a position. -/
def firstOne (st : BitStream) (pos n : Nat) : Option Nat :=
  ((List.range n).find? (fun i => bit st.n (pos + i))).map (pos + ·)

/-- Rows of an appendable tile (R84): a row that starts at L, and every later one, is +0. -/
def appendRows (d : Desc) (tb : Tables) (st : BitStream) : Nat → Nat → Except StreamFault (List Elem × Nat)
  | 0, pos => .ok ([], pos)
  | n + 1, pos =>
    if pos == st.len then .ok (List.replicate ((n + 1) * 64) (.pat d.wcode 0), pos)
    else
      match readMany (expcGroup d tb st) 4 pos with
      | .error e => .error e
      | .ok (gs, pos) =>
        let stop := alignUp pos 32
        match firstOne st pos (stop - pos) with
        | some i => decodeErr 4 i
        | none =>
          match appendRows d tb st n stop with
          | .error e => .error e
          | .ok (ys, p) => .ok (gs.flatten ++ ys, p)

/-- The end of a non-appendable stream (R85). -/
def endOk (st : BitStream) (pos : Nat) : Except StreamFault Unit :=
  if st.len - pos > 31 then decodeErr 4 pos
  else
    match firstOne st pos (st.len - pos) with
    | some i => decodeErr 4 i
    | none => .ok ()

/-- A tile header's checks (R79). -/
def headerCheck (d : Desc) (h : Nat) : Except StreamFault Unit :=
  if bits h 0 2 != d.kind || bits h 2 3 != d.wcode || bit h 5 != d.sp || bit h 6 != d.seg || bits h 7 9 != 0 then decodeErr 6 0
  else if bits h 16 16 != d.rows * 4 then decodeErr 5 0
  else .ok ()

/-- The groups of a non-appendable tile after its header. -/
def tileBody (d : Desc) (tb : Tables) (st : BitStream) (pos : Nat) : Except StreamFault (List Elem × Nat) :=
  if d.kind == 0 then
    (readMany (fun p => rawRead st p (plainBits d.wcode)) (d.rows * 64) pos).map (fun r => (r.1.map (Elem.pat d.wcode), r.2))
  else if d.kind == 1 then bfpcGroups d tb st (d.rows * 4) 127 pos
  else if d.kind == 2 then (readMany (vqcSegment d tb st) (d.rows / 2) pos).map (fun r => (r.1.flatten, r.2))
  else (readMany (expcGroup d tb st) (d.rows * 4) pos).map (fun r => (r.1.flatten, r.2))

/-- A whole tile decoded and checked (R76 step 8, R79–R85). -/
def decodeTile (d : Desc) (tb : Tables) (append : Bool) (bytes : List Byte) : Except StreamFault (List Elem) :=
  let st := streamOf bytes
  match rawRead st 0 32 with
  | .error e => .error e
  | .ok (h, pos) =>
    match headerCheck d h with
    | .error e => .error e
    | .ok _ =>
      if append then
        match appendRows d tb st d.rows pos with
        | .error e => .error e
        | .ok (xs, pos) => if pos == st.len then .ok xs else decodeErr 4 pos
      else
        match tileBody d tb st pos with
        | .error e => .error e
        | .ok (xs, pos) => (endOk st pos).map (fun _ => xs)

/-! ## Slot uses (R88) -/

/-- The check of one slot for a use: INVALID is TABLE 1, unloaded or unfit contents DECODE 7. -/
def slotUse (c : Option AtlasSlot) (num : Nat) (fit : AtlasSlot → Bool) : Except StreamFault Unit :=
  match c with
  | none => decodeErr 7 0
  | some a =>
    if a.state == 3 then .error { cls := 9, sub := 1, off := 0, detail := num + a.reason <<< 8 }
    else if fit a then .ok () else decodeErr 7 0

/-- The tables that a descriptor names, after the use checks in the order CE, CM, CB (R76 step 7, R88); only the slots that
the kind uses. -/
def tablesFor (d : Desc) (slot : Nat → Option AtlasSlot) : Except StreamFault Tables :=
  let ceFit (a : AtlasSlot) : Bool := a.state == 1 && a.alpha == 8
  let cmFit (a : AtlasSlot) : Bool := a.state == 1 && a.alpha == d.wcode + 1
  let cbFit (a : AtlasSlot) : Bool := a.state == 2 && a.alpha == d.wcode + 1 && a.vec == d.vec
  match if d.ce == 15 then .ok () else slotUse (slot d.ce) d.ce ceFit with
  | .error e => .error e
  | .ok _ =>
    match if d.cm == 15 then .ok () else slotUse (slot d.cm) d.cm cmFit with
    | .error e => .error e
    | .ok _ =>
      match if d.cb == 15 then .ok () else slotUse (slot d.cb) d.cb cbFit with
      | .error e => .error e
      | .ok _ =>
        let tab (c : Nat) : Option CodeTable := if c == 15 then none else (slot c).map (fun a => tableOf a.bytes)
        .ok { ce := tab d.ce, cm := tab d.cm, book := if d.cb == 15 then [] else ((slot d.cb).map (·.bytes)).getD [] }

/-! ## Encoding a row (R257) -/

/-- The codeword bits of a symbol, first bit at the lowest stream bit (R78): value and length; none without a codeword. -/
def symWrite (t : Option CodeTable) (a y : Nat) : Option (Nat × Nat) :=
  match t with
  | none => some (y % 2 ^ a, a)
  | some t => (t.find? (fun p => p.2.2 == y)).map (fun p => (brev p.1 p.2.1, p.1))

/-- Fields appended one after another, each a value and a length. -/
def packBits (fs : List (Nat × Nat)) : Nat × Nat := fs.foldl (fun acc f => (acc.1 + f.1 <<< acc.2, acc.2 + f.2)) (0, 0)

/-- The fields of one group of patterns under R83; none when a symbol has no codeword. -/
def groupFields (wcode : Nat) (ce : Option CodeTable) (xs : List Nat) : Option (List (Nat × Nat)) :=
  let f := expcFrac wcode
  let w := plainBits wcode
  let ex (p : Nat) : Nat := bits p f (w - 1 - f)
  let base := maxOf (xs.map ex)
  let es := xs.map (fun p =>
    (symWrite ce 8 (base - ex p)).map (fun y => [y, (bits p 0 f + (bits p (w - 1) 1) <<< f, f + 1)]))
  if es.any (·.isNone) then none else some ((base, 8) :: (es.filterMap id).flatten)

/-- The bytes of an encoded row of 64 patterns, padded to a word (R257); none for TABLE 2. -/
def encodeRow (wcode : Nat) (ce : Option CodeTable) (xs : List Nat) : Option (List Byte) :=
  let gs := (List.range 4).map (fun g => groupFields wcode ce ((xs.drop (16 * g)).take 16))
  if gs.any (·.isNone) then none
  else
    let r := packBits (gs.filterMap id).flatten
    some (leBytes (alignUp r.2 32 / 8) r.1)

end Sys2Proof.Machine
end

