-- ==== Sys2Proof/Machine/Tiles.lean ====
section
/-!
DEFINITION. Reads that an agent makes whole, the resolution and decoding of tiles (R76), and the expanded view (R238–R242).
-/

namespace Sys2Proof.Machine

/-- How an agent reads bytes of memory: the bytes, or the fault of the access. -/
abbrev Reader := Nat → Nat → Except FaultInfo (List Byte)

/-- UNCORRECTABLE with a subcode (R369). -/
def poisonFault (sub va : Nat) : FaultInfo := { cls := 0x0D, sub := sub, addr := va }

/-- A read of global memory under a partition's translation and RD (R138, R139); poison is UNCORRECTABLE. -/
def State.readPlain (s : State) (part sub : Nat) : Reader := fun va n =>
  if n == 0 then .ok []
  else
    match s.runs part 0 va n with
    | none => .error (s.untranslated part 0 va n)
    | some rs => if s.poisonedRuns rs then .error (poisonFault sub va) else .ok (s.readRuns rs)

/-- A fault of class INDEX at a tile (R77, R250). -/
def indexFault (sub row col : Nat) : FaultInfo := { cls := 0x11, sub := sub, trow := row % 65536, tcol := col % 65536 }

/-- A stream violation at a tile (R85, R249, R250). -/
def streamFault (f : StreamFault) (row col : Nat) : FaultInfo :=
  { cls := f.cls, sub := f.sub, detail := f.detail, trow := row % 65536, tcol := col % 65536, bitoff := f.off }

/-- Steps 2 to 6 of R76: the index entry of a tile. -/
def resolveTile (rd : Reader) (d : Desc) (row col : Nat) : Except FaultInfo IdxEntry :=
  if !(row < d.trows && col < d.tcols) then .error (indexFault 1 row col)
  else
    match rd (d.entryVa row col) 16 with
    | .error f => .error f
    | .ok b =>
      let e := entryOf b
      if !e.valid then .error (indexFault 2 row col)
      else if !e.ok then .error (indexFault 3 row col)
      else if e.append && d.kind != 3 then .error (indexFault 4 row col)
      else .ok e

/-- Steps 2 to 8 of R76: the elements of a tile and its entry. Step 8 gives no order between a refused access to a later byte of the
stream and a violation at an earlier bit: the whole stream is read before it is decoded. DESIGN CHOICE (log 27). -/
def tileElems (rd : Reader) (slot : Nat → Option AtlasSlot) (d : Desc) (row col : Nat) :
    Except FaultInfo (IdxEntry × List Elem) :=
  match resolveTile rd d row col with
  | .error f => .error f
  | .ok e =>
    match tablesFor d slot with
    | .error f => .error (streamFault f row col)
    | .ok tb =>
      match rd e.sva e.len with
      | .error f => .error f
      | .ok bytes =>
        match decodeTile d tb e.append bytes with
        | .error f => .error (streamFault f row col)
        | .ok xs => .ok (e, xs)

/-! ## The expanded view (R238–R242) -/

/-- The registration that a view address names, with its descriptor, none when it is refused (R238). -/
def State.xvFind (s : State) (part va : Nat) : Option (XView × Desc) :=
  if bit va 52 then none
  else
    match s.xviews.find? (fun x => x.part == part && x.die == vaDie va && x.xid == bits va 40 12) with
    | none => none
    | some x =>
      let d := descOf x.desc
      if bits va 0 40 < d.trows * d.tcols * (d.rows * 128) then some (x, d) else none

/-- The slots of a registration: its table objects in the places of CE, CM and CB (R239). -/
def XView.slot (x : XView) (i : Nat) : Option AtlasSlot := (x.tables[i]?).map slotOf

/-- A descriptor whose tables are a registration's: its slots renumbered 0, 1, 2. -/
def Desc.viewed (d : Desc) : Desc :=
  { d with ce := if d.ce == 15 then 15 else 0, cm := if d.cm == 15 then 15 else 1, cb := if d.cb == 15 then 15 else 2 }

/-- The bytes of a decoded tile as BF16 (R240). -/
def expandTile (xs : List Elem) : List Byte := xs.flatMap (fun x => leBytes 2 x.bf16)

/-- A read of the expanded view, tile by tile, a poisoned word being UNCORRECTABLE with a subcode (R369); fuel bounds the tiles (R240,
R242). -/
def State.xvGo (s : State) (part sub : Nat) : Nat → Nat → Nat → Except FaultInfo (List Byte)
  | 0, va, _ => .error (protFault va)
  | fuel + 1, va, n =>
    if n == 0 then .ok []
    else
      match s.xvFind part va with
      | none => .error (protFault va)
      | some (x, d) =>
        let tb := d.rows * 128
        let t := bits va 0 40 / tb
        let off := bits va 0 40 % tb
        let k := min n (tb - off)
        match tileElems (s.readPlain part sub) x.slot d.viewed (t / d.tcols) (t % d.tcols) with
        | .error f =>
          .error (if f.cls == 5 || f.cls == 0x0D then { f with addr := va } else { f with xvf := true, handle := x.xid, addr := x.dva.toNat })
        | .ok (_, xs) =>
          match s.xvGo part sub fuel (va + k) (n - k) with
          | .error f => .error f
          | .ok rest => .ok (((expandTile xs).drop off).take k ++ rest)

/-- A read of the expanded view by an agent with its UNCORRECTABLE subcode. -/
def State.xvReadAs (s : State) (part sub va n : Nat) : Except FaultInfo (List Byte) := s.xvGo part sub (n / 2048 + 2) va n

/-- A read of the expanded view by an instruction. -/
def State.xvRead (s : State) (part va n : Nat) : Except FaultInfo (List Byte) := s.xvReadAs part 1 va n

/-- What the tile reads of a read of the expanded view leave at its home agents (R136, R141, R240): the translations and the lines of each
tile's entry and stream, and the clocks of their homes; fuel bounds the tiles. -/
def State.xvUse (s : State) (part : Nat) : Nat → Nat → Nat → State
  | 0, _, _ => s
  | fuel + 1, va, n =>
    if n == 0 then s
    else
      match s.xvFind part va with
      | none => s
      | some (_, d) =>
        let tb := d.rows * 128
        let t := bits va 0 40 / tb
        let k := min n (tb - bits va 0 40 % tb)
        let e := d.entryVa (t / d.tcols) (t % d.tcols)
        let took (s : State) (a n : Nat) : State := (s.useRange (vaDie va) part 0 a n).hearRange (vaDie va) a
        let s1 := match resolveTile (s.readPlain part 1) d (t / d.tcols) (t % d.tcols) with
          | .ok i => took (took s e 16) i.sva i.len
          | .error _ => took s e 16
        s1.xvUse part fuel (va + k) (n - k)

/-- The tile reads of a read of the expanded view made. -/
def State.xvUsed (s : State) (part va n : Nat) : State := s.xvUse part (n / 2048 + 2) va n

/-- A range of global memory as its parts below, in and above the expanded view (R238). -/
def cutXv (r : Nat × Nat) : List (Nat × Nat) :=
  let m := (r.1 + r.2 - 1) / 2 ^ 53 * 2 ^ 53
  if r.1 < m then [(r.1, m - r.1), (m, r.1 + r.2 - m)] else [r]

/-- The bytes of the parts of a range in order, or the first fault. -/
def readParts (rd : Reader) : List (Nat × Nat) → Except FaultInfo (List Byte)
  | [] => .ok []
  | r :: rs =>
    match rd r.1 r.2 with
    | .error f => .error f
    | .ok b =>
      match readParts rd rs with
      | .error f => .error f
      | .ok bs => .ok (b ++ bs)

/-- A read of any global address by an agent of a partition. -/
def State.readAny (s : State) (part sub : Nat) : Reader := fun va n =>
  readParts (fun a k => if !vaLegal a then .error (protFault a) else if vaIsXv a then s.xvReadAs part sub a k else s.readPlain part sub a k)
    (cutXv (va, n))

/-- A read for a gang, checked against its lease first (R125). -/
def State.readGang (s : State) (g : Gang) (sub : Nat) : Reader := fun va n =>
  if !vaLegal va then .error (protFault va)
  else if !s.leaseOk g va n then .error (leaseFault va)
  else s.readAny g.part sub va n

/-- The lines of runs of locations dropped from a gang's core: its L1 and its fills in flight (R236). -/
def State.dropOwn (s : State) (g : Gang) (rs : List (Nat × Nat)) : State :=
  let lines := rs.flatMap (fun r => linesOf r.1 r.2)
  let cores := s.cores.map (fun (c : Core) => if c.die == g.die && c.core == g.core then
    { c with l1 := c.l1.filter (fun l => !lines.contains (l.loc / 128)) } else c)
  let memOps := s.memOps.map (fun (o : MemOp) => match s.gang o.gid with
    | some h => if h.die == g.die && h.core == g.core then
        { o with lanes := o.lanes.map (fun r => if lines.contains (r.loc / 128) then { r with noFill := true } else r) } else o
    | none => o)
  { s with cores := cores, memOps := memOps }

/-- A write for a gang: its checks and the state after it (R125, R139, R26); kind 1 write, 2 atomic. Its response carries the home's
clock, and the issuing core's own copies of the lines are dropped before it (R236, R335, R339). -/
def State.writeGang (s : State) (g : Gang) (kind va : Nat) (bs : List Byte) : Except FaultInfo State :=
  match s.checkAccess g kind va bs.length with
  | some f => .error f
  | none =>
    match s.writeVa g.die g.part kind va bs with
    | some s' => .ok ((s'.dropOwn g ((s.runs g.part kind va bs.length).getD [])).hearRange g.die va)
    | none => .error (protFault va)

/-- What a read made whole by a partition's agent on a die leaves (R136, R140, R339): its translations and its lines of an eviction class, or those of the tiles
that the expanded view reads for it, and the clocks of its request and its response. -/
def State.tookAs (s : State) (die part cls va n : Nat) : State :=
  if n == 0 then s
  else
    (cutXv (va, n)).foldl (fun (s : State) r =>
      (if vaIsXv r.1 then (s.carryClock die (vaDie r.1)).xvUsed part r.1 r.2 else s.useRange die part cls r.1 r.2).hearRange die r.1) s

/-- What a read made whole by a gang leaves, its lines of class 0. -/
def State.tookRange (s : State) (g : Gang) (va n : Nat) : State := s.tookAs g.die g.part 0 va n

/-- EXPANDED_VIEW_READ (R240–R242): the home agents decode the tile and answer, or refuse the read. -/
def execExpandedViewRead (op lane : Nat) (s : State) : Host.Outcome State Fault Refusal :=
  match s.memOp op with
  | none => .fault .notEnabled
  | some o =>
    match o.lanes.find? (fun r => r.lane == lane), s.gang o.gid with
    | some r, some g =>
      if r.status != 0 || o.space != 0 || !vaIsXv r.va.toNat || o.kind != 0 || !s.mayPerform o r then .fault .notEnabled
      else
        let s := s.carryClock g.die (vaDie r.va.toNat)
        match s.xvRead g.part r.va.toNat r.size with
        | .error f =>
          .next ((s.xvUsed g.part r.va.toNat r.size).failReq o r (if f.xvf then [f.cls, f.sub, f.handle, f.trow, f.tcol, f.bitoff, f.addr] else [f.cls, f.sub]))
        | .ok data =>
          let s := s.xvUsed g.part r.va.toNat r.size
          .next ((s.modReq op lane (fun r => { r with
            status := 3, data := data, noFill := true, clock := (s.die (vaDie r.va.toNat)).vclock })).resolveMem op)
    | _, _ => .fault .notEnabled

/-- A table object of a registration, loaded from its address and cut to its length (R239, R259). -/
def State.loadObject (s : State) (part : Nat) (va : Nat) : Except FaultInfo (List Byte) :=
  match s.readAny part 2 va 2 with
  | .error f => .error f
  | .ok h => s.readAny part 2 va (objectLen (leNat h))

/-- Whether the fields of an XVREG name a partition, a die, a free id and at most three tables (R239). -/
def State.viewNamed (s : State) (part die xid : Nat) (desc : W64) (tabs : List W64) : Bool :=
  (s.part part).isSome && die < 8 && xid < 4096 && tabs.length ≤ 3 && desc.toNat % 64 == 0 &&
    !(s.xviews.any (fun x => x.part == part && x.die == die && x.xid == xid))

/-- The registration that XVREG makes, none when a check fails (R239). -/
def State.makeView (s : State) (part die xid : Nat) (desc : W64) (tabs : List W64) : Option XView :=
  if !s.viewNamed part die xid desc tabs then none
  else
    match s.readAny part 2 desc.toNat 64 with
    | .error _ => none
    | .ok b =>
      let objs := tabs.map (fun t => (s.loadObject part t.toNat).toOption)
      let x : XView := ⟨part, die, xid, b, desc, objs.map (fun o => o.getD [])⟩
      let d := (descOf b).viewed
      if !descOk b 8 || ((List.range 3).zip [d.ce, d.cm, d.cb]).any (fun p => p.2 != 15 && ((objs[p.1]?).join).isNone) then none
      else
        match tablesFor d x.slot with
        | .error _ => none
        | .ok _ => some x

/-- The refused addresses of the loads that a registration's home agents make (R19, R239). -/
def State.viewRefused (s : State) (part : Nat) (desc : W64) (tabs : List W64) : List Nat :=
  let va (r : Except FaultInfo (List Byte)) : Option Nat := match r with | .error f => if f.cls == 5 then some f.addr else none | .ok _ => none
  match va (s.readAny part 2 desc.toNat 64) with
  | some a => [a]
  | none => tabs.filterMap (fun t => va (s.loadObject part t.toNat))

/-- XVREG (R239); a refused load is logged under the home agent of its page (R19). -/
def execXvreg (m : MsgId) (part die xid : Nat) (desc : W64) (tabs : List W64) (s : State) :
    Host.Outcome State Fault Refusal :=
  onMessage 1 0 s (fun s =>
    match s.makeView part die xid desc tabs with
    | some x => { s with xviews := s.xviews ++ [x] }.reply m 0
    | none =>
      let bad := if s.viewNamed part die xid desc tabs then s.viewRefused part desc tabs else []
      (bad.foldl (fun s va => s.logAccess part va (homeAgent part va) 5 0 die) s).refuse m)

/-- XVFREE (R239): reads are admitted and made in one step, so none is in progress under the registration. -/
def execXvfree (m : MsgId) (part die xid : Nat) (s : State) : Host.Outcome State Fault Refusal :=
  onMessage 1 0 s (fun s =>
    let named (x : XView) : Bool := x.part == part && x.die == die && x.xid == xid
    if s.xviews.any named then { s with xviews := s.xviews.filter (fun x => !named x) }.reply m 0 else s.refuse m)

end Sys2Proof.Machine
end

