-- ==== Sys2Proof/Machine/Coded.lean ====
section
/-!
DEFINITION. Tensor handles (R92–R94) and the coded data path (R243–R263): tbind, tloc, texp, tenc, ctld, ctst and vlut, with the
events of the decoders and the encoder.
-/

namespace Sys2Proof.Machine

/-! ## Reads that an instruction makes whole -/

/-- The outcome of an acquire that an instruction makes of global memory: its bytes, a wait for the bundle's earlier accesses
and for invalidations (R223, R339) or for a fence (R342), with its stall reason, or a fault; and the state after it. -/
inductive Got where
  | wait (reason : Nat)
  | fault (f : FaultInfo) (s : State)
  | bytes (bs : List Byte) (s : State)

/-- An acquire at device scope of n bytes (R93, R94, R259). -/
def State.acquireRead (s : State) (x : Ctx) (va n : Nat) : Got :=
  match s.readGang x.g 1 va n with
  | .error f => .fault f (s.logFault x.g 0 f)
  | .ok bs =>
    if s.unreleased x then .wait 7 else if x.fenceWaits then .wait 31 else .bytes bs (s.tookRange x.g va n)

/-- The watch events of a stream, descriptor or table read of an instruction, agent SCALAR (R382): of a VA, or of a view. -/
def State.seeRead (s : State) (x : Ctx) (view : Bool) (addr : Nat) (bs : List Byte) : State :=
  if bs.isEmpty || !s.watching then s
  else
    let v : WatchEvent :=
      { gid := x.c.gid, bundle := x.c.bundle, part := x.g.part, space := 0, kind := 0, agent := 1, plane := some x.c.plane,
        lane := none, addr := addr, data := bs, exc := 0, offset := x.offset, opnum := 0, op := none }
    if view then s.observe { v with space := 1 } x.q.slices.head?
    else (s.observe v x.q.slices.head?).observe { v with space := 2, home := vaDie addr } none

/-- Damaged gang state met by an instruction (R369). -/
def Gang.damaged (g : Gang) (kind n : Nat) : Option FaultInfo := failIf (g.damage.contains (kind, n)) { cls := 0x0D, sub := 3 }

/-- A gang's damage repaired by a write of the whole. -/
def Gang.repair (g : Gang) (kind n : Nat) : Gang := { g with damage := g.damage.filter (· != (kind, n)) }

/-! ## tbind and tloc (R93, R94) -/

/-- A handle of the gang bound or unbound. A use by another bundle before it synchronises at gang scope, which R92 lets see the old
binding or the new, sees the new one. DESIGN CHOICE (log 27). -/
def State.setHandle (s : State) (gid n : Nat) (h : Option Handle) : State :=
  s.modGang gid (fun g => { g with handles := setNth g.handles n h }.repair 4 n)

/-- TBIND (R93). -/
def execTbind (w : XWord) (s : State) : Host.Outcome State Fault Refusal :=
  runUniform false 12 (fun _ => opForm .handle .scalar .unused .unused true (w.m6 = 0 && w.nwb = 0)) w noExtra (fun x s =>
    let va := x.b.readS w.a9.toNat + w.imm.signExtend 64
    if va.toNat % 64 != 0 then .fault (alignFault va.toNat) s
    else
      match s.acquireRead x va.toNat 64 with
      | .wait r => .hold r
      | .fault f s => .fault f s
      | .bytes b s =>
        if !descOk b x.g.kernel.atlas then
          .fault { cls := 0x11, sub := 7, handle := w.d9.toNat, addr := va.toNat } s
        else .done ((s.seeRead x false va.toNat b).setHandle x.c.gid w.d9.toNat (some ⟨va, b⟩))) s

/-- TBIND_CLR (R93). -/
def execTbindClr (w : XWord) (s : State) : Host.Outcome State Fault Refusal :=
  runUniform false 12 (fun _ => opForm .handle .unused .unused .unused true (w.m6 = 0 && w.nwb = 0 && noImm w)) w noExtra
    (fun x s => .done (s.setHandle x.c.gid w.d9.toNat none)) s

/-- A fault of the coded path with its handle and descriptor (R250); other classes keep their own address. -/
def FaultInfo.ofHandle (f : FaultInfo) (n : Nat) (h : Option Handle) : FaultInfo :=
  if (f.cls == 0x11 || f.cls == 8 || f.cls == 9) && !f.xvf then
    { f with handle := n, addr := (h.map (fun h => h.va.toNat)).getD 0 }
  else f

/-- The handle of a gang. -/
def Gang.handle (g : Gang) (n : Nat) : Option Handle := (g.handles[n]?).join

/-- The coordinate checks of tloc, and the entry's address (R94). -/
def Ctx.locate (x : Ctx) (w : XWord) : Except FaultInfo Nat :=
  let n := w.a9.toNat
  let r := x.sn w.b9.toNat
  let c := x.sn w.c9.toNat
  match x.g.damaged 4 n, x.g.handle n with
  | some f, _ => .error f
  | none, none => .error ((indexFault 8 r c).ofHandle n none)
  | none, some h =>
    let d := descOf h.desc
    if !(r < d.trows && c < d.tcols) then .error ((indexFault 1 r c).ofHandle n (some h)) else .ok (d.entryVa r c)

/-- TLOC_ENT (R94): no memory access. -/
def execTlocEnt (w : XWord) (s : State) : Host.Outcome State Fault Refusal :=
  runUniform false 12 (fun _ => opForm .scalar .handle .scalar .scalar true (w.m6 = 0 && w.nwb = 0 && noImm w)) w noExtra
    (fun x s =>
      match x.locate w with
      | .error f => .fault f s
      | .ok ea => .done (s.setS x w.d9.toNat (BitVec.ofNat 64 ea))) s

/-- TLOC (R94): the entry itself. -/
def execTloc (w : XWord) (s : State) : Host.Outcome State Fault Refusal :=
  runUniform false 12 (fun _ => opForm .pair .handle .scalar .scalar true (w.m6 = 0 && w.nwb = 0 && noImm w)) w noExtra
    (fun x s =>
      match x.locate w with
      | .error f => .fault f s
      | .ok ea =>
        match s.acquireRead x ea 16 with
        | .wait r => .hold r
        | .fault f s => .fault f s
        | .bytes b s => .done (s.setPair x w.d9.toNat (leNat b))) s

/-! ## Atlas slots in use (R246, R247) -/

/-- The slots that a descriptor names. -/
def Desc.slots (d : Desc) : List Nat := [d.ce, d.cm, d.cb].filter (· != 15)

/-- Whether a fill of a slot that began before an operation is in progress (R247). -/
def State.slotFillingBefore (s : State) (gid id n : Nat) : Bool :=
  s.ops.any (fun o => o.eng == 7 && o.gid == gid && o.number == n && o.id < id)

/-- The descriptors that an engine operation captured, 64 bytes each. -/
def EngOp.descs (o : EngOp) : List (List Byte) :=
  (List.range (o.desc.length / 64)).map (fun i => (o.desc.drop (64 * i)).take 64)

/-- Whether an operation reads a slot: texp, tenc and matrix operations with a coded operand (R247). -/
def EngOp.readsSlot (o : EngOp) (n : Nat) : Bool :=
  ((o.eng == 2 && o.state != 4) || o.eng == 5 || o.eng == 6) && o.descs.any (fun d => (descOf d).slots.contains n)

/-- Whether a sub-bundle stands between the passes of a vlut that reads a slot (R247, R262). -/
def State.vlutBetween (s : State) (g : Gang) (n : Nat) : Bool :=
  g.bundles.any (fun b => !b.killed && b.subs.any (fun q => q.isLive && q.pass.isSome && (b.planesOf q).any (fun p =>
    match decodeWords (s.codeWords g p (b.offsetOf q)) with
    | .ok (i, _) => vlutSlot i == some n
    | .error _ => false)))

/-- Whether an earlier operation of the gang still reads a slot (R247). -/
def State.slotRead (s : State) (gid before n : Nat) : Bool :=
  s.ops.any (fun o => o.gid == gid && o.id < before && o.readsSlot n) ||
  (match s.gang gid with | some g => s.vlutBetween g n | none => false)

/-- UNCORRECTABLE of the damaged slots that a descriptor names (R369). -/
def Gang.damagedSlots (g : Gang) (d : Desc) : Option FaultInfo := firstFault (d.slots.map (g.damaged 1))

/-! ## Decoder and encoder operations -/

/-- An engine operation of the issuing instruction as it is created at issue (R264, R361). -/
def Ctx.newOp (x : Ctx) (id eng number : Nat) (desc : List Byte) (params : List W64) (words : List W32) : EngOp :=
  { id := id, gid := x.c.gid, bundle := x.c.bundle, eng := eng, major := 0, fn := 0, number := number, tok := none,
    offset := x.offset, plane := x.c.plane, words := words, params := params, desc := desc, state := 0, pos := 0, pos2 := 0,
    chain := 0, held := false, time := 0, ebPhase := none, targets := [], order := x.seq,
    site := (x.g.part, x.g.die, x.g.core), owed := none, lost := false, ahead := [] }

/-- An operation created: the sub-bundle waits for it. -/
def State.startDec (s : State) (x : Ctx) (eng number : Nat) (desc : List Byte) (params : List W64) (words : List W32) : Eff :=
  .wait (.decoder s.nextId)
    { s with nextId := s.nextId + 1, ops := s.ops ++ [x.newOp s.nextId eng number desc params words] }

/-- A parameter of an operation. -/
def EngOp.par (o : EngOp) (i : Nat) : Nat := (o.params.getD i 0).toNat

/-- An operation changed. -/
def State.modOp (s : State) (id : Nat) (f : EngOp → EngOp) : State :=
  { s with ops := s.ops.map (fun o => if o.id == id then f o else o) }

/-- An operation removed. -/
def State.dropOp (s : State) (id : Nat) : State := { s with ops := s.ops.filter (fun o => o.id != id) }

/-- The decoder operation that a sub-bundle waits for, with its context. -/
def State.decOf (s : State) (gid b k : Nat) (engs : List Nat) : Option (EngOp × Ctx) :=
  match s.gang gid with
  | none => none
  | some g =>
    match g.bundles[b]? with
    | none => none
    | some y =>
      match y.subs[k]? with
      | none => none
      | some q =>
        match q.wait with
        | .decoder i =>
          match s.ops.find? (fun o => o.id == i && engs.contains o.eng) with
          | some o => if y.killed then none else some (o, ⟨⟨gid, b, k, (y.planesOf q).headD 0, [], false, [], [], []⟩, g, y, q⟩)
          | none => none
        | _ => none

/-- Whether an earlier operation of the same unit on the core comes first (R244, R245); a slot fill has no such order. -/
def State.unitBusy (s : State) (g : Gang) (o : EngOp) : Bool :=
  s.ops.any (fun p => p.eng == o.eng && p.id < o.id &&
    (match s.gang p.gid with | some h => h.die == g.die && h.core == g.core | none => false))

/-! ## The array and the A port (R244, R282, R285) -/

/-- M of a matrix control word. -/
def mxM (w2 : Nat) : Nat := bits w2 16 10 + 1
/-- NK, or NB, of a matrix control word. -/
def mxNk (w2 : Nat) : Nat := bits w2 26 6 + 1
/-- SLOT0 of a matrix control word. -/
def mxSlot (w2 : Nat) : Nat := bits w2 10 6
/-- ACC0 of a matrix control word. -/
def mxAcc (w2 : Nat) : Nat := bits w2 0 10

/-- B slots that an instruction names (R281). -/
def mxSlots (fn w2 : Nat) : Nat := if fn == 2 then 2 * mxNk w2 else mxNk w2

/-- Whether every access of the bundle's instructions before an operation's has been performed (R272, R282). -/
def State.priorDone (s : State) (o : EngOp) : Bool :=
  s.memOps.all (fun m => !(m.gid == o.gid && m.bundle == o.bundle && m.seq < o.order)) &&
    !s.restPending o.gid o.bundle (fun k _ _ => k < o.order)

/-- Whether a sub-bundle of a bundle stands between passes, so that an engine fault would not fall between instructions. -/
def State.midPass (s : State) (gid b : Nat) : Bool :=
  match s.gang gid with
  | none => false
  | some g => match g.bundles[b]? with | some y => !y.killed && y.subs.any (fun q => q.isLive && q.pass.isSome) | none => false

/-- Whether a crew's engines may step: not held by a dump (R362), its partition not being reset (R114). -/
def State.crewRuns (s : State) (g : Gang) : Bool :=
  (match s.crew g.crew with | some c => c.dumpSlot.isNone | none => false) &&
    (match s.part g.part with | some p => p.resetting.isNone | none => false)

/-- The gang of an operation, when the operation may take a step now (R21, R362, R384). -/
def State.stepper (s : State) (o : EngOp) : Option Gang :=
  match s.gang o.gid with
  | none => none
  | some g =>
    if o.state == 4 || o.state == 3 || o.held || o.eng == 3 && !g.scanHeld.isEmpty || (s.die g.die).shutdown || s.failed || !s.crewRuns g || s.midPass o.gid o.bundle
    then none else some g

/-- W2 of a matrix operation. -/
def EngOp.w2 (o : EngOp) : Nat := (o.words.getD 2 0).toNat

/-- The gangs whose array an operation uses: its own, and the named ranks of mma.crew (R283). -/
def State.mxGangs (s : State) (o : EngOp) : List Nat :=
  if o.fn == 1 then
    match s.gang o.gid with
    | none => []
    | some g => (maskList 64 (o.par 5)).filterMap (fun r => (s.gangOfRank g.crew r).map (·.gid))
  else [o.gid]

/-- Whether an operation has still to use the array (R282). -/
def EngOp.arrayUse (o : EngOp) : Bool := o.eng == 2 && o.fn != 3 && o.state != 4

/-- The B slots that an operation reads, or, of a bload, those it has not yet switched (R285). -/
def EngOp.slotsLeft (o : EngOp) : List Nat :=
  (List.range (mxSlots o.fn o.w2 - o.pos2)).map (fun i => mxSlot o.w2 + o.pos2 + i)

/-- Whether two lists share a member. -/
def meets (a b : List Nat) : Bool := a.any b.contains

/-- Whether a matrix operation may run its next K-step: it is the first on every array it uses, no earlier bload has still to
switch a slot it reads, and earlier accesses are performed (R282, R285). -/
def State.mayMultiply (s : State) (o : EngOp) : Bool :=
  let gs := s.mxGangs o
  s.priorDone o && s.ops.all (fun p => p.id ≥ o.id || p.eng != 2 || p.state == 4 || !meets gs (s.mxGangs p) ||
    (p.fn == 3 && !meets p.slotsLeft o.slotsLeft))

/-- Whether a K-step of a matrix operation stands at its core's A port (R244). -/
def State.kStepDue (s : State) (o : EngOp) : Bool := o.arrayUse && o.pos ≤ bits o.w2 26 6 && (s.stepper o).isSome && s.mayMultiply o

/-- Whether the gang of an operation is on a core. -/
def State.onCoreOf (s : State) (g : Gang) (o : EngOp) : Bool :=
  match s.gang o.gid with | some h => h.die == g.die && h.core == g.core | none => false

/-- Whether a K-step that came to the A port before a texp has still to be taken (R244); time is when the K-step came, as an
identifier (model). -/
def State.portBusy (s : State) (g : Gang) (o : EngOp) : Bool :=
  o.eng == 5 && s.ops.any (fun p => p.time < o.id && s.onCoreOf g p && s.kStepDue p)

/-- Whether a texp that came to the A port before a K-step has still to be taken whole (R244). -/
def State.texpFirst (s : State) (g : Gang) (o : EngOp) : Bool :=
  s.ops.any (fun p => p.eng == 5 && p.id < o.time && s.onCoreOf g p)

/-- A decoder operation of a sub-bundle ends, with its effect or its fault. -/
def State.endDec (s : State) (x : Ctx) (o : EngOp) (e : Eff) : State :=
  let drop (s : State) : State := s.dropOp o.id
  match e with
  | .fault f s =>
    ((drop s).modBundle x.c.gid x.c.bundle (fun b => b.modSub x.c.sub (fun q => { q with wait := .none, charged := false }))).takeFault
      x.faultAt f
  | .done s => (drop s).finishUniform x false 12 (.done (drop s))
  | _ => s

/-! ## texp (R252–R255) -/

/-- Elements per destination word (R253). -/
def texpPer (fn : Nat) : Nat := if fn % 4 == 0 then 2 else 1

/-- The checks of texp before its stream is read, and its start. -/
def texpIssue (w : XWord) (x : Ctx) (s : State) : Eff :=
  let n := w.a9.toNat
  let fn := w.fn.toNat
  let spm := bit fn 2
  let r := x.sn w.b9.toNat
  let c := x.sn w.c9.toNat
  let row0 := bits w.imm.toNat 0 6
  let rows := bits w.imm.toNat 6 7
  let tile (f : FaultInfo) : FaultInfo := if spm then { f with trow := 0xFFFF, tcol := 0xFFFF } else f
  match x.g.handle n with
  | none => .fault (tile ((indexFault 8 r c).ofHandle n none)) s
  | some h =>
    let d := descOf h.desc
    let nreg := (rows * 64 / texpPer fn + x.g.kernel.width - 1) / x.g.kernel.width
    match firstFault [x.g.damaged 4 n, failIf (row0 + rows > d.rows) (illegal 21),
        failIf (w.d9.toNat + nreg > x.g.kernel.v) (illegal 7),
        if spm then firstFault [failIf (r % 4 != 0 || c % 4 != 0 || c < 4) (alignFault r), failIf (!x.g.inOneRegion r c) (protFault r)]
        else failIf (!(r < d.trows && c < d.tcols)) ((indexFault 1 r c).ofHandle n (some h)),
        x.g.damagedSlots d] with
    | some f => .fault f (if f.cls == 5 then s.logView x.g r 0 else s)
    | none =>
      if d.slots.any (s.slotFilling x.c.gid) then .hold 11
      else match (if spm then tablesFor d (fun i => x.g.atlas[i]?) else .ok ⟨none, none, []⟩) with
      | .error f => .fault ((streamFault f 0xFFFF 0xFFFF).ofHandle n (some h)) s
      | .ok _ =>
      if s.accessesPending x.c.gid x.c.bundle then .hold 10
      else if x.fenceWaits then .hold 31
      else s.startDec x 5 n h.desc
        ([h.va, w.d9.setWidth 64, w.fn.setWidth 64, w.imm.setWidth 64, x.s w.b9.toNat, x.s w.c9.toNat]) []

/-- TEXP (R252–R255). -/
def execTexp (w : XWord) (s : State) : Host.Outcome State Fault Refusal :=
  runUniform false 12
    (fun _ => { opForm .dst .handle .scalar .scalar
        (w.fn.toNat < 8 && w.fn.toNat % 4 != 3 && 1 ≤ bits w.imm.toNat 6 7 && bits w.imm.toNat 6 7 ≤ 64)
        (w.m6 = 0 && w.nwb = 0 && bits w.imm.toNat 13 19 == 0) with operandOk := w.d9.toNat < 256 }) w noExtra (texpIssue w) s

/-- conv of R254: the word of one or two elements. -/
def texpConv (fn : Nat) (xs : List Elem) (j : Nat) : W32 :=
  let el (i : Nat) : Elem := xs.getD i (.pat 0 0)
  BitVec.ofNat 32
    (if fn % 4 == 0 then (el (2 * j)).bf16 + (el (2 * j + 1)).bf16 <<< 16
     else if fn % 4 == 1 then (el j).toFmt fp32 else (el j).raw)

/-- The registers that texp writes in the lanes of the issuing sub-bundle's slices (R253). -/
def State.texpWrite (s : State) (x : Ctx) (d fn rows : Nat) (xs : List Elem) : State :=
  let width := x.g.kernel.width
  let nw := rows * 64 / texpPer fn
  let nreg := (nw + width - 1) / width
  let ls := (x.b.slicesOf x.q).flatMap (fun sl => sl.lanesOf sl.own)
  s.modBundle x.c.gid x.c.bundle (fun b => ls.foldl (fun b l => b.modLane l (fun y =>
    (List.range nreg).foldl (fun y i =>
      y.write (d + i) (if i * width + l < nw then texpConv fn xs (i * width + l) else 0)) y)) b)

/-- The elements that a texp delivers, or its fault. -/
def State.texpElems (s : State) (x : Ctx) (o : EngOp) : Except FaultInfo (List Elem) :=
  let d := descOf o.desc
  let slot (i : Nat) : Option AtlasSlot := x.g.atlas[i]?
  if bit (o.par 2) 2 then
    match tablesFor d slot with
    | .error f => .error (streamFault f 0xFFFF 0xFFFF)
    | .ok tb =>
      if s.poisonedRuns (x.g.viewRuns (o.par 4) (o.par 5)) then .error (poisonFault 1 (o.par 4))
      else
        match decodeTile d tb false (bytesOfWords o.words) with
        | .error f => .error (streamFault f 0xFFFF 0xFFFF)
        | .ok xs => .ok xs
  else (tileElems (s.readGang x.g 1) slot d (o.par 4) (o.par 5)).map (fun r => r.2)

/-- The stream that a texp reads: whether of the view, its address and its length. -/
def State.texpStream (s : State) (x : Ctx) (o : EngOp) : Bool × Nat × Nat :=
  if bit (o.par 2) 2 then (true, o.par 4, o.par 5)
  else
    match resolveTile (s.readGang x.g 1) (descOf o.desc) (o.par 4) (o.par 5) with
    | .ok e => (false, e.sva, e.len)
    | .error _ => (false, 0, 0)

/-- What a completed texp's reads leave: the acquire of its entry and its stream (R76, R255), watch events and counts (R382, R403). -/
def State.texpSeen (s : State) (x : Ctx) (o : EngOp) : State :=
  let t := s.texpStream x o
  let s := if t.1 then s
    else (s.tookRange x.g ((descOf o.desc).entryVa (o.par 4) (o.par 5)) 16).tookRange x.g t.2.1 t.2.2
  let bs := if t.1 then s.readView x.g t.2.1 t.2.2 else (s.readGang x.g 1 t.2.1 t.2.2).toOption.getD []
  (s.seeRead x t.1 t.2.1 bs).perf x.g 6 ((t.2.2 + 7) / 8)

/-- TEXP_DECODE_DONE (R253): the whole tile is decoded and checked, and the destinations are written. -/
def execTexpDecodeDone (gid b sub : Nat) (s : State) : Host.Outcome State Fault Refusal :=
  match s.decOf gid b sub [5] with
  | none => .fault .notEnabled
  | some (o, x) =>
    if o.state != 1 || s.unitBusy x.g o || s.portBusy x.g o || !s.settled x.g.die then .fault .notEnabled
    else
      .next (s.endDec x o (match s.texpElems x o with
        | .error f =>
          let f := f.ofHandle o.number (some ⟨o.params.getD 0 0, o.desc⟩)
          .fault f (if bit (o.par 2) 2 then s else s.logFault x.g 0 f)
        | .ok xs => .done ((s.texpSeen x o).texpWrite x (o.par 1) (o.par 2) (bits (o.par 3) 6 7) (xs.drop (64 * bits (o.par 3) 0 6)))))

/-! ## tenc (R256–R258) -/

/-- The 64 row elements of tenc as patterns of the tile's format (R257). -/
def Ctx.tencRow (x : Ctx) (w : XWord) (d : Desc) : List W32 :=
  let width := x.g.kernel.width
  let t := (plainFmt d.wcode).getD bf16
  (List.range 64).map (fun c =>
    let v : Nat := match x.b.lanes[c % width]? with
      | some y => (y.read (c % width) (bits w.imm.toNat 0 8 + c / width)).toNat
      | none => 0
    BitVec.ofNat 32
      (if w.fn = 0 then (roundTo t (rmode (bits w.m6.toNat 0 3)) (bit w.m6.toNat 3) (bit w.m6.toNat 4)
        (readFloat fp32 (bit w.m6.toNat 4) v)).1
      else bits v 0 (plainBits d.wcode)))

/-- The checks of tenc before its tile is resolved, and its start: it takes its place among the core's appends at its issue (R245). -/
def tencIssue (w : XWord) (x : Ctx) (s : State) : Eff :=
  let n := w.a9.toNat
  let r := x.sn w.b9.toNat
  let c := x.sn w.c9.toNat
  match x.g.handle n with
  | none => .fault ((indexFault 8 r c).ofHandle n none) s
  | some h =>
    let d := descOf h.desc
    match x.g.damaged 4 n with
    | some f => .fault f s
    | none =>
      s.startDec x 6 n h.desc [h.va, w.d9.setWidth 64, x.s w.b9.toNat, x.s w.c9.toNat] (x.tencRow w d)

/-- TENC (R256–R258). -/
def execTenc (w : XWord) (s : State) : Host.Outcome State Fault Refusal :=
  runUniform false 12
    (fun _ => opForm .scalar .handle .scalar .scalar
      (w.fn.toNat < 2 && (w.fn = 1 || bits w.m6.toNat 0 3 ≤ 3)) ((w.fn != 1 || w.m6 = 0) && !bit w.m6.toNat 5 && w.nwb = 0 && bits w.imm.toNat 8 24 == 0)) w
    (fun x => failIf (bits w.imm.toNat 0 8 + 64 / x.g.kernel.width > x.g.kernel.v) (illegal 7)) (tencIssue w) s

/-- The new capacity of R90: the smallest CAP × 2^j with j ≥ 1 that holds n bytes; fuel bounds j. -/
def newCap : Nat → Nat → Nat → Nat
  | 0, c, _ => c
  | fuel + 1, c, n => if 32 * (2 * c) ≥ n then 2 * c else newCap fuel (2 * c) n

/-- What an atomic of a gang reads (R89, R139): it needs AT alone. -/
def State.readAtomic (s : State) (g : Gang) (va n : Nat) : Except FaultInfo (List Byte) :=
  match s.checkAccess g 2 va n with
  | some f => .error f
  | none =>
    match s.runs g.part 2 va n with
    | none => .error (protFault va)
    | some rs => if s.poisonedRuns rs then .error (poisonFault 1 va) else .ok (s.readRuns rs)

/-- A step of tenc that failed: its fault, the kind of the access that was refused (R19), and the state that R251 leaves. -/
structure TencStop where
  fault : FaultInfo
  kind : Nat
  state : State

/-- A step of tenc that needs no access, or whose access of a kind may be refused. -/
def tencTry {α : Type} (s : State) (kind : Nat) (r : Except FaultInfo α) : Except TencStop α :=
  match r with
  | .ok a => .ok a
  | .error f => .error ⟨f, kind, s⟩

/-- The reallocation of R90, steps 1 to 3, for a stream of n bytes: the new slot, its capacity, and the state with the old bytes and
the row written there. -/
def State.tencMove (s : State) (g : Gang) (d : Desc) (e : IdxEntry) (row : List Byte) (r c : Nat) :
    Except TencStop (IdxEntry × State) := do
  let n := e.len + row.length
  let cap := newCap 64 (if e.cap == 0 then 1 else e.cap) n
  if cap > 0xFFFF || d.pool == 0 then .error ⟨indexFault 6 r c, 0, s⟩
  else
    let p ← tencTry s 2 (s.readAtomic g d.pool 16)
    let cur := leNat (p.take 8)
    if cur + 32 * cap > leNat (p.drop 8) then .error ⟨indexFault 6 r c, 0, s⟩
    else
      let s ← tencTry s 2 (s.writeGang g 2 d.pool (leBytes 8 (cur + 32 * cap)))
      let old ← tencTry s 0 (s.readGang g 1 e.sva e.len)
      let s ← tencTry s 1 ((s.tookRange g e.sva e.len).writeGang g 1 cur (old ++ row))
      .ok ({ e with sva := cur, len := n, cap := cap }, s)

/-- The row written and the entry that names it (R257, R90), from the state after any allocation. -/
def State.tencPlace (s : State) (g : Gang) (d : Desc) (e : IdxEntry) (row : List Byte) (r c : Nat) :
    Except TencStop (IdxEntry × State) :=
  let n := e.len + row.length
  if n ≤ 32 * e.cap then (tencTry s 1 (s.writeGang g 1 (e.sva + e.len) row)).map (fun s => ({ e with len := n }, s))
  else s.tencMove g d e row r c

/-- The header check of tenc (R257): DECODE 5 or 6 at offset 0. -/
def tencHeader (rd : Reader) (d : Desc) (e : IdxEntry) (r c : Nat) : Except FaultInfo Unit :=
  match rd e.sva 4 with
  | .error f => .error f
  | .ok h =>
    match headerCheck d (leNat h) with
    | .error f => .error (streamFault f r c)
    | .ok _ => .ok ()

/-- The compare and store of R257 at the entry's home: the new LEN. -/
def State.tencStore (s : State) (g : Gang) (va : Nat) (was : List Byte) (e : IdxEntry) (r c : Nat) : Except TencStop (Nat × State) := do
  let now ← tencTry s 2 (s.readAtomic g va 16)
  if now != was then .error ⟨indexFault 9 r c, 0, s⟩
  else
    let s ← tencTry s 2 (s.writeGang g 2 va e.bytes)
    .ok (e.len, s)

/-- The append of R257 after the resolving read that found e: the new LEN and the state. -/
def State.tencAppend (s : State) (x : Ctx) (o : EngOp) (e : IdxEntry) : Except TencStop (Nat × State) := do
  let d := descOf o.desc
  let r := o.par 2
  let c := o.par 3
  let slot (i : Nat) : Option AtlasSlot := x.g.atlas[i]?
  match x.g.damagedSlots d, tablesFor { d with cm := 15, cb := 15 } slot with
  | some f, _ => .error ⟨f, 0, s⟩
  | none, .error f => .error ⟨streamFault f r c, 0, s⟩
  | none, .ok tb =>
    if !e.append then .error ⟨indexFault 5 r c, 0, s⟩
    else
      let _ ← tencTry s 0 (tencHeader (s.readGang x.g 1) d e r c)
      match encodeRow d.wcode tb.ce (o.words.map BitVec.toNat) with
      | none => .error ⟨{ cls := 9, sub := 2, detail := d.ce, trow := r % 65536, tcol := c % 65536 }, 0, s⟩
      | some row =>
        let q ← (s.tookRange x.g e.sva 4).tencPlace x.g d e row r c
        q.2.tencStore x.g (d.entryVa r c) (o.desc.drop 64) q.1 r c

/-- The watch events of a tenc's stream reads: its header, and the old stream when it was moved (R382). -/
def State.tencSeen (s before : State) (x : Ctx) (e : IdxEntry) (n : Nat) : State :=
  if !s.watching then s
  else
    let k := if n ≤ 32 * e.cap then 4 else e.len
    s.seeRead x false e.sva ((before.readGang x.g 1 e.sva k).toOption.getD [])

/-- TENC_PUBLISH (R257, R258): the row is written and the entry stored at its home; the pool's atomic is an acquire, so the batches that it
names have been applied (R89, R339). -/
def execTencPublish (gid b sub : Nat) (s : State) : Host.Outcome State Fault Refusal :=
  match s.decOf gid b sub [6] with
  | none => .fault .notEnabled
  | some (o, x) =>
    if o.state != 1 || !s.settled x.g.die then .fault .notEnabled
    else
      .next (s.endDec x o (match s.tencAppend x o (entryOf (o.desc.drop 64)) with
        | .error q => .fault (q.fault.ofHandle o.number (some ⟨o.params.getD 0 0, o.desc.take 64⟩)) (q.state.logFault x.g q.kind q.fault)
        | .ok (n, s') => .done (((s'.tencSeen s x (entryOf (o.desc.drop 64)) n)).setS x (o.par 1) (BitVec.ofNat 64 n))))

/-- The location of the index entry that a tenc names. -/
def State.tencEntry (s : State) (o : EngOp) : Option (List (Nat × Nat)) :=
  (s.gang o.gid).bind (fun g => s.runs g.part 0 ((descOf o.desc).entryVa (o.par 2) (o.par 3)) 16)

/-- Whether another tenc of the module holds the entry (R258). -/
def State.entryHeld (s : State) (o : EngOp) : Bool :=
  let e := s.tencEntry o
  e.isSome && s.ops.any (fun p => p.eng == 6 && p.state == 1 && p.id != o.id && s.tencEntry p == e)

/-! ## ctld and ctst (R259–R261) -/

/-- The address of a ctld. -/
def Ctx.ctldVa (x : Ctx) (w : XWord) : Nat := (x.b.readS w.a9.toNat + w.imm.signExtend 64).toNat

/-- The form of ctld and ctld.spm (R259). -/
def ctldForm (w : XWord) : Form := opForm .slot .scalar .unused .unused true (w.m6 = 0 && w.nwb = 0)

/-- CTLD (R259): the header's access is checked, and the load begins. -/
def execCtld (w : XWord) (s : State) : Host.Outcome State Fault Refusal :=
  runUniform false 12 (fun _ => ctldForm w) w noExtra (fun x s =>
    let a := x.ctldVa w
    if a % 2 != 0 then .fault (alignFault a) s
    else
      match s.readGang x.g 1 a 2 with
      | .error f => .fault f (s.logFault x.g 0 f)
      | .ok _ =>
        if s.slotFilling x.c.gid w.d9.toNat || s.accessesPending x.c.gid x.c.bundle then .hold 11
        else if x.fenceWaits then .hold 31
        else s.startDec x 7 w.d9.toNat [] [BitVec.ofNat 64 a, 0] []) s

/-- CTLD_SPM (R259): from the gang's view. -/
def execCtldSpm (w : XWord) (s : State) : Host.Outcome State Fault Refusal :=
  runUniform false 12 (fun _ => ctldForm w) w noExtra (fun x s =>
    let a := x.ctldVa w
    if a % 2 != 0 then .fault (alignFault a) s
    else if !x.g.inView a 2 then .fault (protFault a) (s.logView x.g a 0)
    else match leastReason ((if s.slotFilling x.c.gid w.d9.toNat then [11] else []) ++ s.barWaits x) with
    | some r => .hold r
    | none => s.startDec x 7 w.d9.toNat [] [BitVec.ofNat 64 a, 1] []) s

/-- The object that a ctld reads, or its fault (R259). -/
def State.ctldObject (s : State) (x : Ctx) (o : EngOp) : Except (FaultInfo × State) (List Byte) :=
  let a := o.par 0
  if o.par 1 == 0 then
    match s.readGang x.g 1 a 2 with
    | .error f => .error (f, s.logFault x.g 0 f)
    | .ok h =>
      match s.readGang x.g 1 a (objectLen (leNat h)) with
      | .error f => .error (f, s.logFault x.g 0 f)
      | .ok b => .ok b
  else
    let n := objectLen (leNat (s.readView x.g a 2))
    if !x.g.inView a n then .error (protFault a, s.logView x.g a 0)
    else if s.poisonedRuns (x.g.viewRuns a n) then .error (poisonFault 1 a, s)
    else .ok (s.readView x.g a n)

/-- A texp.spm after it has consumed, in stream order, every line that is present (R295); fuel bounds the lines. -/
def State.texpLines (s : State) (g : Gang) : Nat → EngOp → EngOp
  | 0, o => o
  | fuel + 1, o =>
    if o.pos ≥ o.par 5 then { o with state := 1 }
    else
      let a := o.par 4 + o.pos
      let k := min (o.par 5 - o.pos) (128 - a % 128)
      if s.viewPresent g a k then
        s.texpLines g fuel { o with pos := o.pos + k, words := o.words ++ wordsOfBytes (s.readView g a k) }
      else o

/-- Whether an append of the encoder may make its resolving read (R245, R247, R258): it is the core's first, fills of its slots that
began before it have ended, its bundle's earlier accesses are performed, and no other append holds the entry. -/
def State.tencReady (s : State) (x : Ctx) (o : EngOp) : Bool :=
  !s.unitBusy x.g o && !((descOf o.desc).slots.any (s.slotFillingBefore x.c.gid o.id)) && s.priorDone o && !s.entryHeld o

/-- Whether the view lines that a ctld.spm reads, or the next line of a texp.spm, are present (R221, R255). -/
def State.decReady (s : State) (g : Gang) (o : EngOp) : Bool :=
  if o.eng == 5 then !bit (o.par 2) 2 || s.viewPresent g (o.par 4 + o.pos) (min (o.par 5 - o.pos) (128 - (o.par 4 + o.pos) % 128))
  else if o.eng == 7 then
    o.par 1 == 0 || s.viewPresent g (o.par 0) 2 &&
      (let n := objectLen (leNat (s.readView g (o.par 0) 2))
       !g.inView (o.par 0) n || s.viewPresent g (o.par 0) n)
  else true

/-- DECODER_RESUME (R243, R257, R259): the bytes that a decoder, the encoder or a fill waits for arrive; tenc makes its
resolving read and holds the entry. -/
def execDecoderResume (gid b sub : Nat) (s : State) : Host.Outcome State Fault Refusal :=
  match s.decOf gid b sub [5, 6, 7] with
  | none => .fault .notEnabled
  | some (o, x) =>
    if o.state != 0 || !s.settled x.g.die || !s.decReady x.g o then .fault .notEnabled
    else if o.eng == 5 then
      if s.unitBusy x.g o || s.portBusy x.g o then .fault .notEnabled
      else if !bit (o.par 2) 2 then .next (s.modOp o.id (fun o => { o with state := 1 }))
      else .next (s.modOp o.id (s.texpLines x.g (o.par 5 / 128 + 2)))
    else if o.eng == 7 then
      match s.ctldObject x o with
      | .error (f, s) => .next (s.endDec x o (.fault f s))
      | .ok b =>
        let s := if o.par 1 == 0 then s.tookRange x.g (o.par 0) b.length else s
        .next (s.modOp o.id (fun o => { o with state := 1, desc := b }))
    else if !s.tencReady x o then .fault .notEnabled
    else
      let d := descOf o.desc
      match resolveTile (s.readGang x.g 1) d (o.par 2) (o.par 3), s.readGang x.g 1 (d.entryVa (o.par 2) (o.par 3)) 16 with
      | .ok _, .ok e =>
        .next ((s.tookRange x.g (d.entryVa (o.par 2) (o.par 3)) 16).modOp o.id (fun o => { o with state := 1, desc := o.desc ++ e }))
      | .error f, _ =>
        .next (s.endDec x o (.fault (f.ofHandle o.number (some ⟨o.params.getD 0 0, o.desc⟩)) (s.logFault x.g 0 f)))
      | _, .error f => .next (s.endDec x o (.fault f s))

/-- CTLD_FILL (R247, R259, R260): once every earlier operation has finished reading the slot, it takes its new contents. -/
def execCtldFill (gid b sub : Nat) (s : State) : Host.Outcome State Fault Refusal :=
  match s.decOf gid b sub [7] with
  | none => .fault .notEnabled
  | some (o, x) =>
    if o.state != 1 || s.slotRead gid o.id o.number then .fault .notEnabled
    else
      let s := s.seeRead x (o.par 1 == 1) (o.par 0) o.desc
      .next (s.endDec x o (.done (s.modGang gid (fun g =>
        { g with atlas := setNth g.atlas o.number (slotOf o.desc) }.repair 1 o.number))))

/-- CTST (R261). -/
def execCtst (w : XWord) (s : State) : Host.Outcome State Fault Refusal :=
  runUniform false 12 (fun _ => opForm .scalar .slot .unused .unused true (w.m6 = 0 && w.nwb = 0 && noImm w)) w noExtra
    (fun x s =>
      let n := w.a9.toNat
      match x.g.damaged 1 n with
      | some f => .fault f s
      | none =>
        if s.slotFilling x.c.gid n then .hold 11
        else .done (s.setS x w.d9.toNat (BitVec.ofNat 64 (((x.g.atlas[n]?).getD AtlasSlot.empty).word)))) s

/-! ## vlut (R262) -/

/-- The slot check of a vlut (R249, R262): TABLE 1 for INVALID, TABLE 3 for EMPTY or a code table; not made while the slot is
being filled, since the instruction then waits. -/
def State.slotCheck (s : State) (x : Ctx) (i : Instr) : Option FaultInfo :=
  match vlutSlot i with
  | none => none
  | some n =>
    if s.slotFilling x.c.gid n then none
    else
      let a := (x.g.atlas[n]?).getD AtlasSlot.empty
      firstFault [x.g.damaged 1 n, failIf (a.state == 3) { cls := 9, sub := 1, detail := n + a.reason <<< 8 },
        failIf (a.state != 2) { cls := 9, sub := 3, detail := n }]

/-- A look-up (R262): entry y and element v of a slot's codebook. -/
def AtlasSlot.look (a : AtlasSlot) (y v : Nat) : Nat :=
  if v < vecLen a.vec then bookElem a.bytes a.vec (bits y 0 a.alpha) v else 0

/-- A vlut pass: its first waits for what the instruction's passes must await, a fill of a slot that one looks up among it (R262). -/
def runVlut (i : Instr) (w : XWord) (f : AtlasSlot → Nat → Nat) (s : State) : Host.Outcome State Fault Refusal :=
  match s.ctx with
  | none => .fault .noIssuer
  | some x =>
    let n := w.b9.toNat
    match laneFieldCheck x.g.kernel i with
    | some e => .next (s.takeFault x.faultAt e)
    | none =>
      match if x.c.first then s.passGate x false x.c.words else none with
      | some r => .next (s.hold x r)
      | none =>
        runLane i 12 (fun x => if x.c.first then s.slotCheck x i else none) (fun x ls s =>
          let a := (x.g.atlas[n]?).getD AtlasSlot.empty
          s.deliverPass x w ls (fun l y => (BitVec.ofNat 32 (f a (argA w l y).toNat), 0))) s

/-- VLUT (R262). -/
def execVlut (w : XWord) (s : State) : Host.Outcome State Fault Refusal :=
  runVlut (.vlut w) w (fun a y => a.look y 0 + a.look y 1 <<< 16) s

/-- VLUT_HI (R262). -/
def execVlutHi (w : XWord) (s : State) : Host.Outcome State Fault Refusal :=
  runVlut (.vlutHi w) w (fun a y => a.look y 2 + a.look y 3 <<< 16) s

/-- VLUT_P2 (R262). -/
def execVlutP2 (w : XWord) (s : State) : Host.Outcome State Fault Refusal :=
  runVlut (.vlutP2 w) w (fun a y => a.look y 0 + a.look (y >>> 8) 0 <<< 16) s

end Sys2Proof.Machine
end

