-- ==== Sys2Proof/Machine/Flow.lean ====
section
/-!
DEFINITION. Control flow (chapter 07): branches and the join stack, calls, regang, planes, yield, exit, nop, and trap (R371).
-/

namespace Sys2Proof.Machine

/-- The X word that a control word stands for whose operand fields are all unused (R33). -/
def plainWord (pred : BitVec 3) (pn nwb : BitVec 1) (d9 a9 : BitVec 9) : XWord :=
  { pred := pred, pn := pn, nwb := nwb, d9 := d9, a9 := a9, b9 := 268, c9 := 268, fn := 0, m6 := 0, imm := 0 }

/-- The form of an instruction that uses no operand. -/
def bareForm (fnOk resOk : Bool) : Form :=
  { d := .unused, a := .unused, b := .unused, c := .unused, fnOk := fnOk, resOk := resOk }

/-- The checks of a branch target (R150). -/
def targetFault (codeLen : Nat) (t : Int) : Option FaultInfo :=
  firstFault [failIf (t % 4 != 0) (illegal 18), failIf (t < 0 || t ≥ codeLen) (illegal 10)]

/-- A target by displacement from an offset (R150). -/
def dispTarget (off : Nat) (w : W32) : Int := (off : Int) + toSigned 32 w.toNat

/-- Slices of a sub-bundle changed, each by its index. -/
def Bundle.modSlices (b : Bundle) (is : List Nat) (f : Slice → Slice) : Bundle :=
  { b with slices := ((List.range b.slices.length).zip b.slices).map (fun p => if is.contains p.1 then f p.2 else p.2) }

/-- The issuing sub-bundle's slices changed. -/
def State.modIssuing (s : State) (x : Ctx) (f : Slice → Slice) : State :=
  s.modBundle x.c.gid x.c.bundle (fun b => b.modSlices x.q.slices f)

/-! ## nop -/

/-- NOP (R147): a pass with no effect. -/
def execNop (s : State) : Host.Outcome State Fault Refusal := runLane .nop 4 noExtra (fun _ _ s => s) s

/-! ## bra and join (R151, R152) -/

/-- The active lanes of a slice as a mask (R145). -/
def Bundle.activeMask (b : Bundle) (stepping : Bool) (sl : Slice) : BitVec 4 :=
  BitVec.ofNat 4 (listMask ((List.range 4).filter (fun i =>
    (sl.active &&& sl.own).getLsbD i && laneAwake b stepping (4 * sl.home + i))))

/-- The lanes of a mask whose guard holds (R38). -/
def Bundle.guardMask (b : Bundle) (sl : Slice) (m : BitVec 4) (pred : Nat) (pn : Bool) : BitVec 4 :=
  BitVec.ofNat 4 (listMask ((List.range 4).filter (fun i =>
    m.getLsbD i && (match b.lanes[4 * sl.home + i]? with | some y => y.readP pred != pn | none => false))))

/-- The taken and not-taken lanes of a slice at a bra (R151). -/
def Ctx.braSplit (x : Ctx) (w : BraWord) (sl : Slice) : BitVec 4 × BitVec 4 :=
  let act := x.b.activeMask x.q.stepping sl
  let t := x.b.guardMask sl act w.pred.toNat (w.pn == 1)
  (t, act &&& ~~~t)

/-- The target and join checks of bra, then STACK 4 and STACK 3 slice by slice (R150, R151). -/
def braFault (x : Ctx) (w : BraWord) : Option FaultInfo :=
  let off := x.offset
  let k := x.g.kernel.codeLen
  firstFault
    ([targetFault k (dispTarget off w.w2), if w.w1 = 0 then none else targetFault k (dispTarget off w.w1)] ++
      (x.b.slicesOf x.q).map (fun sl =>
        let tn := x.braSplit w sl
        if tn.1 = 0 ∨ tn.2 = 0 then none
        else firstFault [failIf (w.w1 = 0) { cls := 0x0C, sub := 4 }, failIf (sl.join.length ≥ 8) { cls := 0x0C, sub := 3 }]))

/-- A slice after a bra (R151). -/
def Ctx.braSlice (x : Ctx) (w : BraWord) (sl : Slice) : Slice :=
  let off := x.offset
  let tgt := (dispTarget off w.w2).toNat
  let tn := x.braSplit w sl
  if tn.2 = 0 then { sl with offset := tgt }
  else if tn.1 = 0 then { sl with offset := off + 12 }
  else
    { sl with offset := tgt, active := tn.1,
              join := { j := (dispTarget off w.w1).toNat, poff := off + 12, pend := tn.2, full := tn.1 ||| tn.2 } :: sl.join }

/-- BRA (R151). -/
def execBra (w : BraWord) (s : State) : Host.Outcome State Fault Refusal :=
  runUniform true 12 (fun _ => bareForm true (w.nwb = 0)) (plainWord 0 0 0 w.d9 w.a9) (fun x => braFault x w)
    (fun x s => .moved (s.modIssuing x (x.braSlice w))) s

/-- The join depth at which slice i would pop now, when a detached lane of its own holds that depth or more (R388). -/
def Bundle.joinBlocked (b : Bundle) (i : Nat) (off : Nat) : Bool :=
  match b.slices[i]? with
  | none => false
  | some sl =>
    match sl.join with
    | [] => false
    | e :: _ =>
      !b.isDetached i && e.j == off && e.pend == 0 &&
        (List.range b.slices.length).any (fun k => b.isDetached k &&
          (match b.slices[k]? with | some d => d.own != 0 && d.home == sl.home && d.join.length ≥ sl.join.length | none => false))

/-- A slice after a join (R152). -/
def joinSlice (off : Nat) (sl : Slice) : Slice :=
  match sl.join with
  | [] => { sl with offset := off + 4 }
  | e :: rest =>
    if e.j = off then
      if e.pend ≠ 0 then { sl with active := e.pend, offset := e.poff, join := { e with pend := 0 } :: rest }
      else { sl with active := e.full, join := rest, offset := off + 4 }
    else { sl with offset := off + 4 }

/-- Whether detached record k merges at a join at off (R388): its top entry has that J, nothing is pending, and the origin
slice holds the depth. -/
def Bundle.mergesAt (b : Bundle) (k off : Nat) : Bool :=
  match b.slices[k]? with
  | none => false
  | some d =>
    match d.join, b.slices[d.home]? with
    | e :: _, some sl => b.isDetached k && e.j == off && e.pend == 0 && !sl.exited && d.join.length ≤ sl.join.length
    | _, _ => false

/-- A detached lane merged into its origin slice: FULL of the entry at its depth gains the lane, its record is freed. -/
def Bundle.mergeJoin (b : Bundle) (k : Nat) : Bundle :=
  match b.slices[k]? with
  | none => b
  | some d =>
    let b := b.modSlices [d.home] (fun sl =>
      { sl with own := sl.own ||| d.own,
                join := modNth sl.join (sl.join.length - d.join.length) (fun e => { e with full := e.full ||| d.own }) })
    let b := b.modSlices [k] (fun r => { r with own := 0, active := 0, join := [], call := [], exited := true })
    (d.lanesOf d.own).foldl (fun b l => b.modLane l (fun y => { y with halted := false })) b

/-- The effect of join on a bundle. -/
def Ctx.joinBundle (x : Ctx) (b : Bundle) : Bundle :=
  let off := x.offset
  let merging := x.q.slices.filter (fun k => b.mergesAt k off)
  let going := x.q.slices.filter (fun i => !b.joinBlocked i off && !b.mergesAt i off)
  merging.foldl Bundle.mergeJoin (b.modSlices going (joinSlice off))

/-- Whether a join at off turns slice i to its pending path (R152). -/
def Bundle.turnsPending (b : Bundle) (i off : Nat) : Bool :=
  match b.slices[i]? with
  | none => false
  | some sl => !b.mergesAt i off && (match sl.join with | e :: _ => e.j == off && e.pend != 0 | [] => false)

/-- JOIN (R152, R388): a slice that must wait for its detached lanes stays at the join, counting reason 17; a slice turned to its
pending path counts the same reason until it issues again. -/
def execJoin (s : State) : Host.Outcome State Fault Refusal :=
  match s.ctx with
  | none => .fault .noIssuer
  | some x =>
    let blocked := x.q.slices.filter (fun i => x.b.joinBlocked i x.offset)
    let eff (x : Ctx) (s : State) : Eff :=
      if blocked.length == x.q.slices.length then .hold 17
      else .moved (s.modBundle x.c.gid x.c.bundle x.joinBundle)
    let turned := x.q.slices.filter (fun i => x.b.turnsPending i x.offset)
    match runUniform true 4 (fun _ => bareForm true true) (plainWord 0 0 0 268 268) noExtra eff s with
    | .next t =>
      if (watchdogIssue x).isSome || blocked.length == x.q.slices.length then .next t
      else
        .next (t.modBundle x.c.gid x.c.bundle (fun b => { b with subs := b.subs.map (fun q =>
          if q.isLive && q.slices.all blocked.contains then { q with wait := .retry 17, charged := true }
          else if q.slices.any turned.contains then { q with rejoined := true } else q) }))
    | o => o

/-! ## brx, bru, call, ret (R154, R155) -/

/-- A taken branch of the whole sub-bundle. -/
def State.goto (s : State) (x : Ctx) (t : Nat) : State := s.modIssuing x (fun sl => { sl with offset := t })

/-- BRX (R154). -/
def execBrx (w : XWord) (s : State) : Host.Outcome State Fault Refusal :=
  runUniform true 12 (fun _ => { bareForm (w.fn = 0) (w.m6 = 0 && noImm w && w.nwb = 0) with a := .named }) w
    (fun x => targetFault x.g.kernel.codeLen (x.sn w.a9.toNat))
    (fun x s => .moved (s.goto x (x.sn w.a9.toNat))) s

/-- BRU (R154). -/
def execBru (w : XWord) (s : State) : Host.Outcome State Fault Refusal :=
  runUniform true 12
    (fun _ => { bareForm (w.fn.toNat ≤ 5) (w.m6 = 0 && w.nwb = 0) with a := .scalar, b := .scalar }) w
    (fun x => targetFault x.g.kernel.codeLen (dispTarget x.offset w.imm))
    (fun x s => .moved (s.goto x (if scalarCond w.fn.toNat (x.s w.a9.toNat) (x.s w.b9.toNat) then
      (dispTarget x.offset w.imm).toNat else x.offset + 12))) s

/-- A call to a target: STACK 1 when a call stack is full, else every slice pushes the return offset (R155). -/
def callFault (x : Ctx) (t : Int) : Option FaultInfo :=
  firstFault [targetFault x.g.kernel.codeLen t,
    failIf ((x.b.slicesOf x.q).any (fun sl => sl.call.length ≥ 16)) { cls := 0x0C, sub := 1 }]

/-- The effect of a call. -/
def State.doCall (s : State) (x : Ctx) (t : Nat) : State :=
  s.modIssuing x (fun sl => { sl with call := (x.offset + 12) :: sl.call, offset := t })

/-- CALL (R155). -/
def execCall (w : XWord) (s : State) : Host.Outcome State Fault Refusal :=
  runUniform true 12 (fun _ => bareForm true (w.m6 = 0 && w.nwb = 0)) w
    (fun x => callFault x (dispTarget x.offset w.imm))
    (fun x s => .moved (s.doCall x (dispTarget x.offset w.imm).toNat)) s

/-- CALL_INDIRECT (R155). -/
def execCallIndirect (w : XWord) (s : State) : Host.Outcome State Fault Refusal :=
  runUniform true 12 (fun _ => { bareForm true (w.m6 = 0 && noImm w && w.nwb = 0) with a := .named }) w
    (fun x => callFault x (x.sn w.a9.toNat))
    (fun x s => .moved (s.doCall x (x.sn w.a9.toNat))) s

/-- RET (R155). -/
def execRet (s : State) : Host.Outcome State Fault Refusal :=
  runUniform true 4 (fun _ => bareForm true true) (plainWord 0 0 0 268 268)
    (fun x => failIf ((x.b.slicesOf x.q).any (fun sl => sl.call.isEmpty)) { cls := 0x0C, sub := 2 })
    (fun x s => .moved (s.modIssuing x (fun sl => { sl with offset := sl.call.headD 0, call := sl.call.tail }))) s

/-! ## regang (R156, R388) -/

/-- Whether a sub-bundle counts as live for regang (R156): a detached lane that stands halted does not; one that is being stepped does
(R388, R393). -/
def Bundle.countsLive (b : Bundle) (q : Sub) : Bool := q.isLive && !(q.halted && !q.stepping && q.slices.any b.isDetached)

/-- The places of the sub-bundles other than the issuing one that count as live. -/
def Ctx.otherLive (x : Ctx) : List Nat :=
  (List.range x.b.subs.length).filter (fun k => k != x.c.sub &&
    (match x.b.subs[k]? with | some q => x.b.countsLive q | none => false))

/-- The offset at which the sub-bundle at a place stands. -/
def Bundle.offsetAt (b : Bundle) (k : Nat) : Nat := match b.subs[k]? with | some q => b.offsetOf q | none => 0

/-- The lowest slice index of the sub-bundle at a place. -/
def Bundle.lowSlice (b : Bundle) (k : Nat) : Nat := match b.subs[k]? with | some q => minOr 0 q.slices | none => 0

/-- The detached records among slices whose origin slice is live, so that regang merges them (R388). -/
def Bundle.regangMerging (b : Bundle) (is : List Nat) : List Nat :=
  is.filter (fun k => b.isDetached k &&
    (match b.slices[k]? with
      | some d => (match b.slices[d.home]? with | some sl => !sl.exited | none => false)
      | none => false))

/-- Whether a merging lane's call depth differs from its slice's (R388). -/
def Bundle.stacksDiffer (b : Bundle) (k : Nat) : Bool :=
  match b.slices[k]? with
  | some d => (match b.slices[d.home]? with | some sl => d.call.length != sl.call.length | none => false)
  | none => false

/-- A detached lane merged at regang: active, and in FULL of every entry (R388). -/
def Bundle.mergeRegang (b : Bundle) (k : Nat) : Bundle :=
  match b.slices[k]? with
  | none => b
  | some d =>
    let b := b.modSlices [d.home] (fun sl =>
      { sl with own := sl.own ||| d.own, active := sl.active ||| d.own,
                join := sl.join.map (fun e => { e with full := e.full ||| d.own }) })
    let b := b.modSlices [k] (fun r => { r with own := 0, active := 0, join := [], call := [], exited := true })
    (d.lanesOf d.own).foldl (fun b l => b.modLane l (fun y => { y with halted := false })) b

/-- The live count of a merged sub-bundle: known when every part has completed a yield (DESIGN CHOICE, log 14). -/
def mergedLive : List (Option Nat) → Option Nat
  | [] => none
  | xs => if xs.all (·.isSome) then some (maxOf (xs.filterMap id)) else none

/-- The bundle after a completed regang: one sub-bundle, at the first of the set's places that holds a slice, each slice past the
regang; detached lanes whose origin slice has exited go on by themselves. -/
def Ctx.regangBundle (x : Ctx) (b : Bundle) : Bundle :=
  let off := x.offset
  let parts := (x.c.sub :: x.otherLive).filterMap (fun k => b.subs[k]?)
  let all := parts.flatMap (·.slices)
  let merging := b.regangMerging all
  let alone := all.filter (fun i => b.isDetached i && !merging.contains i)
  let main := all.filter (fun i => !b.isDetached i)
  let live := mergedLive (parts.map (·.live))
  let b := parts.foldl Bundle.invalidate b
  let b := merging.foldl Bundle.mergeRegang (b.modSlices (main ++ alone) (fun sl => { sl with offset := off + 4 }))
  let slices := (List.range b.slices.length).filter main.contains
  let holds (k : Nat) : Bool := match b.subs[k]? with | some q => q.slices.any main.contains | none => false
  let place := (x.c.sub :: x.otherLive).find? holds
  let subs := ((List.range b.subs.length).zip b.subs).map (fun p =>
    if !(x.c.sub :: x.otherLive).contains p.1 then p.2
    else if some p.1 == place then { p.2 with slices := slices, live := live, yielded := parts.all (·.yielded), wait := .none, charged := false }
    else if p.2.slices.any alone.contains then { p.2 with wait := .none, charged := false }
    else Sub.free)
  { b with subs := subs }

/-- The effect of regang: wait, merge, or REGANG. -/
def regangEff (x : Ctx) (s : State) : Eff :=
  let off := x.offset
  let others := x.otherLive
  let waiting := others.all (fun k => match x.b.subs[k]? with | some q => q.wait == .regang | none => true)
  if !waiting then .wait .regang s
  else
    let away := others.filter (fun k => x.b.offsetAt k != off)
    if away.isEmpty then
      let parts := (x.c.sub :: others).filterMap (fun k => x.b.subs[k]?)
      if (x.b.regangMerging (parts.flatMap (·.slices))).any x.b.stacksDiffer then .fault { cls := 0x13, sub := 2 } s
      else .moved (s.modBundle x.c.gid x.c.bundle x.regangBundle)
    else if x.q.charged && others.any (fun k => x.b.lowSlice k < x.b.lowSlice x.c.sub) then .wait .regang s
    else .fault { cls := 0x13, sub := 1, detail := minOr 0 (others.map x.b.offsetAt) } s

/-- REGANG (R156). -/
def execRegang (s : State) : Host.Outcome State Fault Refusal :=
  runUniform true 4 (fun _ => bareForm true true) (plainWord 0 0 0 268 268) noExtra regangEff s

/-! ## Planes (R157) -/

/-- A lane's plane changed for the active lanes of the issuing sub-bundle. -/
def State.setPlanes (s : State) (x : Ctx) (f : Nat → Lane → Nat) : State :=
  let act := x.b.activeLanes x.q
  s.modBundle x.c.gid x.c.bundle (fun b => act.foldl (fun b l => b.modLane l (fun y => { y with plane := f l y })) b)

/-- PLANE_SET (R157). -/
def execPlaneSet (w : XWord) (s : State) : Host.Outcome State Fault Refusal :=
  let j := bits w.imm.toNat 0 2
  runUniform true 12 (fun _ => bareForm true (w.m6 = 0 && bits w.imm.toNat 6 26 == 0 && w.nwb = 0)) w
    (fun x => failIf (j ≥ x.g.kernel.planes) (illegal 19))
    (fun x s => .done (s.setPlanes x (fun _ y =>
      if y.readP (bits w.imm.toNat 2 3) != bit w.imm.toNat 5 then j else y.plane))) s

/-- PLANE_MOV (R157). -/
def execPlaneMov (w : XWord) (s : State) : Host.Outcome State Fault Refusal :=
  runUniform true 12 (fun _ => { bareForm true (w.m6 = 0 && noImm w && w.nwb = 0) with a := .pair }) w
    (fun x => failIf ((x.b.activeLanes x.q).any (fun l => bits (x.pairVal w.a9.toNat) (2 * l) 2 ≥ x.g.kernel.planes))
      { cls := 0x0B, sub := 4 })
    (fun x s => .done (s.setPlanes x (fun l _ => bits (x.pairVal w.a9.toNat) (2 * l) 2))) s

/-- PLANE_GET (R157). -/
def execPlaneGet (w : XWord) (s : State) : Host.Outcome State Fault Refusal :=
  runUniform true 12 (fun _ => { bareForm true (w.m6 = 0 && noImm w && w.nwb = 0) with d := .pair }) w noExtra
    (fun x s => .done (s.setPair x w.d9.toNat
      (((List.range x.b.lanes.length).zip x.b.lanes).foldl (fun v p => v + (p.2.plane % 4) <<< (2 * p.1)) 0))) s

/-- PLANE_BAL (R157). -/
def execPlaneBal (w : XWord) (s : State) : Host.Outcome State Fault Refusal :=
  let j := bits w.imm.toNat 0 2
  runUniform true 12
    (fun _ => { bareForm true (w.m6 = 0 && bits w.imm.toNat 2 30 == 0 && w.nwb = 0) with d := .scalar }) w noExtra
    (fun x s => .done (s.setS x w.d9.toNat (BitVec.ofNat 64 (listMask ((x.b.activeLanes x.q).filter (fun l =>
      match x.b.lanes[l]? with | some y => y.plane == j | none => false)))))) s

/-! ## yield, exit, trap (R158, R162, R371) -/

/-- YIELD (R158). -/
def execYield (w : XWord) (s : State) : Host.Outcome State Fault Refusal :=
  let dl := bits w.imm.toNat 0 14
  let live := bits w.imm.toNat 14 9
  runUniformWith noExtra true 12 (fun _ => bareForm (w.fn = 0) (w.m6 = 0 && bits w.imm.toNat 23 9 == 0 && w.nwb = 0)) w
    (fun x => failIf (!(1 ≤ dl && dl ≤ x.g.kernel.yieldMax && live ≤ x.g.kernel.v)) (illegal 17))
    (fun x s => .yielded dl live (s.stopPending x.g) s) s

/-- The effect of exit: the slices end with all their lanes; a detached lane's exit ends only the lane (R162, R388). -/
def State.exitSlices (s : State) (x : Ctx) : State :=
  let ls := (x.b.slicesOf x.q).flatMap (fun sl => sl.lanesOf sl.own)
  s.modBundle x.c.gid x.c.bundle (fun b =>
    let b := ls.foldl (fun b l => b.modLane l (fun y => { y with exited := true, halted := false })) b
    let det := x.q.slices.any b.isDetached
    b.modSlices x.q.slices (fun sl => { sl with exited := true, active := 0, join := [], call := [], own := if det then 0 else sl.own }))

/-- EXIT (R162). -/
def execExit (s : State) : Host.Outcome State Fault Refusal :=
  runUniformWith noExtra true 4 (fun _ => bareForm true true) (plainWord 0 0 0 268 268) noExtra
    (fun x s => .moved (s.exitSlices x)) s

/-- TRAP (R371). -/
def execTrap (w : TrapWord) (s : State) : Host.Outcome State Fault Refusal :=
  runUniform true 4 (fun _ => bareForm true (w.rsv = 0 && w.nwb = 0)) (plainWord w.pred w.pn 0 268 268) noExtra
    (fun _ s => .fault { cls := 0x0E, detail := w.code.toNat } s) s

end Sys2Proof.Machine
end

