-- ==== Sys2Proof/Machine/Engine.lean ====
section
/-!
DEFINITION. What the engine operations of a gang share (R264–R267): completion and its timeline, engine faults, and when an
operation may take its next step; with wait.tok and wait.tl (R266).
-/

namespace Sys2Proof.Machine

/-- The operation with an id. -/
def State.op (s : State) (id : Nat) : Option EngOp := s.ops.find? (fun o => o.id == id)

/-- The operations of a gang's engine that have not completed, faulted ones included (R264, R267). -/
def State.openOps (s : State) (gid eng : Nat) : List EngOp := s.ops.filter (fun o => o.gid == gid && o.eng == eng)

/-- The timeline value of an engine: every operation numbered at or below it has completed (R264). -/
def State.timeline (s : State) (g : Gang) (eng : Nat) : Nat :=
  minOr (g.issued.getD (eng - 1) 0 + 1) ((s.openOps g.gid eng).map (·.number)) - 1

/-- The timeline of an engine of a gang brought up to date. -/
def State.updateTl (s : State) (gid eng : Nat) : State :=
  match s.gang gid with
  | none => s
  | some g => s.modGang gid (fun h => { h with tl := setNth h.tl (eng - 1) (s.timeline g eng) })

/-- A count taken from a token (R265). -/
def Bundle.tokDown (b : Bundle) (t : Nat) : Bundle := { b with tok := modNth b.tok t (· - 1) }

/-- An operation completes (R264, R265). -/
def State.completeOp (s : State) (o : EngOp) : State :=
  let s := (s.dropOp o.id).updateTl o.gid o.eng
  match o.tok with
  | some t => s.modBundle o.gid o.bundle (fun b => b.tokDown t)
  | none => s

/-- The operation that a copy would hand on, kept from ever starting. -/
def State.abandonChain (s : State) (o : EngOp) : State :=
  if o.chain == 0 then s
  else { s with ops := s.ops.map (fun p =>
    if p.gid == o.gid && p.eng == 2 && p.number == o.chain && p.state == 3 then { p with state := 4, lost := true } else p) }

/-- An engine fault (R267): the operation never completes, and the fault is delivered to its bundle. -/
def State.faultOp (s : State) (o : EngOp) (f : FaultInfo) (progress : Nat) : State :=
  ((s.modOp o.id (fun p => { p with state := 4, held := false })).abandonChain o).takeFault
    ⟨o.gid, o.bundle, o.offset, o.plane⟩ { f with engine := o.eng, opnum := o.number, progress := progress }

/-- A PROTECTION failure of an engine's access, logged under the engine's AGENT type (R19). -/
def State.logEngine (s : State) (g : Gang) (type kind : Nat) (f : FaultInfo) : State :=
  if f.cls = 5 then s.logAccess g.part f.addr g.core type (if vaIsXv f.addr && kind == 1 then 3 else kind) g.die else s

/-- The watch event of an engine operation, to be completed with its address and kind (R382). -/
def EngOp.event (o : EngOp) (g : Gang) (agent kind addr : Nat) : WatchEvent :=
  { gid := o.gid, bundle := o.bundle, part := g.part, space := 0, kind := kind, agent := agent, plane := none, lane := none,
    addr := addr, data := [], exc := 0, offset := o.offset, opnum := o.number, op := some o.id }

/-- A number given on an engine's timeline (R264). -/
def Gang.number (g : Gang) (eng : Nat) : Gang := { g with issued := modNth g.issued (eng - 1) (· + 1) }

/-- The next number of an engine's timeline. -/
def Gang.nextNumber (g : Gang) (eng : Nat) : Nat := g.issued.getD (eng - 1) 0 + 1

/-- An operation issued: numbered and listed. -/
def State.addOp (s : State) (o : EngOp) : State :=
  { s.modGang o.gid (fun g => g.number o.eng) with nextId := s.nextId + 1, ops := s.ops ++ [o] }

/-! ## wait.tok and wait.tl (R266) -/

/-- Whether a wait may complete: its condition, with the invalidations that the acquire needs applied (R339). -/
def waitEff (x : Ctx) (ready : Bool) (w : Wait) (s : State) : Eff :=
  if ready && s.settled x.g.die && !s.acquirePending x.c.gid x.c.bundle then .done s else .wait w s

/-- The target of a wait.tl: fixed when the instruction first issued. -/
def Ctx.tlTarget (x : Ctx) (a : W64) (e : Nat) : Nat :=
  match x.q.wait with
  | .timeline t => t
  | _ => min a.toNat (x.g.issued.getD e 0)

/-- WAIT_TOK (R266). -/
def execWaitTok (w : XWord) (s : State) : Host.Outcome State Fault Refusal :=
  runUniform true 12
    (fun _ => bareForm true (w.m6 = 0 && w.nwb = 0 && bits w.imm.toNat 8 24 == 0)) w noExtra
    (fun x s => waitEff x ((List.range 8).all (fun i => !bit w.imm.toNat i || x.b.tok.getD i 0 == 0)) (.retry 9) s) s

/-- WAIT_TL (R266): the target is at most the number last issued. -/
def execWaitTl (w : XWord) (s : State) : Host.Outcome State Fault Refusal :=
  runUniform true 12
    (fun _ => { bareForm true (w.m6 = 0 && w.nwb = 0 && bits w.imm.toNat 2 30 == 0) with a := .scalar }) w noExtra
    (fun x s =>
      let e := bits w.imm.toNat 0 2
      let t := x.tlTarget (x.b.readS w.a9.toNat) e
      waitEff x (t ≤ x.g.tl.getD e 0) (.timeline t) s) s

end Sys2Proof.Machine
end

