-- ==== Sys2Proof/Machine/Copy.lean ====
section
/-!
DEFINITION. The copy engine (R268–R277): the checks of cpy, presence bits, chunks, multicast, tile runs, and the chained matrix
instruction as it is created.
-/

namespace Sys2Proof.Machine

/-! ## The copy control word (R269) -/

/-- Whether a template has a field of the control word: bits that it may set. -/
def ccwUsed (fn : Nat) (gl : Bool) : Nat :=
  let base := 0x0F07
  if fn == 3 then base + 0x38 + 0x3FFF000
  else if fn == 5 then base + 0x38 + 0x7F000
  else if fn == 6 then base + 0x7F000
  else if fn == 7 then base + 0x1000 + (if gl then 0x38 else 0)
  else base + 0x38

/-- Reserved values of the control word: SCOPE 7, EVICT 5–7, a barrier at or above BARRIERS (R269). -/
def ccwFnOk (fn : Nat) (cw : W32) (barriers : Nat) : Bool :=
  let c := cw.toNat
  bits c 0 3 ≤ 6 && bits c 3 3 ≤ 4 && (!(fn == 5 || fn == 6) || bits c 12 7 ≤ barriers)

/-- Fields of the control word that must be zero (R269). -/
def ccwZero (fn : Nat) (cw : W32) : Bool :=
  let c := cw.toNat
  (c &&& (2 ^ 32 - 1 - ccwUsed fn (bit c 12))) == 0 && (bit c 11 || bits c 8 3 == 0)

/-- The form of a cpy (R268, R270), with what the chained literal of a cpy with CH holds (R277). -/
def cpyForm (fn : Nat) (ch : Bool) (w : XWord) (litFn litRes : Bool) (x : Ctx) : Form :=
  opForm (if ch then .pair else .scalar) .scalar (if fn == 3 then .pair else .scalar)
    (if fn == 4 || fn == 5 || fn == 6 then .pair else .scalar)
    (ccwFnOk fn w.imm x.g.kernel.barriers && litFn) (bits w.m6.toNat 1 5 == 0 && w.nwb = 0 && ccwZero fn w.imm && litRes)

/-! ## Byte sequences of a copy (R270, R272, R276) -/

/-- The control word of a copy. -/
def EngOp.cw (o : EngOp) : Nat := (o.words.getD 2 0).toNat

/-- Whether a copy writes scratchpad. -/
def EngOp.toPad (o : EngOp) : Bool := !(o.fn == 1 || o.fn == 2 || (o.fn == 7 && bit o.cw 12))

/-- Whether a copy reads scratchpad. -/
def EngOp.fromPad (o : EngOp) : Bool := o.fn == 1 || o.fn == 6

/-- Bytes of a row and rows of rows.g2s. -/
def EngOp.rowShape (o : EngOp) : Nat × Nat := (bits (o.par 4) 0 32, bits (o.par 4) 32 16)

/-- The length of a copy's byte sequence; for tile.g2s its capacity. -/
def EngOp.total (o : EngOp) : Nat :=
  if o.fn == 4 then (o.rowShape).1 * (o.rowShape).2 else bits (o.par 4) 0 32

/-- The address ranges of sequence bytes p to q − 1, from a base and, for rows, a pitch. -/
def EngOp.ranges (o : EngOp) (base : Nat) (pitch : Int) (p q : Nat) : List (Nat × Nat) :=
  if q ≤ p then []
  else if o.fn == 4 then
    let rb := (o.rowShape).1
    if rb == 0 then []
    else
      (List.range ((q - 1) / rb + 1 - p / rb)).map (fun k =>
        let i := p / rb + k
        let lo := Nat.max p (i * rb)
        let hi := min q ((i + 1) * rb)
        (ofInt 64 ((base : Int) + (i : Int) * pitch + ((lo - i * rb : Nat) : Int)), hi - lo))
  else [((base + p) % 2 ^ 64, q - p)]

/-- The destination ranges of sequence bytes p to q − 1. -/
def EngOp.dst (o : EngOp) (p q : Nat) : List (Nat × Nat) := o.ranges (o.par 1) (toSigned 32 (bits (o.par 5) 32 32)) p q

/-- The source ranges of sequence bytes p to q − 1. -/
def EngOp.src (o : EngOp) (p q : Nat) : List (Nat × Nat) := o.ranges (o.par 2) (toSigned 32 (bits (o.par 5) 0 32)) p q

/-- The gangs whose scratchpad a copy writes (R274); a retired gang has none any more (R397). -/
def State.copyTargets (s : State) (o : EngOp) : List Gang :=
  match s.gang o.gid with
  | none => []
  | some g =>
    if o.fn == 5 || o.fn == 6 then ((maskList 64 (o.par 5)).filterMap (fun r => s.gangOfRank g.crew r)).filter (fun t => !t.retired) else [g]

/-- Whether a copy is in flight: its presence bits are cleared and it may still land (R272). -/
def EngOp.inFlight (o : EngOp) : Bool := o.eng == 1 && (o.state == 0 || o.state == 1)

/-- The scratchpad lines that a copy has still to land in (R272). -/
def State.pendingLines (s : State) (o : EngOp) : List Nat :=
  if o.inFlight && o.toPad then
    (s.copyTargets o).flatMap (fun t => (o.dst o.pos o.total).flatMap (fun r =>
      (t.viewRuns r.1 r.2).flatMap (fun q => linesOf q.1 q.2)))
  else []

/-- The presence bits of every destination line of a copy cleared (R272). -/
def State.clearLines (s : State) (o : EngOp) : State :=
  if o.toPad then
    (s.copyTargets o).foldl (fun s t => (o.dst 0 o.total).foldl (fun s r => s.setPresence t r.1 r.2 false) s) s
  else s

/-- A copy advanced: lines that no copy in flight has still to land in become present (R272). -/
def State.landed (s : State) (before after : EngOp) : State :=
  let was := s.pendingLines before
  let s := s.modOp before.id (fun _ => after)
  let rest := s.ops.flatMap s.pendingLines
  { s with absent := s.absent.filter (fun l => !(was.contains l && !rest.contains l)) }

/-! ## Checks at issue (R271, R274) -/

/-- The region of a view range: 1 the working region, 2 the pinned segment, 0 neither. -/
def Gang.regionOf (g : Gang) (a n : Nat) : Nat :=
  if a + n ≤ g.kernel.scratch then 1 else if 2 ^ 18 - g.pinSize ≤ a && a + n ≤ 2 ^ 18 then 2 else 0

/-- The first range that lies outside one region shared by all (R271, order 5). -/
def Gang.outside (g : Gang) (rs : List (Nat × Nat)) : Option Nat :=
  let rs := rs.filter (fun r => r.2 != 0)
  match rs with
  | [] => none
  | r :: _ => (rs.find? (fun q => g.regionOf q.1 q.2 == 0 || g.regionOf q.1 q.2 != g.regionOf r.1 r.2)).map (·.1)

/-- Order 6 of R271 on a global range: legal addresses, the lease, and no write to the image or the expanded view. -/
def State.globalFault (s : State) (g : Gang) (write : Bool) (r : Nat × Nat) : Option FaultInfo :=
  if r.2 == 0 then none
  else
    firstFault [failIf (!vaLegal r.1 || !vaLegal (r.1 + r.2 - 1)) (protFault r.1), failIf (!s.leaseOk g r.1 r.2) (leaseFault r.1),
      failIf (write && (s.hitsImage g.part r.1 r.2 || vaIsXv r.1 || vaIsXv (r.1 + r.2 - 1))) (protFault r.1)]

/-- The multicast checks common to copies and mma.crew: orders 1 to 4 of R274. -/
def State.mcastFault (s : State) (g : Gang) (mask : Nat) : Option FaultInfo :=
  firstFault [failIf (!bit g.group g.rank) { cls := 0x12, sub := 4 }, failIf (mask == 0) { cls := 0x12, sub := 1 },
    failIf ((maskList 64 mask).any (fun r => r ≥ s.ranks g.crew)) { cls := 0x12, sub := 2 },
    failIf ((maskList 64 mask).any (fun r => !bit g.group r)) { cls := 0x12, sub := 3 }]

/-- The checks of R274 for a multicast copy: those above, then OWN, OUTSIDE, and the regions of the targets. -/
def State.mcastCopyFault (s : State) (g : Gang) (o : EngOp) : Option FaultInfo :=
  let ranks := maskList 64 (o.par 5)
  let rs := o.dst 0 o.total
  let a := o.par 1
  firstFault [s.mcastFault g (o.par 5), failIf (o.fn == 6 && ranks.contains g.rank) { cls := 0x12, sub := 5 },
    failIf (ranks.any (fun r => r != g.rank &&
      (let w := g.windows.getD r (0, 0x40000); rs.any (fun q => !(w.1 ≤ q.1 && q.1 + q.2 ≤ w.1 + w.2))))) { cls := 0x12, sub := 6, addr := a },
    failIf (ranks.any (fun r => match s.gangOfRank g.crew r with
      | some t => t.retired || rs.any (fun q => !t.inView q.1 q.2)
      | none => true)) (protFault a)]

/-- The first destination range of a copy that lies outside one region of a scratchpad that it writes (R271, order 5). -/
def State.padOutside (s : State) (g : Gang) (o : EngOp) : Option Nat :=
  if !o.toPad then none
  else if o.fn == 5 || o.fn == 6 then (s.copyTargets o).findSome? (fun t => t.outside (o.dst 0 o.total))
  else g.outside (o.dst 0 o.total)

/-- The misaligned address or count of a copy (R271, order 3). -/
def EngOp.alignBad (o : EngOp) : Option FaultInfo :=
  let a := o.par 1
  let b := o.par 2
  firstFault [failIf (a % (if o.fn == 3 then 32 else 4) != 0) (alignFault a),
    failIf (o.fn != 3 && o.fn != 7 && b % 4 != 0) (alignFault b),
    failIf (o.total % 4 != 0 || (o.fn == 4 && ((o.rowShape).1 % 4 != 0 || bits (o.par 5) 0 32 % 4 != 0 || bits (o.par 5) 32 32 % 4 != 0)))
      { cls := 3 }]

/-- R271, orders 2 to 6, with the state in which a failure is taken: violations are logged under R19. -/
def State.copyFault (s : State) (x : Ctx) (o : EngOp) : Option (FaultInfo × State) :=
  let g := x.g
  let n := bits o.cw 12 4
  let unbound : Option FaultInfo :=
    if o.fn == 3 then
      firstFault [failIf (g.handle n).isNone ((indexFault 8 (o.par 2) (o.par 3)).ofHandle n none), g.damaged 4 n]
    else none
  match firstFault [unbound, o.alignBad] with
  | some f => some (f, s)
  | none =>
    let mc := if o.fn == 5 || o.fn == 6 then s.mcastCopyFault g o else none
    match mc with
    | some f => some (f, if f.cls == 5 then s.logView g f.addr 1 else s)
    | none =>
      let d := o.dst 0 o.total
      let r := if o.fn == 3 || o.fn == 7 then [] else o.src 0 o.total
      match s.padOutside g o, (if o.fromPad then g.outside r else none) with
      | some a, _ => some (protFault a, s.logView g a 1)
      | none, some a => some (protFault a, s.logView g a 0)
      | none, none =>
        match firstFault (if o.toPad then [] else d.map (s.globalFault g true)),
            firstFault (if o.fromPad then [] else r.map (s.globalFault g false)) with
        | some f, _ => some (f, s.logFault g 1 f)
        | none, some f => some (f, s.logFault g 0 f)
        | none, none => none

/-! ## Issue (R268, R272) -/

/-- Copies that hold a place in a core's queue. -/
def State.copyQueue (s : State) (g : Gang) : List EngOp :=
  s.ops.filter (fun o => o.eng == 1 && o.state != 4 &&
    (match s.gang o.gid with | some h => h.die == g.die && h.core == g.core | none => false))

/-- Whether a cpy must wait at issue (R265, R272): no place in the queue, or its token at 255. -/
def State.copyWaits (s : State) (x : Ctx) (o : EngOp) : Bool :=
  let q := s.copyQueue x.g
  q.length ≥ 64 || (q.filter (fun p => p.gid == o.gid)).length ≥ 32 ||
  (match o.tok with | some t => x.b.tok.getD t 0 ≥ 255 | none => false)

/-- The copy that a cpy issues, as yet without its number. -/
def Ctx.copyOp (x : Ctx) (s : State) (fn : Nat) (w : XWord) (words : List W32) : EngOp :=
  let cw := w.imm.toNat
  let h := if fn == 3 then x.g.handle (bits cw 12 4) else none
  let eb := if fn == 5 || fn == 6 then bits cw 12 7 else 0
  { x.newOp s.nextId 1 (x.g.nextNumber 1) ((h.map (·.desc)).getD [])
      [w.d9.setWidth 64, x.s w.a9.toNat, x.s w.b9.toNat, if fn == 3 then x.s (w.b9.toNat + 1) else 0, x.s w.c9.toNat,
        if fn == 4 || fn == 5 || fn == 6 then x.s (w.c9.toNat + 1) else 0, (h.map (·.va)).getD 0] words with
    major := 0x74, fn := fn, tok := if bit cw 11 then some (bits cw 8 3) else none,
    state := if eb == 0 then 0 else 2,
    ebPhase := if eb == 0 then none else (x.g.barriers[eb - 1]?).map (·.phase) }

/-- EB's phase for a multicast that waits on it: none while it has not completed, else whether it was abandoned (R275); it is asked at
each change of the barrier, and AB completes every wait (R319). -/
def State.ebDone (s : State) (o : EngOp) : Option Bool :=
  match s.gang o.gid, o.ebPhase with
  | some g, some p =>
    match g.barriers[bits o.cw 12 7 - 1]? with
    | some b => if b.isComplete p then some b.ab else none
    | none => none
  | _, _ => none

/-- A multicast whose phase has completed starts, its targets' lines cleared at that completion, or is abandoned; every change of a
barrier is followed by this (R275). -/
def State.startMulticasts (s : State) (gid : Nat) : State :=
  (s.ops.filter (fun o => o.gid == gid && o.eng == 1 && o.state == 2)).foldl (fun s o =>
    match s.ebDone o with
    | some false => (s.modOp o.id (fun p => { p with state := 0 })).clearLines { o with state := 0 }
    | some true => s.modOp o.id (fun p => { p with state := 5 })
    | none => s) s

/-- A copy issued: numbered, its token counted, its lines cleared unless it waits on EB; an empty one completes at once. -/
def State.issueCopy (s : State) (o : EngOp) : State :=
  let s := s.addOp o
  let s := match o.tok with
    | some t => s.modBundle o.gid o.bundle (fun b => { b with tok := modNth b.tok t (· + 1) })
    | none => s
  if o.fn != 3 && o.total == 0 then s.completeOp o else if o.state == 2 then s.startMulticasts o.gid else s.clearLines o

/-- A cpy without CH. -/
def runCopy (fn : Nat) (i : Instr) (w : XWord) (s : State) : Host.Outcome State Fault Refusal :=
  runUniform false 12 (cpyForm fn false w true true) w noExtra (fun x s =>
    let o := x.copyOp s fn w (encode i)
    match s.copyFault x o with
    | some (f, s) => .fault f s
    | none =>
      if s.copyWaits x o then .hold 13
      else .done ((s.issueCopy o).setS x w.d9.toNat (BitVec.ofNat 64 o.number))) s

/-- CPY_LIN_G2S (R270). -/
def execCpyLinG2s (w : XWord) (s : State) : Host.Outcome State Fault Refusal := runCopy 0 (.cpyLinG2s w) w s
/-- CPY_LIN_S2G (R270). -/
def execCpyLinS2g (w : XWord) (s : State) : Host.Outcome State Fault Refusal := runCopy 1 (.cpyLinS2g w) w s
/-- CPY_LIN_G2G (R270). -/
def execCpyLinG2g (w : XWord) (s : State) : Host.Outcome State Fault Refusal := runCopy 2 (.cpyLinG2g w) w s
/-- CPY_TILE_G2S (R270, R276). -/
def execCpyTileG2s (w : XWord) (s : State) : Host.Outcome State Fault Refusal := runCopy 3 (.cpyTileG2s w) w s
/-- CPY_ROWS_G2S (R270). -/
def execCpyRowsG2s (w : XWord) (s : State) : Host.Outcome State Fault Refusal := runCopy 4 (.cpyRowsG2s w) w s
/-- CPY_MCAST_G2S (R270, R274, R275). -/
def execCpyMcastG2s (w : XWord) (s : State) : Host.Outcome State Fault Refusal := runCopy 5 (.cpyMcastG2s w) w s
/-- CPY_MCAST_S2S (R270, R274, R275). -/
def execCpyMcastS2s (w : XWord) (s : State) : Host.Outcome State Fault Refusal := runCopy 6 (.cpyMcastS2s w) w s
/-- CPY_FILL (R270). -/
def execCpyFill (w : XWord) (s : State) : Host.Outcome State Fault Refusal := runCopy 7 (.cpyFill w) w s

/-! ## Matrix instructions at issue (R279, R281, R283) -/

/-- Whether a tensor is of a matrix kind (R279). -/
def Desc.matrixKind (d : Desc) : Bool :=
  d.kind == 1 || d.kind == 2 || ((d.kind == 0 || d.kind == 3) && (d.wcode == 0 || d.wcode == 2 || d.wcode == 3))

/-- Whether a handle fits a matrix instruction: 0 mma, 1 mma.crew, 2 mma.sp, 3 bload (R279). -/
def Desc.matrixFits (d : Desc) (fn : Nat) : Bool :=
  d.matrixKind && (fn != 3 || d.shape == 0) && (fn != 2 || (d.kind == 1 && d.sp))

/-- Tile rows and columns that an instruction reads (R277, R281). -/
def mxShape (fn w2 rows : Nat) : Nat × Nat :=
  if fn == 3 then (mxNk w2, 1)
  else ((mxM w2 + rows - 1) / rows, if fn == 2 then 2 * mxNk w2 else mxNk w2)

/-- R281, orders 1 to 7; spm gives the directory's address. -/
def State.matrixFault (s : State) (x : Ctx) (fn w2 n : Nat) (spm : Option Nat) (r c mask : Nat) : Option (FaultInfo × State) :=
  let g := x.g
  match g.handle n with
  | none => some ((indexFault 8 r c).ofHandle n none, s)
  | some h =>
    let d := descOf h.desc
    let sh := mxShape fn w2 d.rows
    let dir := 8 * sh.1 * sh.2
    match firstFault [g.damaged 4 n, failIf (!d.matrixFits fn) (illegal 23), failIf (mxSlot w2 + mxSlots fn w2 > 64) (illegal 22),
        if spm.isSome then none else failIf (!(r + sh.1 ≤ d.trows && c + sh.2 ≤ d.tcols)) ((indexFault 1 r c).ofHandle n (some h))] with
    | some f => some (f, s)
    | none =>
      match spm.bind (fun a =>
          if !g.inOneRegion a dir then some (protFault a, s.logView g a 0)
          else if a % 8 != 0 then some (alignFault a, s) else none) with
      | some q => some q
      | none =>
        let crew := if fn == 1 then
            firstFault [failIf (g.rank != 0) { cls := 0x12, sub := 7 }, failIf (!bit g.group g.rank) { cls := 0x12, sub := 4 },
              failIf (mask == 0) { cls := 0x12, sub := 1 },
              failIf ((maskList 64 mask).any (fun k => k ≥ s.ranks g.crew)) { cls := 0x12, sub := 2 },
              failIf (popCount 64 mask > 16) { cls := 0x12, sub := 8 },
              failIf ((maskList 64 mask).any (fun k => !bit g.group k)) { cls := 0x12, sub := 3 }]
          else none
        (firstFault [crew, failIf (fn != 3 && !(x.b.awb ≤ mxAcc w2 && mxAcc w2 + mxM w2 ≤ x.b.awl)) { cls := 6, sub := 1 },
          firstFault ((descOf h.desc).slots.map (g.damaged 1))]).map (fun f => (f, s))

/-- Whether M6 and W2 of a matrix instruction hold zeros where they must (R280); ZA is zero for bload. -/
def mxZero (fn m6 w2 : Nat) : Bool :=
  bits m6 2 4 == 0 && (fn != 3 || (!bit m6 0 && bits w2 0 10 == 0 && bits w2 16 10 == 0))

/-- The operation that a matrix instruction issues (R264): a and b are its handle number and the other operands. -/
def Ctx.matrixOp (x : Ctx) (id fn number n : Nat) (words : List W32) (b c mask : W64) : EngOp :=
  let h := x.g.handle n
  { x.newOp id 2 number ((h.map (·.desc)).getD []) [0, BitVec.ofNat 64 n, b, 0, c, mask, (h.map (·.va)).getD 0] words with
    major := 0x75, fn := fn, time := id }

/-! ## cpy with CH (R277) -/

/-- The matrix word that a chained literal stands for: mma, mma.sp or bload in its scratchpad form. -/
def chainWord (w : XWord) (lit : W64) : XWord :=
  { pred := 0, pn := 0, nwb := 0, d9 := 268, a9 := BitVec.ofNat 9 (bits w.imm.toNat 12 4), b9 := 268, c9 := 268,
    fn := BitVec.ofNat 8 (bits lit.toNat 32 2), m6 := BitVec.ofNat 6 (bits lit.toNat 34 6 + 2), imm := BitVec.ofNat 32 lit.toNat }

/-- The instruction of a chained literal. -/
def chainInstr (w : XWord) (lit : W64) : Instr :=
  let c := chainWord w lit
  if c.fn = 2 then .mmaSp c else if c.fn = 3 then .bload c else .mma c

/-- Whether CFN of a chained literal is not the reserved one (R277). A reserved CFN raises FN and a bit that must be zero RESBIT, in
the orders of R44: R277 names no fault for them. DEDUCED (log 21). -/
def chainFnOk (lit : W64) : Bool := bits lit.toNat 32 2 != 1

/-- Whether the bits of a chained literal that must be zero are (R277, R280). DEDUCED (log 21): as chainFnOk. -/
def chainLitOk (lit : W64) : Bool :=
  let m6 := bits lit.toNat 34 6
  bits lit.toNat 40 24 == 0 && !bit m6 1 && mxZero (bits lit.toNat 32 2) m6 (bits lit.toNat 0 32)

/-- The chained checks of R277: those of R281, then the run's shape. -/
def State.chainFault (s : State) (x : Ctx) (w : XWord) (lit : W64) (a : Nat) : Option (FaultInfo × State) :=
  let fn := bits lit.toNat 32 2
  let w2 := bits lit.toNat 0 32
  let n := bits w.imm.toNat 12 4
  match s.matrixFault x fn w2 n (some a) 0 0 0 with
  | some q => some q
  | none =>
    let d := (x.g.handle n).map (fun h => descOf h.desc)
    let sh := mxShape fn w2 ((d.map Desc.rows).getD 64)
    if (bits w.imm.toNat 16 4 + 1, bits w.imm.toNat 20 6 + 1) != sh then some (illegal 22, s) else none

/-- CPY_TILE_G2S_CH (R277): the copy and the chained instruction, which take their numbers together. -/
def execCpyTileG2sCh (w : XWord) (lit : W64) (s : State) : Host.Outcome State Fault Refusal :=
  runUniform false 20 (cpyForm 3 true w (chainFnOk lit) (chainLitOk lit)) w
    (fun x => failIf (x.g.kernel.accRows == 0) (illegal 25)) (fun x s =>
    let o := x.copyOp s 3 w (encode (.cpyTileG2sCh w lit))
    match s.copyFault x o with
    | some (f, s) => .fault f s
    | none =>
      match s.chainFault x w lit (o.par 1) with
      | some (f, s) => .fault f s
      | none =>
        let n := bits w.imm.toNat 12 4
        if ((x.g.handle n).map (fun h => (descOf h.desc).slots.any (s.slotFilling x.c.gid))).getD false then .hold 11
        else if s.copyWaits x o then .hold 13
        else
          let mx := x.g.nextNumber 2
          let s := s.issueCopy { o with chain := mx }
          let m := x.matrixOp s.nextId (bits lit.toNat 32 2) mx n (encode (chainInstr w lit)) (BitVec.ofNat 64 (o.par 1)) 0 0
          let s := s.addOp { m with state := 3 }
          .done ((s.setS x w.d9.toNat (BitVec.ofNat 64 o.number)).setS x (w.d9.toNat + 1) (BitVec.ofNat 64 mx))) s

/-! ## Chunks (R272–R276) -/

/-- The fault of a read that a copy would make of a global range; poison is carried and not consumed (R369). -/
def State.copyReadFault (s : State) (g : Gang) (r : Nat × Nat) : Option FaultInfo :=
  if r.2 == 0 then none
  else if !vaLegal r.1 then some (protFault r.1)
  else if !s.leaseOk g r.1 r.2 then some (leaseFault r.1)
  else
    firstFault ((cutXv r).map (fun r =>
      if vaIsXv r.1 then
        match s.xvReadAs g.part 2 r.1 r.2 with
        | .error f => some f
        | .ok _ => none
      else failIf (s.runs g.part 0 r.1 r.2).isNone (s.untranslated g.part 0 r.1 r.2)))

/-- The locations of the 4-byte words of a range, as location / 4, none for the expanded view. -/
def wordLocs (rs : List (Nat × Nat)) : List Nat := rs.flatMap (fun r => (List.range (r.2 / 4)).map (fun i => r.1 / 4 + i))

/-- The bytes of a global range and the indices of its poisoned words. -/
def State.copyRead (s : State) (g : Gang) (r : Nat × Nat) : List Byte × List Bool :=
  let ps := (cutXv r).map (fun r =>
    if vaIsXv r.1 then ((s.xvReadAs g.part 2 r.1 r.2).toOption.getD [], List.replicate (r.2 / 4) false)
    else
      let rs := (s.runs g.part 0 r.1 r.2).getD []
      (s.readRuns rs, if s.poison.isEmpty then List.replicate (r.2 / 4) false else (wordLocs rs).map s.poison.contains))
  (ps.flatMap (·.1), ps.flatMap (·.2))

/-- The bytes of a view range and the indices of its poisoned words. -/
def State.copyReadView (s : State) (g : Gang) (r : Nat × Nat) : List Byte × List Bool :=
  let rs := g.viewRuns r.1 r.2
  (s.readRuns rs, if s.poison.isEmpty then List.replicate (r.2 / 4) false else (wordLocs rs).map s.poison.contains)

/-- Words of a destination that a poisoned source word was copied to stay poisoned (R369). -/
def State.carryPoison (s : State) (rs : List (Nat × Nat)) (bad : List Bool) : State :=
  if bad.all (fun b => !b) then s
  else { s with poison := s.poison ++ (((wordLocs rs).zip bad).filter (fun p => p.2 && !s.poison.contains p.1)).map (·.1) }

/-- The entries of a tile run resolved in order (R276): the entries so far, and the fault of the first tile that fails with its
number. off is where the next stream begins. -/
def State.resolveRun (s : State) (g : Gang) (o : EngOp) (d : Desc) (tc cap : Nat) :
    Nat → Nat → Nat → List Byte × Option FaultInfo
  | 0, _, _ => ([], none)
  | n + 1, t, off =>
    let row := o.par 2 + t / tc
    let col := o.par 3 + t % tc
    match resolveTile (s.readGang g 2) d row col, s.readGang g 2 (d.entryVa row col) 16 with
    | .error f, _ => ([], some f)
    | _, .error f => ([], some f)
    | .ok e, .ok b =>
      if off + e.len > cap then ([], some (indexFault 10 row col))
      else
        match s.copyReadFault g (e.sva, e.len) with
        | some f => ([], some f)
        | none =>
          let r := s.resolveRun g o d tc cap n (t + 1) (alignUp (off + e.len) 32)
          (b ++ r.1, r.2)

/-- Tiles of a run. -/
def EngOp.tiles (o : EngOp) : Nat := (bits o.cw 16 4 + 1) * (bits o.cw 20 6 + 1)

/-- The resolved entries of a run, with where each stream begins in it. -/
def runLayout : List Byte → Nat → Nat → List (IdxEntry × Nat)
  | _, 0, _ => []
  | b, n + 1, off =>
    let e := entryOf (b.take 16)
    (e, off) :: runLayout (b.drop 16) n (alignUp (off + e.len) 32)

/-- A piece of a chunk: where its bytes go in the sequence, and its bytes or their global address. -/
inductive Piece where
  | data (pos : Nat) (bs : List Byte)
  | read (pos va n : Nat)
  deriving DecidableEq, Repr

/-- The pieces of a tile run that meet sequence bytes p to q − 1: its directory, then its streams. -/
def runPieces (base : Nat) (es : List (IdxEntry × Nat)) (p q : Nat) : List Piece :=
  let dir := es.flatMap (fun e => leBytes 4 (base + e.2) ++ leBytes 4 e.1.len)
  let k := min q dir.length - p
  (if p < dir.length && k != 0 then [Piece.data p ((dir.drop p).take k)] else []) ++
    es.filterMap (fun e =>
      let lo := Nat.max p e.2
      let hi := min q (e.2 + e.1.len)
      if lo < hi then some (.read lo (e.1.sva + (lo - e.2)) (hi - lo)) else none)

/-- What a copy's read of a global range leaves (R269). -/
def State.copyTook (s : State) (g : Gang) (o : EngOp) (r : Nat × Nat) : State := s.tookAs g.die g.part (bits o.cw 3 3) r.1 r.2

/-- Bytes landed at a copy's destination ranges, in every target, with their watch events. -/
def State.copyWrite (s : State) (g : Gang) (o : EngOp) (rs : List (Nat × Nat)) (bs : List Byte) (bad : List Bool) : State :=
  if o.toPad then
    (s.copyTargets o).foldl (fun s t =>
      let locs := rs.flatMap (fun r => t.viewRuns r.1 r.2)
      let s := (s.putRuns locs bs).carryPoison locs bad
      (rs.foldl (fun (acc : State × List Byte) r =>
        (acc.1.seeView (o.event g 2 1 r.1) t.gid 4 (acc.2.take r.2), acc.2.drop r.2)) (s, bs)).1) s
  else
    (rs.foldl (fun (acc : State × List Byte × List Bool) r =>
      let locs := (acc.1.runs g.part 1 r.1 r.2).getD []
      let s := acc.1.useRange g.die g.part (bits o.cw 3 3) r.1 r.2
      let s := ((s.writeRuns none locs (acc.2.1.take r.2)).hearRange g.die r.1).carryPoison locs (acc.2.2.take (r.2 / 4))
      (s.seeGlobal (o.event g 2 1 r.1) 4 (acc.2.1.take r.2), acc.2.1.drop r.2, acc.2.2.drop (r.2 / 4))) (s, bs, bad)).1

/-- The end of a copy: it completes, its lines are present, and its chained instruction is handed on (R272, R277). -/
def State.endCopy (s : State) (o : EngOp) : State :=
  let s := (s.landed o { o with pos := o.total, state := 1 }).completeOp o
  if o.chain == 0 then s
  else
    { s with nextId := s.nextId + 1
             ops := s.ops.map (fun p => if p.gid == o.gid && p.eng == 2 && p.number == o.chain && p.state == 3 then
               { p with state := 0, time := s.nextId } else p) }

/-- The bytes of source ranges of a linear chunk: fill values, view bytes or global bytes, with their poison. -/
def State.chunkBytes (s : State) (g : Gang) (o : EngOp) (p q : Nat) : List Byte × List Bool :=
  if o.fn == 7 then
    ((List.range ((q - p) / 4)).flatMap (fun _ => leBytes 4 (bits (o.par 2) 0 32)), List.replicate ((q - p) / 4) false)
  else
    let rs := (o.src p q).map (fun r => if o.fromPad then s.copyReadView g r else s.copyRead g r)
    (rs.flatMap (·.1), rs.flatMap (·.2))

/-- The watch events of a chunk's reads (R384). -/
def State.seeChunkReads (s : State) (g : Gang) (o : EngOp) (rs : List (Nat × Nat)) : State :=
  if !s.watching || o.fn == 7 then s
  else
    rs.foldl (fun s r =>
      if o.fromPad then s.seeView (o.event g 2 0 r.1) g.gid 4 (s.copyReadView g r).1
      else s.seeGlobal (o.event g 2 0 r.1) 4 (s.copyRead g r).1) s

/-- The source ranges that a copy reads for sequence bytes p to q − 1. -/
def EngOp.sources (o : EngOp) (p q : Nat) : List (Nat × Nat) := if o.fn == 7 then [] else o.src p q

/-- The failed check of a chunk, with the kind of the access (R271, R272): none of it is written. The words read ahead have been
checked. -/
def State.chunkFault (s : State) (g : Gang) (o : EngOp) (p q : Nat) : Option (FaultInfo × Nat) :=
  let rf := if o.fromPad then none else firstFault ((o.sources (Nat.max p (o.pos + 4 * o.ahead.length)) q).map (s.copyReadFault g))
  let wf := if o.toPad then none else firstFault ((o.dst p q).map (fun r =>
    firstFault [s.globalFault g true r, failIf (s.runs g.part 1 r.1 r.2).isNone (s.untranslated g.part 1 r.1 r.2)]))
  match rf, wf with
  | some f, _ => some (f, 0)
  | none, some f => some (f, 1)
  | none, none => none

/-- The end of the chunk that begins at or after p: a multiple of 4,096 (R272). -/
def EngOp.chunkEnd (o : EngOp) (p : Nat) : Nat := min o.total (p / 4096 * 4096 + 4096)

/-- Where the writes of a chunk end. An aligned 16-byte block of global memory, which may be an index entry, is written whole (R75):
the last block of a chunk takes its bytes of the next chunk, whose checks then have passed. DEDUCED (log 29). -/
def State.writeEnd (s : State) (g : Gang) (o : EngOp) (q : Nat) : Nat :=
  let rest := (16 - (o.par 1 + q) % 16) % 16
  if o.toPad || rest == 0 || q ≥ o.total || (s.chunkFault g o q (o.chunkEnd q)).isSome then q else min o.total (q + rest)

/-- Where the reads of a chunk that writes to q end. An aligned 16-byte block of global memory is read whole (R75): the words of the
chunk's last block that later chunks write are read with it. DEDUCED (log 29). -/
def EngOp.blockEnd (o : EngOp) : Nat → Nat → Nat
  | 0, q => q
  | n + 1, q =>
    let source (p : Nat) : Option Nat := ((o.sources p (p + 4)).head?).map (·.1)
    match source q with
    | some a => if q ≥ o.total || a % 16 == 0 || source (q - 4) != some (a - 4) then q else o.blockEnd n (q + 4)
    | none => q

/-- The same, where all of those words may be read. -/
def State.readEnd (s : State) (g : Gang) (o : EngOp) (q : Nat) : Nat :=
  let e := o.blockEnd 4 q
  if o.fromPad || e ≤ q || ((o.sources q e).any (fun r => (s.copyReadFault g r).isSome)) then q else e

/-- One chunk of a copy other than tile.g2s, or its engine fault (R272); a copy that a hit in its last chunk holds completes when it is
released (R384). EVENT 7 counts the bytes written, at each target of a multicast (R403). -/
def State.linearChunk (s : State) (g : Gang) (o : EngOp) : State :=
  let p := o.pos
  match s.chunkFault g o p (o.chunkEnd p) with
  | some (f, kind) => (s.logEngine g 1 kind f).faultOp o f p
  | none =>
    let q := s.writeEnd g o (o.chunkEnd p)
    let lo := p + 4 * o.ahead.length
    let hi := Nat.max lo (s.readEnd g o q)
    let src := o.sources lo hi
    let r := s.chunkBytes g o lo hi
    let bs := o.ahead.flatMap (fun x => leBytes 4 x.1.toNat) ++ r.1
    let bad := o.ahead.map (·.2) ++ r.2
    let s := s.seeChunkReads g o src
    let s := if o.fromPad then s else src.foldl (fun s r => s.copyTook g o r) s
    let s := s.copyWrite g o (o.dst p q) (bs.take (q - p)) (bad.take ((q - p) / 4))
    let s := s.perf g 7 ((q - p) * (if o.toPad then (s.copyTargets o).length else 1))
    match s.op o.id with
    | none => s
    | some o =>
      if q ≥ o.total && !o.held then s.endCopy o
      else s.landed o { o with pos := q, state := 1, ahead := (wordsOfBytes (bs.drop (q - p))).zip (bad.drop ((q - p) / 4)) }

/-- The number of the tile that a resolved run stopped at, and the handle's fault fields. -/
def EngOp.runFault (o : EngOp) (f : FaultInfo) : FaultInfo :=
  f.ofHandle (bits o.cw 12 4) (some ⟨o.params.getD 6 0, o.desc.take 64⟩)

/-- One chunk of a tile.g2s run (R276): the entries are resolved at its first step; the tiles before one that fails stay
written. -/
def State.tileChunk (s : State) (g : Gang) (o : EngOp) : State :=
  let d := descOf (o.desc.take 64)
  let tc := bits o.cw 20 6 + 1
  let n := o.tiles
  let first := alignUp (8 * n) 32
  let res := s.resolveRun g o d tc o.total n 0 first
  let entries := if o.desc.length > 64 then (o.desc.drop 64, o.owed) else res
  let s := if o.desc.length > 64 then s
    else (List.range (entries.1.length / 16)).foldl (fun s t => s.tookRange g (d.entryVa (o.par 2 + t / tc) (o.par 3 + t % tc)) 16) s
  let es := runLayout entries.1 (entries.1.length / 16) first
  let stop := maxOf (es.map (fun e => e.2 + e.1.len))
  let p := o.pos
  let q := min stop (p / 4096 * 4096 + 4096)
  let o := { o with desc := o.desc.take 64 ++ entries.1, owed := entries.2 }
  let s := s.modOp o.id (fun _ => { o with state := 1 })
  let pieces := runPieces (o.par 1) es p q
  let reads := pieces.filterMap (fun x => match x with | .read _ va k => some (va, k) | _ => none)
  match firstFault (reads.map (s.copyReadFault g)) with
  | some f => (s.logEngine g 1 0 f).faultOp o (o.runFault f) p
  | none =>
    let s := s.seeChunkReads g { o with fn := 0 } reads
    let s := pieces.foldl (fun s x =>
      match x with
      | .data pos bs => s.copyWrite g o [(o.par 1 + pos, bs.length)] bs (List.replicate (bs.length / 4) false)
      | .read pos va k => let b := s.copyRead g (va, k); (s.copyTook g o (va, k)).copyWrite g o [(o.par 1 + pos, k)] b.1 b.2) s
    let s := s.perf g 7 ((pieces.map (fun x => match x with | .data _ bs => bs.length | .read _ _ k => k)).foldl (· + ·) 0)
    match s.op o.id with
    | none => s
    | some o =>
      if q < stop || o.held then s.landed o { o with pos := q }
      else
        match entries.2 with
        | some f =>
          let s := s.landed o { o with pos := q }
          match s.op o.id with
          | some o => (s.logEngine g 1 0 f).faultOp o (o.runFault f) q
          | none => s
        | none => s.endCopy o

/-- COPY_CHUNK (R272, R275): the next chunk of a copy, or the end of one that its barrier abandoned. -/
def execCopyChunk (op : Nat) (s : State) : Host.Outcome State Fault Refusal :=
  match s.op op with
  | none => .fault .notEnabled
  | some o =>
    match s.stepper o with
    | none => .fault .notEnabled
    | some g =>
      if o.eng != 1 || !s.priorDone o then .fault .notEnabled
      else if o.state == 5 then .next (s.completeOp o)
      else if o.state == 2 then .fault .notEnabled
      else if o.fn == 3 then if o.desc.length == 64 && !s.settled g.die then .fault .notEnabled else .next (s.tileChunk g o)
      else .next (s.linearChunk g o)

end Sys2Proof.Machine
end

