-- ==== Sys2Proof/Machine/Barrier.lean ====
section
/-!
DEFINITION. Named barriers and payload barriers (R318–R325): the instructions of major 0x0B and remote arrivals.
-/

namespace Sys2Proof.Machine

/-- A barrier of a gang after an operation: its waits that are over end, and its multicasts start (R275, R319). -/
def State.putBarrier (s : State) (gid n : Nat) (b : Barrier) : State :=
  (s.modGang gid (fun g => g.putBarrier n b)).startMulticasts gid

/-- Barrier N of a barrier instruction (R322). -/
def barN (w : XWord) : Nat := bits w.imm.toNat 0 7

/-- W2's fields outside N: OP in FN 5 alone, zero otherwise (R322). -/
def barRes (w : XWord) (red : Bool) : Bool :=
  w.nwb = 0 && !bit w.imm.toNat 7 && bits w.imm.toNat 12 20 == 0 && (red || bits w.imm.toNat 8 4 == 0) && (red || w.m6 = 0)

/-- The form of a barrier instruction by its operands. -/
def barForm (d a : Kind) (w : XWord) : Form := opForm d a .unused .unused true (barRes w false)

/-- BARNUM (R322). -/
def barNum (w : XWord) (x : Ctx) : Option FaultInfo := failIf (barN w ≥ x.g.kernel.barriers) (illegal 32)

/-- The damaged barrier that a use meets (R369). -/
def barDamage (w : XWord) (x : Ctx) : Option FaultInfo :=
  x.g.damaged 0 (barN w)

/-- The barrier that a barrier instruction names. -/
def Ctx.bar (x : Ctx) (w : XWord) : Barrier := x.g.barriers.getD (barN w) (Barrier.start 0)

/-- A barrier instruction: a control instruction whose checks are those of R322. -/
def runBar (form : Form) (w : XWord) (extra : Ctx → Option FaultInfo) (eff : Ctx → State → Eff) (s : State) :
    Host.Outcome State Fault Refusal :=
  runUniform true 12 (fun _ => form) w (fun x => firstFault [barNum w x, extra x, barDamage w x]) eff s

/-- Whether an acquire at crew scope may complete (R325): invalidations that reached the die are applied. -/
def State.acquired (s : State) (x : Ctx) : Bool := s.settled x.g.die && !s.acquirePending x.c.gid x.c.bundle

/-! ## bar.init, bar.arrive, bar.query (R322, R323) -/

/-- The effect of bar.init on a barrier. -/
def Barrier.init (b : Barrier) (n : Nat) : Barrier :=
  let b := if b.ab then { b with ab := false, arr := 0, red := none, payload := b.payload.map (fun _ => none) } else b
  let b := { b with count := n }
  if b.arr ≥ b.count then b.complete else b

/-- BAR_INIT (R322). -/
def execBarInit (w : XWord) (s : State) : Host.Outcome State Fault Refusal :=
  runBar (barForm .unused .scalar w) w
    (fun x => failIf (x.sn w.a9.toNat == 0 || x.sn w.a9.toNat > 4095) (illegal 36))
    (fun x s => .done (s.putBarrier x.c.gid (barN w) ((x.bar w).init (x.sn w.a9.toNat)))) s

/-- BAR_ARRIVE (R322): a release, then one arrival. -/
def execBarArrive (w : XWord) (s : State) : Host.Outcome State Fault Refusal :=
  runBar (barForm .scalar .unused w) w noExtra
    (fun x s =>
      if s.unreleased x then .hold 24
      else .done ((s.putBarrier x.c.gid (barN w) (x.bar w).arrive).setS x w.d9.toNat ((x.bar w).phase.setWidth 64))) s

/-- The state word of bar.query (R323). -/
def Barrier.word (b : Barrier) : W64 :=
  BitVec.ofNat 64 (b.phase.toNat + b.arr % 2 ^ 12 * 2 ^ 32 + b.count % 2 ^ 12 * 2 ^ 44 + ofBool b.ab * 2 ^ 56)

/-- BAR_QUERY (R323). -/
def execBarQuery (w : XWord) (s : State) : Host.Outcome State Fault Refusal :=
  runBar (barForm .scalar .unused w) w noExtra (fun x s => .done (s.setS x w.d9.toNat (x.bar w).word)) s

/-! ## Waits (R322, R324, R325) -/

/-- A wait for a phase: its result is written once the phase has completed and the acquire is done; it returns AB also where the barrier was
abandoned after its phase completed (R321). -/
def barWaitOn (x : Ctx) (w : XWord) (p : BitVec 32) (done : W64 → Bool → State → State) (s : State) : Eff :=
  let b := ((s.gang x.c.gid).bind (fun g => g.barriers[barN w]?)).getD (x.bar w)
  match x.q.wait with
  | .met n p v ab => if s.acquired x then .done (done v (ab || b.ab) s) else .wait (.met n p v ab) s
  | _ =>
    if !b.isComplete p then .wait (.barrier (barN w) p) s
    else if s.acquired x then .done (done b.result.2.1 b.ab s)
    else .wait (.met (barN w) p b.result.2.1 b.ab) s

/-- AB as a status (R322). -/
def abWord (ab : Bool) : W64 := BitVec.ofNat 64 (ofBool ab)

/-- The phase that the instruction waits on, once it has issued: its arrival is made and not repeated (R323), and the phase that
bar.wait read is fixed. -/
def Ctx.arrivedAt (x : Ctx) : Option (BitVec 32) :=
  match x.q.wait with
  | .barrier _ p => some p
  | .met _ p _ _ => some p
  | _ => none

/-- BAR_WAIT (R322). -/
def execBarWait (w : XWord) (s : State) : Host.Outcome State Fault Refusal :=
  runBar (barForm .scalar .scalar w) w noExtra
    (fun x s => barWaitOn x w (x.arrivedAt.getD ((x.b.readS w.a9.toNat).setWidth 32)) (fun _ ab s => s.setS x w.d9.toNat (abWord ab)) s) s

/-- BAR_MEET (R322): an arrival, then a wait on the phase arrived at. -/
def execBarMeet (w : XWord) (s : State) : Host.Outcome State Fault Refusal :=
  runBar (barForm .scalar .unused w) w noExtra
    (fun x s =>
      let done (_ : W64) (ab : Bool) (s : State) : State := s.setS x w.d9.toNat (abWord ab)
      match x.arrivedAt with
      | some p => barWaitOn x w p done s
      | none =>
        if s.unreleased x then .hold 24
        else barWaitOn x w (x.bar w).phase done (s.putBarrier x.c.gid (barN w) (x.bar w).arrive)) s

/-! ## Payload barriers (R324) -/

/-- OP of bar.red. -/
def redOp (w : XWord) : Nat := bits w.imm.toNat 8 4

/-- Whether OP and M6 of bar.red are among those of R324. -/
def redFnOk (w : XWord) : Bool :=
  redOp w ≤ 10 && (if redOp w == 8 then m6Within w 0x17 3 else if redOp w < 8 then w.m6 = 0 else bits w.m6.toNat 0 4 == 0 && !bit w.m6.toNat 5)

/-- REDOP and REDTWICE (R324), before the arrival. -/
def redFault (w : XWord) (x : Ctx) : Option FaultInfo :=
  if x.arrivedAt.isSome then none
  else
    let b := x.bar w
    firstFault [failIf (b.red.isSome && b.red != some (redOp w, w.m6.toNat)) (illegal 33),
      failIf ((b.payload[x.c.bundle]?).join).isSome (illegal 34)]

/-- A contribution of a bundle to the current phase. -/
def Barrier.contribute (b : Barrier) (op m6 k : Nat) (v : W64) : Barrier :=
  { b with red := some (op, m6), payload := setNth b.payload k (some v) }

/-- BAR_RED (R324). -/
def execBarRed (w : XWord) (s : State) : Host.Outcome State Fault Refusal :=
  runBar { opForm .pair .scalar .unused .unused (redFnOk w) (barRes w true) with result := false } w (redFault w)
    (fun x s =>
      let done (v : W64) (ab : Bool) (s : State) : State :=
        (s.setS x w.d9.toNat v).setS x (w.d9.toNat + 1) (abWord ab)
      match x.arrivedAt with
      | some p => barWaitOn x w p done s
      | none =>
        if s.unreleased x then .hold 24
        else
          let b := (x.bar w).contribute (redOp w) w.m6.toNat x.c.bundle (x.b.readS w.a9.toNat)
          barWaitOn x w (x.bar w).phase done (s.putBarrier x.c.gid (barN w) b.arrive)) s

/-! ## Remote arrivals (R323) -/

/-- BAR_ARRIVE_REMOTE (R323): a local arrival for the issuer's own rank, else one in transit, which follows every earlier
access of the bundle. -/
def execBarArriveRemote (w : XWord) (s : State) : Host.Outcome State Fault Refusal :=
  runBar (barForm .unused .scalar w) w noExtra
    (fun x s =>
      let k := x.b.readS w.a9.toNat
      match s.memberFault x.g k with
      | some f => .fault f s
      | none =>
        if k.toNat == x.g.rank then
          (if s.unreleased x then .hold 24
           else .done (s.putBarrier x.c.gid (barN w) (x.bar w).arrive))
        else
          match s.gangOfRank x.g.crew k.toNat with
          | none => .done s
          | some t => .done { s with nextId := s.nextId + 1
                                     remotes := s.remotes ++ [⟨s.nextId, x.seq, x.c.gid, x.c.bundle, t.gid, barN w⟩] }) s

/-- Whether a remote arrival may reach its target: the bundle's earlier accesses are performed, those of passes still to issue among them,
and so is, for the crew's die, what it had observed (R323, R339); and its earlier arrivals at the same barrier are made. -/
def State.remoteReady (s : State) (r : RemoteArr) : Bool :=
  s.memOps.all (fun m => !(m.gid == r.srcGid && m.bundle == r.srcBundle && m.seq < r.seq)) &&
  !s.restPending r.srcGid r.srcBundle (fun k _ _ => k < r.seq) &&
  (match s.gang r.dstGid with | some t => s.settled t.die | none => true) &&
  s.remotes.all (fun q => !(q.srcGid == r.srcGid && q.srcBundle == r.srcBundle && q.dstGid == r.dstGid &&
    q.barrier == r.barrier && q.id < r.id))

/-- REMOTE_ARRIVAL (R323); an arrival for a gang that has gone is lost with the gang's barriers. -/
def execRemoteArrival (arr : Nat) (s : State) : Host.Outcome State Fault Refusal :=
  match s.remotes.find? (fun r => r.id == arr) with
  | none => .fault .notEnabled
  | some r =>
    if !s.remoteReady r then .fault .notEnabled
    else
      let s := { s with remotes := s.remotes.filter (fun q => q.id != arr) }
      match (s.gang r.dstGid).bind (fun g => g.barriers[r.barrier]?) with
      | none => .next s
      | some b => .next (s.putBarrier r.dstGid r.barrier b.arrive)

end Sys2Proof.Machine
end

