-- ==== Sys2Proof/Machine/Group.lean ====
section
/-!
DEFINITION. Sharing groups (R133–R135): the instructions of major 0x0F.
-/

namespace Sys2Proof.Machine

/-- The gangs of a crew changed: every core holds a copy of the mask and of the windows (R133). -/
def State.modMembers (s : State) (cid : Nat) (f : Gang → Gang) : State :=
  { s with gangs := s.gangs.map (fun g => if g.crew == cid then f g else g) }

/-- The crew accesses to a rank of a crew that have not landed, when a condition picks one of their lanes (R135). -/
def State.accessesTo (s : State) (cid rank : Nat) (out : LaneReq → Bool) : List MemOp :=
  s.memOps.filter (fun o => o.space == 2 && o.rank == rank && o.lanes.any (fun r => r.status == 0 && out r) &&
    (match s.gang o.gid with | some g => g.crew == cid | none => false))

/-- The crew accesses to a rank of a crew that are checked, and so admitted, but belong to passes still to issue (R135, R228): the
issuer, the address and the size. -/
def State.plannedTo (s : State) (cid rank : Nat) : List (Nat × Nat × Nat) :=
  (s.gangs.filter (fun g => g.crew == cid && !g.retired)).flatMap (fun g =>
    ((List.range g.bundles.length).zip g.bundles).flatMap (fun b => if b.2.killed then [] else
      ((List.range b.2.subs.length).zip b.2.subs).flatMap (fun q =>
        match q.2.pass with
        | none => []
        | some p =>
          let x : Ctx := ⟨⟨g.gid, b.1, q.1, 0, p.rest, false, [], p.snap, p.base⟩, g, b.2, q.2⟩
          let ws := p.rest.map (fun j => (j, s.codeWords g j (b.2.offsetOf q.2)))
          (x.planeAccesses ws).flatMap (fun a =>
            if a.1.spaceOf g a.2.1 == 2 && a.2.1.toNat == rank then a.2.2.map (fun ea => (g.gid, ea.toNat, a.1.size)) else []))))

/-- Whether a gang has a crew access in a pass still to issue (R135). -/
def State.plansCrew (s : State) (g : Gang) : Bool :=
  (List.range (s.ranks g.crew)).any (fun r => (s.plannedTo g.crew r).any (fun a => a.1 == g.gid))

/-- The multicasts admitted to a rank of a crew that have not completed (R274). -/
def State.multicastsTo (s : State) (cid rank : Nat) : List EngOp :=
  s.ops.filter (fun o => o.eng == 1 && (o.fn == 5 || o.fn == 6) && o.state != 4 && bit (o.par 5) rank &&
    (match s.gang o.gid with | some g => g.crew == cid && g.rank != rank | none => false))

/-- Whether a load or atomic waits for an absent line of its target. -/
def State.awaits (s : State) (o : MemOp) (t : Gang) : Bool :=
  o.kind != 1 && (o.gate.any (fun r => r.1 == t.gid && !s.gatePresent r) || o.lanes.any (fun r => !s.viewPresent t r.va.toNat r.size))

/-- A remote load parked on an absent line of a gang that leaves completes with GROUP 1 (R135), charged to its first lane. -/
def State.unpark (s : State) (t : Gang) : State :=
  (s.accessesTo t.crew t.rank (fun _ => true)).foldl (fun s o =>
    if !s.awaits o t then s
    else
      let bad := (o.lanes.find? (fun r => !s.viewPresent t r.va.toNat r.size)).orElse (fun _ => o.lanes.head?)
      let lane := (bad.map LaneReq.lane).getD 0
      (s.modMemOp o.id (fun p => { p with lanes := p.lanes.map (fun r =>
        { r with status := if r.lane == lane then 4 else 3, err := [7, 1] }) })).resolveMem o.id) s

/-- A fence acq_rel at crew scope of the issuing bundle has completed (R135, R342). -/
def State.fenced (s : State) (x : Ctx) : Bool := !s.accessesPending x.c.gid x.c.bundle && s.settled x.g.die

/-- The form of a grp.* instruction (R134). -/
def grpForm (d a b : Kind) (w : XWord) : Form := opForm d a b .unused true (w.m6 = 0 && w.nwb = 0 && noImm w)

/-- The group mask as a gang holds it. -/
def State.maskOf (s : State) (gid : Nat) : W64 := BitVec.ofNat 64 (((s.gang gid).map (·.group)).getD 0)

/-- Whether the issuing sub-bundle waits in a grp.* whose change has been made. -/
def Ctx.updating (x : Ctx) : Bool := match x.q.wait with | .group _ _ _ => true | _ => false

/-- The wait after a grp.* has changed the members' copies, with what they held of the gang before. -/
def Ctx.changed (x : Ctx) (fence : Bool) : Wait :=
  match x.q.wait with
  | .group f m w => .group f m w
  | _ => .group fence (bit x.g.group x.g.rank) (x.g.windows.getD x.g.rank (0, 0x40000))

/-- The change of a grp.* taken back (R160). -/
def State.ungroup (s : State) (g : Gang) (member : Bool) (window : Nat × Nat) : State :=
  s.modMembers g.crew (fun h => { h with group := setBits h.group g.rank 1 (ofBool member), windows := setNth h.windows g.rank window })

/-- GRP_JOIN (R135). -/
def execGrpJoin (w : XWord) (s : State) : Host.Outcome State Fault Refusal :=
  runUniform true 12 (fun _ => grpForm .scalar .unused .unused w) w noExtra (fun x s =>
    if bit x.g.group x.g.rank && !x.updating then
      (if s.fenced x then .done (s.setS x w.d9.toNat (s.maskOf x.c.gid)) else .wait .fence s)
    else
    let s := if x.updating then s
      else s.modMembers x.g.crew (fun g =>
        { g with group := g.group ||| 1 <<< x.g.rank, windows := setNth g.windows x.g.rank (0, 0x40000) })
    if s.fenced x then .done (s.setS x w.d9.toNat (s.maskOf x.c.gid)) else .wait (x.changed true) s) s

/-- The end of grp.leave: once no crew access or multicast to the gang, and no crew access by it, is pending (R135, R274). -/
def leaveEnd (w : XWord) (x : Ctx) (s : State) : Eff :=
  let s := s.unpark x.g
  if (s.accessesTo x.g.crew x.g.rank (fun _ => true)).isEmpty && (s.plannedTo x.g.crew x.g.rank).isEmpty &&
      (s.multicastsTo x.g.crew x.g.rank).isEmpty && !(s.memOps.any (fun o => o.gid == x.c.gid && o.space == 2)) && !s.plansCrew x.g then
    .done (s.setS x w.d9.toNat (s.maskOf x.c.gid))
  else .wait (x.changed false) s

/-- GRP_LEAVE (R135). -/
def execGrpLeave (w : XWord) (s : State) : Host.Outcome State Fault Refusal :=
  runUniform true 12 (fun _ => grpForm .scalar .unused .unused w) w noExtra (fun x s =>
    if x.updating then leaveEnd w x s
    else if !s.fenced x then .wait .fence s
    else if !bit x.g.group x.g.rank then .done (s.setS x w.d9.toNat (s.maskOf x.c.gid))
    else leaveEnd w x (s.modMembers x.g.crew (fun g => { g with group := g.group &&& (2 ^ 64 - 1 - 1 <<< x.g.rank) }))) s

/-- GRP_QUERY (R135). -/
def execGrpQuery (w : XWord) (s : State) : Host.Outcome State Fault Refusal :=
  runUniform true 12 (fun _ => grpForm .scalar .unused .unused w) w noExtra
    (fun x s => .done (s.setS x w.d9.toNat (s.maskOf x.c.gid))) s

/-- The end of grp.publish: once no admitted access to the gang lies outside its new window (R135). -/
def publishEnd (a n : Nat) (x : Ctx) (s : State) : Eff :=
  let out (b k : Nat) : Bool := !(a ≤ b && b + k ≤ a + n)
  if (s.accessesTo x.g.crew x.g.rank (fun r => out r.va.toNat r.size)).isEmpty &&
      (s.plannedTo x.g.crew x.g.rank).all (fun p => !out p.2.1 p.2.2) &&
      (s.multicastsTo x.g.crew x.g.rank).all (fun o => (o.dst 0 o.total).all (fun r => !out r.1 r.2)) then .done s
  else .wait (x.changed false) s

/-- GRP_PUBLISH (R135). -/
def execGrpPublish (w : XWord) (s : State) : Host.Outcome State Fault Refusal :=
  runUniform true 12 (fun _ => grpForm .unused .scalar .scalar w) w
    (fun x => firstFault [failIf (x.sn w.a9.toNat % 128 != 0 || x.sn w.b9.toNat % 128 != 0) (alignFault (x.sn w.a9.toNat)),
      failIf (x.sn w.a9.toNat + x.sn w.b9.toNat > 0x40000) { cls := 7, sub := 5 }]) (fun x s =>
    let a := x.sn w.a9.toNat
    let n := x.sn w.b9.toNat
    if x.updating then publishEnd a n x s
    else if !s.fenced x then .wait .fence s
    else publishEnd a n x (s.modMembers x.g.crew (fun g => { g with windows := setNth g.windows x.g.rank (a, n) }))) s

end Sys2Proof.Machine
end

