-- ==== Sys2Proof/Machine/Launch.lean ====
section
/-!
DEFINITION. Launch packets and records (R95–R104), kernel image checks (R22–R25), leases and residency (R121–R123), join counters
(R109–R111), and the instructions of major 0x78 (R115–R119).
-/

namespace Sys2Proof.Machine

/-! ## Launch packets (R95–R97) -/

/-- PART. -/
def pkPart (p : List Byte) : Nat := fieldOf p 48 4
/-- CLASS. -/
def pkClass (p : List Byte) : Nat := fieldOf p 52 2
/-- NLEASE. -/
def pkLeases (p : List Byte) : Nat := fieldOf p 54 5
/-- PINMODE. -/
def pkPinMode (p : List Byte) : Nat := fieldOf p 59 2
/-- KVA. -/
def pkKva (p : List Byte) : W64 := wordOf p 64
/-- CREWS. -/
def pkCrews (p : List Byte) : Nat := fieldOf p 128 24
/-- GANGS plus one: the gangs of a crew. -/
def pkRanks (p : List Byte) : Nat := fieldOf p 152 6 + 1
/-- PINBASE. -/
def pkPinBase (p : List Byte) : Nat := fieldOf p 160 16
/-- DEADLINE. -/
def pkDeadline (p : List Byte) : Nat := fieldOf p 192 64
/-- JCVA. -/
def pkJc (p : List Byte) : Nat := fieldOf p 256 64
/-- SAVEVA. -/
def pkSave (p : List Byte) : Nat := fieldOf p 320 64
/-- LID. -/
def pkLid (p : List Byte) : W64 := wordOf p 640
/-- LEASEn as base and bytes (R96). -/
def pkLease (p : List Byte) (n : Nat) : W64 × Nat :=
  let w := fieldOf p (1024 + 64 * n) 64
  (BitVec.ofNat 64 (w / 65536 * 65536), (w % 65536 + 1) * 65536)

/-- A field of a packet changed. -/
def pkSet (p : List Byte) (lo len v : Nat) : List Byte := leBytes p.length (setBits (leNat p) lo len v)

/-- Check 20: a lease range breaks R96. -/
def leaseBad (r : W64 × Nat) : Bool := !vaLegal r.1.toNat || r.1.toNat % 2 ^ 54 + r.2 > 2 ^ 54

/-- A pinned segment of a partition (R131). -/
def State.segment (s : State) (part seg : Nat) : Option Segment := s.segs.find? (fun g => g.part == part && g.seg == seg)

/-- The segment that crew i of a packet names, none without one (R95). -/
def pkSegment (p : List Byte) (i : Nat) : Option Nat :=
  if pkPinMode p == 1 then some (pkPinBase p) else if pkPinMode p == 2 then some (pkPinBase p + i) else none

/-- Check 21: some crew names a segment that does not exist, or, queued whole on a die, one held elsewhere (R117). -/
def State.segmentBad (s : State) (p : List Byte) (die : Option Nat) : Bool :=
  let bad (n : Nat) : Bool := match s.segment (pkPart p) n with
    | none => true
    | some g => match die with | some d => g.die != d | none => false
  if pkPinMode p == 1 then bad (pkPinBase p)
  else if pkPinMode p == 2 then pkCrews p > 256 || (List.range (pkCrews p)).any (fun i => bad (pkPinBase p + i))
  else false

/-- The first failing check of R97; die names the die that a device-side launch is queued on, where Compass does not apply. -/
def State.packetCheck (s : State) (p : List Byte) (die : Option Nat) : Option Nat :=
  let fail (c : Bool) (n : Nat) : Option Nat := if c then some n else none
  let part := s.part (pkPart p)
  let checks : List (Option Nat) :=
    [fail (fieldOf p 0 32 != 0x4C504B31 || fieldOf p 32 16 != 1 || fieldOf p 61 3 != 0 || fieldOf p 158 2 != 0 || fieldOf p 176 16 != 0
        || leNat ((p.drop 88).take 40) != 0 || (List.range 16).any (fun i => pkLeases p ≤ i && fieldOf p (1024 + 64 * i) 64 != 0)) 16,
      fail (match part with | none => true | some q => q.resetting.isSome) 17,
      fail ((pkClass p ≥ 2) != (pkDeadline p != 0) || pkPinMode p == 3 || (pkPinMode p == 0 && pkPinBase p != 0)) 18,
      fail (pkLeases p > 16 || pkCrews p == 0 || pkSave p == 0 || (pkKva p).toNat % 256 != 0 || pkJc p % 16 != 0 || pkSave p % 4096 != 0) 19,
      fail ((List.range (pkLeases p)).any (fun i => leaseBad (pkLease p i))) 20,
      fail (s.segmentBad p die) 21,
      fail (die.isNone && pkPinMode p == 0 && (match part with | some q => q.weights.all (· == 0) | none => false)) 22]
  (checks.filterMap id).head?

/-! ## Compass (R99) -/

/-- W, the sum of the weights. -/
def sumOf (w : List Nat) : Nat := w.foldl (· + ·) 0

/-- The values of x below n that Compass gives to a die. -/
def compassBelow (w : List Nat) (d n : Nat) : Nat :=
  n / sumOf w * w.getD d 0 + min (n % sumOf w - sumOf (w.take d)) (w.getD d 0)

/-- Whether a record's list on a die holds crew i (R102). -/
def Record.has (r : Record) (d i : Nat) : Bool :=
  i < pkCrews r.packet &&
  (if r.mode == 0 then
    let x := (i + r.lseq) % sumOf r.wt
    let c := sumOf (r.wt.take d)
    c ≤ x && x < c + r.wt.getD d 0
  else r.mode == 1 || bit r.mask i)

/-- The first crew of a record's list at or after k. -/
def Record.from_ (r : Record) (d k : Nat) : Nat :=
  match (List.range (if r.mode == 0 then sumOf r.wt + 1 else if r.mode == 1 then 1 else 257)).find? (fun j => r.has d (k + j)) with
  | some j => k + j
  | none => pkCrews r.packet

/-! ## Records (R100–R103) -/

/-- A record before its acceptance. -/
def newRecord (packet : List Byte) (lkey lseq : Nat) (wt : List Nat) (mode mask n : Nat) (imageOk : Bool) : Record :=
  { packet := packet, lkey := lkey, lseq := lseq, wt := wt, arrival := 0, next := 0, left := n, ncrew := n, mode := mode, mask := mask,
    reserve := false, stoppedCrews := [], retired := 0, faulted := 0, imageOk := imageOk, placedAny := false, leads := false, lateSent := false,
    waitSince := none, saved := [] }

/-- A record as it lies in a ring entry (R102). -/
def Record.bytes (r : Record) : List Byte :=
  r.packet ++ leBytes 8 r.lseq ++ r.wt.map (fun w => BitVec.ofNat 8 w) ++ leBytes 8 r.arrival ++ leBytes 4 r.next ++ leBytes 4 r.left ++
    leBytes 4 r.ncrew ++ leBytes 4 r.mode ++ leBytes 32 r.mask ++ List.replicate 184 0

/-- A record read from a ring entry. -/
def recordOf (b : List Byte) (lkey : Nat) : Record :=
  { newRecord (b.take 256) lkey (leAt b 256 8) ((b.drop 264).take 8 |>.map (·.toNat)) (leAt b 292 1) (leAt b 296 32) (leAt b 288 4) false with
    arrival := leAt b 272 8, next := leAt b 280 4, left := leAt b 284 4 }

/-- A lease changed. -/
def State.modLease (s : State) (lkey : Nat) (f : Lease → Lease) : State :=
  { s with leases := s.leases.map (fun l => if l.lkey == lkey then f l else l) }

/-- The lease with a key. -/
def State.lease (s : State) (lkey : Nat) : Option Lease := s.leases.find? (fun l => l.lkey == lkey)

/-- A record of a launch counted on a die (R123). -/
def State.countRecord (s : State) (lkey d : Nat) (f : Nat → Nat) : State :=
  s.modLease lkey (fun l => { l with records := modNth l.records d f })

/-- A partition's ring on a die. -/
def Partition.ring (p : Partition) (d : Nat) : Ring := p.rings.getD d ⟨0, 0, 0, 0, [], []⟩

/-- A ring changed. -/
def State.modRing (s : State) (part d : Nat) (f : Ring → Ring) : State :=
  s.modPart part (fun p => { p with rings := modNth p.rings d f })

/-- The store entries that count against a partition's quota on a die (R101). -/
def State.quotaUsed (s : State) (part d : Nat) : Nat :=
  ((s.die d).store.filter (fun r => pkPart r.packet == part && !r.reserve)).length

/-- Whether a partition may put another record into a die's store: within its quota, and within the 8,192 entries less the reserve, which
a quota lowered below its use could otherwise exceed (R101). -/
def State.storeRoom (s : State) (p : Partition) (part d : Nat) : Bool :=
  s.quotaUsed part d < p.quota && ((s.die d).store.filter (fun r => !r.reserve)).length < 8192 - 256

/-- A record put into a die's store. -/
def State.pushRecord (s : State) (d : Nat) (r : Record) : State := s.modDie d (fun x => { x with store := x.store ++ [r] })

/-- The address of a ring entry. -/
def Ring.entryVa (r : Ring) (i : Nat) : Nat := r.va.toNat + 512 * ((r.head + i) % r.entries)

/-- Acceptance of a record by a die's front end, with the status of R103; reserve tells a triggered continuation (R111). A ring entry that
is due to take the record and cannot be written (no translation, or no write permission) leaves it with status 2 and nothing queued: R103 says
nothing of it. DESIGN CHOICE (log 90). -/
def State.accept (s : State) (d : Nat) (r : Record) (reserve : Bool) : State × Nat :=
  let part := pkPart r.packet
  match s.part part with
  | none => (s, 3)
  | some p =>
    let ring := p.ring d
    let r := { r with arrival := (s.die d).arrivals, next := r.from_ d 0 }
    let counted (s : State) : State := (s.modDie d (fun x => { x with arrivals := x.arrivals + 1 })).countRecord r.lkey d (· + 1)
    if s.storeRoom p part d && ring.count == 0 then (counted (s.pushRecord d r), 0)
    else if reserve && ((s.die d).store.filter (·.reserve)).length < 256 then (counted (s.pushRecord d { r with reserve := true }), 0)
    else if ring.count < ring.entries then
      match s.writeVa d part 1 (ring.entryVa ring.count) r.bytes with
      | none => (s, 2)
      | some s => (counted (s.modRing part d (fun q => { q with count := q.count + 1, lkeys := q.lkeys ++ [some r.lkey] })), 1)
    else (s, 2)

/-! ## Kernel images (R22–R25) -/

/-- The header of an image (R22) as the fields that the model keeps. -/
def kernelOf (kva : W64) (b : List Byte) : Kernel :=
  { kva := kva, planes := fieldOf b 48 3, width := 16 * 2 ^ fieldOf b 51 2, bundles := fieldOf b 53 5 + 1, v := 8 * fieldOf b 64 6,
    barriers := fieldOf b 70 7, atlas := fieldOf b 77 4, scratch := fieldOf b 96 32, accRows := fieldOf b 128 11,
    yieldMax := fieldOf b 139 14, stride := fieldOf b 160 32, codeLen := fieldOf b 192 32, entry := fieldOf b 224 32,
    codeOff := fieldOf b 256 32, dataOff := fieldOf b 288 32, dataLen := fieldOf b 320 32, imgLen := fieldOf b 400 32 }

/-- Whether two regions of an image overlap. -/
def overlap (a b : Nat × Nat) : Bool := a.2 != 0 && b.2 != 0 && a.1 < b.1 + b.2 && b.1 < a.1 + a.2

/-- Whether some two regions of a list overlap. -/
def overlaps : List (Nat × Nat) → Bool
  | [] => false
  | a :: as => as.any (overlap a) || overlaps as

/-- Whether IMGLEN obeys R22 and R23. -/
def imgLenOk (kva : W64) (n : Nat) : Bool :=
  n % 256 == 0 && n != 0 && n ≤ 0x4000000 && kva.toNat / 2 ^ 54 == (kva.toNat + n - 1) / 2 ^ 54

/-- Check 2: a field outside its range, or a layout rule of R23. -/
def layoutBad (k : Kernel) (b : List Byte) : Bool :=
  let anchOff := fieldOf b 352 32
  let anchN := fieldOf b 384 16
  let planes := (List.range k.planes).map (fun j => (k.codeOff + j * k.stride, k.codeLen))
  let regions := planes ++ [(k.dataOff, k.dataLen), (anchOff, 4 * anchN)]
  !(1 ≤ k.planes && k.planes ≤ 4) || fieldOf b 51 2 == 3 || !(8 ≤ k.v && k.v ≤ 256) || k.barriers > 96 || k.atlas > 8 ||
  k.scratch % 128 != 0 || k.scratch > 0x40000 || k.accRows > 1024 || k.yieldMax == 0 ||
  (if k.planes == 1 then k.stride != 0 else k.stride % 256 != 0 || k.stride < k.codeLen) ||
  k.codeLen % 4 != 0 || k.codeLen == 0 || k.entry % 4 != 0 || k.entry ≥ k.codeLen || k.codeOff % 256 != 0 || k.codeOff < 128 ||
  (k.dataLen == 0 && k.dataOff != 0) || (anchN == 0 && anchOff != 0) || anchN > 4096 || !imgLenOk k.kva k.imgLen ||
  regions.any (fun r => r.1 + r.2 > k.imgLen) || overlaps regions

/-- Check 3: a shape that R4 or a core's register file does not allow. -/
def shapeBad (k : Kernel) : Bool := k.bundles > 32 || k.bundles * (k.width * k.v) > 65536

/-- The words of the instruction at an offset of a plane (R27), cut at CODELEN. -/
def State.wordsAt (s : State) (part : Nat) (k : Kernel) (plane off : Nat) : Option (List Byte) :=
  let a := k.kva.toNat + k.codeOff + plane * k.stride + off
  match s.runs part 0 a 4 with
  | none => none
  | some rs =>
    let n := 4 * Decode.lenWords (leAt (s.readRuns rs) 0 1 % 4)
    (s.runs part 0 a (min n (k.codeLen - off))).map s.readRuns

/-- Check 4: anchors out of order or range, or whose instructions differ between planes (R24). Two equal offsets are not in ascending
order: R24 does not say whether they are. A table that cannot be read (a resident page without RD) fails the check, and code of an anchor
that can be read in no plane counts as equal: R25 speaks of neither. DESIGN CHOICE (log 25). -/
def State.anchorsBad (s : State) (part : Nat) (k : Kernel) (b : List Byte) : Bool :=
  let n := fieldOf b 384 16
  match s.runs part 0 (k.kva.toNat + fieldOf b 352 32) (4 * n) with
  | none => n != 0
  | some rs =>
    let bs := s.readRuns rs
    let as := (List.range n).map (fun i => leAt bs (4 * i) 4)
    (as.zip as.tail).any (fun p => p.1 ≥ p.2) || as.any (fun a => a % 4 != 0 || a ≥ k.codeLen ||
      (List.range k.planes).any (fun j => s.wordsAt part k j a != s.wordsAt part k 0 a))

/-- The header bytes of an image, none when they cannot be read. -/
def State.headerOf (s : State) (part : Nat) (kva : W64) : Option (List Byte) := (s.runs part 0 kva.toNat 128).map s.readRuns

/-- The first failing check of R25, 1 to 4; an image whose header cannot be read fails the first. -/
def State.imageCheck (s : State) (part : Nat) (kva : W64) : Option Nat :=
  match s.headerOf part kva with
  | none => some 1
  | some b =>
    let k := kernelOf kva b
    if fieldOf b 0 32 != 0x4D484B31 || fieldOf b 32 16 != 1 || fieldOf b 58 6 != 0 || fieldOf b 81 15 != 0 || fieldOf b 153 7 != 0 ||
        leNat (b.drop 54) != 0 then some 1
    else if layoutBad k b then some 2
    else if shapeBad k then some 3
    else if s.anchorsBad part k b then some 4
    else none

/-- The virtual ranges that the checks of R25 read, in their order, as far as they come (R24, R25). -/
def State.imageReads (s : State) (part : Nat) (kva : W64) : List (Nat × Nat) :=
  (kva.toNat, 128) ::
  (match s.headerOf part kva with
  | none => []
  | some b =>
    let k := kernelOf kva b
    let n := fieldOf b 384 16
    let anchors := (kva.toNat + fieldOf b 352 32, 4 * n)
    if layoutBad k b || shapeBad k || n == 0 then []
    else
      anchors :: (match s.runs part 0 anchors.1 anchors.2 with
      | none => []
      | some rs =>
        let bs := s.readRuns rs
        (List.range n).flatMap (fun i =>
          let a := leAt bs (4 * i) 4
          if a ≥ k.codeLen then []
          else (List.range k.planes).map (fun j => (kva.toNat + k.codeOff + j * k.stride + a, min 20 (k.codeLen - a))))))

/-- What the checks of an image leave: the translations and lines of what they read, and an entry for the first read that is refused,
made by the home agent of its page (R19, R25, R136). DEDUCED (log 35). -/
def State.tookImage (s : State) (d part : Nat) (kva : W64) : State :=
  let rs := s.imageReads part kva
  match rs.find? (fun r => (s.runs part 0 r.1 r.2).isNone) with
  | some r =>
    let a := s.firstBad part 0 r.1 r.2
    s.logAccess part a (homeAgent part a) 5 0 d
  | none => rs.foldl (fun s r => s.useRange d part 0 r.1 r.2) s

/-- Check 23 (R129): a pinned segment, of a crew that the die's record holds, whose rank count or size does not fit. -/
def State.pinBad (s : State) (d : Nat) (r : Record) (k : Kernel) : Bool :=
  let bad (n : Nat) : Bool := match s.segment (pkPart r.packet) n with
    | none => false
    | some g => g.cores.length != pkRanks r.packet || k.scratch + g.ps > 0x40000
  if pkPinMode r.packet == 1 then bad (pkPinBase r.packet)
  else if pkPinMode r.packet == 2 then (List.range (pkCrews r.packet)).any (fun i => r.has d i && bad (pkPinBase r.packet + i))
  else false

/-- A REJECT notice (R113). -/
def State.reject (s : State) (d : Nat) (packet : List Byte) (check : Nat) : State :=
  s.notice 2 (pkPart packet) d check (pkLid packet) []

/-- A record removed from the store. -/
def State.dropRecord (s : State) (d arrival : Nat) : State :=
  match s.record d arrival with
  | none => s
  | some r => (s.modDie d (fun x => { x with store := x.store.filter (fun q => q.arrival != arrival) })).countRecord r.lkey d (· - 1)

/-- The checks of R25 and R129 of a record whose launch is resident: it becomes eligible, or is discarded. -/
def State.vetRecord (s : State) (d : Nat) (r : Record) : State :=
  match s.lease r.lkey with
  | none => s
  | some l =>
    if r.imageOk || !(l.holds.all (· == 1)) then s
    else
      let check := s.imageCheck l.part l.kva
      let s := s.tookImage d l.part l.kva
      match check with
      | some n => (s.dropRecord d r.arrival).reject d r.packet n
      | none =>
        match s.headerOf l.part l.kva with
        | none => s
        | some b =>
          if s.pinBad d r (kernelOf l.kva b) then (s.dropRecord d r.arrival).reject d r.packet 23
          else s.modRecord d r.arrival (fun q => { q with imageOk := true })

/-- Records moved from the head of a ring into the store while the quota has room (R103); discarded ones are passed over. -/
def State.drainRing (part d : Nat) : Nat → State → State
  | 0, s => s
  | fuel + 1, s =>
    match s.part part with
    | none => s
    | some p =>
      let ring := p.ring d
      let pop (s : State) : State := s.modRing part d (fun q =>
        { q with head := (q.head + 1) % q.entries, count := q.count - 1, lkeys := q.lkeys.tail })
      let took (s : State) (r : Record) : State := (pop (s.pushRecord d { r with lateSent := ring.late.contains r.arrival })).modRing part d
        (fun q => { q with late := q.late.filter (· != r.arrival) })
      if ring.count == 0 then s
      else
        match (ring.lkeys.head?).join with
        | none => State.drainRing part d fuel (pop s)
        | some lkey =>
          if !s.storeRoom p part d then s
          else
            match s.runs part 0 (ring.entryVa 0) 512 with
            | none => s
            | some rs =>
              let r := recordOf (s.readRuns rs) lkey
              State.drainRing part d fuel ((took (s.useRange d part 0 (ring.entryVa 0) 512) r).vetRecord d r)

/-- The ring of a partition on a die drained as far as it goes. -/
def State.drain (s : State) (part d : Nat) : State :=
  match s.part part with
  | none => s
  | some p => State.drainRing part d (p.ring d).count s

/-- The rings of every partition on a die drained, one first: an entry freed may be the one that another waits for (R101, R103). -/
def State.drainAll (s : State) (part d : Nat) : State := (part :: List.range 16).foldl (fun s p => s.drain p d) s

/-- The record of a ring entry, counted from the head; none once it has been discarded (R102). -/
def State.ringRecord (s : State) (part d i : Nat) : Option Record :=
  match s.part part with
  | none => none
  | some p =>
    let ring := p.ring d
    match (ring.lkeys[i]?).join, s.runs part 0 (ring.entryVa i) 512 with
    | some lkey, some rs =>
      let r := recordOf (s.readRuns rs) lkey
      some { r with lateSent := ring.late.contains r.arrival }
    | _, _ => none

/-- The records in the rings of a die, with their partitions. -/
def State.ringRecords (s : State) (d : Nat) : List (Nat × Record) :=
  (List.range 16).flatMap (fun part =>
    let n := match s.part part with | some p => (p.ring d).count | none => 0
    (List.range n).filterMap (fun i => (s.ringRecord part d i).map (fun r => (part, r))))

/-- Every record of a launch discarded with a check, from stores and rings (R122). -/
def State.discardLaunch (s : State) (l : Lease) (check : Nat) : State :=
  (List.range 8).foldl (fun s d =>
    let s := ((s.die d).store.filter (fun r => r.lkey == l.lkey)).foldl (fun s r => (s.dropRecord d r.arrival).reject d r.packet check) s
    let n := match s.part l.part with | some p => ((p.ring d).lkeys.filter (· == some l.lkey)).length | none => 0
    let s := (List.range n).foldl (fun s _ => (s.countRecord l.lkey d (· - 1)).notice 2 l.part d check l.lid []) s
    (s.modRing l.part d (fun q => { q with lkeys := q.lkeys.map (fun k => if k == some l.lkey then none else k) })).drainAll l.part d) s

/-! ## Residency (R121, R122) -/

/-- Whether a page has a valid leaf: 0 valid, 1 missing, 2 malformed; a page of the expanded view needs none and is never walked
(R120, R121). -/
def State.pageState (s : State) (p : Partition) (va : Nat) : Nat :=
  if vaIsXv va then 0 else if !vaLegal va then 1 else match s.walk p va with | .leaf _ _ _ => 0 | .invalid => 1 | .malformed => 2

/-- The runs of missing pages among n from a page, and whether a walk met a malformed entry. -/
def State.missingPages (s : State) (p : Partition) (va : Nat) : Nat → List (Nat × Nat) × Bool
  | 0 => ([], false)
  | n + 1 =>
    let r := s.missingPages p (va + 65536) n
    let st := s.pageState p va
    if st == 1 then
      match r.1 with
      | (a, k) :: rest => (if a == va + 65536 then (va, k + 1) :: rest else (va, 1) :: r.1, r.2)
      | [] => ([(va, 1)], r.2)
    else (r.1, r.2 || st == 2)

/-- The pages of a span that lie below the expanded view of their die (R120, R121). -/
def plainPages (a n : Nat) : Nat := min n ((2 ^ 53 - a % 2 ^ 54) / 65536)

/-- The page spans of a lease on a die, as first VA and pages: its ranges outside the expanded view, and the image as far as it is known
(R121). -/
def Lease.spans (l : Lease) (d : Nat) : List (Nat × Nat) :=
  let ranges := (l.ranges.filter (fun r => vaDie r.1.toNat == d)).map (fun r => (r.1.toNat, plainPages r.1.toNat (r.2 / 65536)))
  let a := l.kva.toNat / 65536 * 65536
  let n := if l.headed && l.imgLen != 0 then (l.kva.toNat + l.imgLen - 1) / 65536 - l.kva.toNat / 65536 + 1 else 1
  if vaDie l.kva.toNat == d then (a, plainPages a n) :: ranges else ranges

/-- One RESIDE sent for a run of missing pages, and remembered. -/
def State.askPages (s : State) (l : Lease) (d : Nat) (run : Nat × Nat) : State :=
  let id := s.link.txMsg
  let t := s.devtimeOf d
  (s.send (.reside id d l.part (BitVec.ofNat 64 run.1) run.2)).modLease l.lkey (fun q => { q with shares := modNth q.shares d (fun h =>
    { h with resides := h.resides ++ [(id, BitVec.ofNat 64 run.1, run.2)], first := some (h.first.getD t) }) })

/-- A die's share of a lease held as failed. -/
def State.failShare (s : State) (lkey d : Nat) : State :=
  s.modLease lkey (fun l => { l with shares := modNth l.shares d (fun h => { h with status := 2 }) })

/-- Page spans of a die's share walked: a malformed entry fails it, and each run of missing pages is asked for. -/
def State.reside (s : State) (l : Lease) (d : Nat) (spans : List (Nat × Nat)) : State :=
  match s.part l.part with
  | none => s
  | some p =>
    spans.foldl (fun s q =>
      let r := s.missingPages p q.1 q.2
      r.1.foldl (fun s run => s.askPages l d run) (if r.2 then s.failShare l.lkey d else s)) s

/-- The image's header read once its page is valid, and the rest of the image then walked (R121). -/
def State.readHeader (s : State) (lkey d : Nat) : State :=
  match s.lease lkey with
  | none => s
  | some l =>
    if l.headed || vaDie l.kva.toNat != d then s
    else
      match s.part l.part with
      | none => s
      | some p =>
        if s.pageState p (l.kva.toNat / 65536 * 65536) != 0 then s
        else
          let n := match s.headerOf l.part l.kva with | some b => fieldOf b 400 32 | none => 0
          let l' := { l with headed := true, imgLen := if imgLenOk l.kva n then n else 0 }
          let first := l.kva.toNat / 65536
          let s := s.modLease lkey (fun _ => l')
          if l'.imgLen == 0 then s
          else s.reside l' d [((first + 1) * 65536, (l.kva.toNat + l'.imgLen - 1) / 65536 - first)]

/-- The leases of a launch begun: every die walks what it owns (R121). -/
def State.openLease (s : State) (lkey : Nat) (p : List Byte) : State :=
  let l : Lease :=
    { lkey := lkey, part := pkPart p, lid := pkLid p, kva := pkKva p, imgLen := 0, ranges := (List.range (pkLeases p)).map (pkLease p),
      shares := List.replicate 8 ⟨0, [], none⟩, holds := List.replicate 8 0, headed := false, records := List.replicate 8 0,
      reported := [] }
  let s := { s with leases := s.leases ++ [l] }
  (List.range 8).foldl (fun s d => (s.reside l d (l.spans d)).readHeader lkey d) s

/-- The lease and die of an outstanding RESIDE. -/
def State.resideOf (s : State) (id : MsgId) : Option (Lease × Nat × (W64 × Nat)) :=
  (s.leases.flatMap (fun l => (List.range 8).filterMap (fun d =>
    ((l.shares.getD d ⟨0, [], none⟩).resides.find? (fun r => r.1 == id)).map (fun r => (l, d, r.2))))).head?

/-- An answered RESIDE forgotten. -/
def State.dropReside (s : State) (lkey d : Nat) (id : MsgId) : State :=
  s.modLease lkey (fun l => { l with shares := modNth l.shares d (fun h => { h with resides := h.resides.filter (fun r => r.1 != id) }) })

/-- RESIDE_OK (R121): the run is walked again, and pages still missing are asked for anew. -/
def execResideOk (m : MsgId) (of : MsgId) (s : State) : Host.Outcome State Fault Refusal :=
  onMessage 1 0 s (fun s =>
    match s.resideOf of with
    | none => s.reply m 1
    | some (l, d, run) =>
      (((s.reply m 0).dropReside l.lkey d of).reside l d [(run.1.toNat, run.2)]).readHeader l.lkey d)

/-- RESIDE_FAIL (R121, R122): the lease is held as failed. -/
def execResideFail (m : MsgId) (of : MsgId) (s : State) : Host.Outcome State Fault Refusal :=
  onMessage 1 0 s (fun s =>
    match s.resideOf of with
    | none => s.reply m 1
    | some (l, d, _) => ((s.reply m 0).dropReside l.lkey d of).failShare l.lkey d)

/-- The pages of a die's share that have no valid leaf, and whether an entry is malformed. -/
def State.shareMissing (s : State) (l : Lease) (d : Nat) : Nat × Bool :=
  match s.part l.part with
  | none => (0, false)
  | some p => (l.spans d).foldl (fun a q => let r := s.missingPages p q.1 q.2; (a.1 + r.1.length, a.2 || r.2)) (0, false)

/-- A die's share of a lease that is still open. -/
def State.openShare (s : State) (lkey d : Nat) : Option (Lease × LeaseShare) :=
  match s.lease lkey with
  | none => none
  | some l => (l.shares[d]?).bind (fun h => if h.status == 0 then some (l, h) else none)

/-- RESIDE_TIMEOUT (R122): 1 s after the first RESIDE some page is still missing. -/
def execResideTimeout (die lkey : Nat) (s : State) : Host.Outcome State Fault Refusal :=
  match s.openShare lkey die with
  | none => .fault .notEnabled
  | some (l, h) =>
    match h.first with
    | none => .fault .notEnabled
    | some t =>
      if s.devtimeOf die < t + 1000000000 || (s.shareMissing l die).1 == 0 then .fault .notEnabled else .next (s.failShare lkey die)

/-- LEASE_READY (R122, R123, R25): the pages are pinned and the other dies told; once every die is ready, the records of the
launch are checked. -/
def execLeaseReady (die lkey : Nat) (s : State) : Host.Outcome State Fault Refusal :=
  match s.openShare lkey die with
  | none => .fault .notEnabled
  | some (l, h) =>
    if !h.resides.isEmpty || (vaDie l.kva.toNat == die && !l.headed) then .fault .notEnabled
    else
      let m := s.shareMissing l die
      if m.2 then .next (s.failShare lkey die)
      else if m.1 != 0 then .next (s.reside l die (l.spans die))
      else
        let s := s.modLease lkey (fun l => { l with shares := modNth l.shares die (fun h => { h with status := 1 }), holds := setNth l.holds die 1 })
        .next ((List.range 8).foldl (fun s d =>
          (((s.die d).store.filter (fun r => r.lkey == lkey)).foldl (fun s r => s.vetRecord d r) s).drainAll l.part d) s)

/-- LEASE_FAIL (R122): every die that holds a record of the launch discards it with check 24. -/
def execLeaseFail (die lkey : Nat) (s : State) : Host.Outcome State Fault Refusal :=
  match s.lease lkey with
  | none => .fault .notEnabled
  | some l =>
    if die ≥ 8 || ((l.shares[die]?).map (·.status)) != some 2 || l.holds.getD die 0 == 2 then .fault .notEnabled
    else .next ((s.modLease lkey (fun l => { l with holds := setNth l.holds die 2 })).discardLaunch l 24)

/-- LEASE_SHARE_REPORT (R123): a die without a record of the launch reports to another; the last report unpins its pages. -/
def execLeaseShareReport (src die lkey : Nat) (s : State) : Host.Outcome State Fault Refusal :=
  match s.lease lkey with
  | none => .fault .notEnabled
  | some l =>
    if src ≥ 8 || die ≥ 8 || l.records.getD src 0 != 0 || l.reported.contains (src, die) then .fault .notEnabled
    else
      let l' := { l with reported := (src, die) :: l.reported }
      let all := (List.range 8).all (fun d => l'.reported.contains (d, die))
      let l' := if all then { l' with shares := modNth l'.shares die (fun h => { h with status := 3, resides := [] }) } else l'
      if l'.shares.all (fun h => h.status == 3) then .next { s with leases := s.leases.filter (fun q => q.lkey != lkey) }
      else .next (s.modLease lkey (fun _ => l'))

/-! ## LAUNCH (R98–R104) -/

/-- A die's record of a Tikel launch: its mode, mask and number of crews (R99, R102). -/
def State.shareOf (s : State) (p : List Byte) (q : Partition) (d : Nat) : Nat × Nat × Nat :=
  let seg (n : Nat) : Bool := match s.segment (pkPart p) n with | some g => g.die == d | none => false
  if pkPinMode p == 0 then (0, 0, compassBelow q.weights d (q.lseq + pkCrews p) - compassBelow q.weights d q.lseq)
  else if pkPinMode p == 1 then (1, 0, if seg (pkPinBase p) then pkCrews p else 0)
  else
    let is := (List.range (pkCrews p)).filter (fun i => seg (pkPinBase p + i))
    (2, listMask is, is.length)

/-- A launch accepted: its leases, its LSEQ, and each die's share (R98, R104). -/
def State.launch (s : State) (p : List Byte) (q : Partition) : State :=
  let key := s.nextId
  let s := ({ s with nextId := s.nextId + 1 }.openLease key p).modPart (pkPart p) (fun y => { y with lseq := (y.lseq + 1) % 2 ^ 64 })
  (List.range 8).foldl (fun s d =>
    let sh := s.shareOf p q d
    if sh.2.2 == 0 then s
    else
      let a := s.accept d (newRecord p key (if sh.1 == 0 then q.lseq else 0) (if sh.1 == 0 then q.weights else List.replicate 8 0) sh.1 sh.2.1 sh.2.2 false) false
      if a.2 == 2 then a.1.notice 3 (pkPart p) d 2 (pkLid p) (leBytes 3 sh.2.2) else a.1) s

/-- LAUNCH (R97, R98): refused by CD0's REJECT, or accepted by every die and answered by a REPLY with status 0 (R12). -/
def execLaunch (m : MsgId) (packet : List Byte) (s : State) : Host.Outcome State Fault Refusal :=
  onMessage 1 (pkLid packet) s (fun s =>
    match s.packetCheck packet none, s.part (pkPart packet) with
    | some n, _ => s.reject 0 packet n
    | none, some q => (s.reply m 0).launch packet q
    | none, none => s.refuse m)

/-! ## Join counters (R109–R111) -/

/-- A whole launch queued on one die under MODE 1 with leases of its own (R117, R123). -/
def State.queueWhole (s : State) (d : Nat) (p : List Byte) (reserve : Bool) : State × Nat :=
  let key := s.nextId
  let a := { s with nextId := s.nextId + 1 }.openLease key p
  let r := a.accept d (newRecord p key 0 (List.replicate 8 0) 1 0 (pkCrews p) false) reserve
  if r.2 ≤ 1 then r else (s, r.2)

/-- CONT_LOST (R111, R113). -/
def State.contLost (s : State) (part d va : Nat) (cont : W64) (detail : Nat) : State :=
  s.notice 8 part d detail 0 (leBytes 8 va ++ leBytes 8 cont.toNat)

/-- A triggered continuation (R111): its packet is read by the home die, as an acquire; a packet that cannot be read, or not at a
multiple of 64, is lost with a detail that no rule gives (log 18), and a refused read is logged for the home agent of its page (R19;
log 35). A packet whose PART is not the counter's partition is lost too, after checks 16 to 22 and with detail 17, the check of R97 that
concerns PART: R111 gives neither. DESIGN CHOICE (log 91). -/
def State.continuation (s : State) (part va : Nat) (cont : W64) : State :=
  let d := vaDie va
  let lost (s : State) : State := let w := s.draw; w.2.contLost part d va cont (w.1.toNat % 65536)
  if cont.toNat % 64 != 0 then lost s
  else
    match s.readAny part 1 cont.toNat 256 with
    | .error f => lost (if f.cls == 5 then s.logAccess part f.addr (homeAgent part f.addr) 5 0 d else s)
    | .ok p =>
      let s := (s.useRange d part 0 cont.toNat 256).hearRange d cont.toNat
      match s.packetCheck p (some d) with
      | some n => s.contLost part d va cont n
      | none =>
        if pkPart p != part then s.contLost part d va cont 17
        else
          let r := s.queueWhole d p true
          if r.2 ≤ 1 then r.1 else r.1.contLost part d va cont r.2

/-- jc_apply (R110) for an agent of a die: the counter, the trigger, and the underflow; none when the counter cannot be accessed. The
request carries the die's clock to the home (R109, R339). -/
def State.jcApply (s : State) (die part va : Nat) (delta : W64) : Option (State × W64) :=
  match s.runs part 2 va 16 with
  | none => none
  | some rs =>
    let bs := s.readRuns rs
    let old := BitVec.ofNat 64 (leAt bs 0 8)
    let cont := BitVec.ofNat 64 (leAt bs 8 8)
    let new := old + delta
    let s := (s.useRange die part 0 va 16).writeRuns none rs (leBytes 8 new.toNat ++ leBytes 8 cont.toNat)
    let s := if (0 : W64).slt old && new == 0 && cont != 0 then s.continuation part va cont else s
    let s := if !(old.slt 0) && new.slt 0 then
        s.notice 9 part (vaDie va) 0 0 (leBytes 8 va ++ leBytes 8 old.toNat ++ leBytes 8 delta.toNat)
      else s
    some (s, old)

/-! ## Instructions (R115–R119) -/

/-- The record of a gang's task. -/
def State.taskOf (s : State) (g : Gang) : Option Record := (s.crew g.crew).bind (fun c => s.record c.die c.arrival)

/-- Whether a partition takes launches from its own work now (R114). -/
def State.pushable (s : State) (part : Nat) : Bool := match s.part part with | some p => p.resetting.isNone | none => false

/-- The packet of a spawned launch (R116). -/
def childPacket (p : List Byte) (n : Nat) (arg jc : W64) : List Byte :=
  pkSet (pkSet (pkSet (pkSet (pkSet p 128 24 n) 384 64 arg.toNat) 256 64 jc.toNat) 59 2 0) 160 16 0

/-- SPAWN (R116). -/
def execSpawn (w : XWord) (s : State) : Host.Outcome State Fault Refusal :=
  runUniform false 12 (fun _ => opForm .scalar .scalar .scalar .scalar true (w.m6 = 0 && w.nwb = 0 && noImm w)) w noExtra (fun x s =>
    let n := x.sn w.a9.toNat
    let put (s : State) (v : Nat) : Eff := .done (s.setS x w.d9.toNat (BitVec.ofNat 64 v))
    if n == 0 || n > 0xFFFFFF then put s 3
    else if x.sn w.c9.toNat % 16 != 0 then .fault (alignFault (x.sn w.c9.toNat)) s
    else if s.unreleased x then .hold 24
    else
      match s.taskOf x.g with
      | none => put s 3
      | some r =>
        if !s.pushable x.g.part then put s 3
        else
          let a := s.accept x.g.die (newRecord (childPacket r.packet n (x.s w.b9.toNat) (x.s w.c9.toNat)) r.lkey 0 (List.replicate 8 0) 1 0 n true) false
          put a.1 a.2) s

/-- LAUNCH_INSTRUCTION (R117). -/
def execLaunchInstruction (w : XWord) (s : State) : Host.Outcome State Fault Refusal :=
  runUniform false 12 (fun _ => opForm .scalar .scalar .unused .unused true (w.m6 = 0 && w.nwb = 0)) w noExtra (fun x s =>
    let va := (x.b.readS w.a9.toNat + w.imm.signExtend 64).toNat
    let put (s : State) (v : Nat) : Eff := .done (s.setS x w.d9.toNat (BitVec.ofNat 64 v))
    if va % 64 != 0 then .fault (alignFault va) s
    else
      match s.acquireRead x va 256 with
      | .wait r => .hold (if r == 31 then 31 else 24)
      | .fault f s => .fault f s
      | .bytes p s =>
        let s := s.seeRead x false va p
        let own := ((s.taskOf x.g).map (fun r => pkClass r.packet)).getD 0
        if (s.packetCheck p (some x.g.die)).isSome || pkPart p != x.g.part || pkClass p > own || !s.pushable x.g.part then put s 3
        else
          let a := s.queueWhole x.g.die p false
          put a.1 a.2) s

/-- The watch event of a join-counter access (R382). -/
def Ctx.jcEvent (x : Ctx) (kind addr : Nat) : WatchEvent :=
  { gid := x.c.gid, bundle := x.c.bundle, part := x.g.part, space := 0, kind := kind, agent := 1, plane := some x.c.plane, lane := none,
    addr := addr, data := [], exc := 0, offset := x.offset, opnum := 0, op := none }

/-- The form of jc.init and jc.add (R115). -/
def jcForm (d c : Kind) (w : XWord) : Form := opForm d .scalar .scalar c true (w.m6 = 0 && w.nwb = 0)

/-- The checks of a join counter's address by an instruction (R118, R119). -/
def State.jcFault (s : State) (x : Ctx) (kind va : Nat) : Option FaultInfo :=
  firstFault [failIf (va % 16 != 0) (alignFault va), s.checkAccess x.g kind va 16]

/-- JC_INIT (R118). -/
def execJcInit (w : XWord) (s : State) : Host.Outcome State Fault Refusal :=
  runUniform false 12 (fun _ => jcForm .unused .scalar w) w noExtra (fun x s =>
    let va := (x.b.readS w.a9.toNat + w.imm.signExtend 64).toNat
    match s.jcFault x 1 va with
    | some f => .fault f (s.logFault x.g 1 f)
    | none =>
      if s.unreleased x then .hold 24
      else
        let bs := leBytes 8 (x.sn w.b9.toNat) ++ leBytes 8 (x.sn w.c9.toNat)
        match s.writeGang x.g 1 va bs with
        | .error f => .fault f s
        | .ok s => .done (s.seeGlobal (x.jcEvent 1 va) 16 bs)) s

/-- JC_ADD (R119): acquire-release at device scope. It waits, besides its own die, for its home die's invalidations, which a continuation
that it triggers acquires (R111, R339). The response carries the home's clock, and the core's own copies of the counter are dropped
before it (R236). -/
def execJcAdd (w : XWord) (s : State) : Host.Outcome State Fault Refusal :=
  runUniform false 12 (fun _ => jcForm .scalar .unused w) w noExtra (fun x s =>
    let va := (x.b.readS w.a9.toNat + w.imm.signExtend 64).toNat
    match s.jcFault x 2 va with
    | some f => .fault f (s.logFault x.g 2 f)
    | none =>
      if s.unreleased x || !s.settled (vaDie va) then .hold 22
      else if (match s.runs x.g.part 2 va 16 with | some rs => s.poisonedRuns rs | none => false) then .fault (poisonFault 1 va) s
      else
        let rs := (s.runs x.g.part 2 va 16).getD []
        match s.jcApply x.g.die x.g.part va (x.s w.b9.toNat) with
        | none => .fault (protFault va) s
        | some r =>
          let s := (r.1.dropOwn x.g rs).hearRange x.g.die va
          let new := leBytes 8 (r.2 + x.s w.b9.toNat).toNat
          .done ((s.seeGlobal (x.jcEvent 2 va) 16 new).setS x w.d9.toNat r.2)) s

end Sys2Proof.Machine
end

