-- ==== Sys2Proof/Machine/Scan.lean ====
section
/-!
DEFINITION. The scan engine and the Meridian network (R299–R317): operator programs, prefixes, carries, and the instructions of
major 0x77.
-/

namespace Sys2Proof.Machine

/-! ## Operator programs (R300, R301) -/

/-- Components per element of a program. -/
def progK (p : List W32) : Nat := bits (p.headD 0).toNat 0 2 + 1

/-- Steps of a program's header. -/
def progSteps (h : Nat) : Nat := bits h 2 3 + 1

/-- Whether a step word is valid (R310). -/
def stepOk (w : W32) : Bool :=
  let n := w.toNat
  bits n 0 5 ≤ 11 && bits n 7 4 ≤ 13 && bits n 11 4 ≤ 13 && bits n 15 4 ≤ 13 && bits n 19 13 == 0

/-- The index of the first word of a program that fails validation (R310). -/
def progBad (p : List W32) : Option Nat :=
  let h := (p.headD 0).toNat
  if bits h 5 3 > 3 || bits h 9 23 != 0 then some 0
  else (findIdx (fun w => !stepOk w) p.tail).map (fun q => q.1 + 1)

/-- One operation of a step (R300). -/
def scanOp (mode : RMode) (ftz : Bool) (opc : Nat) (a b c : W32) : W32 :=
  let v (x : W32) : FVal := readFloat fp32 ftz x.toNat
  let f (r : FVal × Bool) : W32 := BitVec.ofNat 32 (deliverFloat fp32 mode false ftz r).1
  if opc == 0 then f (fsumExact mode (v a) (v b))
  else if opc == 1 then f (fmulExact (v a) (v b))
  else if opc == 2 then f (ffmaExact mode (v a) (v b) (v c))
  else if opc == 3 then BitVec.ofNat 32 (fminmax fp32 ftz false false a.toNat b.toNat)
  else if opc == 4 then BitVec.ofNat 32 (fminmax fp32 ftz true false a.toNat b.toNat)
  else if opc == 5 then a
  else if opc == 6 then a + b
  else if opc == 7 then (if a.slt b then b else a)
  else if opc == 8 then (if a.slt b then a else b)
  else if opc == 9 then a &&& b else if opc == 10 then a ||| b else a ^^^ b

/-- A source of a step: components of x and y at or above K read 0 (R301). -/
def scanSrc (k : Nat) (x y w : List W32) (code : Nat) : W32 :=
  if code < 4 then (if code < k then x.getD code 0 else 0)
  else if code < 8 then (if code - 4 < k then y.getD (code - 4) 0 else 0)
  else if code < 12 then w.getD (code - 8) 0
  else if code == 13 then 0x3F800000 else 0

/-- combine of R301. -/
def scanCombine (p : List W32) (x y : List W32) : List W32 :=
  let h := (p.headD 0).toNat
  let k := progK p
  let step (w : List W32) (s : W32) : List W32 :=
    let n := s.toNat
    let src (c : Nat) : W32 := scanSrc k x y w c
    setNth w (bits n 5 2) (scanOp (rmode (bits h 5 3)) (bit h 8) (bits n 0 5) (src (bits n 7 4)) (src (bits n 11 4)) (src (bits n 15 4)))
  (p.tail.foldl step [0, 0, 0, 0]).take k

/-! ## Contexts (R299, R302, R305) -/

/-- A scan context at gang start (R299). -/
def ScanCtx.start : ScanCtx :=
  { ops := [none, none, none, none], isOpen := false, published := false, epoch := 0, opslot := 0, nch := 0, first := 0, last := 0,
    init := 0, prog := [], g := [], carryIn := none, carryOut := none, sent := false, ports := [], outbox := [] }

/-- The words of a carry block that a channel's components take (R303). -/
def carryElem (nch k : Nat) (data : List W32) (c : Nat) : List W32 := (List.range k).map (fun j => data.getD (c + nch * j) 0)

/-- The words of a carry block from its channels' elements (R303). -/
def carryWords (nch k : Nat) (el : Nat → List W32) : List W32 :=
  (List.range k).flatMap (fun j => (List.range nch).map (fun c => (el c).getD j 0))

/-- The carry-out of R302 and R306, from the carry-in and the running values. -/
def ScanCtx.formOut (c : ScanCtx) (i : CarryBlock) : CarryBlock :=
  let k := progK c.prog
  let out (status : Nat) (data : List W32) : CarryBlock := ⟨status, c.epoch, c.first, c.last, data⟩
  if i.status == 1 || i.status == 3 then out 1 []
  else
    let empty := c.g.all (fun x => x.isNone)
    let agg (ch : Nat) : Option (List W32) := (c.g.getD ch none)
    if i.status == 2 then
      (if empty then out 2 [] else out 0 (carryWords c.nch k (fun ch => (agg ch).getD [])))
    else
      out 0 (carryWords c.nch k (fun ch =>
        let x := carryElem c.nch k i.data ch
        match agg ch with
        | none => x
        | some y => scanCombine c.prog x y))

/-- The words of a carry as its scan takes them, NCH × K of them. Words that a sender of fewer did not send are free values: the rules
state none (log 10). -/
def ScanCtx.fit (c : ScanCtx) (data : List W32) : List W32 :=
  (List.range (c.nch * progK c.prog)).map (fun i => data.getD i (Config.freeWord (2 ^ 64 + i)))

/-- What an arriving carry comes to (R305): dropped, taken as the carry-in, or held in the port. -/
def ScanCtx.receive (c : ScanCtx) (b : CarryBlock) : ScanCtx :=
  if b.epoch < c.epoch || (b.epoch == c.epoch && !c.isOpen) then c
  else if b.epoch == c.epoch then
    (if c.carryIn.isSome then c
     else { c with carryIn := some (if b.first == c.first && b.last == c.last then { b with data := if b.status == 0 then c.fit b.data else [] }
        else { b with status := 3, data := [] }) })
  else { c with ports := c.ports ++ [b] }

/-- The port's carries offered again after the context's epoch or state has changed (R305). -/
def ScanCtx.rescan (c : ScanCtx) : ScanCtx := c.ports.foldl ScanCtx.receive { c with ports := [] }

/-- A gang's scan context changed. -/
def State.modScan (s : State) (gid : Nat) (f : ScanCtx → ScanCtx) : State := s.modGang gid (fun g => { g with scan := f g.scan })

/-- Whether the rank below a gang has ended, so that no carry will come from it (R306). -/
def State.belowGone (s : State) (g : Gang) : Bool :=
  g.rank != 0 && (match s.gangOfRank g.crew (g.rank - 1) with | some p => p.retired | none => true)

/-- Open scans whose carry can no longer come take status ABANDONED (R306). -/
def State.abandonCarries (s : State) : State :=
  { s with gangs := s.gangs.map (fun g =>
      if g.scan.isOpen && g.scan.carryIn.isNone && s.belowGone g && !(s.carries.any (fun m => m.dst == g.gid)) then
        { g with scan := { g.scan with carryIn := some ⟨1, g.scan.epoch, g.scan.first, g.scan.last, []⟩ } }
      else g) }

/-! ## The Meridian network (R304) -/

/-- The gang that receives a gang's carry-out: the next rank. -/
def State.above (s : State) (g : Gang) : Option Gang := s.gangOfRank g.crew (g.rank + 1)

/-- The die and core of a gang. -/
def State.coreOf (s : State) (gid : Nat) : Option (Nat × Nat) := (s.gang gid).map (fun g => (g.die, g.core))

/-- Whether a receiver's port has a free place: the port is its core's, and carries in transit hold theirs (R304). -/
def State.portFree (s : State) (t : Gang) : Bool :=
  let held := (s.gangs.filter (fun g => !g.retired && g.die == t.die && g.core == t.core)).map (fun g => g.scan.ports.length)
  held.sum + (s.carries.filter (fun m => s.coreOf m.dst == some (t.die, t.core))).length < 2

/-- A carry of a gang sent to the next rank; rank LAST, or a rank with none above it, sends nothing; none while the receiver's port
has no room (R304). -/
def State.sendBlock (s : State) (g : Gang) (b : CarryBlock) : Option State :=
  if g.rank == b.last then some s
  else
    match s.above g with
    | none => some s
    | some t =>
      if t.retired then some s
      else if s.portFree t then some { s with nextId := s.nextId + 1, carries := s.carries ++ [⟨s.nextId, g.gid, t.gid, b⟩] }
      else none

/-- The oldest carry that a gang has formed and not sent goes, when there is room for it. -/
def State.sendCarry (s : State) (gid : Nat) : State :=
  match s.gang gid with
  | none => s
  | some g =>
    match g.scan.outbox, g.scan.carryOut with
    | b :: bs, _ =>
      (match s.sendBlock g b with
       | some t => t.modScan gid (fun c => { c with outbox := bs })
       | none => s)
    | [], some b =>
      if g.scan.sent then s
      else
        (match s.sendBlock g b with
         | some t => t.modScan gid (fun c => { c with sent := true })
         | none => s)
    | [], none => s

/-- The carries that a gang has formed and not sent. -/
def ScanCtx.owes (c : ScanCtx) : Nat := c.outbox.length + ofBool (c.carryOut.isSome && !c.sent)

/-- Whether a gang can send a carry that it has formed. -/
def State.canSend (s : State) (gid : Nat) : Bool :=
  match s.gang gid, (s.sendCarry gid).gang gid with
  | some g, some h => h.scan.owes < g.scan.owes
  | _, _ => false

/-- The first scan operation of a gang still to be performed (R309). -/
def State.firstScan (s : State) (gid : Nat) : Option EngOp := s.ops.find? (fun o => o.gid == gid && o.eng == 3 && o.state != 4)

/-- CARRY_OUT_FORMED (R302, R304, R313): the engine forms a rank's carry-out, or sends one that waited for a place. -/
def execCarryOutFormed (gid : Nat) (s : State) : Host.Outcome State Fault Refusal :=
  match s.gang gid with
  | none => .fault .notEnabled
  | some g =>
    if s.canSend gid then .next (s.sendCarry gid)
    else
      match s.firstScan gid, g.scan.carryIn with
      | some o, some i =>
        if o.fn != 3 || !s.priorDone o || !s.settled g.die || (s.stepper o).isNone then .fault .notEnabled
        else
          let s := s.modScan gid (fun c => { c with carryOut := some (c.formOut i) })
          .next ((s.sendCarry gid).completeOp o)
      | _, _ => .fault .notEnabled

/-- Whether a carry p, sent before a carry m on the same chain, must arrive first: carries on one chain never pass one another, and p,
which left from m's core or beyond, has to come off at m's receiver or before (R304). DEDUCED (log 30). -/
def State.aheadOf (s : State) (p m : CarryMsg) : Bool :=
  p.id < m.id && (p.dst == m.dst ||
    (match s.coreOf p.src, s.coreOf p.dst, s.coreOf m.src, s.coreOf m.dst with
     | some a, some b, some c, some d =>
       a.1 == c.1 && a.2 / 192 == c.2 / 192 && c.2 ≤ a.2 && b.2 ≤ d.2
     | _, _, _, _ => false))

/-- CARRY_ARRIVE (R304, R305): a carry arrives at its receiver; carries on one chain do not pass one another. -/
def execCarryArrive (carry : Nat) (s : State) : Host.Outcome State Fault Refusal :=
  match s.carries.find? (fun m => m.id == carry) with
  | none => .fault .notEnabled
  | some m =>
    if s.carries.any (fun p => s.aheadOf p m) then .fault .notEnabled
    else
      let s := { s with carries := s.carries.filter (fun p => p.id != carry) }
      .next ((s.modScan m.dst (fun c => c.receive m.block)).abandonCarries)

/-! ## Engine operations (R302, R312, R315) -/

/-- The steps T, and the ranges of a scan operation. -/
def EngOp.scanT (o : EngOp) : Nat := bits (o.words.getD 2 0).toNat 0 6 + 1

/-- Bytes of a scan tile (R303). -/
def scanBytes (nch t k : Nat) : Nat := 4 * nch * t * k

/-- The element of channel c at step t of a tile (R303). -/
def tileElem (nch tt k : Nat) (ws : List W32) (c t : Nat) : List W32 :=
  (List.range k).map (fun j => ws.getD (c + nch * (t + tt * j)) 0)

/-- The words of a tile from its elements (R303). -/
def tileWords (nch tt k : Nat) (el : Nat → Nat → List W32) : List W32 :=
  (List.range k).flatMap (fun j => (List.range tt).flatMap (fun t => (List.range nch).map (fun c => (el c t).getD j 0)))

/-- The prefixes of one channel: each delivered value, and the running value after them (R302). -/
def prefixes (p : List W32) : Option (List W32) → List (List W32) → List (List W32) × Option (List W32)
  | g, [] => ([], g)
  | g, e :: es =>
    let x := match g with | none => e | some y => scanCombine p y e
    let r := prefixes p (some x) es
    (x :: r.1, r.2)

/-- Words written to a gang's view by its scan engine, with their watch events (R317, R382). -/
def State.scanWrite (s : State) (g : Gang) (o : EngOp) (a : Nat) (ws : List W32) : State :=
  let bs := bytesOfWords ws
  (s.writeView g a bs).seeView (o.event g 4 1 a) g.gid 4 bs

/-- The words of a tile read by the scan engine, with their watch events. -/
def State.scanRead (s : State) (g : Gang) (o : EngOp) (a n : Nat) : State × List W32 :=
  let bs := s.readView g a n
  (s.seeView (o.event g 4 0 a) g.gid 4 bs, wordsOfBytes bs)

/-- Whether a scan operation may be performed: the first of its gang, its accesses ordered, its lines present. -/
def State.scanReady (s : State) (o : EngOp) (g : Gang) (a n : Nat) : Bool :=
  (match s.firstScan o.gid with | some p => p.id == o.id | none => false) && s.priorDone o && s.viewPresent g a n

/-- SCAN_TILE_PERFORM (R302, R312). -/
def execScanTilePerform (op : Nat) (s : State) : Host.Outcome State Fault Refusal :=
  match s.op op with
  | none => .fault .notEnabled
  | some o =>
    match s.stepper o with
    | none => .fault .notEnabled
    | some g =>
      let c := g.scan
      let k := progK c.prog
      let t := o.scanT
      let n := scanBytes c.nch t k
      if o.eng != 3 || o.fn != 2 || !s.scanReady o g (o.par 2) n then .fault .notEnabled
      else
        let r := s.scanRead g o (o.par 2) n
        let cols := (List.range c.nch).map (fun ch =>
          prefixes c.prog (c.g.getD ch none) ((List.range t).map (fun i => tileElem c.nch t k r.2 ch i)))
        let s := r.1.modScan o.gid (fun x => { x with g := cols.map (·.2) })
        let ws := tileWords c.nch t k (fun ch i => ((cols.getD ch ([], none)).1).getD i [])
        .next ((s.scanWrite g o (o.par 1) ws).completeOp o)

/-- SCAN_FIX_PERFORM (R302, R315). -/
def execScanFixPerform (op : Nat) (s : State) : Host.Outcome State Fault Refusal :=
  match s.op op with
  | none => .fault .notEnabled
  | some o =>
    match s.stepper o with
    | none => .fault .notEnabled
    | some g =>
      let c := g.scan
      let k := progK c.prog
      let t := o.scanT
      let n := scanBytes c.nch t k
      match c.carryIn with
      | none => .fault .notEnabled
      | some i =>
        if o.eng != 3 || o.fn != 5 || !s.scanReady o g (o.par 1) n then .fault .notEnabled
        else if i.status != 0 then .next (s.completeOp o)
        else
          let r := s.scanRead g o (o.par 1) n
          let ws := tileWords c.nch t k (fun ch j => scanCombine c.prog (carryElem c.nch k i.data ch) (tileElem c.nch t k r.2 ch j))
          .next ((r.1.scanWrite g o (o.par 1) ws).completeOp o)

/-! ## Instructions (R309–R316) -/

/-- The scan operations of a core that are issued and incomplete (R309). -/
def State.scanFull (s : State) (g : Gang) : Bool :=
  16 ≤ (s.ops.filter (fun o => o.eng == 3 && o.state != 4 &&
    (match s.gang o.gid with | some h => h.die == g.die && h.core == g.core | none => false))).length

/-- NOSCAN. -/
def noScan (x : Ctx) : Option FaultInfo := failIf (!x.g.scan.isOpen) (illegal 29)

/-- ALIGN and PROTECTION of a range in the view (R303). -/
def rangeFault (x : Ctx) (a n : Nat) : Option FaultInfo :=
  firstFault [failIf (a % 4 != 0) (alignFault a), failIf (!x.g.inOneRegion a n) (protFault a)]

/-- A fault of a view range as an effect: a violation is logged (R130). -/
def padFault (x : Ctx) (kind : Nat) (f : FaultInfo) (s : State) : Eff := .fault f (if f.cls == 5 then s.logView x.g f.addr kind else s)

/-- The words that a validated program is read as, or why it is not (R310). -/
def opdefEff (x : Ctx) (q : Nat) (bs : List Byte) (s : State) : Eff :=
  let ws := wordsOfBytes bs
  match progBad ws with
  | some i => .fault { illegal 26 with detail := i } s
  | none => .done (s.modScan x.c.gid (fun c => { c with ops := setNth c.ops q (some ws) }))

/-- SCAN_OPDEF (R310). -/
def execScanOpdef (w : XWord) (s : State) : Host.Outcome State Fault Refusal :=
  let q := bits w.m6.toNat 1 2
  runUniform false 12 (fun _ => opForm .unused .scalar .unused .unused true (w.nwb = 0 && bits w.m6.toNat 3 3 == 0)) w
    (fun x => failIf (x.g.scan.isOpen && x.g.scan.opslot == q) (illegal 31)) (fun x s =>
      let a := (x.b.readS w.a9.toNat + w.imm.signExtend 64).toNat
      if a % 4 != 0 then .fault (alignFault a) s
      else if bit w.m6.toNat 0 then
        if !x.g.inView a 4 then padFault x 0 (protFault a) s
        else if !s.viewPresent x.g a 4 then .hold 6
        else
          let n := 4 + 4 * progSteps (leNat (s.readView x.g a 4))
          if !x.g.inView a n then padFault x 0 (protFault a) s
          else match leastReason (s.barWaits x ++ (if s.viewPresent x.g a n then [] else [6])) with
          | some r => .hold r
          | none =>
          if s.poisonedRuns (x.g.viewRuns a n) then .fault (poisonFault 1 a) s
          else opdefEff x q (s.readView x.g a n) s
      else
        match s.acquireRead x a 4 with
        | .wait r => .hold r
        | .fault f s => .fault f s
        | .bytes h _ =>
          match s.acquireRead x a (4 + 4 * progSteps (leNat h)) with
          | .wait r => .hold r
          | .fault f s => .fault f s
          | .bytes b s => opdefEff x q b s) s

/-- The fields of scan.begin's W2 (R311). -/
def beginField (w : XWord) (lo len : Nat) : Nat := bits w.imm.toNat lo len

/-- The scan opened (R311), with its first carry-in where it has one. -/
def State.openScan (s : State) (x : Ctx) (w : XWord) (block : Option (List W32)) : State :=
  let first := beginField w 8 6
  let last := beginField w 14 6
  let e := x.g.scan.epoch + 1
  let s := s.modScan x.c.gid (fun c =>
    { c with isOpen := true, published := false, epoch := e, opslot := beginField w 0 2, nch := beginField w 2 6 + 1,
             first := first, last := last, init := beginField w 20 2, prog := ((c.ops[beginField w 0 2]?).join).getD [],
             g := List.replicate (beginField w 2 6 + 1) none,
             carryIn := match block with
               | some d => some ⟨0, e, first, last, d⟩
               | none => if x.g.rank == first then some ⟨2, e, first, last, []⟩ else none
             carryOut := none, sent := false }.rescan)
  s.abandonCarries.setS x w.d9.toNat (BitVec.ofNat 64 e)

/-- The checks of scan.begin before any read (R311). -/
def beginFault (w : XWord) (x : Ctx) : Option FaultInfo :=
  let first := beginField w 8 6
  let last := beginField w 14 6
  let init := beginField w 20 2
  let named := w.a9.toNat != 268
  firstFault [failIf x.g.scan.isOpen (illegal 28), failIf ((x.g.scan.ops[beginField w 0 2]?).join).isNone (illegal 27),
    failIf (first > last || !(first ≤ x.g.rank && x.g.rank ≤ last)) (illegal 30),
    failIf ((init != 0) != named || (init != 0 && x.g.rank != first)) (illegal 30)]

/-- SCAN_BEGIN (R311). -/
def execScanBegin (w : XWord) (s : State) : Host.Outcome State Fault Refusal :=
  let init := beginField w 20 2
  runUniform false 12
    (fun _ => opForm .scalar .scalar .unused .unused (init != 3) (w.m6 = 0 && w.nwb = 0 && bits w.imm.toNat 22 10 == 0)) w
    (fun x => firstFault [beginFault w x, failIf (beginField w 14 6 ≥ s.ranks x.g.crew && !x.g.scan.isOpen) (illegal 30)]) (fun x s =>
      let a := x.sn w.a9.toNat
      let n := 4 * (beginField w 2 6 + 1) * progK (((x.g.scan.ops[beginField w 0 2]?).join).getD [])
      if init == 0 then .done (s.openScan x w none)
      else if init == 1 then
        match rangeFault x a n with
        | some f => padFault x 0 f s
        | none =>
          match leastReason (s.barWaits x ++ (if s.viewPresent x.g a n then [] else [6])) with
          | some r => .hold r
          | none =>
          if s.poisonedRuns (x.g.viewRuns a n) then .fault (poisonFault 1 a) s
          else .done (s.openScan x w (some (wordsOfBytes (s.readView x.g a n))))
      else if a % 4 != 0 then .fault (alignFault a) s
      else
        match s.acquireRead x a n with
        | .wait r => .hold r
        | .fault f s => .fault f s
        | .bytes b s => .done (s.openScan x w (some (wordsOfBytes b)))) s

/-- A scan operation issued (R309): numbered on sc. -/
def State.issueScan (s : State) (x : Ctx) (fn : Nat) (words : List W32) (a b : W64) : State :=
  s.addOp { x.newOp s.nextId 3 (x.g.nextNumber 3) [] [0, a, b, 0, 0, 0] words with major := 0x77, fn := fn }

/-- SCAN_TILE (R312). -/
def execScanTile (w : XWord) (s : State) : Host.Outcome State Fault Refusal :=
  runUniform false 12 (fun _ => opForm .scalar .scalar .scalar .unused true (w.m6 = 0 && w.nwb = 0 && bits w.imm.toNat 6 26 == 0)) w
    (fun x => firstFault [noScan x, failIf x.g.scan.published (illegal 31)]) (fun x s =>
      let n := scanBytes x.g.scan.nch (bits w.imm.toNat 0 6 + 1) (progK x.g.scan.prog)
      let a := x.sn w.a9.toNat
      let b := x.sn w.b9.toNat
      match firstFault [failIf (a % 4 != 0) (alignFault a), failIf (b % 4 != 0) (alignFault b),
          failIf (!x.g.inOneRegion a n) (protFault a)] with
      | some f => padFault x 1 f s
      | none =>
        if !x.g.inOneRegion b n then padFault x 0 (protFault b) s
        else if s.scanFull x.g then .hold 14
        else .done ((s.issueScan x 2 (encode (.scanTile w)) (x.s w.a9.toNat) (x.s w.b9.toNat)).setS x w.d9.toNat
          (BitVec.ofNat 64 (x.g.nextNumber 3)))) s

/-- The publication of a scan (R313): a numbered operation. -/
def State.publish (s : State) (x : Ctx) (words : List W32) : State :=
  (s.issueScan x 3 words 0 0).modScan x.c.gid (fun c => { c with published := true })

/-- SCAN_PUB (R313). -/
def execScanPub (w : XWord) (s : State) : Host.Outcome State Fault Refusal :=
  runUniform false 12 (fun _ => opForm .scalar .unused .unused .unused true (w.m6 = 0 && w.nwb = 0 && noImm w)) w
    (fun x => firstFault [noScan x, failIf x.g.scan.published (illegal 31)]) (fun x s =>
      if s.scanFull x.g then .hold 14
      else .done ((s.publish x (encode (.scanPub w))).setS x w.d9.toNat (BitVec.ofNat 64 (x.g.nextNumber 3)))) s

/-- The watch event of a block that a scan instruction stores, agent SCAN (R382). -/
def Ctx.scanEvent (x : Ctx) (kind addr : Nat) : WatchEvent :=
  { gid := x.c.gid, bundle := x.c.bundle, part := x.g.part, space := 0, kind := kind, agent := 4, plane := none, lane := none,
    addr := addr, data := [], exc := 0, offset := x.offset, opnum := 0, op := none, late := ofBool (!x.q.charged) }

/-- SCAN_CARRY (R314): it completes once the receipt of the carry can be an acquire at crew scope (R305, R339). -/
def execScanCarry (w : XWord) (s : State) : Host.Outcome State Fault Refusal :=
  runUniform false 12 (fun _ => opForm .scalar .scalar .unused .unused true (w.m6 = 0 && w.nwb = 0 && noImm w)) w
    noScan (fun x s =>
      let a := x.sn w.a9.toNat
      let n := 4 * x.g.scan.nch * progK x.g.scan.prog
      match if w.a9.toNat == 268 then none else rangeFault x a n with
      | some f => padFault x 1 f s
      | none =>
        match x.g.scan.carryIn with
        | none => .wait .carry s
        | some i =>
          if !s.settled x.g.die || s.acquirePending x.c.gid x.c.bundle || x.fenceWaits then .wait .carry s
          else
          let s := s.setS x w.d9.toNat (BitVec.ofNat 64 i.status)
          if i.status == 0 && w.a9.toNat != 268 then
            let bs := bytesOfWords i.data
            .done ((s.writeView x.g a bs).seeView (x.scanEvent 1 a) x.g.gid 4 bs)
          else .done s) s

/-- SCAN_FIX (R315). -/
def execScanFix (w : XWord) (s : State) : Host.Outcome State Fault Refusal :=
  runUniform false 12 (fun _ => opForm .scalar .scalar .unused .unused true (w.m6 = 0 && w.nwb = 0 && bits w.imm.toNat 6 26 == 0)) w
    noScan (fun x s =>
      let n := scanBytes x.g.scan.nch (bits w.imm.toNat 0 6 + 1) (progK x.g.scan.prog)
      match rangeFault x (x.sn w.a9.toNat) n with
      | some f => padFault x 1 f s
      | none =>
        if s.scanFull x.g then .hold 14
        else .done ((s.issueScan x 5 (encode (.scanFix w)) (x.s w.a9.toNat) 0).setS x w.d9.toNat
          (BitVec.ofNat 64 (x.g.nextNumber 3)))) s

/-- The close of a scan whose operations have completed: the export, then the flag (R316). An ABANDONED carry-out that still waits for
a place is sent later (R306). -/
def closeScan (w : XWord) (x : Ctx) (s : State) : Eff :=
  let unsent (c : ScanCtx) : List CarryBlock := if c.sent then [] else c.carryOut.toList
  let close (s : State) : State :=
    s.modScan x.c.gid (fun c => { c with isOpen := false, outbox := c.outbox ++ unsent c, sent := true }.rescan)
  let a := x.sn w.a9.toNat
  match x.g.scan.carryOut with
  | none => .wait (.retry 14) s
  | some o =>
    if !(x.g.scan.sent || o.status == 1) then .wait (.retry 14) s
    else if w.a9.toNat == 268 || o.status != 0 then .done (close s)
    else if s.unreleased x || x.fenceWaits then .wait (.retry 14) s
    else
      let bs := bytesOfWords o.data
      match s.writeGang x.g 1 a bs with
      | .error f => .fault f (s.logFault x.g 1 f)
      | .ok s => .done (close (s.seeGlobal (x.scanEvent 1 a) 4 bs))

/-- SCAN_END (R316). -/
def execScanEnd (w : XWord) (s : State) : Host.Outcome State Fault Refusal :=
  runUniform false 12 (fun _ => opForm .unused .scalar .unused .unused true (w.m6 = 0 && w.nwb = 0 && noImm w)) w
    (fun x => firstFault [noScan x, failIf (w.a9.toNat != 268 && x.g.rank != x.g.scan.last) (illegal 30)]) (fun x s =>
      let a := x.sn w.a9.toNat
      let n := 4 * x.g.scan.nch * progK x.g.scan.prog
      let bad := if w.a9.toNat == 268 then none
        else firstFault [failIf (a % 4 != 0) (alignFault a), failIf (!vaLegal a) (protFault a), failIf (!s.leaseOk x.g a n) (leaseFault a)]
      match bad with
      | some f => .fault f (s.logFault x.g 1 f)
      | none =>
        if !x.g.scan.published then
          (if s.scanFull x.g then .hold 14
           else .wait (.retry 14) (s.publish x (encode (.scanPub { w with d9 := 268, a9 := 268, fn := 3 }))))
        else if !(s.openOps x.c.gid 3).isEmpty then .wait (.retry 14) s
        else closeScan w x s) s

end Sys2Proof.Machine
end

