-- ==== Sys2Proof/Machine/Save.lean ====
section
/-!
DEFINITION. The save area (R357–R361): slots, the layout of gang blocks, writing a gang and reading it back.
-/

namespace Sys2Proof.Machine

/-! ## Slots (R357) -/

/-- Bytes of zero. -/
def zeros (n : Nat) : List Byte := List.replicate n 0

/-- Bytes of a save area, zeros where it cannot be accessed; the caller checks access first. A save needs a translation and write
permission and nothing else (R357). -/
def State.peek (s : State) (part va n : Nat) : List Byte :=
  match s.runs part 1 va n with | some rs => s.readRuns rs | none => List.replicate n 0

/-- Whether bytes may be accessed by a save: they have translations with write permission (R357). -/
def State.saveOk (s : State) (part va n : Nat) : Bool := (s.runs part 1 va n).isSome

/-- Bytes written to a partition's memory by a die. -/
def State.poke (s : State) (die part va : Nat) (bs : List Byte) : State := (s.writeVa die part 1 va bs).getD s

/-- NS and SS of a save area. -/
def State.saveArea (s : State) (part va : Nat) : Nat × Nat :=
  let h := s.peek part va 64
  (fieldOf h 0 32, fieldOf h 32 32)

/-- The address of slot k. -/
def slotVa (va ss k : Nat) : Nat := va + 4096 + k * ss * 4096

/-- The first clear bit of the slot bitmap below n, from word w; fuel bounds the words. -/
def State.freeSlot (s : State) (part va n : Nat) : Nat → Nat → Option Nat
  | 0, _ => none
  | fuel + 1, w =>
    let x := leNat (s.peek part (va + 64 + 8 * w) 8)
    match (List.range 64).find? (fun i => !bit x i && 64 * w + i < n) with
    | some i => some (64 * w + i)
    | none => s.freeSlot part va n fuel (w + 1)

/-- A bit of the slot bitmap set or cleared. -/
def State.putSlot (s : State) (die part va k : Nat) (on : Bool) : State :=
  let a := va + 64 + 8 * (k / 64)
  let x := leNat (s.peek part a 8)
  s.poke die part a (leBytes 8 (setBits x (k % 64) 1 (ofBool on)))

/-- A slot for a crew of so many bytes, its bit set: none when allocation fails; no answer when the area cannot be accessed. -/
def State.allocSlot (s : State) (die part va bytes : Nat) : Option (Option (Nat × State)) :=
  if !s.saveOk part va 64 then none
  else
    let a := s.saveArea part va
    if a.2 * 4096 < bytes then some none
    else if !s.saveOk part (va + 64) (8 * ((a.1 + 63) / 64)) then none
    else
      match s.freeSlot part va a.1 ((a.1 + 63) / 64) 0 with
      | none => some none
      | some k => if !s.saveOk part (slotVa va a.2 k) bytes then none else some (some (k, s.putSlot die part va k true))

/-! ## Layout (R358) -/

/-- The bytes of the presence bits of a kernel's working region, one bit per line. R358 gives SCRATCH / 1,024; where that is no whole number it
is rounded up, so that every line has its bit. DEDUCED (log 92). -/
def Kernel.presenceBytes (k : Kernel) : Nat := (k.scratch + 1023) / 1024

/-- The sizes of the twelve sections of a kernel's gang block. -/
def sectionSizes (k : Kernel) (npend : Nat) : List Nat :=
  [2048, k.bundles * 4608, k.bundles * k.width * k.v * 4, k.bundles * 48 * k.width, k.scratch + k.presenceBytes, k.atlas * 2112,
    k.barriers * 288, 8192, 72 * 192, k.accRows * 256, if k.accRows == 0 then 0 else 64 * 4608, npend * 32]

/-- The offsets of the sections, each at a multiple of 256, and the end. -/
def sectionOffsets : Nat → List Nat → List Nat
  | a, [] => [alignUp a 256]
  | a, n :: ns => alignUp a 256 :: sectionOffsets (alignUp a 256 + n) ns

/-- The offsets of a gang block, GSZ last. -/
def Kernel.sections (k : Kernel) (npend : Nat) : List Nat := sectionOffsets 512 (sectionSizes k npend)

/-- The offset of section i, from 1. -/
def Kernel.section (k : Kernel) (npend i : Nat) : Nat := (k.sections npend).getD (i - 1) 0

/-- The size of a gang block. -/
def Kernel.blockSize (k : Kernel) (npend : Nat) : Nat := k.section npend 13

/-- Bytes to be written, by their offset in a block. -/
abbrev Chunks := List (Nat × List Byte)

/-- Chunks moved. -/
def Chunks.at_ (c : Chunks) (o : Nat) : Chunks := c.map (fun p => (o + p.1, p.2))

/-! ## Bundles (R359) -/

/-- The sub-bundle of a bundle that holds a lane. -/
def Bundle.subOf (b : Bundle) (l : Nat) : Option Sub := (b.sliceOf l).bind (fun i => b.subs.find? (fun q => q.slices.contains i))

/-- The v registers kept of a lane: all of them in a dump, and where its halted sub-bundle has completed no yield (R161). -/
def Bundle.keeps (b : Bundle) (v : Nat) (dump : Bool) (l : Nat) : Nat :=
  if dump then v
  else match b.subOf l with
    | none => 0
    | some q => match q.live with | some n => n | none => if q.halted || b.anyHalted then v else 0

/-- A slice record: the lane index goes to bits 2–7 of byte 7 of a detached record. -/
def Slice.bytes (sl : Slice) (lane : Nat) : List Byte :=
  let pad (n : Nat) (bs : List Byte) : List Byte := (bs ++ (zeros n)).take n
  leBytes 4 sl.offset ++ [BitVec.ofNat 8 sl.active.toNat, BitVec.ofNat 8 sl.join.length, BitVec.ofNat 8 sl.call.length,
    BitVec.ofNat 8 (ofBool sl.exited + lane * 4)] ++ pad 64 (sl.call.reverse.flatMap (leBytes 4)) ++
    pad 80 (sl.join.reverse.flatMap (fun e => leBytes 4 e.j ++ leBytes 4 e.poff ++
      [BitVec.ofNat 8 e.pend.toNat, BitVec.ofNat 8 e.full.toNat])) ++ (zeros 8)

/-- Whether an awaited phase has completed and its instruction has not. -/
def Wait.isMet (w : Wait) : Bool := match w with | .met _ _ _ _ => true | _ => false

/-- WAIT, ARG and the barrier number of a stopped sub-bundle (R359). -/
def Sub.waitCode (q : Sub) : Nat × Nat × Nat :=
  if q.halted then (4, 0, 0)
  else match q.wait with
    | .none => (0, 0, 0)
    | .barrier n p | .met n p _ _ => (1, p.toNat, n)
    | .regang => (2, 0, 0)
    | _ => (3, 0, 0)

/-- A sub-bundle entry (R359). The mask of a detached lane's entry names the lane's slice, since a mask of 0 marks an unused entry. DEDUCED: log 22. -/
def Bundle.subBytes (b : Bundle) (v : Nat) (q : Sub) : List Byte :=
  let det := q.slices.find? b.isDetached
  let w := q.waitCode
  leBytes 2 (listMask (q.slices.map (fun i => match b.slices[i]? with | some sl => sl.home | none => i))) ++
    [BitVec.ofNat 8 (match det with | some i => i - b.lanes.length / 4 | none => 255), BitVec.ofNat 8 w.1] ++ leBytes 4 w.2.1 ++
    leBytes 2 (q.live.getD v) ++ [BitVec.ofNat 8 w.2.2] ++ (zeros 5)

/-- The lane of a detached record. -/
def Slice.detLane (sl : Slice) : Nat := ((sl.lanesOf sl.own).head?).getD 0

/-- A bundle block (R359). -/
def Bundle.block (b : Bundle) (v : Nat) : List Byte :=
  let w := b.lanes.length
  let pad (n : Nat) (bs : List Byte) : List Byte := (bs ++ (zeros n)).take n
  let main := b.slices.take (w / 4)
  let det := b.slices.drop (w / 4)
  let live := if b.killed then [] else (List.range main.length).filter (fun i => match main[i]? with | some sl => !sl.exited | none => false)
  let lanes := (List.range w).zip b.lanes
  let mask (f : Lane → Bool) : Nat := listMask ((lanes.filter (fun p => f p.2)).map (·.1))
  pad 512 ((List.range 64).flatMap (fun i => leBytes 8 (b.s.getD i 0).toNat)) ++ pad 8 (b.tok.map (BitVec.ofNat 8)) ++
    leBytes 2 b.awb ++ leBytes 2 b.awl ++ leBytes 2 b.ycount ++ (zeros 6) ++ leBytes 2 (listMask live) ++ (zeros 2) ++
    leBytes 16 (lanes.foldl (fun a p => a + (p.2.plane % 4) <<< (2 * p.1)) 0) ++
    (List.range 7).flatMap (fun n => leBytes 8 (mask (fun y => y.readP (n + 1)))) ++ leBytes 8 (mask (·.halted)) ++
    (zeros 24) ++
    pad 320 ((if b.killed then [] else b.subs.filter (·.isLive)).flatMap (b.subBytes v)) ++ (zeros 64) ++
    pad 2560 (main.flatMap (fun sl => sl.bytes 0)) ++
    pad 640 (det.flatMap (fun sl => ({ sl with exited := sl.exited || sl.own == 0 } : Slice).bytes sl.detLane)) ++
    leBytes 32 (listMask (lanes.flatMap (fun p => (List.range 4).filterMap (fun n =>
      if (p.2.z.getD n (0, false)).2 then some (4 * p.1 + n) else none)))) ++ (zeros 352)

/-- The registers of a bundle: row n of every lane that keeps it. -/
def Bundle.regChunks (b : Bundle) (v : Nat) (dump : Bool) : Chunks :=
  let w := b.lanes.length
  let keep := (List.range w).map (b.keeps v dump)
  let word (l n : Nat) : List Byte := leBytes 4 (((b.lanes[l]?).map (fun y => (y.v.getD n 0).toNat)).getD 0)
  if b.killed && !dump then []
  else
    (List.range v).flatMap (fun n =>
      if keep.all (fun k => n < k) then [(4 * n * w, (List.range w).flatMap (fun l => word l n))]
      else ((List.range w).filter (fun l => n < keep.getD l 0)).map (fun l => (4 * (n * w + l), word l n)))

/-- The operand files and latches of a bundle. -/
def Bundle.latchBytes (b : Bundle) : List Byte :=
  let w := b.lanes.length
  (List.range 12).flatMap (fun n => (List.range w).flatMap (fun l =>
    leBytes 4 (match b.lanes[l]? with
      | some y => (if n < 8 then y.o.getD n 0 else (y.z.getD (n - 8) (0, false)).1).toNat
      | none => 0)))

/-! ## Gang records (R360, R361) -/

/-- An Atlas record. -/
def AtlasSlot.record (a : AtlasSlot) : List Byte :=
  ([BitVec.ofNat 8 a.state, BitVec.ofNat 8 a.reason] ++ leBytes 2 a.bytes.length ++ leBytes 4 a.crc ++ (zeros 8) ++ a.bytes ++
    (zeros 2112)).take 2112

/-- A barrier record. -/
def Barrier.record (b : Barrier) : List Byte :=
  leBytes 4 b.phase.toNat ++ leBytes 2 b.count ++ leBytes 2 b.arr ++
    [BitVec.ofNat 8 (ofBool b.ab), BitVec.ofNat 8 ((b.red.map (·.1)).getD 15)] ++
    leBytes 4 (listMask ((List.range 32).filter (fun i => ((b.payload[i]?).join).isSome))) ++
    [BitVec.ofNat 8 ((b.red.map (·.2)).getD 0)] ++ (zeros 17) ++
    (List.range 32).flatMap (fun i => leBytes 8 ((((b.payload[i]?).join).getD 0).toNat))

/-- A tagged carry block: status, FIRST, LAST, presence and epoch, then its words. -/
def carryBytes (c : Option CarryBlock) : List Byte :=
  match c with
  | none => (zeros 1032)
  | some b =>
    ([BitVec.ofNat 8 b.status, BitVec.ofNat 8 b.first, BitVec.ofNat 8 b.last, 1] ++ leBytes 4 b.epoch ++ bytesOfWords b.data ++
      (zeros 1032)).take 1032

/-- The scan section (R360); the places of the fields within bytes 144–167 are the model's (log 19). -/
def ScanCtx.section (c : ScanCtx) : List Byte :=
  let pad (n : Nat) (bs : List Byte) : List Byte := (bs ++ (zeros n)).take n
  let word (ch j : Nat) : W32 := (((c.g[ch]?).join).map (fun e => e.getD j 0)).getD 0
  pad 144 ((List.range 4).flatMap (fun i => pad 36 (bytesOfWords (((c.ops[i]?).join).getD [])))) ++
    pad 24 ([BitVec.ofNat 8 (ofBool c.isOpen + 2 * ofBool c.published + 4 * ofBool c.sent), BitVec.ofNat 8 c.opslot, BitVec.ofNat 8 c.nch,
      BitVec.ofNat 8 c.first, BitVec.ofNat 8 c.last, BitVec.ofNat 8 c.init, 0, 0] ++ leBytes 8 c.epoch) ++
    (List.range 4).flatMap (fun j => (List.range 64).flatMap (fun ch => leBytes 4 (word ch j).toNat)) ++
    leBytes 8 (listMask ((List.range 64).filter (fun i => ((c.g[i]?).join).isNone))) ++
    carryBytes c.carryIn ++ carryBytes c.carryOut ++ carryBytes (c.ports[0]?) ++ carryBytes (c.ports[1]?)

/-- An engine operation record (R361); an operation abandoned by its EB (R275) is recorded as one that waits on it. DEDUCED (log 16). -/
def EngOp.record (o : EngOp) : List Byte :=
  let pad (n : Nat) (bs : List Byte) : List Byte := (bs ++ (zeros n)).take n
  pad 192 ([BitVec.ofNat 8 o.eng, BitVec.ofNat 8 (if o.state == 5 then 2 else o.state), BitVec.ofNat 8 o.bundle,
      BitVec.ofNat 8 (match o.tok with | some t => 128 + t | none => 0)] ++ (zeros 4) ++ leBytes 8 o.number ++
    pad 20 (bytesOfWords o.words) ++ (zeros 4) ++ (List.range 6).flatMap (fun i => leBytes 8 (o.par i)) ++
    leBytes 8 (if o.eng == 1 then o.pos else if o.eng == 2 then o.pos % 65536 + o.pos2 * 65536 else 0) ++ leBytes 8 o.chain ++
    (zeros 24) ++ pad 64 o.desc)

/-- The operations of a gang in ascending engine and number, without the faulted ones. -/
def State.savedOps (s : State) (gid : Nat) : List EngOp :=
  [1, 2, 3, 4].flatMap (fun e => (s.openOps gid e).filter (fun o => o.state != 4))

/-! ## The gang block (R358) -/

/-- The header of a gang block; a retired gang's has GSZ 512 and no DIR (R400). -/
def gangHeader (g : Gang) (reason ranks index time npend : Nat) (retired : Bool) : List Byte :=
  let w := g.windows.getD g.rank (0, 0)
  packFields 512
    ([(0, 0x53475631), (32, if retired then 512 else g.kernel.blockSize npend), (64, g.kernel.kva.toNat), (128, g.part), (132, reason),
      (136, g.rank), (142, ranks - 1), (160, index), (192, time % 2 ^ 64), (768, g.group), (832, w.1), (864, w.2), (896, npend)] ++
    (List.range 4).map (fun i => (256 + 64 * i, g.tl.getD i 0 % 2 ^ 64)) ++
    (List.range 4).map (fun i => (512 + 64 * i, g.issued.getD i 0 % 2 ^ 64)) ++
    (if retired then [] else (List.range 12).map (fun i => (1024 + 32 * i, g.kernel.section npend (i + 1)))))

/-- The chunks of a gang block; pend holds the pending-store list of a dump. -/
def State.gangChunks (s : State) (g : Gang) (reason ranks index time : Nat) (pend : List Byte) : Chunks :=
  let k := g.kernel
  let npend := pend.length / 32
  if g.retired then [(0, gangHeader g reason ranks index time 0 true)]
  else
    let at_ (i : Nat) (bs : List Byte) : Chunks := if bs.isEmpty then [] else [(k.section npend i, bs)]
    let bundles := (List.range k.bundles).zip g.bundles
    let pad := s.readView g 0 k.scratch
    let present := (List.range (k.scratch / 128)).filter (fun i => s.viewPresent g (128 * i) 128)
    [(0, gangHeader g reason ranks index time npend false)] ++
    at_ 1 ((List.range 16).flatMap (fun i => match (g.handles[i]?).join with
      | some h => (h.desc ++ (zeros 64)).take 64 ++ leBytes 8 h.va.toNat ++ [1] ++ (zeros 55)
      | none => (zeros 128))) ++
    bundles.flatMap (fun p => [(k.section npend 2 + 4608 * p.1, p.2.block k.v)] ++
      Chunks.at_ (p.2.regChunks k.v (reason == 2)) (k.section npend 3 + p.1 * k.width * k.v * 4) ++
      [(k.section npend 4 + p.1 * 48 * k.width, p.2.latchBytes)]) ++
    at_ 5 (pad ++ leBytes k.presenceBytes (listMask present)) ++ at_ 6 (g.atlas.flatMap AtlasSlot.record) ++
    at_ 7 (g.barriers.flatMap Barrier.record) ++ at_ 8 ((g.scan.section ++ (zeros 8192)).take 8192) ++
    at_ 9 (((s.savedOps g.gid).flatMap EngOp.record ++ (zeros (72 * 192))).take (72 * 192)) ++
    at_ 10 (g.acc.flatMap (fun r => bytesOfWords r)) ++
    at_ 11 (if k.accRows == 0 then [] else g.bFront.flatMap (fun b => (b.mant ++ (zeros 4096)).take 4096 ++
      (b.scale ++ (zeros 512)).take 512)) ++
    at_ 12 pend

/-- Chunks written at an address. -/
def State.putChunks (s : State) (die part va : Nat) (c : Chunks) : State := c.foldl (fun s p => s.poke die part (va + p.1) p.2) s

/-- What the dies keep of a stopped gang besides its block (log 16). -/
def State.savedGang (s : State) (g : Gang) (index block : Nat) : SavedGang :=
  { index := index, rank := g.rank, gid := g.gid, block := BitVec.ofNat 64 block, widths := g.bFront.map (·.m),
    ops := [1, 2, 3].flatMap (fun e => s.openOps g.gid e), programs := g.scan.ops.map (·.isSome),
    waits := ((List.range g.bundles.length).zip g.bundles).flatMap (fun p =>
      ((p.2.subs.filter (·.isLive)).zip (List.range p.2.subs.length)).filterMap (fun q =>
        if q.1.halted && q.1.wait != .none || q.1.wait.isMet then some ⟨p.1, q.2, q.1.wait, q.1.charged, q.1.base⟩ else none))
    gone := ((List.range g.bundles.length).zip g.bundles).flatMap (fun p =>
      ((List.range p.2.lanes.length).zip p.2.lanes).filterMap (fun q => if q.2.exited then some (p.1, q.1) else none))
    outbox := g.scan.outbox, ports := g.scan.ports.map (fun c => c.data.length), scanHeld := g.scanHeld, damage := g.damage,
    poison := (List.range (g.kernel.scratch / 4)).filter (fun w => s.poisonedRuns (g.viewRuns (4 * w) 4)),
    bundles := g.bundles.map (fun b => ⟨b.damaged, b.issues, b.aliasFences⟩) }

/-! ## Reading a gang back (R356, R359–R361) -/

/-- A stack of a slice record, top first. -/
def slotsOf (bs : List Byte) (base size n : Nat) : List Nat := ((List.range n).map (fun i => base + size * i)).reverse.map (fun o => leAt bs o 4)

/-- A slice from its record. -/
def sliceFrom (bs : List Byte) (home : Nat) (own : BitVec 4) : Slice :=
  let nj := leAt bs 5 1
  let nc := leAt bs 6 1
  { home := home, own := own, offset := leAt bs 0 4, active := BitVec.ofNat 4 (leAt bs 4 1),
    join := ((List.range nj).map (fun i => 72 + 10 * i)).reverse.map (fun o =>
      { j := leAt bs o 4, poff := leAt bs (o + 4) 4, pend := BitVec.ofNat 4 (leAt bs (o + 8) 1), full := BitVec.ofNat 4 (leAt bs (o + 9) 1) }),
    call := slotsOf bs 8 4 nc, exited := bit (leAt bs 7 1) 0 }

/-- A sub-bundle from its entry: none when unused. It keeps the live count of its last yield (R161). -/
def subFrom (e : List Byte) (slices : Nat) : Option Sub :=
  let mask := leAt e 0 2
  let det := leAt e 2 1
  let code := leAt e 3 1
  if mask == 0 then none
  else some { Sub.free with
    slices := if det == 255 then maskList 16 mask else [slices + det]
    wait := if code == 1 then .barrier (leAt e 10 1) (BitVec.ofNat 32 (leAt e 4 4)) else if code == 2 then .regang else .none
    charged := code == 1 || code == 2, halted := code == 4, live := some (leAt e 8 2) }

/-- A bundle from its block, its registers and its latches; slot is its new bundle slot. -/
def bundleFrom (b0 : Bundle) (k : Kernel) (bs : List Byte) (regs latch : Array W32) (gone : List Nat) : Bundle :=
  let w := k.width
  let at_ (o n : Nat) : Nat := leAt bs o n
  let mainN := w / 4
  let dets := (List.range 4).map (fun i =>
    let r := (bs.drop (3584 + 160 * i)).take 160
    let l := leAt r 7 1 / 4
    if bit (leAt r 7 1) 0 then { sliceFrom r 0 0 with exited := true, active := 0, join := [], call := [] }
    else sliceFrom r (l / 4) (BitVec.ofNat 4 (1 <<< (l % 4))))
  let away (h : Nat) : BitVec 4 := dets.foldl (fun m d => if d.home == h then m ||| d.own else m) 0
  let main := (List.range mainN).map (fun i =>
    let sl := sliceFrom ((bs.drop (1024 + 160 * i)).take 160) i (15#4 &&& ~~~(away i))
    if bit (at_ 532 2) i then { sl with exited := false } else { sl with exited := true, active := 0, join := [], call := [] })
  let entries := (List.range 20).map (fun i => (bs.drop (640 + 16 * i)).take 16)
  let subs := entries.filterMap (fun e => (subFrom e mainN).map (fun q => (q, leAt e 8 2)))
  let slices := main ++ dets
  let b : Bundle := { b0 with slices := slices, subs := subs.map (·.1) }
  let live (l : Nat) : Nat :=
    match b.sliceOf l with
    | none => 0
    | some i => ((subs.find? (fun q => q.1.slices.contains i)).map (·.2)).getD 0
  let lanes := (List.range w).map (fun l =>
    let keep := live l
    let p := listMask ((List.range 7).filterMap (fun n => if bit (at_ (552 + 8 * n) 8) l then some (n + 1) else none))
    { v := (List.range k.v).map (fun n => if n < keep then regs.getD (n * w + l) 0 else 0)
      o := (List.range 8).map (fun n => latch.getD (n * w + l) 0)
      z := (List.range 4).map (fun n => (latch.getD ((8 + n) * w + l) 0, bit (at_ 4224 32) (4 * l + n)))
      p := BitVec.ofNat 8 p, plane := bits (at_ 536 16) (2 * l) 2, halted := bit (at_ 608 8) l, exited := gone.contains l : Lane })
  { b with
    lanes := lanes, s := (List.range 64).map (fun i => BitVec.ofNat 64 (at_ (8 * i) 8)), tok := (List.range 8).map (fun i => at_ (512 + i) 1),
    awb := at_ 520 2, awl := at_ 522 2, ycount := at_ 524 2 }

/-- What halted sub-bundles waited for, put back. -/
def Bundle.rewait (b : Bundle) (ws : List SavedWait) : Bundle :=
  ws.foldl (fun b p => b.modSub p.place (fun q => match p.wait with
    | .mem _ _ | .decoder _ | .fetch => q
    | w => { q with wait := w, charged := p.charged, base := p.base })) b

/-- What the dies keep of a stopped bundle besides its block, put back. -/
def Bundle.keep (b : Bundle) (v : SavedBundle) : Bundle :=
  { b with damaged := v.damaged, issues := v.issues, aliasFences := v.aliasFences }

/-- An engine operation read back from its record, with what the dies keep of it besides (R361). -/
def EngOp.reread (o : EngOp) (r : List Byte) : EngOp :=
  let state := leAt r 1 1
  let t := leAt r 3 1
  { o with state := if o.state == 5 && state == 2 then 5 else state
           bundle := leAt r 2 1, tok := if t < 128 then none else some (t % 8), number := leAt r 8 8
           words := (wordsOfBytes ((r.drop 16).take 20)).take o.words.length
           params := ((List.range 6).map (fun i => BitVec.ofNat 64 (leAt r (40 + 8 * i) 8))).take o.params.length
           pos := if o.eng == 1 then leAt r 88 8 else if o.eng == 2 then leAt r 88 2 else o.pos
           pos2 := if o.eng == 2 then leAt r 90 2 else o.pos2
           chain := leAt r 96 8, desc := ((r.drop 128).take 64).take o.desc.length }

/-- The engine operations of a restored gang (R356, R361): each record with the operation of its engine and number; a faulted operation has
no record and stays as it is. -/
def SavedGang.opsFrom (sv : SavedGang) (records : List (List Byte)) : List EngOp :=
  sv.ops.filter (fun o => o.state == 4) ++ records.filterMap (fun r =>
    (sv.ops.find? (fun o => o.state != 4 && o.eng == leAt r 0 1 && o.number == leAt r 8 8)).map (fun o => o.reread r))

/-- An Atlas slot from its record. -/
def atlasFrom (r : List Byte) : AtlasSlot :=
  { state := leAt r 0 1, reason := leAt r 1 1, crc := leAt r 4 4, bytes := (r.drop 16).take (leAt r 2 2) }

/-- A barrier from its record. -/
def barrierFrom (r : List Byte) : Barrier :=
  { phase := BitVec.ofNat 32 (leAt r 0 4), count := leAt r 4 2, arr := leAt r 6 2, ab := leAt r 8 1 != 0,
    red := if leAt r 9 1 == 15 then none else some (leAt r 9 1, leAt r 14 1),
    payload := (List.range 32).map (fun i => if bit (leAt r 10 4) i then some (BitVec.ofNat 64 (leAt r (32 + 8 * i) 8)) else none),
    result := (BitVec.ofNat 32 (leAt r 0 4) - 1, 0, leAt r 8 1 != 0) }

/-- A carry block from its tagged form; n is its number of words. -/
def carryFrom (n : Nat) (r : List Byte) : Option CarryBlock :=
  if leAt r 3 1 == 0 then none
  else some ⟨leAt r 0 1, leAt r 4 4, leAt r 1 1, leAt r 2 1, if leAt r 0 1 == 0 then wordsOfBytes ((r.drop 8).take (4 * n)) else []⟩

/-- The scan context from its section, with what its saved gang keeps besides. -/
def scanFrom (r : List Byte) (programs : List Bool) (outbox : List CarryBlock) (ports : List Nat) : ScanCtx :=
  let ops := (List.range 4).map (fun i =>
    let p := wordsOfBytes ((r.drop (36 * i)).take 36)
    if programs.getD i false then some (p.take (1 + progSteps (p.headD 0).toNat)) else none)
  let flags := leAt r 144 1
  let nch := leAt r 146 1
  let prog := ((ops[leAt r 145 1]?).join).getD []
  { ops := ops, isOpen := bit flags 0, published := bit flags 1, sent := bit flags 2, epoch := leAt r 152 8, opslot := leAt r 145 1,
    nch := nch, first := leAt r 147 1, last := leAt r 148 1, init := leAt r 149 1, prog := if bit flags 0 then prog else [],
    g := (List.range nch).map (fun c => if bit (leAt r 1192 8) c then none
      else some ((List.range (progK prog)).map (fun j => BitVec.ofNat 32 (leAt r (168 + 4 * (c + 64 * j)) 4)))),
    carryIn := carryFrom (nch * progK prog) ((r.drop 1200).take 1032), carryOut := carryFrom (nch * progK prog) ((r.drop 2232).take 1032),
    ports := ((carryFrom (ports.getD 0 256) ((r.drop 3264).take 1032)).toList ++
      (carryFrom (ports.getD 1 256) ((r.drop 4296).take 1032)).toList), outbox := outbox }

/-- A freshly placed gang filled from its block (R356), its scratchpad, presence bits and operations with it. -/
def State.fillGang (s : State) (g : Gang) (sv : SavedGang) : State :=
  let k := g.kernel
  let va := sv.block.toNat
  let rd (o n : Nat) : List Byte := s.peek g.part (va + o) n
  let sec (i : Nat) : Nat := k.section 0 i
  let h := rd 0 512
  let hs := rd (sec 1) 2048
  let bundles := ((List.range g.bundles.length).zip g.bundles).map (fun p =>
    ((bundleFrom p.2 k (rd (sec 2 + 4608 * p.1) 4608)
      (wordsOfBytes (rd (sec 3 + p.1 * k.width * k.v * 4) (k.width * k.v * 4))).toArray
      (wordsOfBytes (rd (sec 4 + p.1 * 48 * k.width) (48 * k.width))).toArray
      ((sv.gone.filter (fun q => q.1 == p.1)).map (·.2))).rewait (sv.waits.filter (fun q => q.bundle == p.1))).keep
      (sv.bundles.getD p.1 ⟨none, 0, 0⟩))
  let pad := rd (sec 5) k.scratch
  let present := leNat (rd (sec 5 + k.scratch) k.presenceBytes)
  let absent := ((List.range (k.scratch / 128)).filter (fun i => !bit present i)).flatMap (fun i =>
    (g.viewRuns (128 * i) 128).map (fun r => r.1 / 128))
  let g' : Gang :=
    { g with
      bundles := bundles
      handles := (List.range 16).map (fun i =>
        let r := (hs.drop (128 * i)).take 128
        if leAt r 72 1 == 0 then none else some ⟨BitVec.ofNat 64 (leAt r 64 8), r.take 64⟩)
      atlas := (List.range k.atlas).map (fun i => atlasFrom (rd (sec 6 + 2112 * i) 2112))
      barriers := (List.range k.barriers).map (fun i => barrierFrom (rd (sec 7 + 288 * i) 288))
      scan := scanFrom (rd (sec 8) 8192) sv.programs sv.outbox sv.ports
      tl := (List.range 4).map (fun i => leAt h (32 + 8 * i) 8)
      issued := (List.range 4).map (fun i => leAt h (64 + 8 * i) 8)
      group := leAt h 96 8
      acc := (List.range k.accRows).map (fun r => wordsOfBytes (rd (sec 10 + 256 * r) 256))
      bFront := if k.accRows == 0 then [] else (List.range 64).map (fun i =>
        { mant := rd (sec 11 + 4608 * i) 4096, scale := rd (sec 11 + 4608 * i + 4096) 512, m := sv.widths.getD i 8 })
      damage := sv.damage, scanHeld := sv.scanHeld }
  let s := (s.writeView g 0 pad).modGang g.gid (fun _ => g')
  let ops := sv.opsFrom ((List.range 72).map (fun i => rd (sec 9 + 192 * i) 192))
  { s with absent := absent ++ s.absent, poison := sv.poison.flatMap (fun w => (g.viewRuns (4 * w) 4).map (fun r => r.1 / 4)) ++ s.poison
           ops := s.ops ++ ops.map (fun o => { o with site := (g.part, g.die, g.core) }) }

/-- The headers of n gang blocks from an address on, with their addresses, in rank order; the block of a retired gang is its header (R357,
R358, R400). -/
def State.savedHeaders (s : State) (part : Nat) : Nat → Nat → List (Nat × List Byte)
  | 0, _ => []
  | n + 1, va =>
    let h := s.peek part va 512
    (va, h) :: s.savedHeaders part n (va + alignUp (leAt h 4 4) 4096)

/-- The windows of a crew rebuilt from the gang blocks of its slot, in every member (R358). -/
def State.fillWindows (s : State) (part : Nat) (gids : List Nat) (ranks va : Nat) : State :=
  let ws := (s.savedHeaders part ranks va).map (fun h => (leAt h.2 104 4, leAt h.2 108 4))
  { s with gangs := s.gangs.map (fun g => if gids.contains g.gid then { g with windows := ws ++ g.windows.drop ws.length } else g) }

end Sys2Proof.Machine
end

