-- ==== Sys2Proof/Machine/Hazard.lean ====
section
/-!
DEFINITION. The registers that an instruction reads and writes, and when a sub-bundle may not issue because another sub-bundle of
its bundle has a write pending to one of them (R166). A sub-bundle never issues behind its own pending instruction.
-/

namespace Sys2Proof.Machine

/-- The registers of an instruction that sub-bundles share or read across (R166): scalars read, scalars written, v and o
registers read in other lanes, v and o registers written, and whether the latch belt shifts. -/
structure RegUse where
  reads : List Nat
  writes : List Nat
  across : List Nat
  lanes : List Nat
  belt : Bool := false
  deriving DecidableEq, Repr

/-- n scalars from a code; none for 268. -/
def scalarsFrom (n : Nat) (c : BitVec 9) : List Nat := if c = 268 then [] else (List.range n).map (c.toNat + ·)

/-- The use of a uniform word: how many scalars its D, A, B and C fields name (0 for a field that names none). -/
def RegUse.ofWord (w : XWord) (d a b c : Nat) : RegUse :=
  { reads := scalarsFrom a w.a9 ++ scalarsFrom b w.b9 ++ scalarsFrom c w.c9, writes := scalarsFrom d w.d9, across := [], lanes := [] }

/-- Registers n from a first one, of the lanes. -/
def lanesFrom (c n : Nat) : List Nat := (List.range n).map (c + ·)

/-- How many registers hold n words of a bundle of a width. -/
def regsFor (n width : Nat) : Nat := (n + width - 1) / width

/-- The use of a per-lane instruction (R166, R191, R227): what vshfl, vred, vscn, vbal and bfpq read, they read in other lanes. -/
def laneUse (i : Instr) : RegUse :=
  match i with
  | .pair w => { reads := [], writes := [], across := [],
                 lanes := (if w.nwb1 = 1 then [] else [w.d1.toNat]) ++ (if w.nwb2 = 1 then [] else [w.d2.toNat]), belt := true }
  | _ =>
    match laneWord i with
    | none => ⟨[], [], [], [], false⟩
    | some (op, w) =>
      let f := laneForm op 64 w
      { reads := (if f.b == .scalar then scalarsFrom 1 w.b9 else []), writes := [],
        across := if [0x46, 0x47, 0x48, 0x49, 0x64].contains op then sourceCodes i else [],
        lanes := if f.d == .dst && w.nwb != 1 && w.d9 != 268 then lanesFrom w.d9.toNat f.group else []
        belt := f.d == .dst }

/-- What an instruction reads and writes in a bundle of a width (R166). -/
def regUse (width : Nat) (i : Instr) : RegUse :=
  match i with
  | .bra _ | .join | .ret | .regang | .exit | .yield _ | .planeSet _ | .call _ | .trap _ | .fence _ | .fenceAlias _ | .waitTok _
  | .nop => ⟨[], [], [], [], false⟩
  | .brx w | .callIndirect w | .waitTl w | .barInit w | .barArriveRemote w | .tbind w | .ctld w | .ctldSpm w | .accZero w | .scanOpdef w
  | .scanEnd w | .csrWrFaultact w | .csrWrCecnt w | .csrWrUecnt w | .csrWrStopreq w | .csrWr w => .ofWord w 0 1 0 0
  | .bru w | .presClr w | .presSet w | .grpPublish w | .watchArm w | .jcInit w => .ofWord w 0 1 1 0
  | .planeMov w => .ofWord w 0 2 0 0
  | .planeGet w => .ofWord w 2 0 0 0
  | .planeBal w | .barArrive w | .barMeet w | .barQuery w | .grpJoin w | .grpLeave w | .grpQuery w | .srd w | .ctst w | .scanPub w | .perfRd w
  | .csrRd w => .ofWord w 1 0 0 0
  | .barWait w | .sbitPopc w | .sbitClz w | .sbitCtz w | .sbitBrev w | .sbitBfx w | .sbitBfxS w | .scanBegin w | .scanCarry w
  | .scanFix w | .launchInstruction w | .perfSel w | .perfSamp w | .dbgHstep w | .dbgHresume w | .dbgHalt w => .ofWord w 1 1 0 0
  | .barRed w | .dbgHstat w => .ofWord w 2 1 0 0
  | .saddXForm w | .ssubXForm w | .smulXForm w | .smulhXForm w | .smulhZ w | .sdivS w | .sdivZ w | .sremS w | .sremZ w | .sandXForm w
  | .sorXForm w | .sxorXForm w | .sshlXForm w | .sshrXForm w | .ssraXForm w | .sminS w | .sminZ w | .smaxS w | .smaxZ w | .scmp w | .saddr w
  | .sbitBfi w | .sld w | .presTest w | .scanTile w | .jcAdd w | .dbgHwrite w => .ofWord w 1 1 1 (if w.c9 = 268 then 0 else 1)
  | .ssel w | .spawn w | .collRed w | .collAr w | .collBc w => .ofWord w 1 1 1 1
  | .saddSForm w | .ssubSForm w | .smulSForm w | .smulhSForm w | .sandSForm w | .sorSForm w | .sxorSForm w | .sshlSForm w | .sshrSForm w
  | .ssraSForm w => .ofWord (scalarS true true w) 1 1 1 0
  | .saddSlForm w _ | .ssubSlForm w _ | .smulSlForm w _ | .smulhSlForm w _ | .sandSlForm w _ | .sorSlForm w _ | .sxorSlForm w _
  | .sshlSlForm w _ | .sshrSlForm w _ | .ssraSlForm w _ => .ofWord (scalarSl true w) 1 1 0 0
  | .sli w _ => .ofWord (scalarSl false w) 1 0 0 0
  | .smov w => .ofWord (scalarS true false w) 1 1 0 0
  | .vget w | .vgetS w => { RegUse.ofWord w 1 0 1 0 with across := [w.a9.toNat] }
  | .sst w | .accWin w | .accOut w => .ofWord w 0 1 1 1
  | .satom w => let u := RegUse.ofWord w 1 1 1 1; { u with reads := u.reads ++ u.writes }
  | .tlocEnt w => .ofWord w 1 0 1 1
  | .tloc w => .ofWord w 2 0 1 1
  | .tbindClr _ | .watchClr _ => ⟨[], [], [], [], false⟩
  | .texp w => { RegUse.ofWord w 0 0 1 1 with
      lanes := lanesFrom w.d9.toNat (regsFor (bits w.imm.toNat 6 7 * 64 / texpPer w.fn.toNat) width) }
  | .tenc w => { RegUse.ofWord w 1 0 1 1 with across := lanesFrom (bits w.imm.toNat 0 8) (64 / width) }
  | .cpyLinG2s w | .cpyLinS2g w | .cpyLinG2g w | .cpyFill w => .ofWord w 1 1 1 1
  | .cpyTileG2s w => .ofWord w 1 1 2 1
  | .cpyTileG2sCh w _ => .ofWord w 2 1 2 1
  | .cpyRowsG2s w | .cpyMcastG2s w | .cpyMcastS2s w => .ofWord w 1 1 1 2
  | .mma w | .mmaSp w | .bload w | .mmaCrew w _ => .ofWord w 1 0 1 1
  | .accLd w => { RegUse.ofWord w 0 1 0 0 with lanes := lanesFrom w.d9.toNat (regsFor (64 * (bits w.imm.toNat 10 4 + 1)) width) }
  | .accSt w => { RegUse.ofWord w 0 1 0 0 with across := lanesFrom w.b9.toNat (regsFor (64 * (bits w.imm.toNat 10 4 + 1)) width) }
  | .dbgHread w => .ofWord w 2 1 1 0
  | .watchSet w => .ofWord w 1 4 0 0
  | .watchGet w => .ofWord w 4 0 0 0
  | _ => laneUse i

/-- The registers that the words of every occupied plane use together. -/
def usesOf (width : Nat) (ws : List (List W32)) : RegUse :=
  ws.foldl (fun u w =>
    match decodeWords w with
    | .error _ => u
    | .ok (i, _) =>
      let r := regUse width i
      ⟨u.reads ++ r.reads, u.writes ++ r.writes, u.across ++ r.across, u.lanes ++ r.lanes, u.belt || r.belt⟩) ⟨[], [], [], [], false⟩

/-- Whether a sub-bundle is in the middle of an instruction: it has issued a pass and waits, or has passes left. -/
def Sub.inInstruction (q : Sub) : Bool := q.isLive && (q.pass.isSome || q.charged && q.wait != .none)

/-- Whether an instruction may not issue yet because another sub-bundle of the bundle has a write pending to a register that it
writes, or that it reads and that is not its own lanes' (R166); a latch of other lanes that it reads has one while a result is
pending there. -/
def regHazard (pending mine : RegUse) : Bool :=
  (mine.reads ++ mine.writes).any pending.writes.contains || (mine.across ++ mine.lanes).any pending.lanes.contains ||
    pending.belt && mine.across.any (fun c => 256 ≤ c && c < 260)

end Sys2Proof.Machine
end

