-- ==== Sys2Proof/Machine/Fetch.lean ====
section
/-!
DEFINITION. Fetching (R143, R146–R148): the words of every occupied plane, the checks between planes, decoding, and the checks
that come before the first pass of a per-lane instruction (R44, R171, R228).
-/

namespace Sys2Proof.Machine

/-- The instruction-cache lines that the words of a plane at an offset touch, as partition and line (R148). -/
def codeLines (g : Gang) (plane off : Nat) : List (Nat × Nat) :=
  let a := g.kernel.codeAt plane off
  let n := 4 * min 5 ((g.kernel.codeLen - off) / 4)
  (linesOf a n).map (fun l => (g.part, l))

/-- Whether a major is of the uniform class (R146). -/
def uniformClass (op : Nat) : Bool :=
  !(op == 0 || (0x30 ≤ op && op ≤ 0x4C) || (0x50 ≤ op && op ≤ 0x65) || (0x68 ≤ op && op ≤ 0x6C) || op == 0x7F)

/-- The fault PLANE (R146) between the words of the occupied planes: the first subcode that fails, and the lowest plane that
disagrees with the lowest occupied plane. -/
def planeCheck (ws : List (Nat × List W32)) : Option FaultInfo :=
  match ws with
  | [] => none
  | first :: rest =>
    let w0 (p : Nat × List W32) : W32 := p.2.headD 0
    let len (p : Nat × List W32) : Nat := Decode.lenField (w0 p)
    let uni (p : Nat × List W32) : Bool := uniformClass (Decode.opField (w0 p))
    let take (p : Nat × List W32) : List W32 := p.2.take (Decode.lenWords (len p))
    let bad (sub : Nat) (c : Nat × List W32 → Bool) : Option FaultInfo :=
      (rest.find? c).map (fun p => { cls := 0x0B, sub := sub, plane := some p.1 })
    firstFault [bad 1 (fun p => len p != len first), bad 2 (fun p => uni p != uni first),
      bad 3 (fun p => uni first && take p != take first)]

/-- The fault of a word that the decoder rejects (R28, R44 orders 2–7, R372): in user mode a privileged major is PRIV. -/
def rejectFault (privileged : Bool) (op : Nat) (r : Reject) : FaultInfo :=
  match r with
  | .truncated => illegal 10
  | .opcode => illegal 1
  | .format => illegal 2
  | .fn => if (op == 0x7A || op == 0x7D) && !privileged then { cls := 0x10, sub := 1 } else illegal 3
  | .resbit => illegal 4
  | .operand => illegal 5
  | .guard => illegal 6

/-- Whether a partition is privileged (R351). -/
def State.isPrivileged (s : State) (part : Nat) : Bool := match s.part part with | some p => p.privileged | none => false

/-- What a fetch finds: an outcome without an instruction, or the instruction and the state in which it runs. -/
inductive Ready where
  | out (o : Host.Outcome State Fault Refusal)
  | run (i : Instr) (s : State)

/-- The live sub-bundles of a bundle. -/
def Bundle.liveSubs (b : Bundle) : List Sub := if b.killed then [] else b.subs.filter Sub.isLive

/-- Whether a sub-bundle stands halted. -/
def Sub.stands (q : Sub) : Bool := q.halted && !q.stepping

/-- The planes of a per-lane instruction that issue a pass (R147): nop words are skipped beside other per-lane words. -/
def passPlanes (ws : List (Nat × List W32)) : List Nat :=
  let busy := ws.filter (fun p => p.2.headD 0 != 0)
  if busy.isEmpty then (ws.take 1).map (·.1) else busy.map (·.1)

/-- The accesses of a scalar access instruction's words (R235). -/
def Ctx.scalarAccess (x : Ctx) (ws : List W32) : List (MemInfo × W64 × List W64) :=
  let of (op : Nat) (w : XWord) : List (MemInfo × W64 × List W64) :=
    let m := scalarMemInfo op w
    [(m, x.b.readS w.b9.toNat, [x.scalarEa m w])]
  match decodeWords ws with
  | .ok (.sld w, _) => of 0x24 w
  | .ok (.sst w, _) => of 0x25 w
  | .ok (.satom w, _) => of 0x26 w
  | _ => []

/-- Whether the instruction at which a sub-bundle stands waits for an absent line before it issues (R221). -/
def State.awaitsLine (s : State) (g : Gang) (bi k : Nat) (b : Bundle) (q : Sub) : Bool :=
  let ws := (b.planesOf q).map (fun p => (p, s.codeWords g p (b.offsetOf q)))
  let x : Ctx := ⟨⟨g.gid, bi, k, (passPlanes ws).headD 0, [], true, ws, b.lanes, b.s⟩, g, b, q⟩
  let crew (as : List (MemInfo × W64 × List W64)) : Bool := as.any (fun a => a.1.spaceOf g a.2.1 == 2 && a.1.kind != 1)
  let sc := x.scalarAccess ((ws.head?.map (·.2)).getD [])
  s.linesAbsent g (crew (x.planeAccesses (ws.filter (fun w => w.1 == x.c.plane)))) (x.planeAccesses ws) || s.linesAbsent g (crew sc) sc

/-- Whether sub-bundle k of bundle bi of a gang stands at a stop point (R353): it completed a yield since the last placement or stop, or
waits where the rule lists, an access parked on an absent line among them. -/
def State.atStop (s : State) (g : Gang) (bi k : Nat) (b : Bundle) (q : Sub) : Bool :=
  q.stopped || q.stands ||
    q.yielded && q.between && (match q.wait with
      | .barrier _ _ | .met _ _ _ _ | .regang | .timeline _ | .carry | .retry 9 => true
      | .retry 6 => s.awaitsLine g bi k b q
      | _ => false) ||
    q.yielded && (match q.wait with | .mem i _ => (match s.memOp i with | some o => s.parked o | none => false) | _ => false)

/-- Whether a sub-bundle may issue (R21, R145, R149, R161, R353): live, not halted unless stepped, not stopped, its wait not
one that only an event ends. -/
def Sub.issuable (q : Sub) : Bool :=
  q.isLive && (!q.halted || q.stepping) && !q.stopped &&
  (match q.wait with | .fetch | .mem _ _ | .decoder _ => false | _ => true)

/-- A check made of the word of every occupied plane in ascending order: the first failure, and the state it is taken in. -/
def sweepPlanes (x : Ctx) (s : State) (check : Ctx → Instr → Option FaultInfo) :
    List (Nat × List W32) → Option (FaultInfo × State)
  | [] => none
  | p :: ps =>
    match decodeWords p.2 with
    | .error r => some ({ rejectFault (s.isPrivileged x.g.part) 0 r with plane := some p.1 }, s)
    | .ok (i, _) =>
      let x' : Ctx := { x with c := { x.c with plane := p.1 } }
      match check x' i with
      | some f => some ({ f with plane := some (f.plane.getD p.1) }, s.logPrecheck x' i f)
      | none => sweepPlanes x s check ps

/-- The checks of every occupied plane of a per-lane instruction that are made before its first pass and read registers: the
latches (R171), then slots (R262) and addresses (R228). A TABLE fault names the lowest occupied plane (R250), whichever plane failed. DEDUCED
(log 88). -/
def laneChecks (x : Ctx) (s : State) (ws : List (Nat × List W32)) : Option (FaultInfo × State) :=
  match sweepPlanes x s (fun x' i => x'.latchCheck x'.c.plane i) ws with
  | some f => some f
  | none =>
    match sweepPlanes x s (fun x' i => (s.slotCheck x' i).map (fun f => if f.cls == 9 then { f with plane := ws.head?.map (·.1) } else f)) ws with
    | some f => some f
    | none => sweepPlanes x s (fun x' i => s.memPrecheck x' i) ws

/-- Whether R166 keeps an instruction from issuing: its sub-bundle has not issued it yet, and another sub-bundle of the bundle has
a write pending to a register that it uses. -/
def State.regHeld (s : State) (x : Ctx) (ws : List (Nat × List W32)) : Bool :=
  !x.q.charged && ((List.range x.b.subs.length).zip x.b.subs).any (fun p =>
    p.1 != x.c.sub && p.2.inInstruction &&
      regHazard (usesOf x.g.kernel.width ((x.b.planesOf p.2).map (fun j => s.codeWords x.g j (x.b.offsetOf p.2))))
        (usesOf x.g.kernel.width (ws.map (·.2))))

/-- A fault taken instead of an instruction. -/
def Ready.faulted (s : State) (x : Ctx) (f : FaultInfo) : Ready :=
  .out (.next ({ s.takeFault x.faultAt f with cur := none }))

/-- The fetch and the checks before an instruction's own (R146–R148): the sub-bundle's state is complete when it runs. -/
def State.fetchFirst (s : State) (x : Ctx) : Ready :=
  let off := x.offset
  let planes := x.b.planesOf x.q
  if off ≥ x.g.kernel.codeLen then .faulted s x { illegal 10 with plane := planes.head? }
  else
    match planes.findSome? (fun p => (s.codeRefused x.g p off).map (fun a => (p, a))) with
    | some (p, a) =>
      .faulted (s.logAccess x.g.part a x.g.core 0 0 x.g.die) x { cls := 5, addr := a, plane := some p }
    | none =>
    let lines := planes.flatMap (fun p => codeLines x.g p off)
    let ic := (s.core x.g.die x.g.core).icache
    if x.q.wait == .none && !(lines.all ic.contains) then
      .out (.next { s.modBundle x.c.gid x.c.bundle (fun b =>
        (b.beginWait (s.die x.g.die).cycles).modSub x.c.sub (fun q => { q with wait := .fetch })) with cur := none })
    else
      let ws := planes.map (fun p => (p, s.codeWords x.g p off))
      match planeCheck ws with
      | some f => .faulted s x f
      | none =>
        let w0 := ((ws.head?.map (·.2)).getD []).headD 0
        let plane := planes.headD 0
        if uniformClass (Decode.opField w0) then
          match decodeWords ((ws.head?.map (·.2)).getD []) with
          | .error r => .faulted s x { rejectFault (s.isPrivileged x.g.part) (Decode.opField w0) r with plane := some plane }
          | .ok (i, _) =>
            if s.regHeld x ws then .out (.fault .notEnabled)
            else .run i { s with cur := some { x.c with plane := plane, rest := [], first := true, words := ws, snap := x.b.lanes, base := x.b.s } }
        else
          match sweepPlanes x s (fun x' i => laneFieldCheck x'.g.kernel i) ws with
          | some f => .faulted f.2 x f.1
          | none =>
            if s.regHeld x ws then .out (.fault .notEnabled)
            else
              match laneChecks x s ws with
              | some f => .faulted f.2 x f.1
              | none =>
                match passPlanes ws with
                | [] => .out (.fault .notEnabled)
                | p :: rest =>
                  match decodeWords (((ws.find? (fun w => w.1 == p)).map (·.2)).getD []) with
                  | .error r => .faulted s x (rejectFault false 0 r)
                  | .ok (i, _) =>
                    let x' : Ctx := { x with c := { x.c with plane := p, rest := rest, first := true, words := ws, snap := x.b.lanes, base := x.b.s } }
                    match if (memWord i).isSome then none else s.passGate x' false ws with
                    | some r => .out (.next { s.hold x' r with cur := none })
                    | none => .run i { s with cur := some x'.c }

/-- The next pass of an instruction in progress (R147). -/
def State.fetchNext (s : State) (x : Ctx) (p : Pass) : Ready :=
  match p.rest with
  | [] => .out (.fault .notEnabled)
  | plane :: rest =>
    let ws := (x.b.planesOf x.q).map (fun q => (q, s.codeWords x.g q x.offset))
    match decodeWords (((ws.find? (fun w => w.1 == plane)).map (·.2)).getD []) with
    | .error r => .faulted s x (rejectFault false 0 r)
    | .ok (i, _) =>
      .run i { s with cur := some { x.c with plane := plane, rest := rest, first := false, words := ws, snap := p.snap, base := p.base } }

/-- Whether a sub-bundle may not start an instruction now: a halt of its bundle is due (R384), a program run keeps it waiting (R389), its
crew is to be dumped (R362) or has ended (R368), its partition is being reset (R114), or a lower stepping sub-bundle steps first (R393). -/
def State.barred (s : State) (x : Ctx) : Bool :=
  s.halts.any (fun h => s.haltBars h x.c.gid x.c.bundle x.b x.q) ||
  s.sxRuns.any (fun r => r.gid == x.c.gid && r.bundle == x.c.bundle && (match r.waits with | some i => x.q.slices.contains i | none => false)) ||
  (match s.crew x.g.crew with | some c => c.dump.isSome || c.dumpSlot.isSome || c.ended | none => false) ||
  (match s.part x.g.part with | some p => p.resetting.isSome | none => false) ||
  (x.q.stepping && x.b.subs.any (fun q => q.stepping && q.isLive && q.wait == .none && minOr 0 q.slices < minOr 0 x.q.slices))

/-- A sub-bundle's turn to issue (R149, R369): what it fetches, or why nothing runs. -/
def State.prepare (s : State) (gid b k : Nat) : Ready :=
  match { s with cur := some ⟨gid, b, k, 0, [], true, [], [], []⟩ }.ctx with
  | none => .out (.fault .notEnabled)
  | some x =>
    if !x.q.issuable || (s.die x.g.die).shutdown || s.failed || x.g.retired || (s.stopPending x.g && s.atStop x.g b k x.b x.q) || (x.q.pass.isNone && s.barred x) then .out (.fault .notEnabled)
    else
      match x.b.damaged with
      | some sub => .faulted s { x with c := { x.c with plane := (x.b.planesOf x.q).headD 0 } } { cls := 0x0D, sub := sub }
      | none =>
        match x.q.pass with
        | some p => s.fetchNext x p
        | none => s.fetchFirst x

end Sys2Proof.Machine
end

