-- ==== Sys2Proof/Machine/Watch.lean ====
section
/-!
DEFINITION. Watch entries and halts (R378–R380, R384–R387, R389, R390): watch.*, HALT_TAKES_EFFECT, Sextant entries, programs and
their runs, and debug sessions.
-/

namespace Sys2Proof.Machine

/-! ## Entries (R379, R380) -/

/-- The lowest bit of the first failing field of an entry (R380); the gang-entry conditions and the kernel's shape apply to gang
entries. -/
def entryBad (e : Nat) (gang : Option Kernel) : Option Nat :=
  let addr := bits e 0 64
  let len := bits e 64 32
  let space := bits e 112 3
  let kind := bits e 115 4
  let own := gang.isSome
  let checks : List (Bool × Nat) :=
    [(space != 3 && len == 0 || addr + len > 2 ^ 64 || space == 1 && addr + len > 0x40000, 64),
      (space ≥ 4 || (own && space == 2), 112),
      (kind == 0 || (bit kind 3 && space != 3) || (kind % 8 != 0 && space == 3), 115),
      (bits e 119 9 != 0, 119), (bits e 192 3 == 7, 192), (bits e 195 6 != 0 && !bit kind 3, 195), (bits e 201 7 == 0, 201),
      (match gang with | some k => bit e 212 && bits e 213 6 ≥ k.width | none => false, 213),
      (match gang with | some k => bit e 219 && bits e 220 5 ≥ k.bundles | none => false, 220),
      (bits e 225 3 ≥ 6 || (own && bits e 225 3 == 5), 225), (own && bits e 228 3 != 0, 228), (bits e 232 24 != 0, 232)]
  (checks.find? (·.1)).map (·.2)

/-- An entry of a core's bank. -/
def State.watchEntry (s : State) (g : Gang) (e : Nat) : WatchEntry := (s.core g.die g.core).watch.getD e ⟨[0, 0, 0, 0], 0, false, none⟩

/-- An entry of a core's bank changed. -/
def State.modWatch (s : State) (g : Gang) (f : Nat → WatchEntry → WatchEntry) : State :=
  s.modCore g.die g.core (fun c => { c with watch := ((List.range 8).zip c.watch).map (fun p => f p.1 p.2) })

/-- The entries that a gang owns released, and its copies of Sextant entries with them (R378). -/
def State.releaseWatch (s : State) (g : Gang) : State :=
  { s.modWatch g (fun _ e => if e.owner == some g.gid then ⟨[0, 0, 0, 0], 0, false, none⟩ else e) with
    sxEntries := s.sxEntries.map (fun (y : SxEntry) => { y with copies := y.copies.filter (fun c => c.gid != g.gid) }) }

/-! ## watch.* (R390) -/

/-- The form of a watch instruction. -/
def watchForm (d a b : Kind) (resOk : Bool) (w : XWord) : Form := opForm d a b .unused true (resOk && w.m6 = 0 && w.nwb = 0)

/-- e of W2. -/
def watchE (w : XWord) : Nat := bits w.imm.toNat 0 4

/-- ILLEGAL 38 WENTRY. -/
def wentry (bad : Bool) : Option FaultInfo := failIf bad (illegal 38)

/-- Four scalars from a code. -/
def Ctx.quad (x : Ctx) (code : Nat) : List W64 := (List.range 4).map (fun i => x.s (code + i))

/-- Four scalars written. -/
def State.setQuad (s : State) (x : Ctx) (code : Nat) (ws : List W64) : State :=
  ((List.range 4).zip ws).foldl (fun s p => s.setS x (code + p.1) p.2) s

/-- WATCH_SET (R390). -/
def execWatchSet (w : XWord) (s : State) : Host.Outcome State Fault Refusal :=
  runUniform false 12 (fun _ => watchForm .scalar .quad .unused (bits w.imm.toNat 4 28 == 0) w) w (fun _ => wentry (watchE w ≥ 8))
    (fun x s =>
      let e := s.watchEntry x.g (watchE w)
      if e.owner.isSome && e.owner != some x.c.gid then .done (s.setS x w.d9.toNat 1)
      else
        let q := x.quad w.a9.toNat
        match entryBad (entryNat q) (some x.g.kernel) with
        | some b => .fault { illegal 39 with detail := b } s
        | none =>
          .done ((s.modWatch x.g (fun n y => if n == watchE w then ⟨q, 0, false, some x.c.gid⟩ else y)).setS x w.d9.toNat 0)) s

/-- WATCH_CLR (R390). -/
def execWatchClr (w : XWord) (s : State) : Host.Outcome State Fault Refusal :=
  runUniform false 12 (fun _ => watchForm .unused .unused .unused (bits w.imm.toNat 16 16 == 0) w) w
    (fun _ => wentry (bits w.imm.toNat 8 8 != 0))
    (fun x s => .done (s.modWatch x.g (fun n y =>
      if bit w.imm.toNat n && y.owner == some x.c.gid then { y with armed := false, owner := none } else y))) s

/-- What watch.get reads of an entry (R379, R390): of entries 8 to 15, which are Sextant entries, OWNER 3. -/
def State.readEntry (s : State) (g : Gang) (e : Nat) : List W64 :=
  if e ≥ 8 then [0, 0, 0, BitVec.ofNat 64 (3 <<< 57)]
  else
    let y := s.watchEntry g e
    match y.owner with
    | none => [0, 0, 0, 0]
    | some o =>
      if o != g.gid then [0, 0, 0, BitVec.ofNat 64 (2 <<< 57)]
      else [y.w.getD 0 0, y.w.getD 1 0, y.w.getD 2 0,
        BitVec.ofNat 64 ((y.w.getD 3 0).toNat % 2 ^ 40 + y.hits <<< 40 + ofBool y.armed <<< 56 + 1 <<< 57)]

/-- WATCH_GET (R390). -/
def execWatchGet (w : XWord) (s : State) : Host.Outcome State Fault Refusal :=
  runUniform false 12 (fun _ => watchForm .quad .unused .unused (bits w.imm.toNat 4 28 == 0) w) w noExtra
    (fun x s => .done (s.setQuad x w.d9.toNat (s.readEntry x.g (watchE w)))) s

/-- Whether a bundle has accesses still to be performed, those of a texp, tenc or ctld among them (R382, R390). -/
def State.watchPending (s : State) (gid b : Nat) : Bool :=
  s.accessesPending gid b || s.ops.any (fun o => 5 ≤ o.eng && o.gid == gid && o.bundle == b)

/-- WATCH_ARM (R390): after every earlier access of the bundle. -/
def execWatchArm (w : XWord) (s : State) : Host.Outcome State Fault Refusal :=
  runUniform false 12 (fun _ => watchForm .unused .scalar .scalar (noImm w) w) w
    (fun x => wentry (x.sn w.a9.toNat ≥ 256 || x.sn w.b9.toNat ≥ 256))
    (fun x s =>
      if s.watchPending x.c.gid x.c.bundle then .hold 31
      else
        .done (s.modWatch x.g (fun n y =>
          if y.owner == some x.c.gid then { y with armed := (y.armed || bit (x.sn w.a9.toNat) n) && !bit (x.sn w.b9.toNat) n } else y))) s

/-! ## Halts (R384, R386) -/

/-- Whether a sub-bundle may halt where it stands (R386): between instructions, or waiting in one. -/
def State.haltable (s : State) (q : Sub) : Bool :=
  q.between || (match q.wait with | .mem i _ => (match s.memOp i with | some o => s.parked o | none => true) | _ => false)

/-- HALT_TAKES_EFFECT (R384–R387): a requested halt falls, once what it halts stands at an instruction boundary. -/
def execHaltTakesEffect (halt : Nat) (s : State) : Host.Outcome State Fault Refusal :=
  match s.halts.find? (fun h => h.id == halt) with
  | none => .fault .notEnabled
  | some h =>
    if (s.haltTargets h).all s.haltable && s.sxRuns.all (fun r => r.ev != h.ev) then .next (s.performHalt h) else .fault .notEnabled

/-! ## Sextant entries, programs and sessions (R378, R389, R408) -/

/-- SXENTRY (R378, R380): an entry that breaks the conditions is refused. -/
def execSxentry (m : MsgId) (part die e : Nat) (words : List W64) (s : State) : Host.Outcome State Fault Refusal :=
  onMessage 1 0 s (fun s =>
    if (s.part part).isNone || die ≥ 8 || e < 8 || e ≥ 16 || words.length != 4 || (entryBad (entryNat words) none).isSome then s.refuse m
    else
      { s with sxEntries := s.sxEntries.filter (fun (y : SxEntry) => !(y.part == part && y.die == die && y.e == e)) ++
          [({ part := part, die := die, e := e, w := words, copies := [] } : SxEntry)] }.reply m 0)

/-- Whether a program word is refused (R389): a reserved OPC or field, or a skip past the end of n words. -/
def sxWordBad (n i : Nat) (w : W32) : Bool :=
  let opc := bits w.toNat 0 4
  opc == 15 || (opc == 0 && bits w.toNat 13 4 ≥ 12) || (opc == 14 && bits w.toNat 13 3 ≥ 5) ||
    (11 ≤ opc && opc ≤ 13 && i + 1 + bits w.toNat 13 5 > n)

/-- SXPROG (R389). -/
def execSxprog (m : MsgId) (part die n : Nat) (words : List W32) (s : State) : Host.Outcome State Fault Refusal :=
  onMessage 1 0 s (fun s =>
    if (s.part part).isNone || die ≥ 8 || n ≥ 8 || words.isEmpty || words.length > 32 ||
        ((List.range words.length).zip words).any (fun p => sxWordBad words.length p.1 p.2) then s.refuse m
    else
      { s with sxProgs := s.sxProgs.filter (fun (y : SxProg) => !(y.part == part && y.die == die && y.n == n)) ++
          [(⟨part, die, n, words, List.replicate 16 0⟩ : SxProg)] }.reply m 0)

/-- ATTACH (R389, R408). -/
def execAttach (m : MsgId) (body : Option PartFlag) (s : State) : Host.Outcome State Fault Refusal :=
  onMessage 1 0 s (fun s =>
    match body with
    | none => s.reply m 1
    | some b =>
      if (s.part b.part).isNone || b.value > 1 then s.reply m 1
      else (s.modPart b.part (fun p => { p with session := b.value == 1 })).reply m 0)

/-- A Sextant run in progress: its registers and cells, and its action once it has ended. -/
structure SxState where
  g : List W64
  cells : List W64
  action : Option Nat
  deriving DecidableEq, Repr

/-- A register of a run. -/
def SxState.reg (x : SxState) (n : Nat) : W64 := x.g.getD n 0

/-- One word of a program (R389): the state after it, and the words it skips; read reads 8 bytes with the partition's RD permission. -/
def sxStep (read : Nat → Option W64) (event : List W64) (w : W32) (x : SxState) : SxState × Nat :=
  let n := w.toNat
  let opc := bits n 0 4
  let imm := BitVec.ofNat 64 (ofInt 64 (toSigned 19 (bits n 13 19)))
  let a := x.reg (bits n 7 3)
  let b := x.reg (bits n 10 3)
  let set (v : W64) : SxState × Nat := ({ x with g := setNth x.g (bits n 4 3) v }, 0)
  let skip (c : Bool) : SxState × Nat := (x, if c then bits n 13 5 else 0)
  if opc == 0 then set (event.getD (bits n 13 4) 0)
  else if opc == 1 then set imm
  else if opc == 2 then set (a + b)
  else if opc == 3 then set (a + imm)
  else if opc == 4 then set (a &&& b)
  else if opc == 5 then set (a ||| b)
  else if opc == 6 then set (a ^^^ b)
  else if opc == 7 then set (a >>> bits n 13 6)
  else if opc == 8 then (match read (a + imm).toNat with | some v => set v | none => ({ x with action := some 4 }, 0))
  else if opc == 9 then set (x.cells.getD (bits n 13 4) 0)
  else if opc == 10 then ({ x with cells := setNth x.cells (bits n 13 4) a }, 0)
  else if opc == 11 then skip (a == b)
  else if opc == 12 then skip (a != b)
  else if opc == 13 then skip (a.ult b)
  else ({ x with action := some (bits n 13 3) }, 0)

/-- A run over the words of a program; skipped words are passed over. -/
def sxRun (read : Nat → Option W64) (event : List W64) : List W32 → Nat → SxState → SxState
  | [], _, x => x
  | _ :: ws, k + 1, x => sxRun read event ws k x
  | w :: ws, 0, x =>
    if x.action.isSome then x
    else
      let r := sxStep read event w x
      sxRun read event ws r.2 r.1

/-- A program's halt joined with what its event's entries asked for (R383): the highest level, reported by the lowest entry. -/
def State.joinHalt (s : State) (r : SxRun) (level : Nat) : State :=
  let level := if r.bound = 0 ∨ level ≠ 1 then level else 2
  let rep := reportSet r.report 5 2 level
  match s.halts.find? (fun h => h.ev == r.ev) with
  | none =>
    let base := ((s.gang r.gid).map (fun g => g.issuesOf r.bundle)).getD 0
    { s.holdOp r.op with
      nextId := s.nextId + 1
      halts := s.halts ++ [{ id := s.nextId, ev := r.ev, reply := none, gid := r.gid, bundle := r.bundle, lane := r.lane, level := level,
                             report := rep, op := r.op, base := base, bound := r.bound, mem := r.mem }] }
  | some h =>
    let lower := fieldOf r.report 0 5 < fieldOf h.report 0 5
    if level > h.level || (level == h.level && lower) then
      { s with halts := s.halts.map (fun y => if y.id == h.id then { y with level := level, report := rep } else y) }
    else s

/-- The notice of a program that ends with action 4, under the limit of its entry (R385, R389). -/
def State.notifyRun (s : State) (r : SxRun) : State :=
  match s.gang r.gid with
  | none => s
  | some g => s.noticeHit g r.die (fieldOf r.report 0 5) r.report

/-- SEXTANT_PROGRAM_RUN (R389): the oldest run of its program, performed whole, and its action. -/
def execSextantProgramRun (run : Nat) (s : State) : Host.Outcome State Fault Refusal :=
  match s.sxRuns.find? (fun r => r.id == run) with
  | none => .fault .notEnabled
  | some r =>
    if s.sxRuns.any (fun q => q.part == r.part && q.die == r.die && q.prog == r.prog && q.id < r.id) || !s.settled r.die then .fault .notEnabled
    else
      let s' := { s with sxRuns := s.sxRuns.filter (fun q => q.id != run) }
      let same (p : SxProg) : Bool := p.part == r.part && p.die == r.die && p.n == r.prog
      match s.sxProgs.find? same with
      | none => .next s'
      | some p =>
        let read (va : Nat) : Option W64 :=
          if va % 8 != 0 then none
          else match s.readAny r.part 1 va 8 with | .ok b => some (BitVec.ofNat 64 (leNat b)) | .error _ => none
        let x := sxRun read r.event p.words 0 ⟨List.replicate 8 0, p.cells, none⟩
        let s' := { s' with sxProgs := s.sxProgs.map (fun q => if same q then { q with cells := x.cells } else q) }
        let a := x.action.getD 0
        .next (if a == 0 then s' else if a == 4 then s'.notifyRun r else s'.joinHalt r a)

end Sys2Proof.Machine
end

