-- ==== Sys2Proof/Machine/Debug.lean ====
section
/-!
DEFINITION. Halted-state debug (R391–R393): the dbg.* instructions and the DEBUG message.
-/

namespace Sys2Proof.Machine

/-- What a dbg.* operation names: a gang's bundle, one of its lanes (LV), or the whole gang (G). -/
structure DbgTarget where
  g : Gang
  bundle : Nat
  b : Bundle
  lane : Option Nat
  whole : Bool
  deriving DecidableEq, Repr

/-- The target of a dbg.* operation (R391), none for NOTARGET; naming both a lane and the gang names nothing. -/
def State.dbgTarget (s : State) (part die : Nat) (t : W64) : Option DbgTarget :=
  let n := t.toNat
  match s.gangs.find? (fun g => g.die == die && g.core == bits n 0 9 && g.gslot == bits n 9 2 && !g.retired && g.part == part) with
  | none => none
  | some g =>
    match g.bundles[bits n 11 5]? with
    | none => none
    | some b =>
      if bits n 24 40 != 0 || (bit n 22 && bit n 23) || (bit n 22 && bits n 16 6 ≥ g.kernel.width) then none
      else some ⟨g, bits n 11 5, b, if bit n 22 then some (bits n 16 6) else none, bit n 23⟩

/-- The bundles that a target covers. -/
def DbgTarget.bundles (t : DbgTarget) : List Bundle := if t.whole then t.g.bundles else [t.b]

/-- The sub-bundles that a target covers: a lane's is the one that holds it. -/
def DbgTarget.subs (t : DbgTarget) : List Sub :=
  match t.lane with
  | some l => (t.b.subOf l).toList
  | none => t.bundles.flatMap Bundle.liveSubs

/-- Whether a target is wholly halted (R392, R393); one with no live sub-bundle is not. -/
def DbgTarget.halted (t : DbgTarget) : Bool := !t.subs.isEmpty && t.subs.all Sub.stands

/-- Whether a target's lane is detached (R387). -/
def DbgTarget.detached (t : DbgTarget) : Bool :=
  match t.lane with
  | none => false
  | some l => match t.b.sliceOf l with | some i => t.b.isDetached i | none => false

/-- Whether a selector names an item of a target (R392): its class, its index and its other bits. -/
def itemOk (t : DbgTarget) (sel : W64) : Bool :=
  let c := bits sel.toNat 0 8
  let n := bits sel.toNat 8 8
  let top := if c == 0 then t.g.kernel.v else if c == 1 || c == 3 || c == 9 || c == 11 then 8 else if c == 2 then 4 else if c == 4 then 64
    else if c == 10 then 6 else 1
  bits sel.toNat 16 48 == 0 && c ≤ 11 && n < top && (c != 3 || 1 ≤ n) && !t.whole &&
    (t.lane.isSome || !([0, 1, 2, 5, 6, 7].contains c))

/-- The lanes of a bundle that a condition picks, as a mask. -/
def Bundle.laneMask (b : Bundle) (f : Lane → Bool) : Nat :=
  listMask (((List.range b.lanes.length).zip b.lanes).filterMap (fun p => if f p.2 then some p.1 else none))

/-- An item read (R392). -/
def DbgTarget.read (t : DbgTarget) (sel : W64) : W64 :=
  let c := bits sel.toNat 0 8
  let n := bits sel.toNat 8 8
  let l := t.lane.getD 0
  let y := t.b.lanes.getD l (Lane.mk [] [] [] 0 0 false true)
  let sl := (t.b.sliceOf l).bind (fun i => t.b.slices[i]?)
  let z := y.z.getD n (0, false)
  let w (x : W32) : W64 := x.setWidth 64
  let k (x : Nat) : W64 := BitVec.ofNat 64 x
  if c == 0 then w (y.v.getD n 0)
  else if c == 1 then w (y.o.getD n 0)
  else if c == 2 then k (z.1.toNat + ofBool z.2 <<< 32)
  else if c == 3 then k (t.b.laneMask (fun y => y.readP n))
  else if c == 4 then t.b.readS n
  else if c == 5 then k ((sl.map (·.offset)).getD 0)
  else if c == 6 then k y.plane
  else if c == 7 then k (match sl with | some sl => listMask (sl.lanesOf (sl.active &&& sl.own)) | none => 0)
  else if c == 8 then k t.b.ycount
  else if c == 9 then k (t.b.tok.getD n 0)
  else if c == 10 then k (leAt t.b.report (8 * n) 8)
  else k (leAt t.b.faultRec (8 * n) 8)

/-- Whether a value may be written to an item (R392). -/
def DbgTarget.valueOk (t : DbgTarget) (c : Nat) (v : Nat) : Bool :=
  if c ≤ 1 then v < 2 ^ 32
  else if c == 3 then v < 2 ^ t.g.kernel.width
  else if c == 5 then v % 4 == 0 && v < t.g.kernel.codeLen
  else if c == 6 then v < t.g.kernel.planes
  else if c == 8 then v ≤ t.g.kernel.yieldMax
  else true

/-- The offset of a lane rewritten (R392): that of every slice of its sub-bundle, which then waits in no instruction. -/
def Bundle.moveLane (b : Bundle) (l v : Nat) : Bundle :=
  match b.subOf l with
  | none => b
  | some q =>
    { b with
      slices := ((List.range b.slices.length).zip b.slices).map (fun p => if q.slices.contains p.1 then { p.2 with offset := v } else p.2)
      subs := b.subs.map (fun p => if p.slices == q.slices && p.isLive then { p with wait := .none, charged := false, pass := none } else p) }

/-- An item written (R392). -/
def Bundle.writeItem (b : Bundle) (c n l v : Nat) : Bundle :=
  if c == 0 then b.modLane l (fun y => { y with v := setNth y.v n (BitVec.ofNat 32 v) })
  else if c == 1 then b.modLane l (fun y => { y with o := setNth y.o n (BitVec.ofNat 32 v) })
  else if c == 3 then { b with lanes := ((List.range b.lanes.length).zip b.lanes).map (fun p => p.2.writeP n (bit v p.1)) }
  else if c == 4 then b.writeS n (BitVec.ofNat 64 v)
  else if c == 5 then b.moveLane l v
  else if c == 6 then b.modLane l (fun y => { y with plane := v })
  else { b with ycount := v }

/-- dbg.hread (R391, R392): the status, and the value under status 0. -/
def State.dbgRead (s : State) (part die : Nat) (t sel : W64) : Nat × W64 :=
  match s.dbgTarget part die t with
  | none => (1, 0)
  | some t => if itemOk t sel then (0, t.read sel) else (3, 0)

/-- dbg.hwrite (R391, R392): BADITEM, READONLY, NOTHALTED, BADVALUE in that order. -/
def State.dbgWrite (s : State) (part die : Nat) (t sel v : W64) : State × Nat :=
  match s.dbgTarget part die t with
  | none => (s, 1)
  | some t =>
    let c := bits sel.toNat 0 8
    let n := bits sel.toNat 8 8
    if !itemOk t sel then (s, 3)
    else if !([0, 1, 3, 4, 5, 6, 8].contains c) || (c == 4 && n == 0) then (s, 4)
    else if !t.halted then (s, 2)
    else if !t.valueOk c v.toNat then (s, 5)
    else (s.modBundle t.g.gid t.bundle (fun b => b.writeItem c n (t.lane.getD 0) v.toNat), 0)

/-- Sub-bundles of a target changed. -/
def State.modTarget (s : State) (t : DbgTarget) (f : Bundle → Sub → Sub) : State :=
  s.modGang t.g.gid (fun g => { g with bundles := ((List.range g.bundles.length).zip g.bundles).map (fun p =>
    if p.2.killed || !(t.whole || p.1 == t.bundle) then p.2
    else
      { p.2 with subs := p.2.subs.map (fun q =>
          if q.isLive && (match t.lane with
              | some l => (match p.2.sliceOf l with | some i => q.slices.contains i | none => false)
              | none => true) then f p.2 q else q) }) })

/-- dbg.hstep (R393): a detached lane, or each halted sub-bundle of the bundle, is set stepping. A lane that is not detached stands in no
halt of its own, so it answers NOTHALTED, as it does to dbg.hresume. DESIGN CHOICE (log 55). -/
def State.dbgStep (s : State) (part die : Nat) (t : W64) : State × Nat :=
  match s.dbgTarget part die t with
  | none => (s, 1)
  | some t =>
    let mine (b : Bundle) (q : Sub) : Bool := t.lane.isSome || !(q.slices.any b.isDetached)
    let todo := t.bundles.flatMap (fun b => b.liveSubs.filter (fun q => mine b q && (t.lane.isNone || t.subs.contains q)))
    if t.lane.isSome && !t.detached then (s, 2)
    else if todo.any (·.stepping) then (s, 6)
    else if todo.all (fun q => !q.halted) then (s, 2)
    else (s.modTarget t (fun b q => if mine b q && q.halted then { q with stepping := true } else q), 0)

/-- The lanes of halted sub-bundles released, as their sub-bundles now stand; once no lane is halted, the waiting cycles are counted
anew from now (R159, R386). -/
def Bundle.settleLanes (b : Bundle) (now : Nat) : Bundle :=
  let lanes := ((List.range b.lanes.length).zip b.lanes).map (fun p =>
    match b.subOf p.1 with | some q => if q.halted then p.2 else { p.2 with halted := false } | none => p.2)
  { b with lanes := lanes, lastCycle := if b.lanes.any (·.halted) && lanes.all (fun y => !y.halted) then now else b.lastCycle }

/-- Halts released: sub-bundles that a condition picks run again, and the operations that the bundles' halts held go on (R393). -/
def State.release (s : State) (t : DbgTarget) (pick : Bundle → Sub → Bool) : State :=
  let s := s.modTarget t (fun b q => if pick b q then { q with halted := false, stepping := false } else q)
  let s := s.modGang t.g.gid (fun g => { g with bundles := g.bundles.map (fun b => b.settleLanes (s.die g.die).cycles) })
  let s := s.modGang t.g.gid (fun g => { g with scanHeld := g.scanHeld.filter (fun p => !(t.whole || p.2 == t.bundle)) })
  { s with ops := s.ops.map (fun o => if o.gid == t.g.gid && (t.whole || o.bundle == t.bundle) then { o with held := false } else o) }

/-- dbg.hresume (R393). -/
def State.dbgResume (s : State) (part die : Nat) (t : W64) : State × Nat :=
  match s.dbgTarget part die t with
  | none => (s, 1)
  | some t =>
    if t.lane.isSome && !t.detached then (s, 2)
    else if t.subs.all (fun q => !q.halted) then (s, 2)
    else (s.release t (fun _ _ => true), 0)

/-- dbg.hstat (R393): the status, the state word and the mask word; of a gang, the detached lanes and the mask are those of the
bundle that the target names. -/
def State.dbgStat (s : State) (part die : Nat) (t : W64) : Nat × W64 × W64 :=
  match s.dbgTarget part die t with
  | none => (1, 0, 0)
  | some t =>
    let st := if t.subs.any (·.stepping) then 2 else if t.halted then 1 else 0
    let lanes := (List.range t.b.lanes.length).filter (fun l => match t.b.subOf l with
      | some q => q.stands && (match t.b.lanes[l]? with | some y => !y.exited | none => false)
      | none => false)
    (0, BitVec.ofNat 64 (st + t.b.detachedCount <<< 2), BitVec.ofNat 64 (listMask lanes))

/-- The halt that dbg.halt makes, or the status that it ends with at once (R393). -/
def State.dbgHalt (s : State) (part die : Nat) (t : W64) (reply : Option MsgId) : Except Nat PendingHalt :=
  match s.dbgTarget part die t with
  | none => .error 1
  | some t =>
    if t.subs.isEmpty || t.halted then .error (match t.lane with | some l => if t.b.laneActive l || (t.b.subOf l).isSome then 0 else 7 | none => 0)
    else if (match t.lane with | some l => !t.b.laneActive l | none => false) then .error 7
    else
      let level := if t.whole then 3 else if t.lane.isSome then 1 else 2
      let off := match t.b.liveSubs with | q :: _ => t.b.offsetOf q | [] => 0
      .ok { id := s.nextId, ev := s.nextId, reply := reply, gid := t.g.gid, bundle := t.bundle, lane := t.lane.getD 0, level := level,
            report := plainReport t.g t.bundle 17 level t.lane off (s.devtimeOf die), op := none,
            base := 0, bound := 0, mem := none }

/-! ## Instructions (R391) -/

/-- A privileged uniform instruction (R351, R44 order 5): in user mode it raises PRIV 1. -/
def runPrivileged (form : Form) (w : XWord) (extra : Ctx → Option FaultInfo) (eff : Ctx → State → Eff) (s : State) :
    Host.Outcome State Fault Refusal :=
  match s.ctx with
  | none => .fault .noIssuer
  | some x =>
    if !s.isPrivileged x.g.part then .next (s.finishUniform x false 12 (.fault { cls := 0x10, sub := 1 } s))
    else runUniform false 12 (fun _ => form) w extra eff s

/-- The form of a dbg instruction. -/
def dbgForm (d b c : Kind) (w : XWord) : Form := opForm d .scalar b c true (w.m6 = 0 && w.nwb = 0 && noImm w)

/-- A status as a scalar. -/
def statusWord (n : Nat) : W64 := BitVec.ofNat 64 n

/-- DBG_HREAD (R391, R392): a status other than 0 leaves the value register as it was. -/
def execDbgHread (w : XWord) (s : State) : Host.Outcome State Fault Refusal :=
  runPrivileged (dbgForm .pair .scalar .unused w) w noExtra (fun x s =>
    let r := s.dbgRead x.g.part x.g.die (x.s w.a9.toNat) (x.s w.b9.toNat)
    let s := if r.1 == 0 then s.setS x w.d9.toNat r.2 else s
    .done (s.setS x (w.d9.toNat + 1) (statusWord r.1))) s

/-- DBG_HWRITE (R391, R392). -/
def execDbgHwrite (w : XWord) (s : State) : Host.Outcome State Fault Refusal :=
  runPrivileged (dbgForm .scalar .scalar .scalar w) w noExtra (fun x s =>
    let r := s.dbgWrite x.g.part x.g.die (x.s w.a9.toNat) (x.s w.b9.toNat) (x.s w.c9.toNat)
    .done (r.1.setS x w.d9.toNat (statusWord r.2))) s

/-- DBG_HSTEP (R393). -/
def execDbgHstep (w : XWord) (s : State) : Host.Outcome State Fault Refusal :=
  runPrivileged (dbgForm .scalar .unused .unused w) w noExtra (fun x s =>
    let r := s.dbgStep x.g.part x.g.die (x.s w.a9.toNat)
    .done (r.1.setS x w.d9.toNat (statusWord r.2))) s

/-- DBG_HRESUME (R393). -/
def execDbgHresume (w : XWord) (s : State) : Host.Outcome State Fault Refusal :=
  runPrivileged (dbgForm .scalar .unused .unused w) w noExtra (fun x s =>
    let r := s.dbgResume x.g.part x.g.die (x.s w.a9.toNat)
    .done (r.1.setS x w.d9.toNat (statusWord r.2))) s

/-- DBG_HSTAT (R393): it has no status register, and a target that does not exist leaves the pair as it was. -/
def execDbgHstat (w : XWord) (s : State) : Host.Outcome State Fault Refusal :=
  runPrivileged (dbgForm .pair .unused .unused w) w noExtra (fun x s =>
    let r := s.dbgStat x.g.part x.g.die (x.s w.a9.toNat)
    if r.1 == 0 then .done ((s.setS x w.d9.toNat r.2.1).setS x (w.d9.toNat + 1) r.2.2) else .done s) s

/-- DBG_HALT (R393): its halt falls at the next boundary of each sub-bundle involved, and it completes once the halt has taken effect. -/
def execDbgHalt (w : XWord) (s : State) : Host.Outcome State Fault Refusal :=
  runPrivileged (dbgForm .scalar .unused .unused w) w noExtra (fun x s =>
    match x.q.wait with
    | .halting i n => if s.halts.any (fun h => h.id == i) then .wait (.halting i n) s else .done (s.setS x w.d9.toNat (statusWord n))
    | _ =>
    match s.dbgHalt x.g.part x.g.die (x.s w.a9.toNat) none with
    | .error n => .done (s.setS x w.d9.toNat (statusWord n))
    | .ok h =>
      if (s.haltTargets h).all s.haltable then .done (({ s with nextId := s.nextId + 1 }.performHalt h).setS x w.d9.toNat 0)
      else .wait (.halting h.id 0) { s with nextId := s.nextId + 1, halts := s.halts ++ [h] }) s

/-! ## DEBUG (R389) -/

/-- A REPLY with the status of a debug operation. -/
def State.dbgReply (r : State × Nat) (m : MsgId) : State := r.1.reply m r.2

/-- DEBUG (R389): the operation of a dbg.* instruction on a named die; without a session it is refused with status 8. -/
def execDebug (m : MsgId) (part die : Nat) (d : DbgCmd) (s : State) : Host.Outcome State Fault Refusal :=
  onMessage 1 0 s (fun s =>
    if !(match s.part part with | some p => p.session | none => false) then s.reply m 8
    else if d.op == 0 then
      (let r := s.dbgRead part die d.target d.item
       s.send (.reply m r.1 (if r.1 == 0 then [r.2] else [])))
    else if d.op == 1 then State.dbgReply (s.dbgWrite part die d.target d.item d.value) m
    else if d.op == 2 then State.dbgReply (s.dbgStep part die d.target) m
    else if d.op == 3 then State.dbgReply (s.dbgResume part die d.target) m
    else if d.op == 4 then
      (let r := s.dbgStat part die d.target
       s.send (.reply m r.1 (if r.1 == 0 then [r.2.1, r.2.2] else [])))
    else if d.op == 5 then
      (match s.dbgHalt part die d.target (some m) with
       | .error n => s.reply m n
       | .ok h => { s with nextId := s.nextId + 1, halts := s.halts ++ [h] })
    else s.refuse m)

end Sys2Proof.Machine
end

