-- ==== Sys2Proof/Machine/Matrix.lean ====
section
/-!
DEFINITION. The matrix engine (R278–R290): A tiles and B slots, the K-step of R66, mma, mma.crew, mma.sp and bload, and the
accumulator instructions.
-/

namespace Sys2Proof.Machine

/-! ## Elements of a tile that fails to decode (R286) -/

/-- A reader repeated until it fails or n results are read: the results. -/
def readSome {α : Type} (f : Nat → Except StreamFault (α × Nat)) : Nat → Nat → List α
  | 0, _ => []
  | n + 1, pos =>
    match f pos with
    | .error _ => []
    | .ok (x, pos) => x :: readSome f n pos

/-- The BFPC groups before a failure. -/
def bfpcSome (d : Desc) (tb : Tables) (st : BitStream) : Nat → Nat → Nat → List Elem
  | 0, _, _ => []
  | n + 1, eprev, pos =>
    match bfpcGroup d tb st eprev pos with
    | .error _ => []
    | .ok ((e, xs), pos) => xs ++ bfpcSome d tb st n e pos

/-- The elements of a VQC segment before a failure. -/
def vqcPart (d : Desc) (tb : Tables) (st : BitStream) (pos : Nat) : List Elem :=
  let k := d.wcode + 1
  let v := vecLen d.vec
  let inline : Except StreamFault (List Nat × Nat) :=
    if d.seg then readMany (fun p => rawRead st p 16) (2 ^ k * v) pos
    else .ok ((List.range (2 ^ k * v)).map (fun i => bookElem tb.book 0 i 0), pos)
  match inline with
  | .error _ => []
  | .ok (book, pos) =>
    (readSome (fun p => symRead tb.cm st p k) (128 / v) pos).flatMap (fun y =>
      (List.range v).map (fun i => Elem.pat 0 (book.getD (v * y + i) 0)))

/-- The VQC elements before a failure. -/
def vqcSome (d : Desc) (tb : Tables) (st : BitStream) : Nat → Nat → List Elem
  | 0, _ => []
  | n + 1, pos =>
    match vqcSegment d tb st pos with
    | .error _ => vqcPart d tb st pos
    | .ok (xs, pos) => xs ++ vqcSome d tb st n pos

/-- The elements of the rows of an appendable tile before a failure; a row is produced before its padding is checked. -/
def appendSome (d : Desc) (tb : Tables) (st : BitStream) : Nat → Nat → List Elem
  | 0, _ => []
  | n + 1, pos =>
    if pos == st.len then List.replicate ((n + 1) * 64) (.pat d.wcode 0)
    else
      match readMany (expcGroup d tb st) 4 pos with
      | .error _ => []
      | .ok (gs, pos) =>
        let stop := alignUp pos 32
        match firstOne st pos (stop - pos) with
        | some _ => gs.flatten
        | none => gs.flatten ++ appendSome d tb st n stop

/-- The elements that a decoder produces before a tile's failure, after a good header. -/
def tileSome (d : Desc) (tb : Tables) (append : Bool) (bytes : List Byte) : List Elem :=
  let st := streamOf bytes
  match rawRead st 0 32 with
  | .error _ => []
  | .ok (h, pos) =>
    match headerCheck d h with
    | .error _ => []
    | .ok _ =>
      if append then appendSome d tb st d.rows pos
      else if d.kind == 0 then (readSome (fun p => rawRead st p (plainBits d.wcode)) (d.rows * 64) pos).map (Elem.pat d.wcode)
      else if d.kind == 1 then bfpcSome d tb st (d.rows * 4) 127 pos
      else if d.kind == 2 then vqcSome d tb st (d.rows / 2) pos
      else (readSome (expcGroup d tb st) (d.rows * 4) pos).flatten

/-! ## Operand values (R62–R64, R278, R279) -/

/-- A group of sixteen elements as it enters the array: its width m and the group (R279). -/
def groupOf (xs : List Elem) : Nat × BfpGroup :=
  match xs with
  | .bfp m e _ _ :: _ =>
    (m, ⟨e, (List.range 8).map (fun j => match xs.getD (2 * j) (.pat 0 0) with | .bfp _ _ mu _ => mu | .pat _ _ => 0),
      xs.map (fun x => match x with | .bfp _ _ _ v => v | .pat _ _ => 0)⟩)
  | _ => (8, (quantise 8 (xs.map Elem.val)).1)

/-- The values of a group (R62). -/
def groupVals (g : Nat × BfpGroup) : List FVal :=
  (List.range 16).map (fun i => bfpVal g.1 g.2.e (g.2.mu.getD (i / 2) 0) (g.2.m.getD i 0))

/-- A list cut into pieces of n; fuel bounds the pieces. -/
def chunksOf {α : Type} (n : Nat) : Nat → List α → List (List α)
  | 0, _ => []
  | fuel + 1, xs => if xs.length < n then [] else xs.take n :: chunksOf n fuel (xs.drop n)

/-- The rows of values that complete rows of elements give. -/
def rowVals (xs : List Elem) : List (List FVal) :=
  (chunksOf 64 64 xs).map (fun r => (chunksOf 16 4 r).flatMap (fun q => groupVals (groupOf q)))

/-- A B slot filled from a 64 × 64 tile (R278, R285). -/
def slotFrom (xs : List Elem) : BSlot :=
  let gs := (chunksOf 16 256 xs).map groupOf
  { mant := gs.flatMap (fun g => g.2.m.map (fun v => BitVec.ofInt 8 v))
    scale := gs.flatMap (fun g => [BitVec.ofNat 8 g.2.e, BitVec.ofNat 8 (listMask ((List.range 8).filter (fun j => g.2.mu.getD j 0 == 1)))])
    m := (gs.head?.map (·.1)).getD 8 }

/-- A slot at placement: groups with E = 0 (R278). -/
def BSlot.empty : BSlot := { mant := List.replicate 4096 0, scale := List.replicate 512 0, m := 8 }

/-- The rows of a slot as values. -/
def BSlot.rows (b : BSlot) : List (List FVal) :=
  (List.range 64).map (fun k => (List.range 4).flatMap (fun j =>
    let q := 4 * k + j
    let sc := b.scale.drop (2 * q)
    let ms := b.mant.drop (16 * q)
    groupVals (b.m, ⟨(sc.headD 0).toNat, (List.range 8).map (fun i => bits ((sc.tail).headD 0).toNat i 1),
      (ms.take 16).map BitVec.toInt⟩)))

/-- Columns of a list of rows of 64. -/
def columns (rows : List (List FVal)) : List (List FVal) :=
  rows.foldr (fun r cols => (r.zip cols).map (fun p => p.1 :: p.2)) (List.replicate 64 [])

/-! ## The K-step (R66) -/

/-- The terms of an exact sum: significand and power of two of every product that is not 0. -/
def productTerms : List FVal → List FVal → List (Int × Int)
  | .fin s m e :: as, .fin t n f :: bs =>
    if m == 0 || n == 0 then productTerms as bs else (smant (s != t) (m * n), e + f) :: productTerms as bs
  | _ :: as, _ :: bs => productTerms as bs
  | _, _ => []

/-- The sum of terms, as a significand at their least power of two. -/
def sumTerms (ts : List (Int × Int)) : Int × Int :=
  let lo := (ts.map (·.2)).foldl min ((ts.head?.map (·.2)).getD 0)
  ((ts.map (fun t => alignTo t.1 t.2 lo)).foldl (· + ·) 0, lo)

/-- k_step of R66 on an accumulator pattern. -/
def kStep (c : W32) (a b : List FVal) : W32 :=
  match unpack fp32 c.toNat with
  | .nan => 0x7FC00000
  | cv =>
    if a.any FVal.isNan || b.any FVal.isNan then 0x7FC00000
    else
      match cv with
      | .fin s m e =>
        let ps := productTerms a b
        let r := sumTerms (if m == 0 then ps else (smant s m, e) :: ps)
        if r.1 == 0 then (if s && m == 0 && ps.isEmpty then 0x80000000 else 0)
        else BitVec.ofNat 32 (roundTo fp32 .rne false false (finOf r.1 r.2 false)).1
      | _ => c

/-! ## Operations in progress -/

/-- The X word of a matrix operation. -/
def EngOp.mxWord (o : EngOp) : XWord :=
  match decodeWords o.words with
  | .ok (.mma w, _) => w
  | .ok (.mmaCrew w _, _) => w
  | .ok (.mmaSp w, _) => w
  | .ok (.bload w, _) => w
  | _ => plainWord 0 0 0 268 268

/-- Whether a bload may fill its next slot: it is the gang's first bload, and every earlier operation that reads the slot has
finished (R285). -/
def State.mayFill (s : State) (o : EngOp) (slot : Nat) : Bool :=
  s.priorDone o && s.ops.all (fun p => p.id ≥ o.id || p.eng != 2 || p.state == 4 || !(s.mxGangs p).contains o.gid ||
    (p.fn != 3 && !p.slotsLeft.contains slot))

/-- A read that a matrix operation makes for a tile (R282, R382): 0 its index entry, 1 its directory entry, 2 its stream; of the view or of
global memory. -/
structure MxRead where
  kind : Nat
  view : Bool
  addr : Nat
  bytes : List Byte
  deriving DecidableEq, Repr

/-- What a tile read comes to: it waits for absent lines, or its elements so far with the fault that ended them and the reads made. -/
inductive TileGot where
  | wait
  | got (xs : List Elem) (f : Option FaultInfo) (reads : List MxRead)

/-- The same with a read before. -/
def TileGot.after (r : MxRead) : TileGot → TileGot
  | .wait => .wait
  | .got xs f rs => .got xs f (r :: rs)

/-- The elements of a stream's bytes, or its elements before a fault. -/
def streamElems (d : Desc) (slot : Nat → Option AtlasSlot) (append view : Bool) (addr row col : Nat) (bs : List Byte) : TileGot :=
  match tablesFor d slot with
  | .error f => .got [] (some (streamFault f row col)) []
  | .ok tb =>
    match decodeTile d tb append bs with
    | .ok xs => .got xs none [⟨2, view, addr, bs⟩]
    | .error f => .got (tileSome d tb append bs) (some (streamFault f row col)) [⟨2, view, addr, bs⟩]

/-- Tile (i, j) of an operand (R282): by its index entry, or by the directory's entry (i, j) of tc columns. -/
def State.mxTile (s : State) (g : Gang) (o : EngOp) (i j tc : Nat) : TileGot :=
  let d := descOf (o.desc.take 64)
  let slot (n : Nat) : Option AtlasSlot := g.atlas[n]?
  if bit o.mxWord.m6.toNat 1 then
    let e := o.par 2 + 8 * (i * tc + j)
    if !s.viewPresent g e 8 then .wait
    else
      let dir : MxRead := ⟨1, true, e, s.readView g e 8⟩
      let a := bits (leNat dir.bytes) 0 32
      let n := bits (leNat dir.bytes) 32 32
      if s.poisonedRuns (g.viewRuns e 8) then .got [] (some (poisonFault 2 e)) [dir]
      else if a % 4 != 0 || n % 4 != 0 || n < 4 then .got [] (some (alignFault a)) [dir]
      else if !g.inOneRegion a n then .got [] (some (protFault a)) [dir]
      else if !s.viewPresent g a n then .wait
      else if s.poisonedRuns (g.viewRuns a n) then .got [] (some (poisonFault 2 a)) [dir]
      else (streamElems d slot false true a 0xFFFF 0xFFFF (s.readView g a n)).after dir
  else
    let row := o.par 2 + i
    let col := o.par 4 + j
    let rd := s.readGang g 2
    let ent : MxRead := ⟨0, false, d.entryVa row col, (rd (d.entryVa row col) 16).toOption.getD []⟩
    match resolveTile rd d row col with
    | .error f => .got [] (some f) [ent]
    | .ok e =>
      match tablesFor d slot with
      | .error f => .got [] (some (streamFault f row col)) [ent]
      | .ok _ =>
        match rd e.sva e.len with
        | .error f => .got [] (some f) [ent]
        | .ok bs => (streamElems d slot e.append false e.sva row col bs).after ent

/-- The rows of values of A tile i at some columns side by side, the fault that ended them, and their reads; none while a
line is absent. -/
def State.aRows (s : State) (g : Gang) (o : EngOp) (i tc : Nat) :
    List Nat → Option (List (List FVal) × Option FaultInfo × List MxRead)
  | [] => some (List.replicate 64 [], none, [])
  | j :: js =>
    match s.mxTile g o i j tc, s.aRows g o i tc js with
    | .got xs f rs, some (rows, f', st) =>
      let mine := rowVals xs
      -- the failure that stops the earlier row is the one found; of two at one row, that of the lower column
      let fault := match f, f' with
        | none, _ => f'
        | some _, none => f
        | some _, some _ => if rows.length < mine.length then f' else f
      some ((mine.zip rows).map (fun p => p.1 ++ p.2), fault, rs ++ st)
    | _, _ => none

/-- The A rows of a K-step from tile i up, at most m of them: the rows, and the fault with the row at which it was found. -/
def State.aAll (s : State) (g : Gang) (o : EngOp) (r m tc : Nat) (cols : List Nat) :
    Nat → Nat → Option (List (List FVal) × Option (FaultInfo × Nat) × List MxRead)
  | 0, _ => some ([], none, [])
  | fuel + 1, i =>
    if i * r ≥ m then some ([], none, [])
    else
      match s.aRows g o i tc cols with
      | none => none
      | some (rows, some f, st) => some (rows.take (m - i * r), some (f, min (i * r + rows.length) m), st)
      | some (rows, none, st) =>
        match s.aAll g o r m tc cols fuel (i + 1) with
        | none => none
        | some (rest, f, st') => some (rows.take (m - i * r) ++ rest, f, st ++ st')

/-- The accumulator rows of a gang after a K-step of some A rows (R282). -/
def Gang.multiply (g : Gang) (acc0 slot0 depth : Nat) (zero : Bool) (rows : List (List FVal)) : Gang :=
  let cols := columns ((List.range depth).flatMap (fun i => (g.bFront.getD (slot0 + i) BSlot.empty).rows))
  { g with acc := ((List.range g.acc.length).zip g.acc).map (fun p =>
      if acc0 ≤ p.1 && p.1 < acc0 + rows.length then
        let a := rows.getD (p.1 - acc0) []
        (p.2.zip cols).map (fun q => kStep (if zero then 0 else q.1) a q.2)
      else p.2) }

/-- The watch events of the directory entries and, by 64-byte granules, the streams that a matrix operation read (R382, R384). -/
def State.seeStreams (s : State) (g : Gang) (o : EngOp) (st : List MxRead) : State :=
  (st.filter (fun r => r.kind != 0)).foldl (fun s r =>
    if r.view then s.seeView (o.event g 3 0 r.addr) g.gid 64 r.bytes else s.seeGlobal (o.event g 3 0 r.addr) 64 r.bytes) s

/-- The 64-bit units of stream that a matrix operation's decoder consumed (R403). -/
def streamUnits (st : List MxRead) : Nat := ((st.filter (fun r => r.kind == 2)).map (fun r => (r.bytes.length + 7) / 8)).foldl (· + ·) 0

/-- The fault fields of a matrix operation's handle. -/
def EngOp.mxFault (o : EngOp) (f : FaultInfo) : FaultInfo :=
  f.ofHandle (o.par 1) (some ⟨o.params.getD 6 0, o.desc.take 64⟩)

/-- An engine fault of a matrix operation, logged under AGENT type 2 or, of a view address, on the gang's die (R19, R130). -/
def State.faultMatrix (s : State) (g : Gang) (o : EngOp) (f : FaultInfo) (k i : Nat) : State :=
  let s := if bit o.mxWord.m6.toNat 1 then
      (if f.cls == 5 then s.logViolation g.part g.die f.addr g.core 2 0 g.die else s)
    else s.logEngine g 2 0 f
  s.faultOp o (o.mxFault f) (k % 65536 + (i % 65536) <<< 16)

/-- Damaged rows or slots that an operation uses on a gang (R369). -/
def State.mxDamage (s : State) (o : EngOp) (step : Nat) : Option FaultInfo :=
  let sp := if o.fn == 2 then 2 else 1
  failIf ((s.mxGangs o).any (fun gid =>
    match s.gang gid with
    | some t => (List.range sp).any (fun i => t.damage.contains (3, mxSlot o.w2 + sp * step + i)) ||
        t.damage.any (fun q => q.1 == 2 && mxAcc o.w2 ≤ q.2 && q.2 < mxAcc o.w2 + mxM o.w2)
    | none => false)) { cls := 0x0D, sub := 3 }

/-- The next K-steps of operations on some gangs come to the A port now (R244): of the operation itself, and of those behind it. -/
def State.comeToPort (s : State) (gs : List Nat) : State :=
  { s with nextId := s.nextId + 1
           ops := s.ops.map (fun p => if p.arrayUse && meets gs (s.mxGangs p) then { p with time := s.nextId } else p) }

/-- What the reads that a matrix operation made leave: the acquires of its entries and streams (R76, R282). -/
def State.tookStreams (s : State) (g : Gang) (st : List MxRead) : State :=
  st.foldl (fun s r => if r.view then s else s.tookRange g r.addr r.bytes.length) s

/-- The A rows that a K-step entered into the array of each gang that it names, counted on that gang's core (R283, R403). -/
def State.countRows (s : State) (o : EngOp) (n : Nat) : State :=
  (s.mxGangs o).foldl (fun s gid => match s.gang gid with | some t => s.perf t 5 n | none => s) s

/-- Whether the A rows of an operation's next K-step wait for absent scratchpad lines (R221, R255). -/
def State.rowsAbsent (s : State) (g : Gang) (o : EngOp) : Bool :=
  let d := descOf (o.desc.take 64)
  let sp := if o.fn == 2 then 2 else 1
  let sh := mxShape o.fn o.w2 d.rows
  (s.aAll g o d.rows (mxM o.w2) sh.2 ((List.range sp).map (fun k => sp * o.pos + k)) sh.1 0).isNone

/-- MATRIX_K_STEP (R282–R286): the next K-step of a matrix operation on every rank it names; one that a hit in its last K-step held
completes (R384). -/
def execMatrixKStep (op : Nat) (s : State) : Host.Outcome State Fault Refusal :=
  match s.op op with
  | none => .fault .notEnabled
  | some o =>
    match s.stepper o with
    | none => .fault .notEnabled
    | some g =>
      if !o.arrayUse || !s.mayMultiply o || s.texpFirst g o || !s.settled g.die then .fault .notEnabled
      else if o.pos ≥ mxNk o.w2 then .next (s.completeOp o)
      else
        let w2 := o.w2
        let d := descOf (o.desc.take 64)
        let m := mxM w2
        let j := o.pos
        let sp := if o.fn == 2 then 2 else 1
        let sh := mxShape o.fn w2 d.rows
        match s.mxDamage o j with
        | some f => .next (s.faultMatrix g o f j 0)
        | none =>
          match s.aAll g o d.rows m sh.2 ((List.range sp).map (fun k => sp * j + k)) sh.1 0 with
          | none => .fault .notEnabled
          | some (rows, fault, st) =>
            let s := (s.mxGangs o).foldl (fun s gid => s.modGang gid (fun t =>
              t.multiply (mxAcc w2) (mxSlot w2 + sp * j) sp (j == 0 && bit o.mxWord.m6.toNat 0) rows)) s
            let s := (s.comeToPort (s.mxGangs o)).tookStreams g st
            let s := ((s.countRows o rows.length).perf g 6 (streamUnits st)).seeStreams g o st
            match fault, s.op op with
            | some (f, i), some o => .next (s.faultMatrix g o f j i)
            | none, some o =>
              if j + 1 ≥ mxNk w2 && !o.held then .next (s.completeOp o)
              else .next (s.modOp op (fun o => { o with state := 1, pos := j + 1 }))
            | _, none => .next s

/-- BLOAD_SLOT_SWITCH (R285, R286): the next slot's back copy is written and becomes the front; a bload that a hit in its last slot held
completes (R384). -/
def execBloadSlotSwitch (op : Nat) (s : State) : Host.Outcome State Fault Refusal :=
  match s.op op with
  | none => .fault .notEnabled
  | some o =>
    match s.stepper o with
    | none => .fault .notEnabled
    | some g =>
      let slot := mxSlot o.w2 + o.pos2
      if o.eng != 2 || o.fn != 3 || !s.mayFill o slot || !s.settled g.die then .fault .notEnabled
      else if o.pos2 ≥ mxNk o.w2 then .next (s.completeOp o)
      else
        match s.mxTile g o o.pos2 0 1 with
        | .wait => .fault .notEnabled
        | .got xs (some f) st =>
          .next ((((s.tookStreams g st).perf g 6 (streamUnits st)).seeStreams g o st).faultMatrix g o f o.pos2 (xs.length / 64))
        | .got xs none st =>
          let b := slotFrom xs
          let s := s.modGang o.gid (fun t => { t with bBack := setNth t.bBack slot b })
          let s := s.modGang o.gid (fun t => { t with bFront := setNth t.bFront slot (t.bBack.getD slot b) }.repair 3 slot)
          let s := ((s.tookStreams g st).perf g 6 (streamUnits st)).seeStreams g o st
          match s.op op with
          | none => .next s
          | some o =>
            if o.pos2 + 1 ≥ mxNk o.w2 && !o.held then .next (s.completeOp o)
            else .next (s.modOp op (fun o => { o with state := 1, pos2 := o.pos2 + 1 }))

/-! ## Matrix instructions (R280, R281) -/

/-- A matrix instruction: the checks of its form and of R281, and its operation; mask is mma.crew's literal. -/
def runMatrix (fn len : Nat) (i : Instr) (w : XWord) (mask : W64) (s : State) : Host.Outcome State Fault Refusal :=
  let spm := bit w.m6.toNat 1
  runUniform false len
    (fun _ => { opForm .scalar .handle .scalar (if spm then .unused else .scalar) true
      (w.nwb = 0 && mxZero fn w.m6.toNat w.imm.toNat) with operandOk := true }) w
    (fun x => failIf (x.g.kernel.accRows == 0) (illegal 25)) (fun x s =>
      let n := w.a9.toNat
      let r := x.sn w.b9.toNat
      let c := x.sn w.c9.toNat
      match s.matrixFault x fn w.imm.toNat n (if spm then some r else none) r c mask.toNat with
      | some (f, s) => .fault f s
      | none =>
        if ((x.g.handle n).map (fun h => (descOf h.desc).slots.any (s.slotFilling x.c.gid))).getD false then .hold 11
        else
          let o := x.matrixOp s.nextId fn (x.g.nextNumber 2) n (encode i) (x.s w.b9.toNat) (x.s w.c9.toNat) mask
          .done ((s.addOp o).setS x w.d9.toNat (BitVec.ofNat 64 o.number))) s

/-- MMA (R280–R282). -/
def execMma (w : XWord) (s : State) : Host.Outcome State Fault Refusal := runMatrix 0 12 (.mma w) w 0 s
/-- MMA_CREW (R280, R283). -/
def execMmaCrew (w : XWord) (lit : W64) (s : State) : Host.Outcome State Fault Refusal := runMatrix 1 20 (.mmaCrew w lit) w lit s
/-- MMA_SP (R280, R284). -/
def execMmaSp (w : XWord) (s : State) : Host.Outcome State Fault Refusal := runMatrix 2 12 (.mmaSp w) w 0 s
/-- BLOAD (R280, R285). -/
def execBload (w : XWord) (s : State) : Host.Outcome State Fault Refusal := runMatrix 3 12 (.bload w) w 0 s

/-! ## Accumulator instructions (R288–R290) -/

/-- NOMATRIX: a gang without accumulator rows has no use of them (R278). -/
def noMatrix (x : Ctx) : Option FaultInfo := failIf (x.g.kernel.accRows == 0) (illegal 25)

/-- ACC_WIN (R288). -/
def execAccWin (w : XWord) (s : State) : Host.Outcome State Fault Refusal :=
  runUniform false 12 (fun _ => opForm .unused .scalar .scalar .scalar true (w.m6 = 0 && noImm w && w.nwb = 0)) w
    (fun x =>
      let a := x.sn w.a9.toNat
      let lo := x.sn w.b9.toNat
      let hi := x.sn w.c9.toNat
      firstFault [noMatrix x, failIf (x.c.bundle != 0) (illegal 24), failIf (a ≥ x.g.bundles.length) { cls := 6, sub := 2 },
        failIf (lo > hi || hi > x.g.kernel.accRows) { cls := 6, sub := 3 }])
    (fun x s => .done (s.modBundle x.c.gid (x.sn w.a9.toNat) (fun b =>
      { b with awb := x.sn w.b9.toNat, awl := x.sn w.c9.toNat }))) s

/-- Row base and row count of an accumulator instruction (R289). -/
def Ctx.accRows (x : Ctx) (w : XWord) (nbits : Nat) : Nat × Nat :=
  (x.sn w.a9.toNat + bits w.imm.toNat 0 10, bits w.imm.toNat 10 nbits + 1)

/-- Whether rows lie in the issuing bundle's window: WINDOW 1 (R288). -/
def Ctx.windowFault (x : Ctx) (r n : Nat) : Option FaultInfo :=
  failIf (!(x.b.awb ≤ r && r + n ≤ x.b.awl)) { cls := 6, sub := 1 }

/-- Whether a matrix operation has arrived at the array (R282, R290): it has been handed on, never was lost with its copy, and no
earlier operation of its gang is still to be handed on. A faulted one stays arrived: it never completes (R267). -/
def State.arrived (s : State) (o : EngOp) : Bool :=
  o.eng == 2 && o.fn != 3 && o.state != 3 && !o.lost && s.ops.all (fun p => !(p.gid == o.gid && p.eng == 2 && p.state == 3 && p.id < o.id))

/-- Whether a matrix operation that has arrived owns one of the rows (R290). -/
def State.ownedRow (s : State) (gid r n : Nat) : Bool :=
  s.ops.any (fun o => s.arrived o && (s.mxGangs o).contains gid && mxAcc o.w2 < r + n && r < mxAcc o.w2 + mxM o.w2)

/-- UNCORRECTABLE of damaged rows (R369). -/
def Gang.damagedRows (g : Gang) (r n : Nat) : Option FaultInfo :=
  failIf (g.damage.any (fun q => q.1 == 2 && r ≤ q.2 && q.2 < r + n)) { cls := 0x0D, sub := 3 }

/-- An accumulator instruction on rows: its window, the wait for rows that a matrix operation owns, and its effect. -/
def accEff (x : Ctx) (r n : Nat) (s : State) (eff : State → Eff) : Eff :=
  if s.ownedRow x.c.gid r n then .hold 12 else eff s

/-- ACC_LD (R289). -/
def execAccLd (w : XWord) (s : State) : Host.Outcome State Fault Refusal :=
  let n := bits w.imm.toNat 10 4 + 1
  runUniform false 12
    (fun _ => { opForm .dst .scalar .unused .unused true (w.m6 = 0 && w.nwb = 0 && bits w.imm.toNat 14 18 == 0) with
      operandOk := w.d9.toNat < 256 }) w
    (fun x => firstFault [failIf (w.d9.toNat + (64 * n + x.g.kernel.width - 1) / x.g.kernel.width > x.g.kernel.v) (illegal 7), noMatrix x,
      x.windowFault (x.accRows w 4).1 n, x.g.damagedRows (x.accRows w 4).1 n])
    (fun x s =>
      let r := (x.accRows w 4).1
      accEff x r n s (fun s =>
        let width := x.g.kernel.width
        let ls := (x.b.slicesOf x.q).flatMap (fun sl => sl.lanesOf sl.own)
        let vals := (x.g.acc.drop r).take n |>.flatten
        .done (s.modBundle x.c.gid x.c.bundle (fun b => ls.foldl (fun b l => b.modLane l (fun y =>
          (List.range ((64 * n + width - 1) / width)).foldl (fun y k =>
            if k * width + l < 64 * n then y.write (w.d9.toNat + k) (vals.getD (k * width + l) 0) else y) y)) b)))) s

/-- ACC_ST (R289). -/
def execAccSt (w : XWord) (s : State) : Host.Outcome State Fault Refusal :=
  let n := bits w.imm.toNat 10 4 + 1
  runUniform false 12
    (fun _ => { opForm .unused .scalar .vfield .unused true (w.m6 = 0 && w.nwb = 0 && bits w.imm.toNat 14 18 == 0) with
      operandOk := w.b9.toNat < 256 }) w
    (fun x => firstFault [failIf (w.b9.toNat + (64 * n + x.g.kernel.width - 1) / x.g.kernel.width > x.g.kernel.v) (illegal 7), noMatrix x,
      x.windowFault (x.accRows w 4).1 n])
    (fun x s =>
      let r := (x.accRows w 4).1
      accEff x r n s (fun s =>
        let width := x.g.kernel.width
        let val (i : Nat) : W32 := match x.b.lanes[i % width]? with
          | some y => y.read (i % width) (w.b9.toNat + i / width)
          | none => 0
        .done (s.modGang x.c.gid (fun g =>
          { g with acc := ((List.range g.acc.length).zip g.acc).map (fun p =>
              if r ≤ p.1 && p.1 < r + n then (List.range 64).map (fun c => val (64 * (p.1 - r) + c)) else p.2)
                   damage := g.damage.filter (fun q => !(q.1 == 2 && r ≤ q.2 && q.2 < r + n)) })))) s

/-- ACC_ZERO (R289). -/
def execAccZero (w : XWord) (s : State) : Host.Outcome State Fault Refusal :=
  runUniform false 12
    (fun _ => opForm .unused .scalar .unused .unused true (w.m6 = 0 && w.nwb = 0 && bits w.imm.toNat 20 12 == 0)) w
    (fun x => firstFault [noMatrix x, x.windowFault (x.accRows w 10).1 (x.accRows w 10).2])
    (fun x s =>
      let r := (x.accRows w 10).1
      let n := (x.accRows w 10).2
      accEff x r n s (fun s =>
        .done (s.modGang x.c.gid (fun g =>
          { g with acc := ((List.range g.acc.length).zip g.acc).map (fun p =>
              if r ≤ p.1 && p.1 < r + n then List.replicate 64 0 else p.2)
                   damage := g.damage.filter (fun q => !(q.1 == 2 && r ≤ q.2 && q.2 < r + n)) })))) s

/-- The format of acc.out (R289). -/
def accFmt (f : Nat) : Fmt := if f == 0 then fp32 else if f == 1 then bf16 else if f == 2 then fp16 else if f == 3 then e4m3 else e5m2

/-- The bytes of a row under acc.out; FTZ flushes a result and never an accumulator (R60). -/
def accBytes (w : XWord) (row : List W32) : List Byte :=
  let t := accFmt (bits w.imm.toNat 20 3)
  let m := floatMods w.m6.toNat
  row.flatMap (fun c => leBytes (fmtWidth t / 8) (roundTo t m.mode m.sat m.ftz (readFloat fp32 false c.toNat)).1)

/-- The stores of acc.out, row by row, with their watch events (R289, R382). -/
def State.accStores (s : State) (x : Ctx) (w : XWord) (base pitch r n : Nat) : State :=
  (List.range n).foldl (fun s i =>
    let a := (base + i * pitch) % 2 ^ 64
    let bs := accBytes w (x.g.acc.getD (r + i) [])
    (s.writeView x.g a bs).observe
      { gid := x.c.gid, bundle := x.c.bundle, part := x.g.part, space := 1, kind := 1, agent := 0, plane := some x.c.plane,
        lane := none, addr := a, data := bs, exc := 0, offset := x.offset, opnum := 0, op := none } x.q.slices.head?) s

/-- ACC_OUT (R289): the rows converted and stored in the view, in the order that any store of the bundle keeps (R223, R335, R342). -/
def execAccOut (w : XWord) (s : State) : Host.Outcome State Fault Refusal :=
  let f := bits w.imm.toNat 20 3
  runUniform false 12
    (fun _ => opForm .unused .scalar .scalar .scalar (f < 5 && bits w.m6.toNat 0 3 ≤ 3) (!bit w.m6.toNat 5 && w.nwb = 0 && bits w.imm.toNat 23 9 == 0)) w
    (fun x => firstFault [noMatrix x, x.windowFault (x.accRows w 10).1 (x.accRows w 10).2,
      x.g.damagedRows (x.accRows w 10).1 (x.accRows w 10).2])
    (fun x s =>
      let r := (x.accRows w 10).1
      let n := (x.accRows w 10).2
      let base := x.sn w.b9.toNat
      let pitch := x.sn w.c9.toNat
      let len := 64 * fmtWidth (accFmt f) / 8
      let rs := (List.range n).map (fun i => ((base + i * pitch) % 2 ^ 64, len))
      if base % 4 != 0 || pitch % 4 != 0 then .fault (alignFault base) s
      else
        match x.g.outside rs with
        | some a => .fault (protFault a) (s.logView x.g a 1)
        | none =>
          match leastReason ((if s.ownedRow x.c.gid r n then [12] else []) ++ s.barWaits x ++
              (if s.meetsRest x [(⟨1, 1, 0, len, 0, 0⟩, 0, rs.map (fun q => BitVec.ofNat 64 q.1))] then [2] else [])) with
          | some k => .hold k
          | none => .done (s.accStores x w base pitch r n)) s

end Sys2Proof.Machine
end

