-- ==== Sys2Proof/Machine/Place.lean ====
section
/-!
DEFINITION. Placement (R105–R108, R126–R129, R131, R132, R144, R164, R356): the order of records, the free cores, a crew placed
or restored, pre-emption by a die, and pinned segments.
-/

namespace Sys2Proof.Machine

/-! ## The order of records (R105) -/

/-- The key of a crew of a die as a holder of a segment (model). -/
def crewKey (arrival index : Nat) : Nat := arrival * 2 ^ 24 + index

/-- Whether a record has a crew to place. -/
def Record.waiting (r : Record) : Bool := !r.stoppedCrews.isEmpty || r.next < pkCrews r.packet

/-- The records of a die's store that may be offered (R105, R114, R352). -/
def State.eligible (s : State) (d : Nat) : List Record :=
  (s.die d).store.filter (fun r => r.imageOk && r.waiting &&
    (match s.part (pkPart r.packet) with | some p => p.resetting.isNone && !p.held.getD d false | none => false))

/-- Deadline order of classes 3 and 2 (R105): deadline, partition, arrival. -/
def deadlineKey (r : Record) : Nat := pkDeadline r.packet * 2 ^ 80 + pkPart r.packet * 2 ^ 64 + r.arrival

/-- A record put in its place. -/
def insertBy (le : Record → Record → Bool) (r : Record) : List Record → List Record
  | [] => [r]
  | q :: qs => if le r q then r :: q :: qs else q :: insertBy le r qs

/-- Records sorted. -/
def sortBy (le : Record → Record → Bool) : List Record → List Record
  | [] => []
  | r :: rs => insertBy le r (sortBy le rs)

/-- The ids that a condition picks, in rotation after one. -/
def rotation (last : Nat) (pick : Nat → Bool) : List Nat := ((List.range 16).map (fun i => (last + 1 + i) % 16)).filter pick

/-- The turns of a class among the partitions with records (R105): the credits that count now, and the partitions in order. -/
def turns (credits : List Nat) (turn zeroTurn : Nat) (weight : Nat → Nat) (has : Nat → Bool) : List Nat × List Nat :=
  let credits := (List.range 16).map (fun p => if has p then credits.getD p 0 else 0)
  let some_ := rotation turn (fun p => has p && weight p != 0)
  let zero := rotation zeroTurn (fun p => has p && weight p == 0)
  if has turn && weight turn != 0 && credits.getD turn 0 ≥ 1 then (credits, turn :: some_.filter (· != turn) ++ zero)
  else
    match some_ with
    | p :: _ => (modNth credits p (max (weight p)), some_ ++ zero)
    | [] => (credits, zero)

/-- The weight of a partition on a die. -/
def State.weightOf (s : State) (d p : Nat) : Nat := match s.part p with | some q => q.weights.getD d 0 | none => 0

/-- The turns of class 1 or 0 on a die. -/
def State.classTurns (s : State) (d c : Nat) (rs : List Record) : List Nat × List Nat :=
  let x := s.die d
  turns (x.credits.getD c []) (x.turn.getD c 15) (x.zeroTurn.getD c 15) (s.weightOf d) (fun p => rs.any (fun r => pkPart r.packet == p))

/-- The order of the records of a class, with those of a partition that come before its leading record put right behind it: a record
stays first in its partition until its last crew has been placed (R105). -/
def leadOrder (key : Record → Nat) (rs : List Record) : List Record :=
  let lead (r : Record) : Option Record := rs.find? (fun q => q.leads && pkPart q.packet == pkPart r.packet && q.arrival != r.arrival)
  let at_ (r : Record) : Nat := match lead r with
    | some q => if !r.leads && key r < key q then 2 * key q + 1 else 2 * key r
    | none => 2 * key r
  sortBy (fun a b => at_ a < at_ b || (at_ a == at_ b && key a ≤ key b)) rs

/-- Every record of a die that may be offered, in the order of R105. -/
def State.placeOrder (s : State) (d : Nat) : List Record :=
  let rs := s.eligible d
  let cls (c : Nat) : List Record := rs.filter (fun r => pkClass r.packet == c)
  let fair (c : Nat) : List Record :=
    (s.classTurns d c (cls c)).2.flatMap (fun p =>
      leadOrder Record.arrival ((cls c).filter (fun r => pkPart r.packet == p)))
  leadOrder deadlineKey (cls 3) ++ leadOrder deadlineKey (cls 2) ++ fair 1 ++ fair 0

/-- Whether a record is the first of its partition in its class (R105). -/
def State.leadsNow (s : State) (d : Nat) (r : Record) : Bool :=
  ((s.placeOrder d).find? (fun q => pkPart q.packet == pkPart r.packet && pkClass q.packet == pkClass r.packet)).map (·.arrival) ==
    some r.arrival

/-- A die after a crew of a record placed (R105), the order taken from the state before: it is its partition's turn now, with the quantum
of a turn that begins and one credit of it spent; or it takes the turn among zero weights. -/
def State.takeTurn (s before : State) (d : Nat) (r : Record) : State :=
  let c := pkClass r.packet
  let p := pkPart r.packet
  if c ≥ 2 then s
  else
    let t := before.classTurns d c ((before.eligible d).filter (fun q => pkClass q.packet == c))
    s.modDie d (fun x =>
      if s.weightOf d p == 0 then { x with zeroTurn := setNth x.zeroTurn c p }
      else
        let left := t.1.getD p 0
        { x with turn := setNth x.turn c p
                 credits := setNth x.credits c (setNth t.1 p ((if left == 0 then s.weightOf d p else left) - 1)) })

/-! ## Free cores (R126, R127) -/

/-- The gangs that hold resources of a core (R126, R397). -/
def State.onCore (s : State) (d c : Nat) : List Gang := s.gangs.filter (fun g => g.die == d && g.core == c && !g.retired)

/-- The words of a kernel's register run (R126). -/
def Kernel.regWords (k : Kernel) : Nat := alignUp (k.bundles * k.width * k.v) 128

/-- The lowest place for a register run among those of a core (R126); which of several free places it takes is left open. DESIGN CHOICE
(log 93). -/
def regPlace (used : List (Nat × Nat)) (n : Nat) : Option Nat :=
  let fits (b : Nat) : Bool := b + n ≤ 65536 && !(used.any (fun u => u.1 < b + n && b < u.1 + u.2))
  match (0 :: used.map (fun u => u.1 + u.2)).filter fits with
  | [] => none
  | b :: bs => some (minOr b (b :: bs))

/-- The register runs of a core. -/
def regsUsed (gs : List Gang) : List (Nat × Nat) := gs.map (fun g => (g.regBase, g.regWords))

/-- The bytes of pinned segments that a core holds (R126). -/
def State.segBytes (s : State) (d c : Nat) : Nat := sumOf ((s.segs.filter (fun g => g.die == d && g.cores.contains c)).map (·.ps))

/-- A core is free for a gang of a kernel beside those it holds (R126). -/
def coreFree (gs : List Gang) (segBytes : Nat) (k : Kernel) : Bool :=
  let sum (f : Kernel → Nat) : Nat := sumOf (gs.map (fun g => f g.kernel))
  gs.length < 4 && sum (·.bundles) + k.bundles ≤ 32 && (regPlace (regsUsed gs) k.regWords).isSome &&
    sum (fun q => alignUp q.scratch 128) + alignUp k.scratch 128 + segBytes ≤ 0x40000 && sum (·.barriers) + k.barriers ≤ 96 &&
    sum (·.atlas) + k.atlas ≤ 32 && (k.accRows == 0 || gs.all (fun g => g.kernel.accRows == 0))

/-- A core is free for a gang once the crews of a list have left it. -/
def State.freeWithout (s : State) (gone : List Nat) (d c : Nat) (k : Kernel) : Bool :=
  coreFree ((s.onCore d c).filter (fun g => !gone.contains g.crew)) (s.segBytes d c) k

/-- What is to be placed: the record, the crew index, its kernel, its segment, the ranks that need cores, and the gangs it was
saved as. -/
structure Offer where
  rec_ : Record
  index : Nat
  kernel : Kernel
  seg : Option Nat
  ranks : List Nat
  saved : List SavedGang
  deriving DecidableEq, Repr

/-- The crew that a record offers (R102, R105, R107): the first stopped one, else the next in its list. -/
def State.offer (s : State) (r : Record) : Option Offer :=
  let part := pkPart r.packet
  match s.headerOf part (pkKva r.packet) with
  | none => none
  | some b =>
    let k := kernelOf (pkKva r.packet) b
    match r.stoppedCrews with
    | c :: _ =>
      let sv := r.saved.filter (fun v => v.index == c.1)
      some ⟨r, c.1, k, pkSegment r.packet c.1, sv.map (·.rank), sv⟩
    | [] => some ⟨r, r.next, k, pkSegment r.packet r.next, List.range (pkRanks r.packet), []⟩

/-- The cores of a cluster for an offer, in ascending core number, none when it has too few; gone names crews that count as
having left (R107, R127, R128). -/
def State.clusterCores (s : State) (d cluster : Nat) (gone : List Nat) (o : Offer) : Option (List Nat) :=
  match o.seg with
  | none =>
    let cs := ((List.range 192).map (192 * cluster + ·)).filter (fun c => s.freeWithout gone d c o.kernel)
    if cs.length < o.ranks.length then none else some (cs.take o.ranks.length)
  | some n =>
    match s.segment (pkPart o.rec_.packet) n with
    | none => none
    | some g =>
      let cs := o.ranks.map (fun r => g.cores.getD r 0)
      let mine := g.holder.isNone || g.holder == some (crewKey o.rec_.arrival o.index)
      if g.die == d && g.cluster == cluster && mine && cs.all (fun c => s.freeWithout gone d c o.kernel) then some cs else none

/-- The resident gangs of a cluster. -/
def State.clusterGangs (s : State) (d cluster : Nat) : Nat :=
  (s.gangs.filter (fun g => g.die == d && g.core / 192 == cluster && !g.retired)).length

/-- The cluster and cores of an offer (R127): the cluster with fewer resident gangs, the lower on a tie. -/
def State.chooseCores (s : State) (d : Nat) (o : Offer) : Option (Nat × List Nat) :=
  match s.clusterCores d 0 [] o, s.clusterCores d 1 [] o with
  | some a, some b => if s.clusterGangs d 0 ≤ s.clusterGangs d 1 then some (0, a) else some (1, b)
  | some a, none => some (0, a)
  | none, some b => some (1, b)
  | none, none => none

/-! ## A crew made resident (R128, R144, R164) -/

/-- A lane at gang start (R128, R144). -/
def Lane.start (v : Nat) : Lane :=
  { v := List.replicate v 0, o := List.replicate 8 0, z := List.replicate 4 (0, false), p := 0, plane := 0, halted := false,
    exited := false }

/-- A detached record that is not in use. -/
def Slice.unused : Slice := { home := 0, own := 0, offset := 0, active := 0, join := [], call := [], exited := true }

/-- A bundle at gang start (R128, R144). -/
def Bundle.start (k : Kernel) (slot : Nat) : Bundle :=
  { slot := slot, s := List.replicate 64 0, tok := List.replicate 8 0, awb := 0, awl := 0, ycount := k.yieldMax,
    lanes := List.replicate k.width (Lane.start k.v),
    slices := (List.range (k.width / 4)).map (fun i =>
      { home := i, own := 15, offset := k.entry, active := 15, join := [], call := [], exited := false }) ++ List.replicate 4 Slice.unused,
    subs := [{ Sub.free with slices := List.range (k.width / 4) }], killed := false, report := [], faultRec := [], damaged := none, lastCycle := 0,
    issues := 0, aliasFences := 0 }

/-- The n lowest numbers below a bound that are not taken. -/
def lowestFree (bound : Nat) (taken : List Nat) (n : Nat) : List Nat := ((List.range bound).filter (fun i => !taken.contains i)).take n

/-- A gang newly placed on a core (R128, R144, R164, R378). -/
def State.startGang (s : State) (o : Offer) (gid cid d core rank : Nat) : Gang :=
  let k := o.kernel
  let gs := s.onCore d core
  let gslot := (lowestFree 4 (gs.map (·.gslot)) 1).headD 0
  let slots := lowestFree 32 (gs.flatMap (fun g => g.bundles.map (·.slot))) k.bundles
  let part := pkPart o.rec_.packet
  { gid := gid, die := d, core := core, gslot := gslot, crew := cid, rank := rank, part := part, kernel := k,
    bundles := slots.map (fun i => { Bundle.start k i with lastCycle := (s.die d).cycles }), handles := List.replicate 16 none, atlas := List.replicate k.atlas ⟨0, 0, 0, []⟩,
    barriers := List.replicate k.barriers (Barrier.start (k.bundles - 1)), tl := [0, 0, 0, 0], issued := [0, 0, 0, 0],
    group := 2 ^ pkRanks o.rec_.packet - 1, windows := List.replicate 64 (0, 0x40000), scan := ScanCtx.start,
    acc := List.replicate k.accRows (List.replicate 64 0), bFront := if k.accRows == 0 then [] else List.replicate 64 BSlot.empty,
    bBack := if k.accRows == 0 then [] else List.replicate 64 BSlot.empty, regBase := (regPlace (regsUsed gs) k.regWords).getD 0,
    regWords := k.regWords, scratchBase := gslot * 2 ^ 18,
    pinBase := match o.seg with | some n => pinLoc part n rank | none => 0,
    pinSize := match o.seg.bind (s.segment part) with | some g => g.ps | none => 0,
    sampling := none, retired := false, damage := [], scanHeld := [] }

/-- Scratchpad bytes zeroed, their poison cleared and their lines made present (R128, R131). -/
def State.clearPad (s : State) (a n : Nat) : State :=
  { s with mem := s.mem.filter (fun c => !(a ≤ c.1 && c.1 < a + n)), absent := s.absent.filter (fun l => !(a ≤ 128 * l && 128 * l < a + n)),
           poison := s.poison.filter (fun w => !(a ≤ 4 * w && 4 * w < a + n)) }

/-- The gangs of an offer placed on their cores, by rank. -/
def State.startGangs (s : State) (o : Offer) (cid d : Nat) : List (Nat × Nat × Nat) → State
  | [] => s
  | (rank, core, gid) :: rest =>
    let g := s.startGang o gid cid d core rank
    State.startGangs ((({ s with gangs := s.gangs ++ [g] }).clearPad (padLoc d core g.scratchBase) (alignUp o.kernel.scratch 128))) o cid d rest

/-- A fault that ends a crew whatever its class's disposition (R354, R357, R368): the FAULT notice names the crew's first gang. -/
def State.faultCrew (s : State) (cid : Nat) (f : FaultInfo) : State :=
  match s.gangs.find? (fun g => g.crew == cid) with
  | none => s.endCrew cid
  | some g =>
    let seq := ((s.part g.part).map (fun p => p.fseq.getD g.die 0)).getD 0
    let image := faultRecord g ⟨g.gid, 0, 0, 0⟩ f (s.devtimeOf g.die) seq
    let s := s.modPart g.part (fun q => { q with fseq := modNth q.fseq g.die (· + 1) })
    (s.notice 5 g.part g.die f.cls (s.lidOf cid) image).endCrew cid

/-- The save slot of a stopped crew of a record. -/
def Record.slotOf (r : Record) (index : Nat) : Nat := ((r.stoppedCrews.find? (fun c => c.1 == index)).map (·.2.1)).getD 0

/-- The faults that collectives met while their gang was stopped, delivered (R267, R328). -/
def State.deliverOwed (s : State) (gid : Nat) : State :=
  (s.ops.filter (fun o => o.gid == gid && o.eng == 4 && o.state == 4)).foldl (fun s o => match o.owed with
    | some f => (s.modOp o.id (fun p => { p with owed := none })).faultOp o f 0
    | none => s) s

/-- A stopped crew's state read back and its slot freed (R356, R357), and the faults owed to its gangs delivered; a save area that cannot
be accessed ends the crew. -/
def State.restore (s : State) (o : Offer) (cid : Nat) : State :=
  let part := pkPart o.rec_.packet
  let va := pkSave o.rec_.packet
  let slot := o.rec_.slotOf o.index
  let base := slotVa va (s.saveArea part va).2 slot
  let n := pkRanks o.rec_.packet
  let ok := s.saveOk part va 64 && s.saveOk part (va + 64 + 8 * (slot / 64)) 8 &&
    (s.savedHeaders part n base).all (fun h => s.saveOk part h.1 512) &&
    o.saved.all (fun v => s.saveOk part v.block.toNat (o.kernel.blockSize 0))
  let owed (s : State) : State := o.saved.foldl (fun s v => s.deliverOwed v.gid) s
  if !ok then owed (s.faultCrew cid { cls := 5, sub := 2, addr := va })
  else
    let s := o.saved.foldl (fun s v => match s.gang v.gid with
      | some g => (s.fillGang g v).useRange g.die part 0 v.block.toNat (o.kernel.blockSize 0)
      | none => s) s
    let die := match s.crew cid with | some c => c.die | none => 0
    owed ((s.fillWindows part (o.saved.map (·.gid)) n base).putSlot die part va slot false)

/-- Whether a record's LATE notice is due (R108): its deadline has passed before its first crew is placed. -/
def State.lateDue (s : State) (d : Nat) (r : Record) : Bool :=
  let t := pkDeadline r.packet
  t != 0 && s.devtimeOf d > t && !r.placedAny && !r.lateSent

/-- The LATE notice of a record that lies in its partition's ring sent (R103, R108). -/
def State.sendRingLate (s : State) (part d : Nat) (r : Record) : State :=
  (s.modRing part d (fun q => { q with late := q.late ++ [r.arrival] })).notice 6 part d 0 (pkLid r.packet) (leBytes 8 (pkDeadline r.packet))

/-- A record's LATE notice sent (R108). -/
def State.sendLate (s : State) (d : Nat) (r : Record) : State :=
  (s.modRecord d r.arrival (fun q => { q with lateSent := true })).notice 6 (pkPart r.packet) d 0 (pkLid r.packet)
    (leBytes 8 (pkDeadline r.packet))

/-- The crew of an offer placed on cores (R128, R356); a LATE notice that is due goes first (R108). -/
def State.placeCrew (s : State) (d cluster : Nat) (cores : List Nat) (o : Offer) : State :=
  let r := o.rec_
  let s := if s.lateDue d r then s.sendLate d r else s
  let lead := r.leads || s.leadsNow d r
  let cid := s.nextId
  let n := o.ranks.length
  let gids := if o.saved.isEmpty then (List.range n).map (fun i => cid + 1 + i) else o.saved.map (·.gid)
  let s := { s with nextId := s.nextId + 1 + n }
  let s := s.startGangs o cid d (o.ranks.zip (cores.zip gids))
  let byRank := (List.range (pkRanks r.packet)).map (fun k => ((o.ranks.zip gids).find? (fun p => p.1 == k)).map (·.2))
  let crew : Crew :=
    { cid := cid, die := d, arrival := r.arrival, index := o.index, part := pkPart r.packet, cluster := cluster, gangs := byRank, seg := o.seg,
      faulted := (r.stoppedCrews.head?.map (·.2.2)).getD false, ended := false, stop := none, dump := none, dumpSlot := none, held := [], kept := [], spared := false }
  let s := { s with crews := (s.crews.map (fun (c : Crew) => if c.die == d then { c with spared := false } else c)) ++ [crew]
                    segs := s.segs.map (fun (g : Segment) => if g.part == pkPart r.packet && some g.seg == o.seg then
                      { g with holder := some (crewKey r.arrival o.index) } else g) }
  let s := if o.saved.isEmpty then s else s.restore o cid
  let next := if r.stoppedCrews.isEmpty then r.from_ d (r.next + 1) else r.next
  let s := s.modRecord d r.arrival (fun q =>
    { q with placedAny := true, leads := lead && next < pkCrews r.packet, waitSince := none, next := next,
             stoppedCrews := q.stoppedCrews.tail, saved := if r.stoppedCrews.isEmpty then q.saved else q.saved.filter (fun v => v.index != o.index) })
  s.modDie d (fun x => { x with backfillStop := if x.backfillStop == some r.arrival then none else x.backfillStop })

/-- A record whose count of crews has reached zero (R399): its entry is freed, its ring drained, and SHARE_DONE sent. -/
def State.closeRecord (s : State) (d arrival : Nat) : State :=
  match s.record d arrival with
  | none => s
  | some r =>
    if r.left != 0 then s
    else
      ((s.dropRecord d arrival).notice 4 (pkPart r.packet) d 0 (pkLid r.packet) (leBytes 4 r.retired ++ leBytes 3 r.faulted)).drainAll
        (pkPart r.packet) d

/-- A crew that names a segment freed since its launch is refused under check 21 (R132): it never runs. -/
def State.refuseCrew (s : State) (d : Nat) (r : Record) : State :=
  ((s.reject d r.packet 21).modRecord d r.arrival (fun q => { q with next := r.from_ d (r.next + 1), left := q.left - 1 })).closeRecord
    d r.arrival

/-- The offered crew of a record placed, refused, or not placeable. -/
def State.tryPlace (s : State) (d : Nat) (r : Record) : Option State :=
  match s.offer r with
  | none => none
  | some o =>
    if (match o.seg with | some n => (s.segment (pkPart r.packet) n).isNone | none => false) && o.saved.isEmpty then some (s.refuseCrew d r)
    else (s.chooseCores d o).map (fun c => s.placeCrew d c.1 c.2 o)

/-! ## Pre-emption by a die (R107) -/

/-- Whether a crew may be chosen as a victim for a class: resident, not stopping or held, of a class that yields to it. -/
def State.yields (s : State) (d cls : Nat) (c : Crew) : Bool :=
  c.die == d && c.stop.isNone && c.dump.isNone && c.dumpSlot.isNone && !c.spared && !c.ended &&
    (match s.record d c.arrival with
      | some r => pkClass r.packet < (if cls == 3 then 2 else if cls == 2 then 1 else 0)
      | none => false)

/-- Victims in the order of R107: the lowest class first, then the highest arrival number; among crews of one record, which R107 does not
order, the one placed earlier. DESIGN CHOICE (log 94). -/
def State.victims (s : State) (d cls cluster : Nat) : List Crew :=
  let cs := s.crews.filter (fun c => c.cluster == cluster && s.yields d cls c)
  let ofClass (k : Nat) : List Crew := cs.filter (fun c => match s.record d c.arrival with | some r => pkClass r.packet == k | none => false)
  let ins (c : Crew) (xs : List Crew) : List Crew := xs.takeWhile (fun x => x.arrival > c.arrival) ++ [c] ++ xs.dropWhile (fun x => x.arrival > c.arrival)
  (ofClass 0).foldr ins [] ++ (ofClass 1).foldr ins []

/-- The fewest first victims of a list after which an offer fits a cluster, together with the crews already leaving it. -/
def State.enough (s : State) (d cluster : Nat) (o : Offer) : List Nat → List Crew → Option (List Nat)
  | gone, [] => if (s.clusterCores d cluster gone o).isSome then some [] else none
  | gone, c :: cs =>
    if (s.clusterCores d cluster gone o).isSome then some []
    else (s.enough d cluster o (c.cid :: gone) cs).map (c.cid :: ·)

/-- The crews whose stops a deadline-class record that cannot be placed asks for: in the lower cluster that they suffice in. -/
def State.chooseVictims (s : State) (d : Nat) (o : Offer) : List Nat :=
  let cls := pkClass o.rec_.packet
  match s.enough d 0 o [] (s.victims d cls 0), s.enough d 1 o [] (s.victims d cls 1) with
  | some vs, _ => vs
  | none, some vs => vs
  | none, none => []

/-- A state in which crews have left their cores, to see what would then be placed. -/
def State.withoutCrews (s : State) (gone : List Nat) : State :=
  { s with gangs := s.gangs.filter (fun g => !gone.contains g.crew), crews := s.crews.filter (fun c => !gone.contains c.cid) }

/-- The victims of every deadline-class record of a list that cannot be placed (R107). s is a state in which the crews that are leaving
already have left, and each record in turn takes the cores that it will be placed on. -/
def State.planVictims (s : State) (d : Nat) : List Record → List Nat
  | [] => []
  | r :: rs =>
    if pkClass r.packet < 2 then s.planVictims d rs
    else
      match s.tryPlace d r with
      | some s' => s'.planVictims d rs
      | none =>
        let vs := match s.offer r with | some o => s.chooseVictims d o | none => []
        let s' := s.withoutCrews vs
        vs ++ ((s'.tryPlace d r).getD s').planVictims d rs

/-- The crews of a die that are leaving their cores: stopping, or ended by a fault. -/
def State.leaving (s : State) (d : Nat) : List Nat :=
  (s.crews.filter (fun c => c.die == d && (c.stop.isSome || c.ended))).map (·.cid)

/-! ## CREW_PLACE, BACKFILL_TIMEOUT, LATE -/

/-- The first record of a die that its order offers, whose wait has begun (R106). -/
def State.noteWait (s : State) (d : Nat) (r : Record) : State :=
  let t := s.devtimeOf d
  s.modRecord d r.arrival (fun q => { q with waitSince := some (q.waitSince.getD t) })

/-- The first record of a list that can be placed now, placed in a turn of its partition (R105, R106). -/
def State.placeFirst (s : State) (d : Nat) : List Record → Option State
  | [] => none
  | r :: rs => match s.tryPlace d r with | some s' => some (s'.takeTurn s d r) | none => s.placeFirst d rs

/-- Whether a record has waited 100 µs as the first (R106). -/
def State.waitedLong (s : State) (d : Nat) (r : Record) : Bool :=
  match r.waitSince with | some t => t + 100000 ≤ s.devtimeOf d | none => false

/-- Whether no crew of a later record is placed before a record's (R106): it has waited 100 µs. -/
def State.holdsBack (s : State) (d : Nat) (r : Record) : Bool := s.waitedLong d r || (s.die d).backfillStop == some r.arrival

/-- The records of a list up to the first that holds later ones back (R106). -/
def State.fillable (s : State) (d : Nat) : List Record → List Record
  | [] => []
  | r :: rs => if s.holdsBack d r then [r] else r :: s.fillable d rs

/-- CREW_PLACE (R105–R107, R127, R128, R356): the first record's crew is placed; when it cannot be, its wait begins, victims of a
lower class are asked to stop for every deadline-class record that cannot be placed, and a later record is placed unless backfill has
stopped for it or for one before that record. -/
def execCrewPlace (die : Nat) (s : State) : Host.Outcome State Fault Refusal :=
  if die ≥ 8 || s.failed then .fault .notEnabled
  else
    match s.placeOrder die with
    | [] => .fault .notEnabled
    | r :: rest =>
      match s.tryPlace die r with
      | some s' => .next (s'.takeTurn s die r)
      | none =>
        let vs := (s.withoutCrews (s.leaving die)).planVictims die (r :: rest)
        let s1 := vs.foldl (fun s c => s.requestStop c 0) (s.noteWait die r)
        match s1.placeFirst die (if s.holdsBack die r then [] else s.fillable die rest) with
        | some s2 => .next s2
        | none => if vs.isEmpty && r.waitSince.isSome then .fault .notEnabled else .next s1

/-- BACKFILL_TIMEOUT (R106): the first record has waited 100 µs, and backfill stops until it is placed. -/
def execBackfillTimeout (die : Nat) (s : State) : Host.Outcome State Fault Refusal :=
  match (s.placeOrder die).head? with
  | none => .fault .notEnabled
  | some r =>
    if !s.waitedLong die r || (s.die die).backfillStop == some r.arrival then .fault .notEnabled
    else .next (s.modDie die (fun x => { x with backfillStop := some r.arrival }))

/-- LATE (R108): one notice for a record, in the store or in a ring, whose deadline has passed before its first crew is placed. -/
def execLate (die arrival : Nat) (s : State) : Host.Outcome State Fault Refusal :=
  match s.record die arrival with
  | none =>
    match (s.ringRecords die).find? (fun p => p.2.arrival == arrival) with
    | some p => if s.lateDue die p.2 then .next (s.sendRingLate p.1 die p.2) else .fault .notEnabled
    | none => .fault .notEnabled
  | some r => if s.lateDue die r then .next (s.sendLate die r) else .fault .notEnabled

/-! ## Pinned segments (R131, R132) -/

/-- The cores of a cluster with so many bytes of scratchpad free (R131). -/
def State.roomyCores (s : State) (d cluster ps : Nat) : List Nat :=
  ((List.range 192).map (192 * cluster + ·)).filter (fun c =>
    sumOf ((s.onCore d c).map (fun g => alignUp g.kernel.scratch 128)) + s.segBytes d c + ps ≤ 0x40000)

/-- PINSEG (R131): the lowest cores with room are taken, their regions zeroed, and the core list is reported in the REPLY. -/
def execPinseg (m : MsgId) (b : PinSet) (s : State) : Host.Outcome State Fault Refusal :=
  onMessage 1 0 s (fun s =>
    let cores := (s.roomyCores b.die b.cluster b.ps).take b.n
    if (s.part b.part).isNone || b.seg ≥ 65536 || b.die ≥ 8 || b.cluster ≥ 2 || b.n == 0 || b.n > 64 || b.ps % 128 != 0 || b.ps > 0x40000 ||
        (s.segment b.part b.seg).isSome || (s.segs.filter (fun g => g.part == b.part)).length ≥ 256 || cores.length < b.n then s.refuse m
    else
      let seg : Segment := ⟨b.part, b.seg, b.die, b.cluster, b.ps, cores, none, false⟩
      let s := (List.range b.n).foldl (fun s r => s.clearPad (pinLoc b.part b.seg r) b.ps) { s with segs := s.segs ++ [seg] }
      s.send (.cores m cores))

/-- PINFREE (R132): at once, or when the holding crew retires. -/
def execPinfree (m : MsgId) (part seg : Nat) (s : State) : Host.Outcome State Fault Refusal :=
  onMessage 1 0 s (fun s =>
    match s.segment part seg with
    | none => s.refuse m
    | some g =>
      if g.holder.isSome then
        { s with segs := s.segs.map (fun (q : Segment) => if q.part == part && q.seg == seg then { q with freePending := true } else q) }.reply m 0
      else { s with segs := s.segs.filter (fun q => !(q.part == part && q.seg == seg)) }.reply m 0)

end Sys2Proof.Machine
end

