-- ==== Sys2Proof/Machine/Stop.lean ====
section
/-!
DEFINITION. Stops and dumps (R346, R347, R352–R354, R357, R358, R362, R400): PREEMPT, WSWITCH, WRESUME, STOP_SAVE, DUMP, DUMP_DONE
and DUMP_RELEASE.
-/

namespace Sys2Proof.Machine

/-! ## Requests (R352) -/

/-- The resident crews that a condition picks are asked to stop. -/
def State.stopCrews (s : State) (reason : Nat) (pick : Crew → Bool) : State :=
  (s.crews.filter pick).foldl (fun s c => s.requestStop c.cid reason) s

/-- PREEMPT (R352): every resident crew of a launch on a die. -/
def execPreempt (m : MsgId) (part die : Nat) (lid : W64) (s : State) : Host.Outcome State Fault Refusal :=
  onMessage 1 0 s (fun s =>
    if (s.part part).isNone || die ≥ 8 then s.refuse m
    else (s.stopCrews 0 (fun c => c.part == part && c.die == die && s.lidOf c.cid == lid)).reply m 0)

/-- WSWITCH (R352): every resident crew of a partition on a die, and the partition is held there. -/
def execWswitch (m : MsgId) (part die : Nat) (s : State) : Host.Outcome State Fault Refusal :=
  onMessage 1 0 s (fun s =>
    if (s.part part).isNone || die ≥ 8 then s.refuse m
    else ((s.stopCrews 1 (fun c => c.part == part && c.die == die)).modPart part (fun p => { p with held := setNth p.held die true })).reply m 0)

/-- WRESUME (R352): the partition's records are placed again on the die. -/
def execWresume (m : MsgId) (part die : Nat) (s : State) : Host.Outcome State Fault Refusal :=
  onMessage 1 0 s (fun s =>
    if (s.part part).isNone || die ≥ 8 then s.refuse m
    else (s.modPart part (fun p => { p with held := setNth p.held die false })).reply m 0)

/-! ## Stop points (R353, R354) -/

/-- Whether every live sub-bundle of bundle bi of a gang stands at a stop point (R353). -/
def State.allAtStop (s : State) (g : Gang) (bi : Nat) (b : Bundle) : Bool :=
  ((List.range b.subs.length).zip b.subs).all (fun p => !p.2.isLive || s.atStop g bi p.1 b p.2)

/-- Whether every bundle of a gang has stopped. -/
def State.gangStopped (s : State) (g : Gang) : Bool :=
  g.retired || ((List.range g.bundles.length).zip g.bundles).all (fun p => p.2.done || s.allAtStop g p.1 p.2)

/-- The resident gangs of a crew, retired ones included. -/
def State.gangsOf (s : State) (cid : Nat) : List Gang := s.gangs.filter (fun g => g.crew == cid)

/-- Whether a gang has a carry-out that can be formed or sent now (R308). -/
def State.carryReady (s : State) (gid : Nat) : Bool :=
  match execCarryOutFormed gid s with | .next _ => true | _ => false

/-- Whether a crew may be saved (R354): some gang of it has still to retire (R398, R400), every bundle has stopped, nothing of it is in transit,
every access is performed, no halt or program run is owed, and its partition is not being reset, which overtakes a stop (R114). -/
def State.mayStop (s : State) (c : Crew) : Bool :=
  let gs := s.gangsOf c.cid
  let mine (gid : Nat) : Bool := gs.any (fun g => g.gid == gid)
  c.dump.isNone && c.dumpSlot.isNone && gs.any (fun g => !g.retired) &&
    (match s.part c.part with | some p => p.resetting.isNone | none => false) && gs.all s.gangStopped && gs.all (fun g => !s.carryReady g.gid) &&
    s.carries.all (fun m => !(mine m.src || mine m.dst)) && s.remotes.all (fun r => !(mine r.srcGid || mine r.dstGid)) &&
    s.memOps.all (fun o => !mine o.gid || s.parked o) && s.ops.all (fun o => !(mine o.gid && o.eng ≥ 5)) &&
    s.halts.all (fun h => !mine h.gid) && s.sxRuns.all (fun r => !mine r.gid)

/-- The gang blocks of a crew in rank order, as offset, chunks and the gang when it is saved: a retired gang leaves its header (R400). -/
def State.crewBlocks (s : State) (c : Crew) (reason time : Nat) (pend : Gang → List Byte) : List (Nat × Chunks × Option Gang) × Nat :=
  let n := c.gangs.length
  let any := (s.gangsOf c.cid).head?
  ((List.range n).zip c.gangs).foldl (fun acc p =>
    let g? := (p.2.bind s.gang)
    let blank : Option Gang := any.map (fun g => { g with rank := p.1, retired := true, tl := [0, 0, 0, 0], issued := [0, 0, 0, 0] })
    match g?.orElse (fun _ => blank) with
    | none => acc
    | some g =>
      let ps := if g.retired then [] else pend g
      let size := if g.retired then 512 else g.kernel.blockSize (ps.length / 32)
      (acc.1 ++ [(acc.2, s.gangChunks g reason n c.index time ps, if g.retired then none else some g)], alignUp (acc.2 + size) 4096))
    ([], 0)

/-- What frees a gang's core and ends its stay: its watch entries, operations and accesses (R354, R378); collectives go on (R330). -/
def State.leave (s : State) (g : Gang) : State :=
  let s := s.releaseWatch g
  { s with gangs := s.gangs.filter (fun h => h.gid != g.gid), ops := s.ops.filter (fun o => !(o.gid == g.gid && o.eng != 4))
           memOps := s.memOps.filter (fun o => o.gid != g.gid) }

/-- A stop cancelled (R354): every sub-bundle goes on from its stop point, and the die chooses another victim. -/
def State.cancelStop (s : State) (cid : Nat) : State :=
  (s.modMembers cid (fun g => { g with bundles := g.bundles.map (fun b => { b with subs := b.subs.map (fun q => { q with stopped := false }) }) })).modCrew
    cid (fun c => { c with stop := none, spared := true })

/-- The crew's state written into a slot, and its cores freed (R354, R358). -/
def State.saveInto (s : State) (c : Crew) (r : Record) (reason slot : Nat) : State :=
  let va := pkSave r.packet
  let base := slotVa va (s.saveArea c.part va).2 slot
  let blocks := (s.crewBlocks c reason (s.devtimeOf c.die) (fun _ => [])).1
  let saved := blocks.filterMap (fun b => b.2.2.map (fun g => s.savedGang g c.index (base + b.1)))
  let s := blocks.foldl (fun s b => s.putChunks c.die c.part (base + b.1) b.2.1) s
  let s := (s.gangsOf c.cid).foldl State.leave s
  ({ s with crews := s.crews.filter (fun q => q.cid != c.cid) }).modRecord c.die c.arrival (fun q =>
    { q with stoppedCrews := q.stoppedCrews ++ [(c.index, slot, c.faulted)], saved := q.saved ++ saved })

/-- STOP_SAVE (R354, R357): the crew is saved and leaves; without a slot the stop is cancelled, or under a world switch the crew
ends with WATCHDOG 3; a save area that cannot be accessed ends it with PROTECTION 2. -/
def execStopSave (crew : Nat) (s : State) : Host.Outcome State Fault Refusal :=
  match s.crew crew with
  | none => .fault .notEnabled
  | some c =>
    match c.stop, s.record c.die c.arrival with
    | some reason, some r =>
      if !s.mayStop c then .fault .notEnabled
      else
        let va := pkSave r.packet
        match s.allocSlot c.die c.part va (s.crewBlocks c reason 0 (fun _ => [])).2 with
        | none => .next (s.faultCrew crew { cls := 5, sub := 2, addr := va })
        | some none => .next (if reason == 1 then s.faultCrew crew { cls := 0x0A, sub := 3 } else s.cancelStop crew)
        | some (some (k, s)) => .next (s.saveInto c r reason k)
    | _, _ => .fault .notEnabled

/-! ## Dumps (R346, R347, R362) -/

/-- The entry of a lane's store in the pending-store list (R347): SEQ is the number of its instruction in the bundle's program order, modulo
2^16. DEDUCED (log 28). -/
def pendEntry (o : MemOp) (r : LaneReq) : List Byte :=
  packFields 32
    [(0, r.va.toNat), (64, leNat r.data % 2 ^ 128), (192, 2 ^ r.size - 1), (208, o.bundle), (213, if o.uniform then 0 else r.lane), (219, o.plane),
      (221, o.space), (223, ofBool (o.kind == 2)), (224, o.seq % 65536)]

/-- The stores and atomics of a gang that are issued and not yet performed, in issue order (R347). -/
def State.unperformed (s : State) (gid : Nat) : List MemOp :=
  s.memOps.filter (fun o => o.gid == gid && o.kind != 0 && o.lanes.any (fun r => r.status != 3 && r.status != 4))

/-- The pending-store list of a gang, in issue order (R347). -/
def State.pendList (s : State) (gid : Nat) : List Byte :=
  (s.unperformed gid).flatMap (fun o => (o.lanes.filter (fun r => r.status != 3 && r.status != 4)).flatMap (pendEntry o))

/-- A lane of a held store translated and performed at its home. -/
def State.performLane (s : State) (id lane : Nat) : State :=
  let find (s : State) : Option (MemOp × LaneReq × Gang) :=
    match s.memOp id with
    | none => none
    | some o =>
      match o.lanes.find? (fun r => r.lane == lane), s.gang o.gid with
      | some r, some g => some (o, r, g)
      | _, _ => none
  let s := match find s with
    | some (o, r, g) =>
      if r.status ≥ 2 then s
      else
        match s.leafOf g.part r.va.toNat with
        | some (e, base, size) => s.translated o r g e base size
        | none => s.failReq o r [5, 0]
    | none => s
  match find s with
  | some (o, r, g) => if r.status == 2 then s.performReq o r g r.loc else s
  | none => s

/-- A held store or atomic performed whole (R346, R362). -/
def State.performHeld (s : State) (id : Nat) : State :=
  match s.memOp id with
  | none => s
  | some o =>
    if o.space == 2 then (match execCrewScratchpadAccess id s with | .next t => t | _ => s)
    else o.lanes.foldl (fun s r => s.performLane id r.lane) s

/-- The held stores of a crew performed in their original order. -/
def State.performAll (s : State) (ids : List Nat) : State :=
  ids.foldl State.performHeld { s with memOps := s.memOps.map (fun o => if ids.contains o.id then { o with held := false } else o) }

/-- DUMP (R362): the crew is to be dumped; no resident crew is status 1, a held one status 2. -/
def execDump (m : MsgId) (part die : Nat) (lid : W64) (idx : Nat) (s : State) : Host.Outcome State Fault Refusal :=
  onMessage 1 0 s (fun s =>
    match s.crews.find? (fun c => c.part == part && c.die == die && c.index == idx && s.lidOf c.cid == lid) with
    | none => s.reply m 1
    | some c =>
      if c.dump.isSome || c.dumpSlot.isSome then s.reply m 2 else s.modCrew c.cid (fun c => { c with dump := some m }))

/-- The sub-bundles of a crew that stand halted already. -/
def State.haltedSubs (s : State) (cid : Nat) : List (Nat × Nat × List Nat) :=
  (s.gangsOf cid).flatMap (fun g => ((List.range g.bundles.length).zip g.bundles).flatMap (fun p =>
    (p.2.liveSubs.filter Sub.stands).map (fun q => (g.gid, p.1, q.slices))))

/-- Every bundle of a crew's gangs halted, with reports of ENTRY 17 for those that were not wholly halted (R362, R393). -/
def State.haltCrew (s : State) (c : Crew) : State :=
  ((s.gangsOf c.cid).filter (fun g => !g.retired)).foldl (fun s g =>
    if g.bundles.all (fun b => b.liveSubs.all Sub.stands) then s
    else
      let rep (k : Nat) : List Byte := plainReport g k 17 3 none (match (g.bundles[k]?).map Bundle.liveSubs with
        | some (q :: _) => (g.bundles.getD k (Bundle.start g.kernel 0)).offsetOf q
        | _ => 0) (s.devtimeOf g.die)
      let s := s.modGang g.gid (fun g => { g with bundles := ((List.range g.bundles.length).zip g.bundles).map (fun p =>
        if p.2.liveSubs.all Sub.stands then p.2 else p.2.haltAll (rep p.1)) })
      s.notice 10 g.part g.die 0 (s.lidOf c.cid) (rep 0)) s

/-- Whether a crew stands at instruction boundaries, its loads returned, so that it may be dumped (R362, R386). -/
def State.mayDump (s : State) (c : Crew) : Bool :=
  (s.gangsOf c.cid).all (fun g => g.retired || g.bundles.all (fun b => b.done || b.liveSubs.all (fun q => q.between || (match q.wait with
    | .mem i _ => (match s.memOp i with | some o => o.kind != 0 || s.parked o | none => true)
    | _ => false))))

/-- The halts that a dump made, released (R362). -/
def State.unhaltCrew (s : State) (c : Crew) : State :=
  ((s.gangsOf c.cid).filter (fun g => !g.retired)).foldl (fun s g =>
    s.modGang g.gid (fun h => { h with bundles := ((List.range h.bundles.length).zip h.bundles).map (fun p =>
      let b : Bundle := { p.2 with subs := p.2.subs.map (fun (q : Sub) =>
        if c.kept.any (fun k => k.1 == g.gid && k.2.1 == p.1 && k.2.2 == q.slices) then q else { q with halted := false, stepping := false }) }
      b.settleLanes (s.die h.die).cycles) })) s

/-- DUMP_DONE (R362): the crew is halted, its unperformed stores held, its block written, and DUMP_DONE sent; without a slot the stores are
performed and the halts released again, and the status is 1. -/
def execDumpDone (crew : Nat) (s : State) : Host.Outcome State Fault Refusal :=
  match s.crew crew with
  | none => .fault .notEnabled
  | some c =>
    match c.dump, s.record c.die c.arrival with
    | some m, some r =>
      if !s.mayDump c then .fault .notEnabled
      else
        let va := pkSave r.packet
        let pend (g : Gang) : List Byte := s.pendList g.gid
        let ids := (s.gangsOf crew).flatMap (fun g => (s.unperformed g.gid).map (·.id))
        let ids := (s.memOps.filter (fun o => ids.contains o.id)).map (·.id)
        let kept := s.haltedSubs crew
        match s.allocSlot c.die c.part va (s.crewBlocks c 2 0 pend).2 with
        | none => .next (((s.modCrew crew (fun c => { c with dump := none })).faultCrew crew { cls := 5, sub := 2, addr := va }).send (.dumpDone m 1 0))
        | some none =>
          let s1 := (((s.haltCrew c).performAll ids).unhaltCrew { c with kept := kept }).modCrew crew (fun c => { c with dump := none })
          .next (s1.send (.dumpDone m 1 0))
        | some (some (k, s1)) =>
          let s1 := { s1.haltCrew c with memOps := s1.memOps.map (fun (o : MemOp) => if ids.contains o.id then { o with held := true } else o) }
          let base := slotVa va (s1.saveArea c.part va).2 k
          let s1 := (s1.crewBlocks c 2 (s1.devtimeOf c.die) pend).1.foldl (fun s b => s.putChunks c.die c.part (base + b.1) b.2.1) s1
          .next ((s1.modCrew crew (fun c => { c with dump := none, dumpSlot := some k, held := ids, kept := kept })).send (.dumpDone m 0 k))
    | _, _ => .fault .notEnabled

/-- DUMP_RELEASE (R362): the held stores are performed, the slot freed, and the crew goes on or ends. -/
def execDumpRelease (m : MsgId) (crew : Nat) (resume : Bool) (s : State) : Host.Outcome State Fault Refusal :=
  onMessage 1 0 s (fun s =>
    match s.crew crew with
    | none => s.refuse m
    | some c =>
      match c.dumpSlot, s.record c.die c.arrival with
      | some k, some r =>
        let s := (s.performAll c.held).putSlot c.die c.part (pkSave r.packet) k false
        let s := s.modCrew crew (fun c => { c with dumpSlot := none, held := [], kept := [] })
        (if resume then s.unhaltCrew c else s.endCrew crew).reply m 0
      | _, _ => s.refuse m)

end Sys2Proof.Machine
end

