-- ==== Sys2Proof/Machine/Csr.lean ====
section
/-!
DEFINITION. The control and status registers (R372, R373).
-/

namespace Sys2Proof.Machine

/-- CECNT and UECNT of a core and partition (R373). -/
def Core.errorCounts (c : Core) (part : Nat) : Nat × Nat := ((c.errors.find? (fun e => e.1 == part)).map (·.2)).getD (0, 0)

/-- CECNT and UECNT of a core and partition changed. -/
def Core.setErrors (c : Core) (part : Nat) (v : Nat × Nat) : Core :=
  { c with errors := c.errors.filter (fun e => e.1 != part) ++ (if v == (0, 0) then [] else [(part, v)]) }

/-- The value of a register of R373. -/
def State.csrValue (s : State) (x : Ctx) (n : Nat) : W64 :=
  let e := (s.core x.g.die x.g.core).errorCounts x.g.part
  match s.part x.g.part with
  | none => 0
  | some p =>
    if n == 0 then BitVec.ofNat 64 (ofBool p.privileged)
    else if n == 1 then p.faultact.getD x.g.die 0
    else if n == 2 then BitVec.ofNat 64 e.1
    else if n == 3 then BitVec.ofNat 64 e.2
    else if n == 4 then BitVec.ofNat 64 (match s.taskOf x.g with | some r => pkSave r.packet | none => 0)
    else if n == 5 then p.key.setWidth 64
    else if n == 6 then BitVec.ofNat 64 (p.fseq.getD x.g.die 0)
    else 0

/-- FAULTACT as a write leaves it (R46, R373): the fields of LEASE and UNCORRECTABLE stay, and there are fields for the classes 0x01 to 0x13;
the bits above them read as zero. DESIGN CHOICE (log 60). -/
def faultactOf (old new : W64) : W64 :=
  let keep : W64 := 0x030000C0
  (old &&& keep) ||| (new &&& (0x3FFFFFFFFF &&& ~~~keep))

/-- The registers that can only be read (R373). -/
def csrReadOnly (n : Nat) : Bool := n == 0 || n == 4 || n == 5 || n == 6

/-- An effect that comes after the bundle's earlier accesses and before its later ones (R372: acquire-release at device scope). -/
def csrOrdered (x : Ctx) (s : State) (eff : State → Eff) : Eff :=
  if s.unreleased x then .hold 24 else eff s

/-- A csr.wr whose effect comes in its order (R372). -/
def runCsrWrWith (w : XWord) (extra : Ctx → Option FaultInfo) (eff : Ctx → State → Eff) (s : State) : Host.Outcome State Fault Refusal :=
  runPrivileged (opForm .unused .named .unused .unused (w.imm.toNat < 8) (w.m6 = 0 && w.nwb = 0)) w extra eff s

/-- A csr.wr (R372). -/
def runCsrWr (w : XWord) (extra : Ctx → Option FaultInfo) (eff : Ctx → State → State) (s : State) : Host.Outcome State Fault Refusal :=
  runCsrWrWith w extra (fun x s => csrOrdered x s (fun s => .done (eff x s))) s

/-- A new value of FAULTACT in the copies of some dies (R373). -/
def State.setFaultact (s : State) (part : Nat) (dies : List Nat) (v : W64) : State :=
  s.modPart part (fun p => { p with faultact := dies.foldl (fun l d => modNth l d (fun old => faultactOf old v)) p.faultact })

/-- CSR_RD (R372, R373). -/
def execCsrRd (w : XWord) (s : State) : Host.Outcome State Fault Refusal :=
  runPrivileged (opForm .named .unused .unused .unused (w.imm.toNat < 8) (w.m6 = 0 && w.nwb = 0)) w noExtra
    (fun x s => csrOrdered x s (fun s => .done (s.setS x w.d9.toNat (s.csrValue x w.imm.toNat)))) s

/-- CSR_WR of FAULTACT (R373): the issuing die holds the new value at once, and the write waits until every die does (R401, reason 26). -/
def execCsrWrFaultact (w : XWord) (s : State) : Host.Outcome State Fault Refusal :=
  runCsrWrWith w noExtra (fun x s =>
    let v := x.s w.a9.toNat
    if x.q.charged then .done (s.setFaultact x.g.part (List.range 8) v)
    else csrOrdered x s (fun s => .wait (.retry 26) (s.setFaultact x.g.part [x.g.die] v))) s

/-- CSR_WR of CECNT (R373): any value clears it. -/
def execCsrWrCecnt (w : XWord) (s : State) : Host.Outcome State Fault Refusal :=
  runCsrWr w noExtra (fun x s =>
    s.modCore x.g.die x.g.core (fun c => c.setErrors x.g.part (0, (c.errorCounts x.g.part).2))) s

/-- CSR_WR of UECNT (R373): any value clears it. -/
def execCsrWrUecnt (w : XWord) (s : State) : Host.Outcome State Fault Refusal :=
  runCsrWr w noExtra (fun x s =>
    s.modCore x.g.die x.g.core (fun c => c.setErrors x.g.part ((c.errorCounts x.g.part).1, 0))) s

/-- CSR_WR of STOPREQ (R352, R373): 1 requests a stop of the issuing crew, 0 does nothing, other values raise ILLEGAL FN. -/
def execCsrWrStopreq (w : XWord) (s : State) : Host.Outcome State Fault Refusal :=
  runCsrWr w (fun x => failIf (x.sn w.a9.toNat > 1) (illegal 3)) (fun x s =>
    if x.s w.a9.toNat = 1 then s.requestStop x.g.crew 0 else s) s

/-- CSR_WR of any other register (R372): read-only ones raise CSRRO, reserved ones ILLEGAL FN. -/
def execCsrWr (w : XWord) (s : State) : Host.Outcome State Fault Refusal :=
  runCsrWr w (fun _ => failIf (csrReadOnly w.imm.toNat) (illegal 37)) (fun _ s => s) s

end Sys2Proof.Machine
end

