-- ==== Sys2Proof/Machine/Fence.lean ====
section
/-!
DEFINITION. fence and fence.alias (R341–R343). Every scope is treated as the widest (log 20).
-/

namespace Sys2Proof.Machine

/-- The form of a fence word (R341): a reserved KIND or SCOPE, or ORD 0 where KIND is 0, is ILLEGAL FN. -/
def fenceForm (w : FenceWord) : Form :=
  bareForm (w.kind.toNat ≤ 1 && w.scope != 7 && !(w.kind == 0 && w.ord == 0)) (w.rsv = 0 && w.nwb = 0)

/-- Whether the bundle has a store or an atomic that is not performed at its home, or is still to issue in a later pass. -/
def State.writesPending (s : State) (gid b : Nat) : Bool :=
  s.memOps.any (fun o => o.gid == gid && o.bundle == b && o.kind != 0 && o.lanes.any (fun r => r.status != 3 && r.status != 4)) ||
    s.restPending gid b (fun _ k _ => k != 0)

/-- Whether the waits of a fence have ended (R342). -/
def State.fenceOver (s : State) (x : Ctx) (w : FenceWord) : Bool :=
  let ord := w.ord.toNat
  !((w.kind == 1 && s.writesPending x.c.gid x.c.bundle) || (ord ≥ 2 && s.unreleased x) ||
    (ord % 2 == 1 && (s.readsPending x.c.gid x.c.bundle || !s.settled x.g.die)))

/-- The lines of a core's L1 tagged with a partition dropped (R342). -/
def Core.dropLines (c : Core) (part : Nat) : Core := { c with l1 := c.l1.filter (fun l => l.part != part) }

/-- A fence: it waits, and fence.alias drops the partition's L1 lines and parts the bundle's earlier accesses from its later ones. -/
def runFence (w : FenceWord) (s : State) : Host.Outcome State Fault Refusal :=
  runUniform true 4 (fun _ => fenceForm w) (plainWord w.pred w.pn 0 268 268) noExtra (fun x s =>
    if s.fenceOver x w then
      .done (if w.kind == 1 then
        (s.modCore x.g.die x.g.core (fun c => c.dropLines x.g.part)).modBundle x.c.gid x.c.bundle (fun b =>
          { b with aliasFences := b.aliasFences + 1 }) else s)
    else .wait .fence s) s

/-- FENCE (R341–R343). -/
def execFence (w : FenceWord) (s : State) : Host.Outcome State Fault Refusal := runFence w s

/-- FENCE_ALIAS (R340–R343). -/
def execFenceAlias (w : FenceWord) (s : State) : Host.Outcome State Fault Refusal := runFence w s

end Sys2Proof.Machine
end

