-- ==== Sys2Proof/Machine/Perf.lean ====
section
/-!
DEFINITION. Measurement (R401–R405): stall reasons, what the passing of cycles counts, the perf instructions, PERFSET, SAMPRING
and PC sampling.
-/

namespace Sys2Proof.Machine

/-! ## Stall reasons (R401) -/

/-- The reason of a texp, tenc or ctld in progress (R245, R247, R255, R258, R259): a fill of a slot 11; of a tenc its entry held by another
31, its unit busy 3, its bytes or its bundle's earlier accesses 10; of a texp its turn at the A port or its bytes 10; of a ctld.spm an absent
line 6 (R221). -/
def State.decoderReason (s : State) (g : Gang) (o : EngOp) : Nat :=
  if o.eng == 7 then (if o.state == 0 && !s.decReady g o then 6 else 11)
  else if o.state != 0 then 3
  else if o.eng == 6 then
    if (descOf o.desc).slots.any (s.slotFillingBefore o.gid o.id) then 11
    else if s.entryHeld o then 31
    else if s.unitBusy g o then 3
    else 10
  else 10

/-- A live sub-bundle of a gang with its places, as bundle index, place in the bundle, bundle and sub-bundle. -/
abbrev SubAt := Nat × Nat × Bundle × Sub

/-- Whether a Sextant program run keeps a sub-bundle from starting an instruction (R389). -/
def State.runKeeps (s : State) (gid b : Nat) (q : Sub) : Bool :=
  s.sxRuns.any (fun r => r.gid == gid && r.bundle == b && (match r.waits with | some i => q.slices.contains i | none => false))

/-- The reason of a sub-bundle that waits in no instruction and does not issue (R166, R152, R389, R401): a program run 31, between passes 4, a
join 17, a pipe or unit that is busy 3, else 2. Which of the last two it is depends on timing that the model does not count (log 11). -/
def State.selectReason (s : State) (gid : Nat) (p : SubAt) : Nat :=
  let q := p.2.2.2
  if q.pass.isSome then 4
  else if s.runKeeps gid p.1 q then 31
  else if q.rejoined then 17
  else if Config.pipeBusy s.tick gid p.1 p.2.1 then 3 else 2

/-- The reason that the rule of a sub-bundle's wait names (R148, R147, R152, R166, R217, R221, R255): of an access that is parked on an absent
line 6, and of one with a lane whose translation replays 19, though it also misses L1. DEDUCED (log 37). -/
def State.waitReason (s : State) (g : Gang) (p : SubAt) : Nat :=
  match p.2.2.2.wait with
  | .none => s.selectReason g.gid p
  | .fetch => 1
  | .barrier _ _ | .met _ _ _ _ => 8
  | .regang => 16
  | .carry => 14
  | .timeline _ => 9
  | .fence | .halting _ _ => 31
  | .group f _ _ => if f then 31 else 25
  | .retry r => r
  | .mem i r =>
    match s.memOp i with
    | some o => if s.parked o then 6 else if o.lanes.any (fun p => p.status == 2 && p.replay) then 19 else r
    | none => r
  | .decoder i => match s.ops.find? (fun o => o.id == i) with | some o => s.decoderReason g o | none => 3

/-- The reasons 15 (R354) and 20 (R386) of a sub-bundle that stands. -/
def State.standReasons (s : State) (g : Gang) (p : SubAt) : List Nat :=
  (if s.stopPending g && s.atStop g p.1 p.2.1 p.2.2.1 p.2.2.2 then [15] else []) ++ (if p.2.2.2.stands then [20] else [])

/-- The cycles that a sub-bundle owes for reads of one register bank (R174). -/
def State.bankOwed (s : State) (g : Gang) (b k : Nat) : Nat :=
  sumOf (((s.core g.die g.core).banked.filter (fun e => e.1 == g.gid && e.2.1 == b && e.2.2.1 == k)).map (·.2.2.2))

/-- The stall reason of a live sub-bundle that stands or waits (R401): the lowest that applies; one that stands and waits in no instruction
carries no reason of selection. -/
def State.heldReason (s : State) (g : Gang) (p : SubAt) : Nat :=
  let w := s.waitReason g p
  match s.standReasons g p with
  | [] => w
  | r :: rs => minOr r (if p.2.2.2.wait == .none then r :: rs else w :: r :: rs)

/-- The stall reason of a live sub-bundle in a cycle of its die (R401): 0 when it issues in it, 3 and 5 in the extra cycles of its register
reads (R174) and its bank conflicts (R220), and else that of its wait. -/
def State.reasonOf (s : State) (g : Gang) (p : SubAt) (cycle : Nat) : Nat :=
  if p.2.2.2.issuedIn == some cycle then 0
  else if s.bankOwed g p.1 p.2.1 != 0 then 3
  else if p.2.2.2.conflict != 0 then 5
  else s.heldReason g p

/-! ## Cycles (R402, R403) -/

/-- A core's counters of EVENT 0 after n cycles: each counts them once while a gang that it counts is resident. -/
def Counter.resident (owner : Option Nat) (gs : List (Nat × (W64 × Nat × Nat))) (n : Nat) (c : Counter) : Counter :=
  if gs.any (fun g => counts owner g.1 g.2 0 0 c) then c.add n else c

/-- Whether a matrix operation of a gang stands with its K-step due and its A row not there: behind a texp at the A port, or waiting for
lines (R221, R244). -/
def State.awaitsRow (s : State) (g : Gang) (o : EngOp) : Bool :=
  o.gid == g.gid && s.kStepDue o && (s.texpFirst g o || s.rowsAbsent g o)

/-- The live sub-bundles and detached lanes of a gang. -/
def Gang.allSubs (g : Gang) : List SubAt :=
  ((List.range g.bundles.length).zip g.bundles).flatMap (fun p =>
    if p.2.killed then []
    else ((List.range p.2.subs.length).zip p.2.subs).filterMap (fun q => if q.2.isLive then some (p.1, q.1, p.2, q.2) else none))

/-- The cycles of the last n of its die in which a sub-bundle carried the reason that it carries now (R401): not that of an issue, which counts
reason 0, and none of those counted already for its register banks (R174) and bank conflicts (R220). -/
def State.cyclesLeft (s : State) (g : Gang) (p : SubAt) (n : Nat) : Nat :=
  let now := (s.die g.die).cycles
  let issued := match p.2.2.2.issuedIn with | some t => ofBool (now - n ≤ t && t < now) | none => 0
  n - issued - p.2.2.2.conflict - s.bankOwed g p.1 p.2.1

/-- The n last cycles of one core counted: its resident gangs (EVENT 0), what their sub-bundles carried (EVENT 3), and their matrix
operations (R244). -/
def State.countCore (s : State) (c : Core) (n : Nat) : State :=
  if n == 0 || c.counters.all (fun k => !bit k.sel.toNat 12) then s
  else
    let gs := s.onCore c.die c.core
    let owners := (s.die c.die).ctrOwner
    let tags := gs.map (fun g => (g.part, s.gangTag g))
    let s1 := s.modCore c.die c.core (fun c => { c with counters := (owners.zip c.counters).map (fun p => p.2.resident p.1 tags n) })
    gs.foldl (fun s1 g =>
      let s1 := if s.ops.any (s.awaitsRow g) then s1.perfWith g 3 10 n else s1
      g.allSubs.foldl (fun s1 p =>
        s1.perfWith g 3 (s.heldReason g p) (s.cyclesLeft g p n)) s1) s1

/-- The cycles of register banks and bank conflicts that have passed on a die. -/
def State.passConflicts (s : State) (n : Nat → Nat) : State :=
  let pass (g : Gang) (q : Sub) : Sub := { q with conflict := q.conflict - n g.die }
  let rest (c : Core) : List (Nat × Nat × Nat × Nat) :=
    (c.banked.map (fun e => (e.1, e.2.1, e.2.2.1, e.2.2.2 - n c.die))).filter (fun e => e.2.2.2 != 0)
  { s with cores := s.cores.map (fun (c : Core) => { c with banked := rest c })
           gangs := s.gangs.map (fun (g : Gang) => { g with bundles := g.bundles.map (fun (b : Bundle) => { b with subs := b.subs.map (pass g) }) }) }

/-- The cycles of a step counted on every core; n is what passed on each die. -/
def State.countCycles (s : State) (n : Nat → Nat) : State :=
  let busy := s.cores.any (fun c => !c.banked.isEmpty) || s.gangs.any (fun g => g.bundles.any (fun b => b.subs.any (fun q => q.conflict != 0)))
  let s' := s.cores.foldl (fun s c => s.countCore c (n c.die)) s
  if busy then s'.passConflicts n else s'

/-! ## perf (R405) -/

/-- A perf instruction: uniform, neither control nor ordered with memory; k tells that W2 holds a counter number. -/
def runPerf (k : Bool) (a : Kind) (w : XWord) (extra : Ctx → Option FaultInfo) (eff : Ctx → State → Eff) (s : State) :
    Host.Outcome State Fault Refusal :=
  runUniform false 12 (fun _ => opForm .scalar a .unused .unused true
    (w.m6 = 0 && w.nwb = 0 && (if k then w.imm.toNat < 16 else noImm w))) w extra eff s

/-- Whether a counter is assigned to the issuing partition on its die (R402). -/
def State.ownsCounter (s : State) (x : Ctx) (k : Nat) : Bool := (s.die x.g.die).ctrOwner.getD k none == some x.g.part

/-- A counter of the issuing core. -/
def State.counter (s : State) (x : Ctx) (k : Nat) : Counter := (s.core x.g.die x.g.core).counters.getD k ⟨0, false, 0, none⟩

/-- Whether a selector breaks R403. -/
def selectorBad (a : Nat) : Bool := bits a 0 5 ≥ 11 || bits a 13 51 != 0

/-- A counter with a selector written (R403, R405). -/
def Counter.select (c : Counter) (a : W64) (tag : W64 × Nat × Nat) : Counter :=
  { value := if bit a.toNat 11 then 0 else c.value, ovf := !bit a.toNat 11 && c.ovf, sel := a,
    tag := if bit a.toNat 10 then some tag else none }

/-- PERF_RD (R405). -/
def execPerfRd (w : XWord) (s : State) : Host.Outcome State Fault Refusal :=
  runPerf true .unused w noExtra (fun x s =>
    let k := w.imm.toNat
    let c := s.counter x k
    let v := if s.ownsCounter x k then c.value + ofBool c.ovf <<< 48 + ofBool (bit c.sel.toNat 12) <<< 49 else 0
    .done (s.setS x w.d9.toNat (BitVec.ofNat 64 v))) s

/-- Whether the assignment of a counter of a die by a PERFSET is still being made on its cores (R401, reason 27; log 95). -/
def State.counterMoving (s : State) (d k : Nat) : Bool :=
  match (s.die d).ctrMoved.getD k none with
  | some t => (s.die d).cycles ≤ t + Config.assignDelay t
  | none => false

/-- PERF_SEL (R401, R405): it awaits a reassignment of its counter; PSEL when the selector breaks R403; status 1 when the counter is not
assigned. -/
def execPerfSel (w : XWord) (s : State) : Host.Outcome State Fault Refusal :=
  runPerf true .scalar w noExtra (fun x s =>
    let k := w.imm.toNat
    let a := x.s w.a9.toNat
    if s.counterMoving x.g.die k then .hold 27
    else if !s.ownsCounter x k then .done (s.setS x w.d9.toNat 1)
    else if selectorBad a.toNat then .fault (illegal 40) s
    else
      let tag := s.gangTag x.g
      .done ((s.modCore x.g.die x.g.core (fun c => { c with counters := modNth c.counters k (fun c => c.select a tag) })).setS x
        w.d9.toNat 0)) s

/-- The sampling ring of a partition on a die (R404). -/
def State.sampRing (s : State) (part die : Nat) : Option (W64 × Nat) := (s.part part).bind (fun p => p.sampRings.getD die none)

/-- Whether a number is a power of two from 2^lo to 2^hi. -/
def powerIn (lo hi n : Nat) : Bool := (List.range (hi + 1)).any (fun i => lo ≤ i && n == 2 ^ i)

/-- PERF_SAMP (R401, R405): 0 stops sampling; status 1 without a ring, 2 for an interval that is not allowed; otherwise it awaits the read of
the ring's header, and sampling begins. -/
def execPerfSamp (w : XWord) (s : State) : Host.Outcome State Fault Refusal :=
  runPerf false .scalar w noExtra (fun x s =>
    let n := x.sn w.a9.toNat
    let set (v : Option Sampling) : State := (s.modGang x.c.gid (fun g => { g with sampling := v })).setS x w.d9.toNat 0
    if n == 0 then .done (set none)
    else if (s.sampRing x.g.part x.g.die).isNone then .done (s.setS x w.d9.toNat 1)
    else if !powerIn 10 24 n then .done (s.setS x w.d9.toNat 2)
    else if !x.q.charged then .wait (.retry 28) s
    else .done (set (some ⟨n, (s.die x.g.die).cycles + n, 0⟩))) s

/-! ## PERFSET and SAMPRING (R402, R404) -/

/-- PERFSET (R402): the counters of the mask are assigned to the partition on every core of the die, those it held besides are
given up (log 20), and each of them is cleared. -/
def execPerfset (m : MsgId) (part die : Nat) (mask : BitVec 16) (s : State) : Host.Outcome State Fault Refusal :=
  onMessage 1 0 s (fun s =>
    if (s.part part).isNone || die ≥ 8 then s.refuse m
    else
      let owners := (s.die die).ctrOwner
      let hit (k : Nat) : Bool := mask.getLsbD k || owners.getD k none == some part
      let pick (k : Nat) : Option Nat := if mask.getLsbD k then some part else if hit k then none else owners.getD k none
      let s := s.modDie die (fun d =>
        { d with ctrOwner := (List.range 16).map pick
                 ctrMoved := (List.range 16).map (fun k => if hit k then some d.cycles else d.ctrMoved.getD k none) })
      let s := { s with cores := s.cores.map (fun (c : Core) => if c.die == die then
        { c with counters := ((List.range 16).zip c.counters).map (fun (p : Nat × Counter) => if hit p.1 then ⟨0, false, 0, none⟩ else p.2) } else c) }
      s.reply m 0)

/-- SAMPRING (R404): the ring's address and entries. -/
def execSampring (m : MsgId) (part die : Nat) (va : W64) (entries : Nat) (s : State) : Host.Outcome State Fault Refusal :=
  onMessage 1 0 s (fun s =>
    if (s.part part).isNone || die ≥ 8 || va.toNat % 2 ^ 16 != 0 || !powerIn 10 20 entries then s.refuse m
    else (s.modPart part (fun p => { p with sampRings := setNth p.sampRings die (some (va, entries)) })).reply m 0)

/-! ## PC sampling (R404) -/

/-- A sample's 16 bytes (R404), with the reason that the sub-bundle carries in the sampled cycle. -/
def State.sampleEntry (s : State) (g : Gang) (p : SubAt) (cycle : Nat) : List Byte :=
  packFields 16 [(0, p.2.2.1.offsetOf p.2.2.2), (32, listMask (p.2.2.1.planesOf p.2.2.2)), (36, s.reasonOf g p cycle), (41, p.1), (46, g.rank),
    (52, g.gslot), (54, g.core), (64, s.devtimeOf g.die % 2 ^ 64)]

/-- A sample put into a ring by a die, or dropped when the ring is full; a ring that cannot be accessed takes none (log 20). -/
def State.putSample (s : State) (die part : Nat) (ring : W64 × Nat) (entry : List Byte) : State :=
  let va := ring.1.toNat
  match s.runs part 0 va 24 with
  | none => s
  | some rs =>
    let s := s.useRange die part 0 va 24
    let h := s.readRuns rs
    let w := leAt h 0 8
    if (w + 2 ^ 64 - leAt h 16 8) % 2 ^ 64 ≥ ring.2 then (s.writeVa die part 1 (va + 8) (leBytes 8 (leAt h 8 8 + 1))).getD s
    else
      match s.writeVa die part 1 (va + 64 + 16 * (w % ring.2)) entry with
      | none => s
      | some s' => (s'.writeVa die part 1 va (leBytes 8 (w + 1))).getD s'

/-- PC_SAMPLE (R404): the interval of a sampling gang has passed. -/
def execPcSample (gid : Nat) (s : State) : Host.Outcome State Fault Refusal :=
  match s.gang gid with
  | none => .fault .notEnabled
  | some g =>
    match g.sampling, s.sampRing g.part g.die with
    | some m, some ring =>
      if (s.die g.die).cycles < m.next then .fault .notEnabled
      else
        let qs := g.allSubs
        let s := s.modGang gid (fun g => { g with sampling := some { m with next := m.next + m.interval, rotation := m.rotation + 1 } })
        .next (match qs[m.rotation % max 1 qs.length]? with
          | none => s
          | some p => s.putSample g.die g.part ring (s.sampleEntry g p m.next))
    | _, _ => .fault .notEnabled

end Sys2Proof.Machine
end

