-- ==== Sys2Proof/Machine/Collective.lean ====
section
/-!
DEFINITION. Fabric collectives (R326–R330): groups, frames, the instructions of major 0x79, and their completion.
-/

namespace Sys2Proof.Machine

/-! ## Descriptors (R327) -/

/-- The fields of a collective descriptor. -/
structure CollDesc where
  gid : W32
  idx : Nat
  shape : CollShape
  stva : Nat
  tmo : Nat
  deriving DecidableEq, Repr

/-- The descriptor of an operation FN in 64 bytes. -/
def collDesc (fn : Nat) (b : List Byte) : CollDesc :=
  { gid := BitVec.ofNat 32 (fieldOf b 0 32), idx := fieldOf b 48 16,
    shape := { fn := fn, npart := fieldOf b 32 16, root := fieldOf b 64 16, q := toSigned 9 (fieldOf b 80 9),
               sfmt := fieldOf b 89 4, dfmt := fieldOf b 93 4, mode := fieldOf b 97 2, sat := bit (fieldOf b 99 1) 0,
               nelem := fieldOf b 100 24 },
    stva := fieldOf b 128 64, tmo := fieldOf b 192 32 }

/-- Bytes of an element of a format of R203. -/
def collSize (code : Nat) : Nat := match cvtFmt code with | some t => cvtWidth t / 8 | none => 1

/-- Whether a format of R203 is an integer. -/
def collInt (code : Nat) : Bool := match cvtFmt code with | some t => !cvtIsFloat t | none => false

/-- Whether a descriptor is well-formed (R327). -/
def collOk (fn : Nat) (b : List Byte) : Bool :=
  let d := collDesc fn b
  let h := d.shape
  d.idx ≤ h.npart && h.root ≤ h.npart &&
  (if fn == 2 then h.sfmt ≤ 10 && h.dfmt == h.sfmt && h.q == 0 && h.mode == 0 && !h.sat
   else [0, 1, 2, 5].contains h.sfmt && h.dfmt ≤ 10 && !(h.sat && collInt h.dfmt)) &&
  h.nelem != 0 && fieldOf b 124 4 == 0 && d.stva % 16 == 0 && d.tmo != 0 && leNat (b.drop 28) == 0

/-- Whether a participant's destination is written (R329). -/
def CollDesc.writes (d : CollDesc) : Bool :=
  d.shape.fn == 1 || (d.shape.fn == 0 && d.idx == d.shape.root) || (d.shape.fn == 2 && d.idx != d.shape.root)

/-- The captured descriptor of a collective operation. -/
def EngOp.coll (o : EngOp) : CollDesc := collDesc o.fn o.desc

/-! ## Groups and participants (R326, R329) -/

/-- The group that a partition has registered under an id. -/
def State.group (s : State) (part : Nat) (gid : W32) : Option CollGroup :=
  s.groups.find? (fun c => c.part == part && c.gid == gid)

/-- Whether a gang has ended: it is neither resident nor stopped. -/
def State.gangGone (s : State) (gid : Nat) : Bool :=
  (match s.gang gid with | some g => g.retired | none => true) &&
    !(s.dies.any (fun d => d.store.any (fun r => r.saved.any (fun q => q.gid == gid))))

/-- A gang as a participant at an index of a group (R329): as it is listed; or, at its first operation, its operations follow those of the
gangs that have ended, and match those of a gang that holds the same index still. -/
def State.participant (s : State) (c : CollGroup) (idx gid : Nat) : CollPart :=
  let es := c.issued.filter (fun p => p.idx == idx)
  match es.find? (fun p => p.gang == gid) with
  | some p => p
  | none =>
    let base := match es.filter (fun p => !s.gangGone p.gang) with
      | [] => maxOf (es.map (·.count))
      | p :: ps => minOr p.base ((p :: ps).map (·.base))
    ⟨idx, base, base, gid⟩

/-- An operation counted for its participant. -/
def State.countColl (s : State) (c : CollGroup) (idx gid : Nat) : CollGroup :=
  let p := s.participant c idx gid
  { c with issued := { p with count := p.count + 1 } :: c.issued.filter (fun q => !(q.idx == idx && q.gang == gid)) }

/-- The endpoint of a participant (R326). -/
def CollGroup.endOf (c : CollGroup) (idx : Nat) : Option Nat := ((c.idxs.zip c.ends).find? (fun p => p.1 == idx)).map (·.2)

/-- The endpoints of the participants that are gangs of the module (log 17). -/
def CollGroup.own (c : CollGroup) : List Nat := c.issued.filterMap (fun p => c.endOf p.idx)

/-- What a collective that nobody has contributed to has received. -/
def CollState.start (part : Nat) (gid : W32) (k : Nat) : CollState :=
  { part := part, gid := gid, k := k, contribs := [], outcome := none, ended := [] }

/-- What the k-th collective of a group has received. -/
def State.coll (s : State) (part : Nat) (gid : W32) (k : Nat) : CollState :=
  (s.colls.find? (fun c => c.part == part && c.gid == gid && c.k == k)).getD (CollState.start part gid k)

/-- What a collective has received, changed. -/
def State.modColl (s : State) (part : Nat) (gid : W32) (k : Nat) (f : CollState → CollState) : State :=
  { s with colls := f (s.coll part gid k) :: s.colls.filter (fun c => !(c.part == part && c.gid == gid && c.k == k)) }

/-- COLLREG (R326): a group registered, or its endpoints and indices replaced. -/
def execCollreg (m : MsgId) (part : Nat) (gid : W32) (ends idxs : List Nat) (s : State) : Host.Outcome State Fault Refusal :=
  onMessage ((6 + 6 * ends.length + 255) / 256) 0 s (fun s =>
    if (s.part part).isNone || ends.length != idxs.length then s.refuse m
    else
      let old := ((s.group part gid).map (·.issued)).getD []
      { s with groups := ⟨part, gid, ends, idxs, old⟩ :: s.groups.filter (fun c => !(c.part == part && c.gid == gid)) }.reply m 0)

/-! ## Frames (R326, R330) -/

/-- A frame dropped for its key: an entry of KIND 4 for the partition that owns the key; its VA is not stated (log 17). -/
def State.dropFrame (s : State) (f : FabricFrame) (owner : Nat) : State :=
  let a := s.draw
  let b := a.2.draw
  b.2.logViolation owner f.die (a.1.toNat + b.1.toNat * 2 ^ 32) f.port 6 4 f.die

/-- What an accepted frame adds to its collective. -/
def CollState.take (c : CollState) : FabricBody → CollState
  | .contrib idx shape words bytes => { c with contribs := c.contribs ++ [(idx, shape, words.map wireOfWord, bytes)] }
  | .outcome r ovf inx n bytes => if c.outcome.isSome then c else { c with outcome := some (r, ovf, inx, n, bytes) }
  | .ended idx => { c with ended := idx :: c.ended }
  | .revoked | .keyRevoked => c

/-- A frame sent to an endpoint through a port of a die, with the key of the partition that issued it (R326). -/
def State.sendFrame (s : State) (part die : Nat) (gid : W32) (k : Nat) (body : FabricBody) (dst : Nat) : State :=
  match s.part part with
  | some p => { s with fabric := s.fabric ++ [⟨die, dst, p.key, gid, k, body⟩] }
  | none => s

/-- A frame sent to every endpoint of a group that is not the module's own. -/
def State.tellPeers (s : State) (part die : Nat) (gid : W32) (k : Nat) (body : FabricBody) : State :=
  match s.group part gid with
  | none => s
  | some c => (c.ends.eraseDups.filter (fun e => !c.own.contains e)).foldl (fun s e => s.sendFrame part die gid k body e) s

/-- The partition that holds a fabric key. -/
def State.keyOwner (s : State) (key : BitVec 16) : Option Nat :=
  (List.range 16).find? (fun p => match s.part p with | some q => q.key == key | none => false)

/-- Whether the endpoint a frame comes from is the module's own: what its gangs send to each other does not leave it (log 17). -/
def State.ownFrame (s : State) (part : Nat) (f : FabricFrame) : Bool :=
  match s.group part f.gid with | some c => c.own.contains f.src | none => false

/-- FABRIC_FRAME (R326): accepted, or dropped for its key. The news that the control node has revoked the key of a peer, or of a partition
of the module (R370), is no frame of a peer and is not checked; every later frame of that peer, or with that key, is dropped. -/
def execFabricFrame (f : FabricFrame) (s : State) : Host.Outcome State Fault Refusal :=
  if s.phase < 8 || s.failed || f.die ≥ 8 || f.port ≥ 16 then .fault .notEnabled
  else
    let holders := s.groups.filter (fun c => c.gid == f.gid)
    match f.body with
    | .revoked => .next { s with revoked := if s.revoked.contains f.src then s.revoked else f.src :: s.revoked }
    | .keyRevoked => .next { s with ownRevoked := if s.ownRevoked.contains f.key then s.ownRevoked else f.key :: s.ownRevoked }
    | body =>
      if s.revoked.contains f.src || s.ownRevoked.contains f.key then .next s
      else
        match s.keyOwner f.key with
        | none => .next s
        | some p =>
          if !holders.isEmpty && !(holders.any (fun c => c.part == p)) then .next (s.dropFrame f p)
          else if s.ownFrame p f then .next s
          else .next (s.modColl p f.gid f.k (fun y => y.take body))

/-! ## Issue (R328) -/

/-- Order 4 of R328: the source, the destination and the status record lie in leases, the written ones outside the image. -/
def State.collRanges (s : State) (g : Gang) (d : CollDesc) (src dst : Nat) : Option (FaultInfo × Nat) :=
  let h := d.shape
  let chk (kind a n : Nat) : Option (FaultInfo × Nat) :=
    (firstFault [failIf (!vaLegal a || !vaLegal (a + n - 1)) (protFault a), failIf (!s.inLease g a n) (leaseFault a),
      s.globalFault g (kind == 1) (a, n)]).map (fun f => (f, kind))
  match chk 0 src (h.nelem * collSize h.sfmt) with
  | some p => some p
  | none =>
    match chk (if d.writes then 1 else 0) dst (h.nelem * collSize h.dfmt) with
    | some p => some p
    | none => chk 1 d.stva 16

/-- The collective issued: numbered on cl, counted for its participant, its number delivered (R328, R329). -/
def State.issueColl (s : State) (x : Ctx) (fn : Nat) (i : Instr) (w : XWord) (b : List Byte) : State :=
  let d := collDesc fn b
  let k := match s.group x.g.part d.gid with | some c => (s.participant c d.idx x.c.gid).count + 1 | none => 0
  let s := s.addOp { x.newOp s.nextId 4 (x.g.nextNumber 4) b
      [w.d9.setWidth 64, x.s w.a9.toNat, x.s w.b9.toNat, 0, x.s w.c9.toNat, 0] (encode i) with
    major := 0x79, fn := fn, pos := k, time := s.devtimeOf x.g.die }
  { s with groups := s.groups.map (fun (c : CollGroup) =>
      if c.part == x.g.part && c.gid == d.gid then s.countColl c d.idx x.c.gid else c) }.setS x w.d9.toNat
    (BitVec.ofNat 64 (x.g.nextNumber 4))

/-- A coll.* instruction: the checks of R328 in order, the wait for a place among eight, and the issue. -/
def runColl (fn : Nat) (i : Instr) (w : XWord) (s : State) : Host.Outcome State Fault Refusal :=
  runUniform false 12 (fun _ => opForm .scalar .scalar .scalar .scalar true (w.m6 = 0 && w.nwb = 0 && noImm w)) w noExtra
    (fun x s =>
      let a := x.sn w.a9.toNat
      let src := x.sn w.b9.toNat
      let dst := x.sn w.c9.toNat
      if a % 64 != 0 then .fault (alignFault a) s
      else
        match s.acquireRead x a 64 with
        | .wait r => .hold r
        | .fault f s => .fault f s
        | .bytes b s =>
          let d := collDesc fn b
          match firstFault [failIf (src % collSize d.shape.sfmt != 0) (alignFault src),
              failIf (dst % collSize d.shape.dfmt != 0) (alignFault dst), failIf (!collOk fn b) (illegal 35)] with
          | some f => .fault f s
          | none =>
            match s.collRanges x.g d src dst with
            | some p => .fault p.1 (s.logFault x.g p.2 p.1)
            | none =>
              if 8 ≤ ((s.openOps x.c.gid 4).filter (fun o => o.state != 4)).length then .hold 31
              else .done (s.issueColl x fn i w b)) s

/-- COLL_RED (R328, R329). -/
def execCollRed (w : XWord) (s : State) : Host.Outcome State Fault Refusal := runColl 0 (.collRed w) w s
/-- COLL_AR (R328, R329). -/
def execCollAr (w : XWord) (s : State) : Host.Outcome State Fault Refusal := runColl 1 (.collAr w) w s
/-- COLL_BC (R328, R329). -/
def execCollBc (w : XWord) (s : State) : Host.Outcome State Fault Refusal := runColl 2 (.collBc w) w s

/-! ## The status record and the end of an operation (R330) -/

/-- The status record written at system scope; a record that cannot be written is a violation of the engine (R19). -/
def State.collStatus (s : State) (o : EngOp) (r : Nat) (ovf inx : Bool) (n : Nat) : State :=
  let st := packFields 16 [(0, r), (8, ofBool ovf), (9, ofBool inx), (32, n), (64, s.devtimeOf o.site.2.1 % 2 ^ 64)]
  match s.writeVa o.site.2.1 o.site.1 1 o.coll.stva st with
  | none => s.logAccess o.site.1 o.coll.stva o.site.2.2 4 1 o.site.2.1
  | some s' =>
    let s := s'.hearRange o.site.2.1 o.coll.stva
    match s.gang o.gid with
    | some g => s.seeGlobal (o.event g 5 1 o.coll.stva) 4 st
    | none => s

/-- The advance of cl recorded in the save area of a stopped gang (R330): TL of its block, from ISSUED and what is open. -/
def State.savedCl (s : State) (gid part : Nat) : State :=
  match (s.dies.flatMap (fun d => d.store.flatMap (·.saved))).find? (fun g => g.gid == gid) with
  | none => s
  | some g =>
    match s.runs part 0 (g.block.toNat + 88) 8 with
    | none => s
    | some i =>
      (s.writeVa (vaDie g.block.toNat) part 1 (g.block.toNat + 56)
        (leBytes 8 (minOr (leNat (s.readRuns i) + 1) ((s.openOps gid 4).map (·.number)) - 1))).getD s

/-- A collective completes (R329, R330): with its gang stopped, its advance goes to the save area. -/
def State.endColl (s : State) (o : EngOp) : State :=
  if (s.gang o.gid).isSome then s.completeOp o else (s.dropOp o.id).savedCl o.gid o.site.1

/-- A fault found while a collective is under way: status 6, and the fault of R267, at once or when its gang is resident again
(R328). -/
def State.faultColl (s : State) (o : EngOp) (f : FaultInfo) (kind : Nat) : State :=
  let s := if f.cls == 5 then s.logAccess o.site.1 f.addr o.site.2.2 4 kind o.site.2.1 else s
  let s := s.collStatus o 6 false false (s.coll o.site.1 o.coll.gid o.pos).contribs.length
  if (s.gang o.gid).isSome then s.faultOp o f 0 else s.modOp o.id (fun p => { p with state := 4, owed := some { f with time := some (s.devtimeOf o.site.2.1) } })

/-! ## Contributions and the outcome (R69, R70, R329) -/

/-- The elements of a byte string. -/
def collElems (code : Nat) (bs : List Byte) (n : Nat) : List Nat :=
  let k := collSize code
  (List.range n).map (fun i => leAt bs (k * i) k)

/-- The value of an element. -/
def collVal (code x : Nat) : FVal :=
  match cvtFmt code with
  | some (.float t) => readFloat t false x
  | some (.int n u) => ofIntVal (intVal n u x)
  | none => .nan

/-- Whether a participant's contribution may be made now: its bundle stands between instructions, and every earlier access of it has
been performed (R329). -/
def State.mayContribute (s : State) (o : EngOp) : Bool :=
  o.eng == 4 && o.state == 0 && o.pos != 0 && !s.midPass o.gid o.bundle && s.priorDone o

/-- A contribution recorded; it also leaves for the root's endpoint where that is not the module's own (R326, R329). -/
def State.putContrib (s : State) (o : EngOp) (ws : List Wire) (bs : List Byte) : State :=
  let d := o.coll
  let s := (s.modOp o.id (fun p => { p with state := 1 })).modColl o.site.1 d.gid o.pos (fun c =>
    { c with contribs := c.contribs ++ [(d.idx, d.shape, ws, bs)] })
  match s.group o.site.1 d.gid with
  | none => s
  | some c =>
    match c.endOf d.shape.root with
    | some e =>
      if c.own.contains e then s
      else s.sendFrame o.site.1 o.site.2.1 d.gid o.pos (.contrib d.idx d.shape (ws.map Wire.word) bs) e
    | none => s

/-- A participant's source read and contributed (R69, R329): by every participant of a reduction, and by the root of a
broadcast; the others send their shape alone. -/
def State.contribute (s : State) (o : EngOp) : State :=
  let d := o.coll
  let h := d.shape
  let n := h.nelem * collSize h.sfmt
  if !s.mayContribute o then s
  else if h.fn == 2 && d.idx != h.root then s.putContrib o [] []
  else
    match s.readAny o.site.1 2 (o.par 2) n with
    | .error f => s.faultColl o f 0
    | .ok bs =>
      let s := s.tookAs o.site.2.1 o.site.1 0 (o.par 2) n
      let s := match s.gang o.gid with | some g => s.seeGlobal (o.event g 5 0 (o.par 2)) 4 bs | none => s
      if h.fn == 2 then s.putContrib o [] bs
      else s.putContrib o ((collElems h.sfmt bs h.nelem).map (fun x => wireOf h.q (collVal h.sfmt x))) []

/-- The collectives of the module that match an operation, in their order. -/
def State.collPeers (s : State) (o : EngOp) : List EngOp :=
  s.ops.filter (fun p => p.eng == 4 && p.state == 0 && p.pos == o.pos && p.site.1 == o.site.1 && p.coll.gid == o.coll.gid)

/-- The contributions that can be made now (R329). -/
def State.contributeAll (s : State) (o : EngOp) : State :=
  (s.collPeers o).foldl State.contribute s

/-- One result element at the root (R70): the value rounded once; a NaN or an infinity has no stated integer result (log 17). -/
def collResult (h : CollShape) (w : Wire) (free : W32) : Nat :=
  match cvtFmt h.dfmt with
  | some (.float t) => (roundTo t (rmode h.mode) h.sat false (wireVal h.q w)).1
  | some (.int n u) =>
    match wireVal h.q w with
    | .fin neg m e => ofInt n (roundIntClamp (rmode h.mode) neg m e (intRange n u).1 (intRange n u).2).1
    | _ => bits free.toNat 0 n
  | none => 0

/-- The sum of every contribution, element by element (R69). -/
def CollState.sums (c : CollState) (n : Nat) : List Wire :=
  (List.range n).map (fun i => c.contribs.foldl (fun a p => wireAdd a (p.2.2.1.getD i wireZero)) wireZero)

/-- The result bytes of a reduction, with the free values drawn. -/
def State.collBytes (s : State) (h : CollShape) : List Wire → State × List Byte
  | [] => (s, [])
  | w :: ws =>
    let d := s.draw
    let r := d.2.collBytes h ws
    (r.1, leBytes (collSize h.dfmt) (collResult h w d.1) ++ r.2)

/-- Whether an index of a list occurs again. -/
def repeats : List Nat → Bool
  | [] => false
  | x :: xs => xs.contains x || repeats xs

/-- The participants of a group whose gang has ended before it contributed to its k-th operation (R330): the news of peers, and the
gangs of the module that have gone. -/
def State.goneParts (s : State) (c : CollState) : List Nat :=
  let news := (s.colls.filter (fun y => y.part == c.part && y.gid == c.gid && y.k ≤ c.k)).flatMap (·.ended)
  let gone := match s.group c.part c.gid with
    | none => []
    | some g =>
      let ps := g.issued.filter (fun p => p.base < c.k)
      (ps.filter (fun p => ps.all (fun q => q.idx != p.idx || s.gangGone q.gang))).map (·.idx)
  (news ++ gone).filter (fun i => !(c.contribs.any (fun p => p.1 == i)))

/-- The operations of a gang on a group to which it will not contribute, as numbers: those that faulted before, and the one after its
last (R330). -/
def State.missed (s : State) (g : Gang) (c : CollGroup) (p : CollPart) : List Nat :=
  ((s.openOps g.gid 4).filter (fun o => o.coll.gid == c.gid && o.coll.idx == p.idx &&
    !((s.coll g.part c.gid o.pos).contribs.any (fun q => q.1 == p.idx)))).map (·.pos) ++ [p.count + 1]

/-- The news that a gang has ended, sent to the peers of every group in which it took part (R330). -/
def State.endedNews (s : State) (g : Gang) : State :=
  (s.groups.filter (fun c => c.part == g.part)).foldl (fun s c =>
    (c.issued.filter (fun p => p.gang == g.gid)).foldl (fun s p =>
      s.tellPeers g.part g.die c.gid (minOr (p.count + 1) (s.missed g c p)) (.ended p.idx)) s) s

/-- Whether the key of a partition is revoked (R370). -/
def State.keyRevoked (s : State) (part : Nat) : Bool := match s.part part with | some p => s.ownRevoked.contains p.key | none => false

/-- The outcome at the root once it is known, and its way to the other endpoints through a port of the root's die (R329, R330): none for a
partition whose key is revoked (R370). Descriptors that disagree, and an index held twice, are found as soon as two contributions show it. -/
def State.decideColl (s : State) (part die : Nat) (gid : W32) (k : Nat) : State :=
  let c := s.coll part gid k
  if c.outcome.isSome || s.keyRevoked part then s
  else
    let ovf := c.contribs.any (fun p => p.2.2.1.any (·.ovf))
    let inx := c.contribs.any (fun p => p.2.2.1.any (·.inx))
    let n := c.contribs.length
    let put (s : State) (r : Nat) (bs : List Byte) : State :=
      (s.modColl part gid k (fun c => { c with outcome := some (r, ovf, inx, n, bs) })).tellPeers part die gid k
        (.outcome r ovf inx n bs)
    if !(s.goneParts c).isEmpty then put s 1 []
    else if c.contribs.any (fun p => some p.2.1 != (c.contribs.head?.map (·.2.1))) || repeats (c.contribs.map (·.1)) then put s 4 []
    else
      match c.contribs.find? (fun p => p.1 == p.2.1.root) with
      | none => s
      | some r =>
        let h := r.2.1
        if n ≤ h.npart then s
        else if h.fn == 2 then put s 0 r.2.2.2
        else
          let b := s.collBytes h (c.sums h.nelem)
          put b.1 0 b.2

/-- The end of an operation whose result is known: its destination, then its status record, then cl (R329, R330). -/
def State.finishColl (s : State) (o : EngOp) (r : Nat) (ovf inx : Bool) (n : Nat) (bytes : List Byte) : State :=
  let d := o.coll
  if r == 0 && d.writes then
    let size := d.shape.nelem * collSize d.shape.dfmt
    let bs := (bytes ++ List.replicate (size - bytes.length) 0).take size
    match s.writeVa o.site.2.1 o.site.1 1 (o.par 4) bs with
    | none => s.faultColl o (s.untranslated o.site.1 1 (o.par 4) size) 1
    | some s' =>
      let s := s'.hearRange o.site.2.1 (o.par 4)
      let s := match s.gang o.gid with | some g => s.seeGlobal (o.event g 5 1 (o.par 4)) 4 bs | none => s
      (s.collStatus o r ovf inx n).endColl o
  else (s.collStatus o r ovf inx n).endColl o

/-- The collective operation with an id that may end now: not faulted, its bundle between instructions. -/
def State.collOp (s : State) (op : Nat) : Option EngOp :=
  match s.op op with
  | none => none
  | some o => if o.eng != 4 || o.state == 4 || s.failed || s.midPass o.gid o.bundle then none else some o

/-- The die of the root's operation of a collective where it is the module's, else of the operation itself. -/
def State.rootDie (s : State) (o : EngOp) : Nat :=
  ((s.ops.find? (fun p => p.eng == 4 && p.pos == o.pos && p.site.1 == o.site.1 && p.coll.gid == o.coll.gid &&
    p.coll.idx == o.coll.shape.root)).getD o).site.2.1

/-- Whether the root of a collective is a gang of the module, so that the module knows which contributions were received. -/
def State.rootHere (s : State) (o : EngOp) : Bool :=
  match s.group o.site.1 o.coll.gid with
  | some c => c.issued.any (fun p => p.idx == o.coll.shape.root)
  | none => true

/-- Whether TMO microseconds have passed since an operation's issue (R330). -/
def State.collExpired (s : State) (o : EngOp) : Bool := o.time + 1000 * o.coll.tmo ≤ s.devtimeOf o.site.2.1

/-- The participants of a collective whose contributions have not come, and whose endpoint's key is revoked (R330). -/
def State.fencedParts (s : State) (c : CollState) : List Nat :=
  match s.group c.part c.gid with
  | none => []
  | some g => g.idxs.filter (fun i => !(c.contribs.any (fun p => p.1 == i)) &&
      (match g.endOf i with | some e => s.revoked.contains e | none => false))

/-- COLL_COMPLETE (R329, R330): the sources that may be read are contributed, and the operation ends with its result, unless its time is
over. -/
def execCollComplete (op : Nat) (s : State) : Host.Outcome State Fault Refusal :=
  match s.collOp op with
  | none => .fault .notEnabled
  | some o =>
    if o.pos == 0 then .next (s.finishColl o 5 false false 0 [])
    else if s.collExpired o then .fault .notEnabled
    else
      let made := (s.collPeers o).any s.mayContribute
      let s := (s.contributeAll o).decideColl o.site.1 (s.rootDie o) o.coll.gid o.pos
      match s.collOp op, (s.coll o.site.1 o.coll.gid o.pos).outcome with
      | none, _ => .next s
      | some _, none => if made then .next s else .fault .notEnabled
      | some p, some (r, ovf, inx, n, bytes) =>
        if p.state == 0 && r == 0 then (if made then .next s else .fault .notEnabled)
        else .next (s.finishColl p r ovf inx n bytes)

/-- COLL_TIMEOUT (R330): TMO has passed since the issue; FENCED when a missing participant's key is revoked, or the partition's own (R370).
Away from the root, NCONT and the flags are free values: the rules do not say how a participant learns them (log 17). -/
def execCollTimeout (op : Nat) (s : State) : Host.Outcome State Fault Refusal :=
  match s.collOp op with
  | none => .fault .notEnabled
  | some o =>
    if !s.collExpired o then .fault .notEnabled
    else
      let s := s.contributeAll o
      match s.collOp op with
      | none => .next s
      | some p =>
        let c := s.coll p.site.1 p.coll.gid p.pos
        let r := if (s.fencedParts c).isEmpty && !s.keyRevoked p.site.1 then 2 else 3
        if s.rootHere p then
          .next (s.finishColl p r (c.contribs.any (fun q => q.2.2.1.any (·.ovf))) (c.contribs.any (fun q => q.2.2.1.any (·.inx)))
            c.contribs.length [])
        else
          let n := s.draw
          let f := n.2.draw
          .next (f.2.finishColl p r (bit f.1.toNat 0) (bit f.1.toNat 1) n.1.toNat [])

end Sys2Proof.Machine
end

