-- ==== Sys2Proof/Machine/Retire.lean ====
section
/-!
DEFINITION. Retirement (R397–R399, R132, R306): GANG_RETIRE and CREW_RETIRE.
-/

namespace Sys2Proof.Machine

/-- Whether a crew is being dumped or held by a dump (R362). -/
def Crew.captured (c : Crew) : Bool := c.dump.isSome || c.dumpSlot.isSome

/-- Whether a crew access or a multicast of another gang that was admitted to a gang has still to land in its scratchpad: it lands
before the gang's regions are freed. DEDUCED (log 31). -/
def State.reached (s : State) (g : Gang) : Bool :=
  !(s.accessesTo g.crew g.rank (fun _ => true)).isEmpty ||
    s.ops.any (fun o => o.gid != g.gid && o.inFlight && (s.copyTargets o).any (fun t => t.gid == g.gid))

/-- Whether a gang may retire (R397): its bundles are done, its operations completed or faulted, its carry-out sent once formed, and
its stores performed. -/
def State.mayRetire (s : State) (g : Gang) : Bool :=
  !g.retired && g.bundles.all Bundle.done && s.ops.all (fun o => o.gid != g.gid || o.state == 4) && !s.carryReady g.gid &&
    g.scan.owes == 0 && s.memOps.all (fun o => o.gid != g.gid || o.kind == 0 || s.parked o) && !s.reached g &&
    (match s.crew g.crew with | some c => !c.captured | none => false)

/-- GANG_RETIRE (R397, R306): the gang's resources and watch entries are freed, and a carry that it can no longer send is
ABANDONED above it. -/
def execGangRetire (gid : Nat) (s : State) : Host.Outcome State Fault Refusal :=
  match s.gang gid with
  | none => .fault .notEnabled
  | some g =>
    if !s.mayRetire g then .fault .notEnabled
    else
      let s := s.releaseWatch g
      let s := s.endedNews g
      let s := { s with ops := s.ops.filter (fun o => o.gid != gid), memOps := s.memOps.filter (fun o => o.gid != gid) }
      .next ((s.modGang gid (fun g => { g with retired := true, sampling := none })).abandonCarries)

/-- The segment that a retiring crew held (R132, R398): its presence bits are set, it is free for the next holder, and a PINFREE that
waited takes effect. -/
def State.freeSegment (s : State) (c : Crew) : State :=
  match c.seg.bind (s.segment c.part) with
  | none => s
  | some g =>
    let mine (l : Nat) : Bool := (List.range g.cores.length).any (fun r =>
      let a := pinLoc g.part g.seg r
      a ≤ 128 * l && 128 * l < a + g.ps)
    let s := { s with absent := s.absent.filter (fun l => !mine l) }
    let same (q : Segment) : Bool := q.part == g.part && q.seg == g.seg
    if g.freePending then { s with segs := s.segs.filter (fun q => !same q) }
    else { s with segs := s.segs.map (fun q => if same q then { q with holder := none } else q) }

/-- The decrement of a retiring task's join counter (R110, R398), logged when the counter cannot be accessed. -/
def State.retireJc (s : State) (c : Crew) (va : Nat) : State :=
  if va == 0 then s
  else
    match s.jcApply c.die c.part va (-1) with
    | some r => r.1
    | none => s.logAccess c.part va (((s.gangsOf c.cid).head?.map (·.core)).getD 0) 0 2 c.die

/-- Whether a crew may retire (R398): every gang has, and no report of a halt is still owed. -/
def State.crewDone (s : State) (c : Crew) : Bool :=
  let gs := s.gangsOf c.cid
  gs.all (·.retired) && !c.captured && s.halts.all (fun h => !(gs.any (fun g => g.gid == h.gid))) &&
    s.sxRuns.all (fun r => !(gs.any (fun g => g.gid == r.gid)))

/-- CREW_RETIRE (R398, R399): the join counter, the record's count, the segment; the last crew of a record ends the die's share. The
counter's home die has applied every invalidation in transit to it, which a continuation acquires (R111, R339). -/
def execCrewRetire (crew : Nat) (s : State) : Host.Outcome State Fault Refusal :=
  match s.crew crew with
  | none => .fault .notEnabled
  | some c =>
    let jc := match s.record c.die c.arrival with | some r => pkJc r.packet | none => 0
    if !s.crewDone c || (jc != 0 && !s.settled (vaDie jc)) then .fault .notEnabled
    else
      let s := s.retireJc c jc
      let s := s.modRecord c.die c.arrival (fun r =>
        { r with left := r.left - 1, retired := r.retired + 1, faulted := r.faulted + ofBool c.faulted })
      let s := s.freeSegment c
      let s := { s with gangs := s.gangs.filter (fun g => g.crew != crew), crews := s.crews.filter (fun q => q.cid != crew) }
      .next (s.closeRecord c.die c.arrival)

end Sys2Proof.Machine
end

