-- ==== Sys2Proof/Machine/Partition.lean ====
section
/-!
DEFINITION. The partition messages (R18, R99, R102, R351, R408), partition reset (R114), and soft errors (R369).
-/

namespace Sys2Proof.Machine

/-! ## PARTSET, COMPASS, PARTATTR (R408) -/

/-- Whether eight values each fit in a byte. -/
def bytes8 (w : List Nat) : Bool := w.length == 8 && w.all (· < 256)

/-- Whether the fields of a PARTSET are in range (R408, status 1). -/
def partSetOk (b : PartSet) : Bool :=
  b.part < 16 && bytes8 b.weights && b.llcQuota ≤ 16 && b.vlog.toNat % 2 ^ 16 == 0 && b.roots.length == 8 &&
    b.roots.all (fun r => r.toNat % 2 ^ 15 == 0 && r.toNat < 2 ^ 37)

/-- The store quotas of all partitions but one (R101). -/
def State.otherQuotas (s : State) (part : Nat) : Nat :=
  sumOf (((List.range 16).filter (· != part)).map (fun p => match s.part p with | some q => q.quota | none => 0))

/-- A partition as PARTSET creates it (R18, R20, R102, R351, R365, R366): FAULTACT holds CREW for LEASE and BUNDLE elsewhere. -/
def createPartition (b : PartSet) : Partition :=
  { key := b.key, weights := b.weights, quota := b.quota, hbmWeight := b.hbmWeight, llcQuota := b.llcQuota, roots := b.roots,
    vlog := b.vlog, privileged := false, lseq := 0, vseq := List.replicate 8 1, vloss := List.replicate 8 none,
    fseq := List.replicate 8 0, faultact := List.replicate 8 0x40, session := false, resetting := none, resetDone := [], resetMsgs := [], resetLate := [],
    held := List.replicate 8 false, rings := List.replicate 8 ⟨0, 0, 0, 0, [], []⟩, sampRings := List.replicate 8 none }

/-- A PARTSET in range: creation, or a change of shares, with the refusals of R408. Where several statuses apply it answers the lowest: the
rule lists them in no order. DESIGN CHOICE (log 33). -/
def State.partset (s : State) (m : MsgId) (b : PartSet) : State :=
  if s.otherQuotas b.part + b.quota > 7936 then s.reply m 2
  else
    match s.part b.part with
    | some p =>
      if p.key != b.key || p.roots != b.roots || p.vlog != b.vlog then s.reply m 4
      else
        let s := s.modPart b.part (fun p =>
          { p with weights := b.weights, quota := b.quota, hbmWeight := b.hbmWeight, llcQuota := b.llcQuota })
        ((List.range 8).foldl (fun s d => s.drainAll b.part d) s).reply m 0
    | none =>
      if s.parts.any (fun p => match p with | some q => q.key == b.key | none => false) then s.reply m 5
      else ({ s with parts := setNth s.parts b.part (some (createPartition b)) }).reply m 0

/-- PARTSET (R18, R408). -/
def execPartset (m : MsgId) (body : Option PartSet) (s : State) : Host.Outcome State Fault Refusal :=
  onMessage 1 0 s (fun s =>
    match body with
    | none => s.reply m 1
    | some b => if partSetOk b then s.partset m b else s.reply m 1)

/-- COMPASS (R99, R408). -/
def execCompass (m : MsgId) (body : Option CompassSet) (s : State) : Host.Outcome State Fault Refusal :=
  onMessage 1 0 s (fun s =>
    match body with
    | none => s.reply m 1
    | some b =>
      if (s.part b.part).isNone || !bytes8 b.weights then s.reply m 1
      else (s.modPart b.part (fun p => { p with weights := b.weights })).reply m 0)

/-- Whether a partition has a resident gang. -/
def State.hasGang (s : State) (part : Nat) : Bool := s.gangs.any (fun g => g.part == part && !g.retired)

/-- PARTATTR (R351, R408). -/
def execPartattr (m : MsgId) (body : Option PartFlag) (s : State) : Host.Outcome State Fault Refusal :=
  onMessage 1 0 s (fun s =>
    match body with
    | none => s.reply m 1
    | some b =>
      if (s.part b.part).isNone || b.value > 1 then s.reply m 1
      else if s.hasGang b.part then s.reply m 3
      else (s.modPart b.part (fun p => { p with privileged := b.value == 1 })).reply m 0)

/-- RINGSET (R102): refused with status 6 while the ring holds records. -/
def execRingset (m : MsgId) (part die : Nat) (va : W64) (entries : Nat) (s : State) : Host.Outcome State Fault Refusal :=
  onMessage 1 0 s (fun s =>
    if part ≥ 16 || die ≥ 8 || va.toNat % 2 ^ 16 != 0 || !(entries == 0 || powerIn 0 16 entries) then s.reply m 1
    else
      match s.part part with
      | none => s.refuse m
      | some p =>
        if (p.ring die).lkeys.any Option.isSome then s.reply m 6
        else (s.modRing part die (fun _ => ⟨va, entries, 0, 0, [], []⟩)).reply m 0)

/-! ## Partition reset (R114) -/

/-- A partition reset begun on every die (R114, step 1). -/
def State.beginReset (s : State) (part : Nat) (msgs : List MsgId) : State :=
  let now := s.devtime
  s.modPart part (fun p =>
    { p with resetting := some (p.resetting.getD now), resetMsgs := p.resetMsgs ++ msgs })

/-- PARTRESET (R114, R408): its REPLY follows when every die is done. -/
def execPartreset (m : MsgId) (part : Option Nat) (s : State) : Host.Outcome State Fault Refusal :=
  onMessage 1 0 s (fun s =>
    match part.filter (fun p => (s.part p).isSome) with
    | none => s.reply m 1
    | some p => s.beginReset p [m])

/-- Whether the gangs of a partition on a die stand at instruction boundaries (R114, step 3). -/
def State.resettable (s : State) (part die : Nat) : Bool :=
  s.gangs.all (fun g => g.part != part || g.die != die || g.bundles.all (fun b => b.liveSubs.all (fun q => q.pass.isNone || q.wait != .none)))

/-- A save slot freed without being read (R354, R362). -/
def State.dropSlot (s : State) (die part va k : Nat) : State :=
  if s.saveOk part (va + 64 + 8 * (k / 64)) 8 then s.putSlot die part va k false else s

/-- The save slots of a partition's stopped and dumped crews on a die, as save area and slot. -/
def State.slotsOf (s : State) (part die : Nat) : List (Nat × Nat) :=
  let stopped := ((s.die die).store.filter (fun r => pkPart r.packet == part)).flatMap (fun r =>
    r.stoppedCrews.map (fun c => (pkSave r.packet, c.2.1)))
  let dumped := (s.crews.filter (fun c => c.part == part && c.die == die)).filterMap (fun c =>
    match c.dumpSlot, s.record die c.arrival with | some k, some r => some (pkSave r.packet, k) | _, _ => none)
  stopped ++ dumped

/-- The records of a partition on a die discarded, its ring emptied and set to 0 entries (R114, steps 2 and 5). -/
def State.resetRecords (s : State) (part die : Nat) : State :=
  let s := ((s.die die).store.filter (fun r => pkPart r.packet == part)).foldl (fun s r => s.dropRecord die r.arrival) s
  let keys := match s.part part with | some p => (p.ring die).lkeys.filterMap id | none => []
  (keys.foldl (fun s k => s.countRecord k die (· - 1)) s).modRing part die (fun _ => ⟨0, 0, 0, 0, [], []⟩)

/-- The gangs of a partition on a die gone, with all that they had in progress (R114, steps 3 and 4; R308, R330). -/
def State.resetGangs (s : State) (part die : Nat) : State :=
  let gs := s.gangs.filter (fun g => g.part == part && g.die == die)
  let mine (gid : Nat) : Bool := gs.any (fun g => g.gid == gid)
  let s := gs.foldl (fun s g => s.releaseWatch g) s
  let s := (s.halts.filter (fun h => mine h.gid)).foldl (fun s h => match h.reply with | some m => s.reply m 1 | none => s) s
  let s := (s.crews.filter (fun c => c.part == part && c.die == die)).foldl (fun s c =>
    match c.dump with | some m => s.send (.dumpDone m 1 0) | none => s) s
  { s with gangs := s.gangs.filter (fun g => !mine g.gid)
           crews := s.crews.filter (fun c => !(c.part == part && c.die == die))
           ops := s.ops.filter (fun o => !(mine o.gid || (o.site.1 == part && o.site.2.1 == die)))
           memOps := s.memOps.filter (fun o => !mine o.gid)
           carries := s.carries.filter (fun m => !(mine m.src || mine m.dst))
           remotes := s.remotes.filter (fun r => !(mine r.srcGid || mine r.dstGid))
           colls := s.colls.filter (fun c => c.part != part)
           halts := s.halts.filter (fun h => !mine h.gid)
           sxRuns := s.sxRuns.filter (fun r => !(r.part == part && r.die == die)) }

/-- What a die's cores and tables hold of a partition cleared (R114, step 4; R239, R402). -/
def State.resetTables (s : State) (part die : Nat) : State :=
  let owners := (s.die die).ctrOwner
  { s with segs := s.segs.filter (fun g => !(g.part == part && g.die == die))
           xviews := s.xviews.filter (fun v => !(v.part == part && v.die == die))
           cores := s.cores.map (fun (c : Core) => if c.die == die then
             { c.dropLines part with counters := (owners.zip c.counters).map (fun (p : Option Nat × Counter) =>
                 if p.1 == some part then ⟨0, false, 0, none⟩ else p.2) } else c) }

/-- A partition once a die has done its steps: after the last, it accepts launches again (R114, step 6). -/
def Partition.dieDone (p : Partition) (die : Nat) : Partition :=
  let done := p.resetDone ++ [die]
  if done.length == 8 then { p with lseq := 0, resetting := none, resetDone := [], resetMsgs := [], resetLate := [] }
  else { p with lseq := 0, resetDone := done }

/-- RESET_DONE (R114): a die's steps 2 to 5, and its notice; the last die's answers the message. -/
def execResetDone (die part : Nat) (s : State) : Host.Outcome State Fault Refusal :=
  match s.part part with
  | none => .fault .notEnabled
  | some p =>
    match p.resetting with
    | none => .fault .notEnabled
    | some t =>
      if die ≥ 8 || p.resetDone.contains die || !s.resettable part die then .fault .notEnabled
      else
        let s := (s.slotsOf part die).foldl (fun s k => s.dropSlot die part k.1 k.2) s
        let s := (((s.resetRecords part die).resetGangs part die).resetTables part die).modPart part (fun p => p.dieDone die)
        let start := ((t : Int) + (s.die die).devOffset).toNat
        let s := s.notice 7 part die 0 0 (leBytes 8 start)
        let last := p.resetDone.length == 7
        .next (if last then p.resetMsgs.foldl (fun s m => s.reply m 0) s else s)

/-- RESET_TIMEOUT (R114): a die that has not done its steps within 1 ms reports the reset as an error, once. -/
def execResetTimeout (die part : Nat) (s : State) : Host.Outcome State Fault Refusal :=
  match s.part part with
  | none => .fault .notEnabled
  | some p =>
    match p.resetting with
    | none => .fault .notEnabled
    | some t =>
      if die ≥ 8 || p.resetDone.contains die || p.resetLate.contains die || s.devtime < t + 1000000 then .fault .notEnabled
      else .next ((s.modPart part (fun p => { p with resetLate := p.resetLate ++ [die] })).moduleError die 114 [part])

/-! ## Soft errors (R369) -/

/-- What an uncorrectable soft error damages (R369): its first consumer is charged. -/
def State.damage (s : State) : SoftError → State
  | .word loc => { s with poison := if s.poison.contains (loc / 4) then s.poison else loc / 4 :: s.poison }
  | .item gid kind n => s.modGang gid (fun g => { g with damage := if g.damage.contains (kind, n) then g.damage else (kind, n) :: g.damage })
  | .bundle gid b => s.modBundle gid b (fun y => { y with damaged := some 0 })

/-- SOFT_ERROR_CORRECTED (R369, R373): CECNT of the core and partition counts it. -/
def execSoftErrorCorrected (die core part : Nat) (s : State) : Host.Outcome State Fault Refusal :=
  if s.phase < 8 || die ≥ 8 || core ≥ 384 || (s.part part).isNone then .fault .notEnabled
  else .next (s.modCore die core (fun c => c.setErrors part ((c.errorCounts part).1 + 1, (c.errorCounts part).2)))

/-- DEVICE_STRUCTURE_ERROR (R369): refetched, or reported with a reset of the partition that owns the structure. -/
def execDeviceStructureError (die part : Nat) (refetched : Bool) (s : State) : Host.Outcome State Fault Refusal :=
  if s.phase < 8 || die ≥ 8 || (s.part part).isNone then .fault .notEnabled
  else if refetched then .next s
  else .next ((s.moduleError die 369 [part]).beginReset part [])

end Sys2Proof.Machine
end

