-- ==== Sys2Proof/Machine/Placing.lean ====
section
/-!
DEFINITION. One instruction placed where the next step fetches it (model, log 9).
-/

namespace Sys2Proof.Machine

/-- The kernel that withFetchWord places: one plane of 16 lanes and one bundle, at virtual address 0x10000 of CD0. -/
def probeKernel : Kernel :=
  { kva := 0x10000, planes := 1, width := 16, bundles := 1, v := 64, barriers := 8, atlas := 4, scratch := 0x4000, accRows := 0,
    yieldMax := 64, stride := 0, codeLen := 64, entry := 0, codeOff := 256, dataOff := 0, dataLen := 0, imgLen := 512 }

/-- The page-table entries that map 0x10000 of CD0 to physical address 0x100000, as address and value (R137): tables at 0,
0x10000 and 0x20000; the page can be read and written. -/
def probeTables : List (Nat × Nat) := [(0, 0x100001), (0x10000, 0x200001), (0x20008, 0x1000007)]

/-- The packet of the placed launch: one crew of one gang (R95). -/
def probePacket : List Byte := List.replicate 256 0

/-- The record of the placed launch. -/
def probeRecord : Record :=
  { packet := probePacket, lkey := 0, lseq := 0, wt := [], arrival := 0, next := 1, left := 1, ncrew := 1, mode := 0, mask := 0,
    reserve := false, stoppedCrews := [], retired := 0, faulted := 0, imageOk := true, placedAny := true, leads := false, lateSent := false,
    waitSince := none, saved := [] }

/-- The lease of the placed launch: its image alone. -/
def probeLease : Lease :=
  { lkey := 0, part := 0, lid := 0, kva := 0x10000, imgLen := 512, ranges := [], shares := [], holds := List.replicate 8 1, headed := true,
    records := [1, 0, 0, 0, 0, 0, 0, 0], reported := [] }

/-- The crew of the placed launch. -/
def probeCrew : Crew :=
  { cid := 0, die := 0, arrival := 0, index := 0, part := 0, cluster := 0, gangs := [some 0], seg := none, faulted := false, ended := false, stop := none,
    dump := none, dumpSlot := none, held := [], kept := [], spared := false }

/-- The partition of the placed launch: its page-table root on CD0 at 0. -/
def probePartition : Partition :=
  createPartition { part := 0, key := 1, weights := List.replicate 8 1, quota := 1, hbmWeight := 1, llcQuota := 16, roots := List.replicate 8 0,
                    vlog := 0x200000 }

/-- A state in which a gang of one bundle is resident on core 0 of CD0 and its next instruction is the one given: the bytes in
memory behind the page tables, the lines in the instruction cache, and the issue of its sub-bundle as the next turn. It stands
for the bring-up, the partition and the launch that bring a program to run (log 9). -/
def State.placeWord (s : State) (nbits w : Nat) : State :=
  let s := probeTables.foldl (fun (s : State) (p : Nat × Nat) => s.putBytes p.1 (leBytes 8 p.2)) s
  let s := s.putBytes 0x100100 (leBytes 20 (w % 2 ^ nbits))
  let gang := ({ s with gangs := [] }).startGang ⟨probeRecord, 0, probeKernel, none, [0], []⟩ 0 0 0 0 0
  { s with phase := 8, failed := false, hbmRails := true, rails := true, resetHeld := false
           parts := setNth s.parts 0 (some probePartition), leases := [probeLease], crews := [probeCrew], gangs := [gang], halts := [], sxRuns := []
           memOps := [], dies := modNth s.dies 0 (fun (d : Die) => { d with store := [probeRecord], shutdown := false })
           cores := [{ Core.blank 0 0 with icache := [(0, 514), (0, 515)] }]
           inputs := [.issue 0 0 0], nextId := max 1 s.nextId }

end Sys2Proof.Machine
end

