-- ==== Sys2Proof/Machine/Ecdsa.lean ====
section
/-!
DEFINITION. ECDSA over P-256 (FIPS 186-5), which R13, R14 and R15 name: the curve, key pairs, signing and verification. The manual
gives keys and signatures no byte form: a public key is its two coordinates and a signature its r and s, each as 32 bytes, highest
byte first. DESIGN CHOICE (log 13).
-/

namespace Sys2Proof.Machine

/-- The prime of the field of P-256. -/
def p256P : Nat := 2 ^ 256 - 2 ^ 224 + 2 ^ 192 + 2 ^ 96 - 1

/-- The order of the base point. -/
def p256N : Nat := 0xFFFFFFFF00000000FFFFFFFFFFFFFFFFBCE6FAADA7179E84F3B9CAC2FC632551

/-- The coefficient b of y² = x³ − 3x + b. -/
def p256B : Nat := 0x5AC635D8AA3A93E7B3EBBD55769886BC651D06B0CC53B0F63BCE3C3E27D2604B

/-- The base point. -/
def p256G : Nat × Nat :=
  (0x6B17D1F2E12C4247F8BCE6E563A440F277037D812DEB33A0F4A13945D898C296,
    0x4FE342E2FE1A7F9B8EE7EB4A7C0F9E162BCE33576B315ECECBB6406837BF51F5)

/-- b^e modulo m, over k bits of e from the lowest. -/
def powMod (m : Nat) : Nat → Nat → Nat → Nat
  | 0, _, _ => 1 % m
  | k + 1, b, e => (if e % 2 == 1 then b else 1) * powMod m k (b * b % m) (e / 2) % m

/-- The inverse modulo a prime below 2^256. -/
def invMod (m x : Nat) : Nat := powMod m 256 (x % m) (m - 2)

/-- A point of the curve; none is the point at infinity. -/
abbrev Point := Option (Nat × Nat)

/-- The sum of two points. -/
def Point.add (a b : Point) : Point :=
  match a, b with
  | none, q => q
  | p, none => p
  | some (x1, y1), some (x2, y2) =>
    if x1 == x2 && (y1 + y2) % p256P == 0 then none
    else
      let l := if x1 == x2 then (3 * x1 * x1 + (p256P - 3)) * invMod p256P (2 * y1) % p256P
               else (y2 + p256P - y1) * invMod p256P (x2 + p256P - x1) % p256P
      let x := (l * l + 2 * p256P - x1 - x2) % p256P
      some (x, (l * (x1 + p256P - x) + p256P - y1) % p256P)

/-- A multiple of a point, over k bits of the factor from the lowest. -/
def Point.mul : Nat → Nat → Point → Point
  | 0, _, _ => none
  | k + 1, n, p => let rest := Point.mul k (n / 2) (p.add p); if n % 2 == 1 then p.add rest else rest

/-- Whether a point lies on the curve. -/
def Point.onCurve (a : Point) : Bool :=
  match a with
  | none => false
  | some (x, y) => x < p256P && y < p256P && y * y % p256P == (x * x * x + (p256P - 3) * x + p256B) % p256P

/-- A number from 32 bytes, highest first, and back. -/
def be32 (bs : List Byte) : Nat := leNat bs.reverse

/-- The 32 bytes of a number, highest first. -/
def be32Bytes (n : Nat) : List Byte := (leBytes 32 n).reverse

/-- The bytes of a point. -/
def Point.bytes (a : Point) : List Byte :=
  match a with
  | none => []
  | some (x, y) => be32Bytes x ++ be32Bytes y

/-- The public key of a private key. -/
def publicKey (d : Nat) : List Byte := (Point.mul 256 d (some p256G)).bytes

/-- Whether a signature over a digest verifies under a public key. -/
def ecdsaVerify (key sig digest : List Byte) : Bool :=
  let q : Point := some (be32 (key.take 32), be32 (key.drop 32))
  let r := be32 (sig.take 32)
  let s := be32 (sig.drop 32)
  if key.length != 64 || sig.length != 64 || !q.onCurve || r == 0 || r ≥ p256N || s == 0 || s ≥ p256N then false
  else
    let w := invMod p256N s
    match (Point.mul 256 (be32 digest * w % p256N) (some p256G)).add (Point.mul 256 (r * w % p256N) q) with
    | none => false
    | some (x, _) => x % p256N == r

/-- A signature over a digest with a private key and a per-message secret number. -/
def ecdsaSign (d k : Nat) (digest : List Byte) : List Byte :=
  let r := match Point.mul 256 k (some p256G) with | some (x, _) => x % p256N | none => 0
  be32Bytes r ++ be32Bytes (invMod p256N k * (be32 digest + r * d) % p256N)

end Sys2Proof.Machine
end

