-- ==== Sys2Proof/Machine/Sha256.lean ====
section
/-!
DEFINITION. SHA-256 (FIPS 180-4), which R13, R14 and R16 name. Its constants are the first 32 fractional bits of the square and
cube roots of the first primes, as that standard defines them.
-/

namespace Sys2Proof.Machine

/-- Whether a number is prime, by trial. -/
def isPrime (n : Nat) : Bool := n ≥ 2 && (List.range n).all (fun d => d < 2 || n % d != 0)

/-- The first 64 primes lie below 312. -/
def primes : List Nat := (List.range 312).filter isPrime

/-- The integer cube root, by bits from bit k − 1 down. -/
def icbrtGo : Nat → Nat → Nat → Nat
  | 0, _, r => r
  | k + 1, n, r => icbrtGo k n (if (r + 2 ^ k) ^ 3 ≤ n then r + 2 ^ k else r)

/-- The initial hash value: of the square roots of the first 8 primes. -/
def shaInit : List W32 := (primes.take 8).map (fun p => BitVec.ofNat 32 (isqrt (p <<< 64)))

/-- The round constants: of the cube roots of the first 64 primes. -/
def shaK : List W32 := primes.map (fun p => BitVec.ofNat 32 (icbrtGo 36 (p <<< 96) 0))

/-- A message padded to a multiple of 64 bytes, with its length in bits. -/
def shaPad (m : List Byte) : List Byte :=
  m ++ [0x80] ++ List.replicate ((119 - m.length % 64) % 64) 0 ++ (leBytes 8 (8 * m.length)).reverse

/-- The big-endian words of bytes. -/
def beWords : List Byte → List W32
  | a :: b :: c :: d :: r => (a ++ b ++ c ++ d : BitVec 32) :: beWords r
  | _ => []

/-- The message schedule grown by n words. -/
def shaSchedule : Nat → List W32 → List W32
  | 0, w => w
  | n + 1, w =>
    let at_ (i : Nat) : W32 := w.getD (w.length - i) 0
    let x := at_ 15
    let y := at_ 2
    let s0 := x.rotateRight 7 ^^^ x.rotateRight 18 ^^^ x >>> 3
    let s1 := y.rotateRight 17 ^^^ y.rotateRight 19 ^^^ y >>> 10
    shaSchedule n (w ++ [at_ 16 + s0 + at_ 7 + s1])

/-- One round. -/
def shaRound (h : List W32) (kw : W32) : List W32 :=
  match h with
  | [a, b, c, d, e, f, g, x] =>
    let t1 := x + (e.rotateRight 6 ^^^ e.rotateRight 11 ^^^ e.rotateRight 25) + ((e &&& f) ^^^ (~~~e &&& g)) + kw
    let t2 := (a.rotateRight 2 ^^^ a.rotateRight 13 ^^^ a.rotateRight 22) + ((a &&& b) ^^^ (a &&& c) ^^^ (b &&& c))
    [t1 + t2, a, b, c, d + t1, e, f, g]
  | _ => h

/-- The blocks of a padded message hashed in order; n bounds the blocks. -/
def shaBlocks : Nat → List W32 → List Byte → List W32
  | 0, h, _ => h
  | n + 1, h, m =>
    let w := shaSchedule 48 (beWords (m.take 64))
    let r := ((shaK.zip w).map (fun p => p.1 + p.2)).foldl shaRound h
    shaBlocks n ((h.zip r).map (fun p => p.1 + p.2)) (m.drop 64)

/-- The SHA-256 digest of bytes. -/
def sha256 (m : List Byte) : List Byte :=
  let p := shaPad m
  (shaBlocks (p.length / 64) shaInit p).flatMap (fun w => (leBytes 4 w.toNat).reverse)

end Sys2Proof.Machine
end

