-- ==== Sys2Proof/Machine/Bringup.lean ====
section
/-!
DEFINITION. Bring-up (R8, R9), the Tikel link (R10–R12), firmware, configuration and identity (R13–R15), attestation (R16), devtime
(R17), and power and cooling (R21).
-/

namespace Sys2Proof.Machine

/-! ## Rails and reset (R8) -/

/-- The module without state: its flash and boot ROMs stay (R8), and what belongs to the model. A module reset without a power-down clears the
memories too, HBM among them: R8 says only that it returns the module to phase 1. DESIGN CHOICE (log 96). -/
def State.cleared (s : State) (hbm core : Bool) : State :=
  { State.reset with hbmRails := hbm, rails := core, flash := s.flash, roms := s.roms, out := s.out, inputs := s.inputs,
                     arriving := s.arriving, trainFault := s.trainFault, tick := s.tick, draws := s.draws, nextId := s.nextId }

/-- POWER_RAIL_ENABLE (R8): the first enables the HBM rails, the second the core rails. -/
def execPowerRailEnable (s : State) : Host.Outcome State Fault Refusal :=
  if s.rails then .fault .notEnabled
  else .next (if s.hbmRails then { s with rails := true } else { s with hbmRails := true })

/-- MODULE_RESET (R8, R9): asserted, the module starts anew; released, phase 1 is complete. -/
def execModuleReset (asserted : Bool) (s : State) : Host.Outcome State Fault Refusal :=
  if !s.rails then .fault .notEnabled
  else if asserted then .next (s.cleared true true)
  else if s.resetHeld then .next { s with resetHeld := false, phase := 1 }
  else .fault .notEnabled

/-- POWER_DOWN (R8): every rail off; the identity keys of the dies go with the rest (R15). -/
def execPowerDown (s : State) : Host.Outcome State Fault Refusal :=
  if s.hbmRails then .next (s.cleared false false) else .fault .notEnabled

/-! ## The link (R10–R12) -/

/-- Whether a setting is one the port offers (R10). -/
def settingOk (x : LinkSetting) : Bool := [4, 2, 1].contains x.lanes && [100, 50, 25].contains x.rate

/-- Whether a setting is higher than another: by lanes, then by rate. -/
def higher (x y : LinkSetting) : Bool := x.lanes > y.lanes || (x.lanes == y.lanes && x.rate > y.rate)

/-- The highest setting of a list (R10). -/
def bestSetting : List LinkSetting → Option LinkSetting
  | [] => none
  | x :: xs => match bestSetting xs with | some y => if higher y x then some y else some x | none => some x

/-- Whether the port is being trained (R8, R10, R11). -/
def State.training (s : State) : Bool := s.rails && !s.resetHeld && !s.failed && s.link.trained.isNone

/-- The link as training leaves it: what was not acknowledged before goes out again, byte-identical, then what waited (R11). -/
def Link.train (l : Link) (x : LinkSetting) : Link :=
  Link.pump (Link.resend { l with trained := some x, degraded := x.lanes != 4 || x.rate != 100, resends := 0 })

/-- TIKEL_TRAINING (R10, R11): both sides settle on the highest setting that passes. -/
def execTikelTraining (passed : List LinkSetting) (s : State) : Host.Outcome State Fault Refusal :=
  if !s.training then .fault .notEnabled
  else
    match bestSetting (passed.filter settingOk) with
    | none => .fault .notEnabled
    | some x =>
      let l := s.link.train x
      .next ({ s with link := l, phase := max s.phase 2 }.send (.bringup 2 0 0 [x.order, x.polarity, x.lanes, x.rate, ofBool l.degraded]))

/-- TRAINING_RETRY (R10): nothing passed within 100 ms, and the port tries again. -/
def execTrainingRetry (s : State) : Host.Outcome State Fault Refusal :=
  if s.training then .next { s with link := { s.link with retries := s.link.retries + 1 } } else .fault .notEnabled

/-- ACK (R12): an ACK-only frame, never answered. -/
def execAck (lsn : BitVec 16) (av : Bool) (s : State) : Host.Outcome State Fault Refusal :=
  if !s.linkUp then .fault .notEnabled else .next (if av then { s with link := s.link.acked lsn } else s)

/-- ACK_ONLY_TIMER (R12): frames were received and nothing was sent for 1 µs. -/
def execAckOnlyTimer (s : State) : Host.Outcome State Fault Refusal :=
  if s.linkUp && s.link.ackOwed then .next { s with link := s.link.ackOnly } else .fault .notEnabled

/-- RESEND_TIMEOUT (R11, R12): every frame from the oldest unacknowledged one goes out again; after 16 resends the link goes down. -/
def execResendTimeout (s : State) : Host.Outcome State Fault Refusal :=
  if !s.linkUp || s.link.unacked.isEmpty then .fault .notEnabled
  else if s.link.resends < 16 then .next { s with link := { s.link.resend with resends := s.link.resends + 1 } }
  else .next { s with link := { s.link with trained := none, degraded := false, resends := 0 } }

/-- The LSN of the next frame in order (R12); the first is 0 (log 3). -/
def Link.nextRx (l : Link) : BitVec 16 := match l.rxLast with | some n => n + 1 | none => 0

/-- Whether a frame that arrives is discarded (R12): it fails its CRC, or comes out of LSN order, after one that did or once more. -/
def Link.discards (l : Link) (frame : List Byte) : Bool := !crcOk frame || lsnOf frame != l.nextRx

/-- FRAME_CRC_FAIL (R11, R12): the oldest frame on the line is discarded, and those after it until it comes again; a frame without an
error is acknowledged again. -/
def execFrameCrcFail (s : State) : Host.Outcome State Fault Refusal :=
  match s.arriving with
  | [] => .fault .notEnabled
  | f :: rest =>
    if s.linkUp && s.link.discards f then
      .next { s with link := { s.link with ackOwed := s.link.ackOwed || crcOk f }, arriving := rest }
    else .fault .notEnabled

/-- Whether R12 lists a TYPE in the direction to the module. -/
def typeListed (kind : Nat) : Bool := kind ≤ 37 && !([2, 3, 4, 7, 12, 16, 33, 36] : List Nat).contains kind

/-- UNLISTED_MESSAGE (R12): discarded, and answered by REPLY 0xFFFF. -/
def execUnlistedMessage (kind : Byte) (m : MsgId) (s : State) : Host.Outcome State Fault Refusal :=
  if !s.linkUp || typeListed kind.toNat then .fault .notEnabled else .next ((s.received 1).reply m 0xFFFF)

/-! ## Firmware, configuration, identity (R13–R15) -/

/-- The bytes of an image that precede its signature (R13): the key, the version and the code. The rule gives the version no
width: 4 bytes. DESIGN CHOICE (log 13). -/
def imageBytes (f : FwImage) : List Byte := f.key ++ leBytes 4 f.version ++ f.code

/-- The bytes of a configuration, which its signature covers (R14), each item with its length; the manual gives no layout.
DESIGN CHOICE (log 13). -/
def FlashConfig.bytes (c : FlashConfig) : List Byte :=
  [c.repairCores, c.repairRows, c.repairSlices, c.repairLanes, c.voltageTrims, c.clockTrims].flatMap object ++ leBytes 4 c.minVersion ++
    object c.helper ++ object c.cert.bytes

/-- Why a boot ROM refuses an image (R13): 0 accepted, 1 its key, 2 its signature, 3 its version. The rule gives no numbers: reason
codes 1, 2 and 3. DESIGN CHOICE (log 15). -/
def bootCheck (rom : List Byte) (minVersion : Nat) (f : FwImage) : Nat :=
  if sha256 f.key != rom then 1
  else if !ecdsaVerify f.key f.sig (sha256 (imageBytes f)) then 2
  else if f.version < minVersion then 3
  else 0

/-- Why phase 4 fails on a die that read a minimum version (R14): 0 not, 1 the configuration's signature, 2 the two reads of the
minimum version. The rule gives no numbers: reason codes 1 and 2. DESIGN CHOICE (log 15). -/
def configCheck (c : Flash) (minRead : Nat) (f : FwImage) : Nat :=
  if !ecdsaVerify f.key c.sig (sha256 c.config.bytes) then 1 else if c.config.minVersion != minRead then 2 else 0

/-- The identity key that a die derives (R15): its private key, none when the helper data do not correct the start-up contents. -/
def identityKey (c : FlashConfig) (d : Nat) : Option Nat := Config.pufSecret d c.helper

/-- Why phase 5 fails on a die (R15): 0 not, 1 its derived key is not the certified one. -/
def identityCheck (c : FlashConfig) (d : Nat) : Nat :=
  match identityKey c d, c.cert.keys[d]? with
  | some k, some q => if publicKey k == q then 0 else 1
  | _, _ => 1

/-- The report of a phase by every die; a die whose reason is not 0 fails. -/
def State.report (s : State) (phase : Nat) (msg : Nat → OutMsg) (reason : Nat → Nat) : State :=
  let s := (List.range 8).foldl (fun s d => s.send (if reason d == 0 then msg d else .bringup phase d (reason d) [])) s
  if (List.range 8).all (fun d => reason d == 0) then { s with phase := phase } else { s with failed := true }

/-- Every die changed, by its number. -/
def State.mapDies (s : State) (f : Nat → Die → Die) : State :=
  { s with dies := ((List.range s.dies.length).zip s.dies).map (fun (p : Nat × Die) => f p.1 p.2) }

/-- Phase 3 (R13): each boot ROM reads the minimum-version record and verifies its own copy of the image. -/
def State.verifyImage (s : State) (f : FwImage) : State :=
  let s := s.mapDies (fun _ d => { d with minRead := s.flash.minRecord })
  let why (d : Nat) : Nat := bootCheck (s.roms.getD d []) (s.die d).minRead f
  let s := s.mapDies (fun d x => { x with fwStatus := if why d == 0 then 1 else 2, fw := if why d == 0 then some f else none })
  s.report 3 (fun d => .bringup 3 d 0 []) why

/-- Phase 4 (R14): each die's firmware authenticates the whole configuration, then applies it. -/
def State.configure (s : State) (f : FwImage) : State :=
  let why (d : Nat) : Nat := configCheck s.flash (s.die d).minRead f
  let s := s.mapDies (fun d x => { x with cfgStatus := if why d == 0 then 1 else 2, applied := if why d == 0 then some s.flash.config else none })
  s.report 4 (fun d => .bringup 4 d 0 []) why

/-- Phase 5 (R15): each die derives its key pair, checks it against the certificate, and reports it with the certificate. -/
def State.identify (s : State) : State :=
  let c := s.flash.config
  let s := s.mapDies (fun d x => { x with idStatus := if identityCheck c d == 0 then 1 else 2, secret := identityKey c d })
  s.report 5 (fun d => .identity d (publicKey ((identityKey c d).getD 0)) c.cert) (identityCheck c)

/-- Phases 3 to 5: each begins once the one before has succeeded (R8). -/
def State.verify (s : State) (f : FwImage) : State :=
  let s := s.verifyImage f
  if s.failed then s
  else
    let s := s.configure f
    if s.failed then s else s.identify

/-- FIRMWARE (R9, R13): acted on in phase 3; after it, the message is refused. The rules do not say when it is answered: a REPLY of
status 0 before the verification, whose result is the reports of phases 3 to 5. DESIGN CHOICE (log 24). -/
def execFirmware (m : MsgId) (img : FwImage) (s : State) : Host.Outcome State Fault Refusal :=
  if !s.linkUp then .fault .notEnabled
  else
    let s := s.received (((imageBytes img).length + img.sig.length + 255) / 256)
    .next (if s.phase == 2 then (s.reply m 0).verify img else s.refuse m)

/-! ## Attestation (R16) -/

/-- ATTEST_REQ (R9, R16): held, at most four at once; a further one is answered busy. -/
def execAttestReq (m : MsgId) (nonce : List Byte) (s : State) : Host.Outcome State Fault Refusal :=
  if !s.linkUp then .fault .notEnabled
  else
    let s := s.received 1
    .next (if nonce.length != 32 || s.attest.length ≥ 4 then s.refuse m else { s with attest := s.attest ++ [(m, nonce)] })

/-- The signed bytes of a report (R16): nonce, digests of the running firmware and of the applied configuration, version, link
parameters, devtime. The rule does not say what the firmware's digest covers: the bytes that its signature covers, key, version and
code, without the signature; the configuration's digest covers what its signature does. DESIGN CHOICE (log 13). -/
def State.reportBody (s : State) (nonce : List Byte) (f : FwImage) : List Byte :=
  let link := match s.link.trained with
    | some x => leBytes 1 x.order ++ leBytes 1 x.polarity ++ leBytes 1 x.lanes ++ leBytes 1 x.rate
    | none => []
  let config := match (s.die 0).applied with | some c => c.bytes | none => []
  nonce ++ sha256 (imageBytes f) ++ sha256 config ++ leBytes 4 f.version ++ link ++
    leBytes 8 (if s.phase ≥ 6 then s.devtimeOf 0 else 2 ^ 64 - 1)

/-- The signature of CD0 over the bytes of a report (R16), with the next free secret number. -/
def State.signReport (s : State) (body : List Byte) : List Byte :=
  ecdsaSign ((s.die 0).secret.getD 0) (Config.signNonce s.draws) (sha256 body)

/-- ATTEST_REPORT (R9, R16): CD0 answers the oldest request, from phase 5 on. -/
def execAttestReport (s : State) : Host.Outcome State Fault Refusal :=
  if !s.linkUp || s.phase < 5 then .fault .notEnabled
  else
    match s.attest, (s.die 0).fw with
    | (m, nonce) :: rest, some f =>
      let body := s.reportBody nonce f
      .next ({ s with attest := rest, draws := s.draws + 1 }.send (.attest m body (s.signReport body)))
    | _, _ => .fault .notEnabled

/-! ## Devtime (R17), memory and fabric (R8) -/

/-- The greatest distance between two offsets. -/
def spread (offs : List Int) : Nat := maxOf (offs.flatMap (fun a => offs.map (fun b => (a - b).natAbs)))

/-- DEVTIME_START (R8, R17): phase 5 reported, devtime starts on every die, once the offsets are within 4 ns. Between 4 ns and 64 ns the phase
waits, and a die beyond 64 ns of CD0 makes it fail with reason code 1: the rules give phase 6 no failure and no code. DESIGN CHOICE (log 15). -/
def execDevtimeStart (offs : List Int) (s : State) : Host.Outcome State Fault Refusal :=
  if s.phase != 5 || s.failed || !s.linkUp || offs.length != 8 || offs.head? != some 0 then .fault .notEnabled
  else if spread offs ≤ 4 then
    .next ({ s with devRunning := true, devtime := 0, psRem := 0, phase := 6, dies := (s.dies.zip offs).map (fun (p : Die × Int) =>
      { p.1 with devOffset := p.2, lastCheck := 0, slew := none }) }.send (.bringup 6 0 0 []))
  else
    match findIdx (fun (x : Int) => x.natAbs > 64) offs with
    | some p => .next ({ s with failed := true }.send (.bringup 6 p.1 1 [p.2.natAbs]))
    | none => .fault .notEnabled

/-- A die's check of its devtime (R17): an offset beyond 4 ns is slewed from now on. -/
def Die.checkDevtime (d : Die) (now : Nat) : Die :=
  { d with lastCheck := now, slew := if d.devOffset.natAbs > 4 then some (d.slew.getD 0) else d.slew }

/-- DEVTIME_CHECK (R17): 1 ms of devtime after its last, a die checks its offset against CD0, which off gives; an offset beyond 4 ns
is slewed, and one beyond 64 ns reported. -/
def execDevtimeCheck (die : Nat) (off : Int) (s : State) : Host.Outcome State Fault Refusal :=
  let now := s.devtimeOf die
  if !s.devRunning || die == 0 || die ≥ 8 || off != (s.die die).devOffset || now < (s.die die).lastCheck + 1000000 then .fault .notEnabled
  else
    let s := s.modDie die (·.checkDevtime now)
    .next (if off.natAbs > 64 then s.moduleError die 17 [off.natAbs] else s)

/-- MEMORY_AND_FABRIC (R8, R9): phase 6 reported, phase 7, and the ready notice of phase 8; or the die and reason of its failure. -/
def execMemoryAndFabric (s : State) : Host.Outcome State Fault Refusal :=
  if s.phase != 6 || s.failed || !s.linkUp then .fault .notEnabled
  else
    match s.trainFault with
    | none => .next (({ s with phase := 8 }.send (.bringup 7 0 0 [])).send (.bringup 8 0 0 []))
    | some (d, reason) => .next ({ s with failed := true }.send (.bringup 7 d reason []))

/-! ## Power and cooling (R21) -/

/-- THERMAL_LIMIT (R21): one step of 100 MHz, and the report. Nothing but a module reset raises the clock again, since no rule says when it
returns to 3 GHz. DESIGN CHOICE (log 97). -/
def execThermalLimit (die : Nat) (s : State) : Host.Outcome State Fault Refusal :=
  if !s.rails || s.resetHeld || die ≥ 8 || (s.die die).clock ≤ 100 then .fault .notEnabled
  else .next ((s.modDie die (fun d => { d with clock := d.clock - 100 })).moduleError die 21 [(s.die die).clock - 100])

/-- OVERTEMP_SHUTDOWN (R21): the die stops issue and asks to be powered down. -/
def execOvertempShutdown (die : Nat) (s : State) : Host.Outcome State Fault Refusal :=
  if !s.rails || s.resetHeld || die ≥ 8 || (s.die die).shutdown then .fault .notEnabled
  else .next ((s.modDie die (fun d => { d with shutdown := true })).moduleError die 22 [])

end Sys2Proof.Machine
end

