-- ==== Sys2Proof/Machine/Float.lean ====
section
/-!
DEFINITION. The float and special-function instructions (R196–R215).
-/

namespace Sys2Proof.Machine

/-- FT of a float word (R196). -/
def fFt (w : XWord) : Nat := bits w.fn.toNat 0 2
/-- The modifiers of a float word (R196). -/
def fMods (w : XWord) : FloatMods := floatMods w.m6.toNat

/-- fadd of a word (R199). -/
def wFadd (w : XWord) (a b _c : W32) : LaneResult := floatAdd (fFt w) (fMods w) a b 0
/-- fsub of a word (R199). -/
def wFsub (w : XWord) (a b _c : W32) : LaneResult := floatSub (fFt w) (fMods w) a b 0
/-- fmul of a word (R199). -/
def wFmul (w : XWord) (a b _c : W32) : LaneResult := floatMul (fFt w) (fMods w) a b 0
/-- ffma of a word (R199). -/
def wFfma (w : XWord) (a b c : W32) : LaneResult := floatFma (fFt w) (fMods w) a b c
/-- A special function of a word (R206). -/
def wSpecial (major : Nat) (w : XWord) (a _b _c : W32) : LaneResult := floatSpecial major (fFt w) (fMods w) a
/-- The fmin family of a word (R200). -/
def wFmin (w : XWord) (a b _c : W32) : LaneResult := floatMinMax (bits w.fn.toNat 2 6) (fFt w) (fMods w) a b
/-- The fneg family of a word (R201). -/
def wFsign (kind : Nat) (w : XWord) (a b _c : W32) : LaneResult := floatSign kind (fFt w) a b

/-- FADD_S_FORM (R199). -/
def execFaddSForm (w : SWord) (s : State) : Host.Outcome State Fault Refusal :=
  runCompute (.faddSForm w) (laneS true w) 4 (wFadd (laneS true w)) s

/-- FADD_X_FORM (R199). -/
def execFaddXForm (w : XWord) (s : State) : Host.Outcome State Fault Refusal := runCompute (.faddXForm w) w 12 (wFadd w) s

/-- FSUB_S_FORM (R199). -/
def execFsubSForm (w : SWord) (s : State) : Host.Outcome State Fault Refusal :=
  runCompute (.fsubSForm w) (laneS true w) 4 (wFsub (laneS true w)) s

/-- FSUB_X_FORM (R199). -/
def execFsubXForm (w : XWord) (s : State) : Host.Outcome State Fault Refusal := runCompute (.fsubXForm w) w 12 (wFsub w) s

/-- FMUL_S_FORM (R199). -/
def execFmulSForm (w : SWord) (s : State) : Host.Outcome State Fault Refusal :=
  runCompute (.fmulSForm w) (laneS true w) 4 (wFmul (laneS true w)) s

/-- FMUL_X_FORM (R199). -/
def execFmulXForm (w : XWord) (s : State) : Host.Outcome State Fault Refusal := runCompute (.fmulXForm w) w 12 (wFmul w) s

/-- FFMA_S_FORM (R199). -/
def execFfmaSForm (w : SWord) (s : State) : Host.Outcome State Fault Refusal :=
  runCompute (.ffmaSForm w) (laneS true w) 4 (wFfma (laneS true w)) s

/-- FFMA_X_FORM (R199). -/
def execFfmaXForm (w : XWord) (s : State) : Host.Outcome State Fault Refusal := runCompute (.ffmaXForm w) w 12 (wFfma w) s

/-- FRCP_S_FORM (R206). -/
def execFrcpSForm (w : SWord) (s : State) : Host.Outcome State Fault Refusal :=
  runCompute (.frcpSForm w) (laneS false w) 4 (wSpecial 0x58 (laneS false w)) s

/-- FRCP_X_FORM (R206). -/
def execFrcpXForm (w : XWord) (s : State) : Host.Outcome State Fault Refusal := runCompute (.frcpXForm w) w 12 (wSpecial 0x58 w) s

/-- FRSQ_S_FORM (R206). -/
def execFrsqSForm (w : SWord) (s : State) : Host.Outcome State Fault Refusal :=
  runCompute (.frsqSForm w) (laneS false w) 4 (wSpecial 0x59 (laneS false w)) s

/-- FRSQ_X_FORM (R206). -/
def execFrsqXForm (w : XWord) (s : State) : Host.Outcome State Fault Refusal := runCompute (.frsqXForm w) w 12 (wSpecial 0x59 w) s

/-- FSQRT_S_FORM (R206). -/
def execFsqrtSForm (w : SWord) (s : State) : Host.Outcome State Fault Refusal :=
  runCompute (.fsqrtSForm w) (laneS false w) 4 (wSpecial 0x5A (laneS false w)) s

/-- FSQRT_X_FORM (R206). -/
def execFsqrtXForm (w : XWord) (s : State) : Host.Outcome State Fault Refusal := runCompute (.fsqrtXForm w) w 12 (wSpecial 0x5A w) s

/-- FEXP2_S_FORM (R206). -/
def execFexp2SForm (w : SWord) (s : State) : Host.Outcome State Fault Refusal :=
  runCompute (.fexp2SForm w) (laneS false w) 4 (wSpecial 0x5B (laneS false w)) s

/-- FEXP2_X_FORM (R206). -/
def execFexp2XForm (w : XWord) (s : State) : Host.Outcome State Fault Refusal := runCompute (.fexp2XForm w) w 12 (wSpecial 0x5B w) s

/-- FLOG2_S_FORM (R206). -/
def execFlog2SForm (w : SWord) (s : State) : Host.Outcome State Fault Refusal :=
  runCompute (.flog2SForm w) (laneS false w) 4 (wSpecial 0x5C (laneS false w)) s

/-- FLOG2_X_FORM (R206). -/
def execFlog2XForm (w : XWord) (s : State) : Host.Outcome State Fault Refusal := runCompute (.flog2XForm w) w 12 (wSpecial 0x5C w) s

/-- FSIN_S_FORM (R206). -/
def execFsinSForm (w : SWord) (s : State) : Host.Outcome State Fault Refusal :=
  runCompute (.fsinSForm w) (laneS false w) 4 (wSpecial 0x5D (laneS false w)) s

/-- FSIN_X_FORM (R206). -/
def execFsinXForm (w : XWord) (s : State) : Host.Outcome State Fault Refusal := runCompute (.fsinXForm w) w 12 (wSpecial 0x5D w) s

/-- FCOS_S_FORM (R206). -/
def execFcosSForm (w : SWord) (s : State) : Host.Outcome State Fault Refusal :=
  runCompute (.fcosSForm w) (laneS false w) 4 (wSpecial 0x5E (laneS false w)) s

/-- FCOS_X_FORM (R206). -/
def execFcosXForm (w : XWord) (s : State) : Host.Outcome State Fault Refusal := runCompute (.fcosXForm w) w 12 (wSpecial 0x5E w) s

/-- FTANH_S_FORM (R206). -/
def execFtanhSForm (w : SWord) (s : State) : Host.Outcome State Fault Refusal :=
  runCompute (.ftanhSForm w) (laneS false w) 4 (wSpecial 0x5F (laneS false w)) s

/-- FTANH_X_FORM (R206). -/
def execFtanhXForm (w : XWord) (s : State) : Host.Outcome State Fault Refusal := runCompute (.ftanhXForm w) w 12 (wSpecial 0x5F w) s

/-- FMIN (R200). -/
def execFmin (w : XWord) (s : State) : Host.Outcome State Fault Refusal := runCompute (.fmin w) w 12 (wFmin w) s

/-- FMAX (R200). -/
def execFmax (w : XWord) (s : State) : Host.Outcome State Fault Refusal := runCompute (.fmax w) w 12 (wFmin w) s

/-- FMINN (R200). -/
def execFminn (w : XWord) (s : State) : Host.Outcome State Fault Refusal := runCompute (.fminn w) w 12 (wFmin w) s

/-- FMAXN (R200). -/
def execFmaxn (w : XWord) (s : State) : Host.Outcome State Fault Refusal := runCompute (.fmaxn w) w 12 (wFmin w) s

/-- FNEG (R201). -/
def execFneg (w : XWord) (s : State) : Host.Outcome State Fault Refusal := runCompute (.fneg w) w 12 (wFsign 0 w) s

/-- FABS (R201). -/
def execFabs (w : XWord) (s : State) : Host.Outcome State Fault Refusal := runCompute (.fabs w) w 12 (wFsign 1 w) s

/-- FCPYS (R201). -/
def execFcpys (w : XWord) (s : State) : Host.Outcome State Fault Refusal := runCompute (.fcpys w) w 12 (wFsign 2 w) s

/-- FCMP (R202). -/
def execFcmp (w : XWord) (s : State) : Host.Outcome State Fault Refusal :=
  runLane (.fcmp w) 12 noExtra (fun x ls s =>
    s.modBundle x.c.gid x.c.bundle (fun b => ls.foldl (fun b l => b.modLane l (fun y => y.writeP w.d9.toNat
      (floatCompare (bits w.fn.toNat 2 3) (fFt w) (bit w.fn.toNat 5) (bit w.m6.toNat 4) (argA w l y) (argB w l y)))) b)) s

/-- FCVT (R203–R205): W2 bits 0–1 name the part; B is a register or 0. -/
def execFcvt (w : XWord) (s : State) : Host.Outcome State Fault Refusal :=
  runCompute (.fcvt w) { w with imm := 0 } 12 (fun a b _ =>
    match cvtFmt (bits w.fn.toNat 0 4), cvtFmt (bits w.fn.toNat 4 4) with
    | some src, some dst => convertLane src dst (fMods w) (bits w.imm.toNat 0 2) a b
    | _, _ => (0, 0)) s

/-- FCLS (R209). -/
def execFcls (w : XWord) (s : State) : Host.Outcome State Fault Refusal :=
  runCompute (.fcls w) w 12 (fun a _ _ => floatClass (fFt w) a) s

/-- FSCL (R210). -/
def execFscl (w : XWord) (s : State) : Host.Outcome State Fault Refusal :=
  runCompute (.fscl w) w 12 (fun a b _ => floatScale (fFt w) (fMods w) (w.b9 = 268) a b) s

/-- FDOT2 (R211). -/
def execFdot2 (w : XWord) (s : State) : Host.Outcome State Fault Refusal :=
  runCompute (.fdot2 w) w 12 (fun a b c => floatDot2 (fFt w) (fMods w) a b c) s

/-- FRND (R212). -/
def execFrnd (w : XWord) (s : State) : Host.Outcome State Fault Refusal :=
  runCompute (.frnd w) w 12 (fun a _ _ => floatRound (fFt w) (fMods w) a) s

/-- BFPD (R215). -/
def execBfpd (w : XWord) (s : State) : Host.Outcome State Fault Refusal :=
  runCompute (.bfpd w) w 12 (fun a _ _ => bfpDequant (bits w.fn.toNat 2 3 + 2) (fMods w) a) s

/-- The lanes as they stood before the first pass (R191, R214). -/
def Ctx.groupLanes (x : Ctx) : List Lane := if x.c.snap.isEmpty then x.b.lanes else x.c.snap

/-- The deciding word of a lane (R214): its own plane's when the sub-bundle occupies that plane, else the lowest's. -/
def Ctx.deciding (x : Ctx) (plane : Nat) : Option Instr :=
  let ws := match x.c.words.find? (fun p => p.1 == plane) with
    | some p => p.2
    | none => (x.c.words.head?.map (·.2)).getD []
  match decodeWords ws with
  | .ok (i, _) => some i
  | .error _ => none

/-- The A operand of a lane's contribution: that of its deciding word, or, where that is no bfpq, of the lowest occupied plane's bfpq;
w is the word of the pass. The rule asks for one value in every pass and names no word where the planes' words differ. DEDUCED
(log 32). -/
def Ctx.contributes (x : Ctx) (w : XWord) (y : Lane) : Nat :=
  match x.deciding y.plane with
  | some (.bfpq d) => d.a9.toNat
  | _ =>
    (x.c.words.findSome? (fun p => match decodeWords p.2 with
      | .ok (.bfpq d, _) => some d.a9.toNat
      | _ => none)).getD w.a9.toNat

/-- A lane's contribution to its BFP lane group (R214). -/
def Ctx.contribution (x : Ctx) (w : XWord) (l : Nat) : FVal :=
  match x.groupLanes[l]? with
  | none => .zero
  | some y =>
    let keeps :=
      match x.deciding y.plane with
      | some (.bfpq d) =>
        !bit d.fn.toNat 5 || ((x.b.activeLanes x.q).contains l && y.readP d.pred.toNat != (d.pn == 1))
      | _ => true
    if keeps then unpack fp32 (y.read l (x.contributes w y)).toNat else .zero

/-- BFPQ (R214). -/
def execBfpq (w : XWord) (s : State) : Host.Outcome State Fault Refusal :=
  runLane (.bfpq w) 12 noExtra (fun x ls s =>
    s.deliverPass x w ls (fun l _ =>
      let g := (List.range 16).map (fun i => x.contribution w (16 * (l / 16) + i))
      bfpElement (quantise (bits w.fn.toNat 2 3 + 2) g) (l % 16) (g.getD (l % 16) .zero))) s

/-! ## PAIR (R39–R42) -/

/-- The result of an eligible half (R40): integer halves are i32, float halves f32 to nearest even. -/
def halfResult (op : Nat) (a b : W32) : LaneResult :=
  let m : FloatMods := ⟨.rne, false, false⟩
  if op == 0x30 then intArith (· + ·) 0 false false a b
  else if op == 0x31 then intArith (· - ·) 0 false false a b
  else if op == 0x32 then intArith (· * ·) 0 false false a b
  else if op == 0x36 then (a &&& b, 0)
  else if op == 0x37 then (a ||| b, 0)
  else if op == 0x38 then (a ^^^ b, 0)
  else if op == 0x39 then intShift 0 0 a b
  else if op == 0x3A then intShift 1 0 a b
  else if op == 0x3B then intShift 2 0 a b
  else if op == 0x40 then (a, 0)
  else if op == 0x50 then floatAdd 0 m a b 0
  else if op == 0x51 then floatSub 0 m a b 0
  else if op == 0x52 then floatMul 0 m a b 0
  else floatSpecial op 0 m a

/-- A half's result in a lane, from the lane as it stands (R42). -/
def halfIn (h : Nat) (w : XWord) (l : Nat) (y : Lane) : LaneResult :=
  halfResult h (y.read l w.a9.toNat) (y.read l w.b9.toNat)

/-- A lane after a PAIR (R42): both halves read before either writes; the belt gets half 1's result, then half 2's. -/
def Lane.pairStep (y : Lane) (w : PairWord) (l : Nat) : Lane × Exc :=
  let w1 := pairHalf false w
  let w2 := pairHalf true w
  let r1 := halfIn w.hop1.toNat w1 l y
  let r2 := halfIn w.hop2.toNat w2 l y
  ((y.deliver w1 r1.1).deliver w2 r2.1, r1.2 ||| r2.2)

/-- PAIR (R42). -/
def execPair (w : PairWord) (s : State) : Host.Outcome State Fault Refusal :=
  runLane (.pair w) 12 noExtra (fun x ls s =>
    let rs := ls.filterMap (fun l => (x.b.lanes[l]?).map (fun y => (l, y.pairStep w l)))
    let s := s.modBundle x.c.gid x.c.bundle (fun b => rs.foldl (fun b r => b.modLane r.1 (fun _ => r.2.1)) b)
    (rs.filter (fun r => r.2.2 != 0)).foldl (fun s r => s.observe (x.excEvent r.1 r.2.2) (x.q.slices.head?)) s) s

end Sys2Proof.Machine
end

