-- ==== Sys2Proof/Machine/Messages.lean ====
section
/-!
DEFINITION. MEMREAD and MEMWRITE (R12).
-/

namespace Sys2Proof.Machine

/-- The fields of a MEMREAD or MEMWRITE that make it malformed (R12, status 1): a virtual address has 2^54 bytes to a die, a physical
one 2^48. -/
def State.spanBad (s : State) (a : MemSpan) : Bool :=
  a.sel > 1 || a.len == 0 || a.len > 65536 ||
    (if a.sel == 0 then (s.part a.unit).isNone || a.addr.toNat % 2 ^ 54 + a.len > 2 ^ 54
     else a.unit > 7 || a.addr.toNat + a.len > 2 ^ 48)

/-- Whether a physical span meets a reserved address (R138). -/
def spanReserved (a : MemSpan) : Bool := a.addr.toNat + a.len > 2 ^ 37

/-- An access of the control node refused with status 2 and logged (R12, R19). -/
def State.refuseSpan (s : State) (part va kind : Nat) : State := s.logAccess part va 0 7 kind 0

/-- The bytes of a virtual range (R12): an address below the expanded view's half, then one in it; or the refused address; or the
fault of a view read. -/
def State.spanRead (s : State) (part va n : Nat) : Except (Nat ⊕ FaultInfo) (List Byte) :=
  if !vaLegal va then .error (.inl va)
  else
    let k := if vaIsXv va then 0 else min n (2 ^ 53 - va % 2 ^ 53)
    match s.runs part 0 va k with
    | none => .error (.inl (s.firstBad part 0 va k))
    | some rs =>
      if k == n then .ok (s.readRuns rs)
      else
        match s.xvRead part (va + k) (n - k) with
        | .ok bs => .ok (s.readRuns rs ++ bs)
        | .error f => .error (if f.xvf then .inr f else .inl f.addr)

/-- What follows status 3: class, subcode, tile row and column, bit offset (R12). -/
def viewError (f : FaultInfo) : List Byte :=
  leBytes 1 f.cls ++ leBytes 1 f.sub ++ leBytes 2 f.trow ++ leBytes 2 f.tcol ++ leBytes 8 f.bitoff

/-- What an access of the control node through a virtual address leaves at its home agents and slices (R136, R140). -/
def State.tookSpan (s : State) (part va n : Nat) : State := if vaIsXv va then s else s.touchRange part 0 (n / 2 ^ 16 + 2) va n

/-- MEMREAD (R12): checked whole, and answered by MEMDATA. -/
def execMemread (m : MsgId) (a : MemSpan) (s : State) : Host.Outcome State Fault Refusal :=
  onMessage 1 0 s (fun s =>
    if s.spanBad a then s.send (.memData m 1 [])
    else if a.sel == 1 then
      (if spanReserved a then s.send (.memData m 2 []) else s.send (.memData m 0 (s.bytesAt (hbmLoc a.unit a.addr.toNat) a.len)))
    else
      match s.spanRead a.unit a.addr.toNat a.len with
      | .ok bs => (s.tookSpan a.unit a.addr.toNat a.len).send (.memData m 0 bs)
      | .error (.inl va) => (s.refuseSpan a.unit va 0).send (.memData m 2 [])
      | .error (.inr f) => s.send (.memData m 3 (viewError f)))

/-- MEMWRITE (R12): checked whole, and performed whole at its homes before the REPLY. -/
def execMemwrite (m : MsgId) (a : MemSpan) (bytes : List Byte) (s : State) : Host.Outcome State Fault Refusal :=
  onMessage ((14 + bytes.length + 255) / 256) 0 s (fun s =>
    let va := a.addr.toNat
    if s.spanBad a || bytes.length != a.len then s.reply m 1
    else if a.sel == 1 then (if spanReserved a then s.reply m 2 else (s.writeHome none (hbmLoc a.unit va) bytes).reply m 0)
    else if vaLegal va && (vaIsXv va || va % 2 ^ 53 + a.len > 2 ^ 53) then
      (s.refuseSpan a.unit (if vaIsXv va then va else va + (2 ^ 53 - va % 2 ^ 53)) 3).reply m 2
    else
      match s.runs a.unit 1 va a.len with
      | none => (s.refuseSpan a.unit (s.firstBad a.unit 1 va a.len) 1).reply m 2
      | some rs => ((s.tookSpan a.unit va a.len).writeRuns none rs bytes).reply m 0)

end Sys2Proof.Machine
end

