-- ==== Sys2Proof/Machine/Scalar.lean ====
section
/-!
DEFINITION. The scalar instructions (R175–R182).
-/

namespace Sys2Proof.Machine

/-- B of a scalar X instruction marked imm: the sign-extended W2 where B9 is 268 (R175). -/
def scalarB (x : Ctx) (w : XWord) : W64 := if w.b9 = 268 then w.imm.signExtend 64 else x.s w.b9.toNat

/-- A scalar instruction that computes one result (R176). -/
def runScalar (len : Nat) (form : Form) (w : XWord) (f : Ctx → State → W64) (s : State) : Host.Outcome State Fault Refusal :=
  runUniform false len (fun _ => form) w noExtra (fun x s => .done (s.setS x w.d9.toNat (f x s))) s

/-- The form of a two-operand scalar instruction in format X (R176); fnOk tells whether its FN is defined. -/
def scalarForm (fnOk : Bool) (w : XWord) : Form :=
  (opForm .scalar .scalar .scalar .unused (fnOk) (w.m6 = 0 && immB w && w.nwb = 0))

/-- Format S of a two-operand scalar instruction (R30, R176). -/
def runScalarS (f : W64 → W64 → W64) (w : SWord) (s : State) : Host.Outcome State Fault Refusal :=
  let v := scalarS true true w
  runScalar 4 (scalarForm true v) v (fun x _ => f (x.s v.a9.toNat) (x.s v.b9.toNat)) s

/-- Format SL of a two-operand scalar instruction (R31, R176). -/
def runScalarSl (f : W64 → W64 → W64) (w : SWord) (lit : W64) (s : State) : Host.Outcome State Fault Refusal :=
  let v := scalarSl true w
  runScalar 12 (opForm .scalar .scalar .unused .unused (true) (w.b6 = 0 && w.nwb = 0)) v
    (fun x _ => f (x.s v.a9.toNat) lit) s

/-- Format X of a two-operand scalar instruction with imm (R175, R176). -/
def runScalarX (fnOk : Bool) (f : W64 → W64 → W64) (w : XWord) (s : State) : Host.Outcome State Fault Refusal :=
  runScalar 12 (scalarForm fnOk w) w (fun x _ => f (x.s w.a9.toNat) (scalarB x w)) s

/-- SADD_S_FORM (R176). -/
def execSaddSForm (w : SWord) (s : State) : Host.Outcome State Fault Refusal := runScalarS (fun a b => a + b) w s

/-- SADD_SL_FORM (R176). -/
def execSaddSlForm (w : SWord) (lit : W64) (s : State) : Host.Outcome State Fault Refusal :=
  runScalarSl (fun a b => a + b) w lit s

/-- SADD_X_FORM (R176). -/
def execSaddXForm (w : XWord) (s : State) : Host.Outcome State Fault Refusal := runScalarX (w.fn = 0) (fun a b => a + b) w s

/-- SSUB_S_FORM (R176). -/
def execSsubSForm (w : SWord) (s : State) : Host.Outcome State Fault Refusal := runScalarS (fun a b => a - b) w s

/-- SSUB_SL_FORM (R176). -/
def execSsubSlForm (w : SWord) (lit : W64) (s : State) : Host.Outcome State Fault Refusal :=
  runScalarSl (fun a b => a - b) w lit s

/-- SSUB_X_FORM (R176). -/
def execSsubXForm (w : XWord) (s : State) : Host.Outcome State Fault Refusal := runScalarX (w.fn = 0) (fun a b => a - b) w s

/-- SMUL_S_FORM (R176). -/
def execSmulSForm (w : SWord) (s : State) : Host.Outcome State Fault Refusal := runScalarS (fun a b => a * b) w s

/-- SMUL_SL_FORM (R176). -/
def execSmulSlForm (w : SWord) (lit : W64) (s : State) : Host.Outcome State Fault Refusal :=
  runScalarSl (fun a b => a * b) w lit s

/-- SMUL_X_FORM (R176). -/
def execSmulXForm (w : XWord) (s : State) : Host.Outcome State Fault Refusal := runScalarX (w.fn = 0) (fun a b => a * b) w s

/-- SMULH_S_FORM (R176). -/
def execSmulhSForm (w : SWord) (s : State) : Host.Outcome State Fault Refusal := runScalarS (mulHigh false) w s

/-- SMULH_SL_FORM (R176). -/
def execSmulhSlForm (w : SWord) (lit : W64) (s : State) : Host.Outcome State Fault Refusal :=
  runScalarSl (mulHigh false) w lit s

/-- SMULH_X_FORM (R176). -/
def execSmulhXForm (w : XWord) (s : State) : Host.Outcome State Fault Refusal := runScalarX (w.fn = 0) (mulHigh false) w s

/-- SAND_S_FORM (R176). -/
def execSandSForm (w : SWord) (s : State) : Host.Outcome State Fault Refusal := runScalarS (fun a b => a &&& b) w s

/-- SAND_SL_FORM (R176). -/
def execSandSlForm (w : SWord) (lit : W64) (s : State) : Host.Outcome State Fault Refusal :=
  runScalarSl (fun a b => a &&& b) w lit s

/-- SAND_X_FORM (R176). -/
def execSandXForm (w : XWord) (s : State) : Host.Outcome State Fault Refusal := runScalarX (w.fn = 0) (fun a b => a &&& b) w s

/-- SOR_S_FORM (R176). -/
def execSorSForm (w : SWord) (s : State) : Host.Outcome State Fault Refusal := runScalarS (fun a b => a ||| b) w s

/-- SOR_SL_FORM (R176). -/
def execSorSlForm (w : SWord) (lit : W64) (s : State) : Host.Outcome State Fault Refusal :=
  runScalarSl (fun a b => a ||| b) w lit s

/-- SOR_X_FORM (R176). -/
def execSorXForm (w : XWord) (s : State) : Host.Outcome State Fault Refusal := runScalarX (w.fn = 0) (fun a b => a ||| b) w s

/-- SXOR_S_FORM (R176). -/
def execSxorSForm (w : SWord) (s : State) : Host.Outcome State Fault Refusal := runScalarS (fun a b => a ^^^ b) w s

/-- SXOR_SL_FORM (R176). -/
def execSxorSlForm (w : SWord) (lit : W64) (s : State) : Host.Outcome State Fault Refusal :=
  runScalarSl (fun a b => a ^^^ b) w lit s

/-- SXOR_X_FORM (R176). -/
def execSxorXForm (w : XWord) (s : State) : Host.Outcome State Fault Refusal := runScalarX (w.fn = 0) (fun a b => a ^^^ b) w s

/-- SSHL_S_FORM (R176). -/
def execSshlSForm (w : SWord) (s : State) : Host.Outcome State Fault Refusal := runScalarS shiftL64 w s

/-- SSHL_SL_FORM (R176). -/
def execSshlSlForm (w : SWord) (lit : W64) (s : State) : Host.Outcome State Fault Refusal :=
  runScalarSl shiftL64 w lit s

/-- SSHL_X_FORM (R176). -/
def execSshlXForm (w : XWord) (s : State) : Host.Outcome State Fault Refusal := runScalarX (w.fn = 0) shiftL64 w s

/-- SSHR_S_FORM (R176). -/
def execSshrSForm (w : SWord) (s : State) : Host.Outcome State Fault Refusal := runScalarS shiftR64 w s

/-- SSHR_SL_FORM (R176). -/
def execSshrSlForm (w : SWord) (lit : W64) (s : State) : Host.Outcome State Fault Refusal :=
  runScalarSl shiftR64 w lit s

/-- SSHR_X_FORM (R176). -/
def execSshrXForm (w : XWord) (s : State) : Host.Outcome State Fault Refusal := runScalarX (w.fn = 0) shiftR64 w s

/-- SSRA_S_FORM (R176). -/
def execSsraSForm (w : SWord) (s : State) : Host.Outcome State Fault Refusal := runScalarS shiftRA64 w s

/-- SSRA_SL_FORM (R176). -/
def execSsraSlForm (w : SWord) (lit : W64) (s : State) : Host.Outcome State Fault Refusal :=
  runScalarSl shiftRA64 w lit s

/-- SSRA_X_FORM (R176). -/
def execSsraXForm (w : XWord) (s : State) : Host.Outcome State Fault Refusal := runScalarX (w.fn = 0) shiftRA64 w s

/-- SmulhZ (R176). -/
def execSmulhZ (w : XWord) (s : State) : Host.Outcome State Fault Refusal := runScalarX (w.fn = 1) (mulHigh true) w s

/-- SminS (R176). -/
def execSminS (w : XWord) (s : State) : Host.Outcome State Fault Refusal := runScalarX (w.fn = 0) minS64 w s

/-- SminZ (R176). -/
def execSminZ (w : XWord) (s : State) : Host.Outcome State Fault Refusal := runScalarX (w.fn = 1) minU64 w s

/-- SmaxS (R176). -/
def execSmaxS (w : XWord) (s : State) : Host.Outcome State Fault Refusal := runScalarX (w.fn = 2) maxS64 w s

/-- SmaxZ (R176). -/
def execSmaxZ (w : XWord) (s : State) : Host.Outcome State Fault Refusal := runScalarX (w.fn = 3) maxU64 w s

/-- A division (R177): B9 names a scalar. -/
def runDivide (f : W64 → W64 → W64) (w : XWord) (s : State) : Host.Outcome State Fault Refusal :=
  runScalar 12 (opForm .scalar .scalar .named .unused (w.fn.toNat ≤ 3) (w.m6 = 0 && noImm w && w.nwb = 0)) w
    (fun x _ => f (x.s w.a9.toNat) (x.s w.b9.toNat)) s

/-- SdivS (R177). -/
def execSdivS (w : XWord) (s : State) : Host.Outcome State Fault Refusal := runDivide divS64 w s

/-- SdivZ (R177). -/
def execSdivZ (w : XWord) (s : State) : Host.Outcome State Fault Refusal := runDivide divU64 w s

/-- SremS (R177). -/
def execSremS (w : XWord) (s : State) : Host.Outcome State Fault Refusal := runDivide remS64 w s

/-- SremZ (R177). -/
def execSremZ (w : XWord) (s : State) : Host.Outcome State Fault Refusal := runDivide remU64 w s

/-- SCMP (R178). -/
def execScmp (w : XWord) (s : State) : Host.Outcome State Fault Refusal :=
  runScalarX (w.fn.toNat ≤ 5) (fun a b => if scalarCond w.fn.toNat a b then 1 else 0) w s

/-- SSEL (R178). -/
def execSsel (w : XWord) (s : State) : Host.Outcome State Fault Refusal :=
  runScalar 12 (opForm .scalar .named .named .named (w.fn = 0) (w.m6 = 0 && noImm w && w.nwb = 0)) w
    (fun x _ => if x.s w.c9.toNat ≠ 0 then x.s w.a9.toNat else x.s w.b9.toNat) s

/-- SLI (R178). -/
def execSli (w : SWord) (lit : W64) (s : State) : Host.Outcome State Fault Refusal :=
  runScalar 12 (opForm .scalar .unused .unused .unused (true) (w.b6 = 0 && w.nwb = 0))
    (scalarSl false w) (fun _ _ => lit) s

/-- SMOV (R178). -/
def execSmov (w : SWord) (s : State) : Host.Outcome State Fault Refusal :=
  let v := scalarS true false w
  runScalar 4 (opForm .scalar .scalar .unused .unused (true) (w.nwb = 0)) v
    (fun x _ => x.s v.a9.toNat) s

/-- SADDR (R179). -/
def execSaddr (w : XWord) (s : State) : Host.Outcome State Fault Refusal :=
  runScalar 12 (opForm .scalar .scalar .named .unused (w.fn = 0) (bits w.m6.toNat 3 3 == 0 && w.nwb = 0)) w
    (fun x _ => x.s w.a9.toNat + (x.s w.b9.toNat <<< bits w.m6.toNat 0 3) + w.imm.signExtend 64) s

/-- sbit with a bit field in W2 (R180): its position and length. -/
def sbitField (w : XWord) : Nat × Nat := (bits w.imm.toNat 0 6, bits w.imm.toNat 6 7)

/-- An sbit instruction with a field (R180). -/
def runSbitField (b : Kind) (f : W64 → W64 → Nat → Nat → W64) (w : XWord) (s : State) : Host.Outcome State Fault Refusal :=
  let p := sbitField w
  runUniform false 12 (fun _ => (opForm .scalar .scalar b .unused (w.fn.toNat ≤ 6) (w.m6 = 0 && bits w.imm.toNat 13 19 == 0 && w.nwb = 0))) w
    (fun _ => failIf (p.1 + p.2 > 64) (illegal 20))
    (fun x s => .done (s.setS x w.d9.toNat (f (x.s w.a9.toNat) (x.s w.b9.toNat) p.1 p.2))) s

/-- An sbit instruction without a field (R180). -/
def runSbit (f : Nat → Nat) (w : XWord) (s : State) : Host.Outcome State Fault Refusal :=
  runScalar 12 (opForm .scalar .scalar .unused .unused (w.fn.toNat ≤ 6) (w.m6 = 0 && noImm w && w.nwb = 0)) w
    (fun x _ => BitVec.ofNat 64 (f (x.sn w.a9.toNat))) s

/-- SBIT_POPC (R180). -/
def execSbitPopc (w : XWord) (s : State) : Host.Outcome State Fault Refusal := runSbit (popCount 64) w s

/-- SBIT_CLZ (R180). -/
def execSbitClz (w : XWord) (s : State) : Host.Outcome State Fault Refusal := runSbit (clz 64) w s

/-- SBIT_CTZ (R180). -/
def execSbitCtz (w : XWord) (s : State) : Host.Outcome State Fault Refusal := runSbit (ctz 64) w s

/-- SBIT_BREV (R180). -/
def execSbitBrev (w : XWord) (s : State) : Host.Outcome State Fault Refusal := runSbit (brev 64) w s

/-- SBIT_BFX (R180). -/
def execSbitBfx (w : XWord) (s : State) : Host.Outcome State Fault Refusal :=
  runSbitField .unused (fun a _ pos len => bitExtract false a pos len) w s

/-- SBIT_BFX_S (R180). -/
def execSbitBfxS (w : XWord) (s : State) : Host.Outcome State Fault Refusal :=
  runSbitField .unused (fun a _ pos len => bitExtract true a pos len) w s

/-- SBIT_BFI (R180). -/
def execSbitBfi (w : XWord) (s : State) : Host.Outcome State Fault Refusal := runSbitField .scalar bitInsert w s

/-- The launch packet of a gang's task (R95). -/
def State.packetOf (s : State) (g : Gang) : List Byte :=
  match s.crew g.crew with
  | none => []
  | some c => ((s.record c.die c.arrival).map (·.packet)).getD []

/-- The device value that an srd name selects (R181). -/
def State.srdValue (s : State) (x : Ctx) (name : Nat) : W64 :=
  let n (v : Nat) : W64 := BitVec.ofNat 64 v
  let p := s.packetOf x.g
  if name == 0 then n x.g.kernel.width
  else if name == 1 then n x.g.kernel.planes
  else if name == 2 then n x.c.bundle
  else if name == 3 then n x.g.rank
  else if name == 4 then n (((s.crew x.g.crew).map (·.gangs.length)).getD 1)
  else if name == 5 then n (((s.crew x.g.crew).map (·.index)).getD 0)
  else if name == 6 then n (fieldOf p 128 24)
  else if name == 7 then n x.g.core
  else if name == 8 then n (x.g.core / 192)
  else if name == 9 then n x.g.die
  else if name == 10 then n x.g.part
  else if name == 11 then n (s.devtimeOf x.g.die)
  else if name == 12 then n (s.die x.g.die).cycles
  else if name == 13 then n x.b.ycount
  else if name == 14 then x.g.kernel.kva
  else if name == 15 then (if x.g.kernel.dataLen = 0 then 0 else x.g.kernel.kva + n x.g.kernel.dataOff)
  else if name ≤ 19 then wordOf p (384 + 64 * (name - 16))
  else if name == 20 then wordOf p 640
  else if name == 21 then n (fieldOf p 52 2)
  else if name == 22 then wordOf p 192
  else n x.b.slot

/-- SRD (R181). -/
def execSrd (w : XWord) (s : State) : Host.Outcome State Fault Refusal :=
  runScalar 12 (opForm .scalar .unused .unused .unused (w.fn = 0 && w.imm.toNat < 24) (w.m6 = 0 && w.nwb = 0)) w
    (fun x s => s.srdValue x w.imm.toNat) s

/-- The value that vget reads (R182): lane sB mod W, whatever its activity. -/
def Ctx.vgetValue (x : Ctx) (w : XWord) : W32 :=
  let l := x.sn w.b9.toNat % x.g.kernel.width
  match x.b.lanes[l]? with
  | some y => y.read l w.a9.toNat
  | none => 0

/-- The form of vget (R182). -/
def vgetForm (w : XWord) : Form :=
  (opForm .scalar .vfield .scalar .unused (w.fn.toNat ≤ 1) (w.m6 = 0 && noImm w && w.nwb = 0))

/-- VGET (R182). -/
def execVget (w : XWord) (s : State) : Host.Outcome State Fault Refusal :=
  runScalar 12 (vgetForm w) w (fun x _ => (x.vgetValue w).setWidth 64) s

/-- VGET_S (R182). -/
def execVgetS (w : XWord) (s : State) : Host.Outcome State Fault Refusal :=
  runScalar 12 (vgetForm w) w (fun x _ => (x.vgetValue w).signExtend 64) s

end Sys2Proof.Machine
end

