-- ==== Sys2Proof/Machine/Tick.lean ====
section
/-!
DEFINITION. What waiting costs and what ends a fetch: WAIT_TICK (R159, R160) and INSTRUCTION_CACHE_FILL (R148).
-/

namespace Sys2Proof.Machine

/-- The waiting sub-bundle of a bundle with the lowest slice index (R160). -/
def Bundle.firstWaiting (b : Bundle) : Option (Nat × Sub) :=
  let ws := ((List.range b.subs.length).zip b.subs).filter (fun p => p.2.isLive && p.2.wait != .none)
  ws.find? (fun p => ws.all (fun q => minOr 0 p.2.slices ≤ minOr 0 q.2.slices))

/-- The arrival of a waiting bar.meet, or of a waiting bar.red of bundle k with its contribution, taken back. -/
def Barrier.withdraw (b : Barrier) (red : Bool) (k : Nat) : Barrier :=
  let pay := if red then setNth b.payload k none else b.payload
  { b with arr := b.arr - 1, payload := pay, red := if red && pay.all (·.isNone) then none else b.red }

/-- The arrival that the waiting barrier instruction of a sub-bundle has made in the current phase of its barrier, taken back; a
bar.wait has made none. -/
def State.withdrawArrival (s : State) (g : Gang) (b : Nat) (y : Bundle) (q : Sub) : State :=
  match q.wait with
  | .barrier n p =>
    let undo (red : Bool) : State :=
      s.modGang g.gid (fun g => { g with barriers := modNth g.barriers n (fun r => if r.phase == p && r.arr != 0 then r.withdraw red b else r) })
    match decodeWords (s.codeWords g ((y.planesOf q).headD 0) (y.offsetOf q)) with
    | .ok (.barMeet _, _) => undo false
    | .ok (.barRed _, _) => undo true
    | _ => s
  | _ => s

/-- A lane's registers as they stood before an instruction's first pass (R160). -/
def Lane.rewound (y old : Lane) : Lane := { y with v := old.v, o := old.o, z := old.z, p := old.p }

/-- The lanes of a sub-bundle as they stood before the first pass of the instruction that it stands in (R160). -/
def Bundle.rewind (b : Bundle) (q : Sub) : Bundle :=
  match q.pass with
  | none => b
  | some p => (b.heldLanes q).foldl (fun b l => b.modLane l (fun y => y.rewound (p.snap.getD l y))) b

/-- A wait given up: the instruction is as though it had not issued (R160): what its passes wrote to registers, its arrival at a barrier and
the halt of a dbg.halt are taken back, an access that it has not completed is dropped, and a grp.* takes back its change of the members'
copies. -/
def State.unissue (s : State) (g : Gang) (b k : Nat) (y : Bundle) (q : Sub) : State :=
  let s := (s.withdrawArrival g b y q).modBundle g.gid b (fun y =>
    (y.rewind q).modSub k (fun q => { q with wait := .none, charged := false, base := [], pass := none }))
  match q.wait with
  | .halting i _ => { s with halts := s.halts.filter (fun h => h.id != i) }
  | .group _ m w => s.ungroup g m w
  | .mem i _ => { s with memOps := s.memOps.filter (fun o => o.id != i) }
  | .decoder i => { s with ops := s.ops.filter (fun o => o.id != i) }
  | _ => s

/-- Whether every live sub-bundle of a bundle has stopped for a pending stop: it awaits its save and no longer its instructions. DEDUCED
(log 36). -/
def State.bundleStopped (s : State) (g : Gang) (b : Nat) (y : Bundle) : Bool := s.stopPending g && s.allAtStop g b y

/-- WAIT_TICK (R159, R160, R386): a bundle with a waiting sub-bundle and no halted lane has issued nothing for 256 cycles of its die,
counted from its last issue or from the last such tick. -/
def execWaitTick (gid b : Nat) (s : State) : Host.Outcome State Fault Refusal :=
  match s.gang gid with
  | none => .fault .notEnabled
  | some g =>
    match g.bundles[b]? with
    | none => .fault .notEnabled
    | some y =>
      match y.firstWaiting with
      | none => .fault .notEnabled
      | some (k, q) =>
        if g.retired || y.done || y.anyHalted || (s.die g.die).shutdown || s.failed || s.bundleStopped g b y ||
            (s.die g.die).cycles < y.lastCycle + 256 then .fault .notEnabled
        else
          let s := s.modBundle gid b (fun y => { y with lastCycle := y.lastCycle + 256 })
          if y.ycount ≠ 0 then .next (s.modBundle gid b (fun y => { y with ycount := y.ycount - 1 }))
          else .next ((s.unissue g b k y q).takeFault ⟨gid, b, y.offsetOf q, (y.planesOf q).headD 0⟩ { cls := 0x0A, sub := 2 })

/-- The lines of a core's instruction cache after a fill: 32 KiB, the oldest leaving (R2). -/
def Core.fillCode (c : Core) (lines : List (Nat × Nat)) : Core :=
  let all := c.icache ++ lines.filter (fun l => !c.icache.contains l)
  { c with icache := all.drop (all.length - 256) }

/-- The translations and lines that a fetch of every occupied plane's words leaves (R139, R141). -/
def State.tookCode (s : State) (g : Gang) (planes : List Nat) (off : Nat) : State :=
  planes.foldl (fun s p => s.useRange g.die g.part 0 (g.kernel.codeAt p off) (4 * min 5 ((g.kernel.codeLen - off) / 4))) s

/-- INSTRUCTION_CACHE_FILL (R148): the words of every occupied plane have arrived. -/
def execInstructionCacheFill (gid b sub : Nat) (s : State) : Host.Outcome State Fault Refusal :=
  match s.gang gid with
  | none => .fault .notEnabled
  | some g =>
    match g.bundles[b]? with
    | none => .fault .notEnabled
    | some y =>
      match y.subs[sub]? with
      | none => .fault .notEnabled
      | some q =>
        if q.wait != .fetch || !q.isLive || y.killed then .fault .notEnabled
        else
          let lines := ((y.planesOf q).flatMap (fun p => codeLines g p (y.offsetOf q))).eraseDups
          let s := (s.tookCode g (y.planesOf q) (y.offsetOf q)).modCore g.die g.core (fun c => c.fillCode lines)
          .next (s.modBundle gid b (fun y => y.modSub sub (fun q => { q with wait := .retry 1 })))

end Sys2Proof.Machine
end

