-- ==== Sys2Proof/Machine/VecInt.lean ====
section
/-!
DEFINITION. The per-lane integer instructions (R183–R194).
-/

namespace Sys2Proof.Machine

/-- TY of an integer word (R183). -/
def wTy (w : XWord) : Nat := bits w.fn.toNat 0 2
/-- Z of an integer word (R183). -/
def wZ (w : XWord) : Bool := bit w.fn.toNat 2
/-- SAT of a word (R183, R196). -/
def wSat (w : XWord) : Bool := bit w.m6.toNat 3

/-- A result without flags. -/
def plain (f : W32 → W32 → W32 → W32) (a b c : W32) : LaneResult := (f a b c, 0)

/-- vadd, vsub, vmul of a word (R184). -/
def wArith (op : Int → Int → Int) (w : XWord) (a b _c : W32) : LaneResult := intArith op (wTy w) (wZ w) (wSat w) a b
/-- vmulh of a word (R184). -/
def wMulh (w : XWord) (a b _c : W32) : LaneResult := intMulh (wTy w) (wZ w) a b
/-- vmad of a word (R184). -/
def wMad (w : XWord) (a b c : W32) : LaneResult := intMad (wTy w) (wZ w) (wSat w) a b c
/-- vdot4 of a word (R185). -/
def wDot4 (w : XWord) (a b c : W32) : LaneResult := intDot4 (bits w.fn.toNat 0 2) (wSat w) a b c
/-- A bitwise operation (R184). -/
def wLogic (op : W32 → W32 → W32) (_w : XWord) (a b _c : W32) : LaneResult := (op a b, 0)
/-- A shift of a word (R184): kind 0 left, 1 logical right, 2 arithmetic right. -/
def wShift (kind : Nat) (w : XWord) (a b _c : W32) : LaneResult := intShift kind (wTy w) a b
/-- vmin, vmax of a word (R184). -/
def wMinMax (mx : Bool) (w : XWord) (a b _c : W32) : LaneResult := intMinMax mx (wTy w) (wZ w) a b
/-- vabs, vneg of a word (R184). -/
def wAbsNeg (neg : Bool) (w : XWord) (a _b _c : W32) : LaneResult := intAbsNeg neg (wTy w) (wZ w) (wSat w) a

/-- VADD_S_FORM (R184). -/
def execVaddSForm (w : SWord) (s : State) : Host.Outcome State Fault Refusal :=
  runCompute (.vaddSForm w) (laneS true w) 4 (wArith (· + ·) (laneS true w)) s

/-- VADD_X_FORM (R184). -/
def execVaddXForm (w : XWord) (s : State) : Host.Outcome State Fault Refusal := runCompute (.vaddXForm w) w 12 (wArith (· + ·) w) s

/-- VSUB_S_FORM (R184). -/
def execVsubSForm (w : SWord) (s : State) : Host.Outcome State Fault Refusal :=
  runCompute (.vsubSForm w) (laneS true w) 4 (wArith (· - ·) (laneS true w)) s

/-- VSUB_X_FORM (R184). -/
def execVsubXForm (w : XWord) (s : State) : Host.Outcome State Fault Refusal := runCompute (.vsubXForm w) w 12 (wArith (· - ·) w) s

/-- VMUL_S_FORM (R184). -/
def execVmulSForm (w : SWord) (s : State) : Host.Outcome State Fault Refusal :=
  runCompute (.vmulSForm w) (laneS true w) 4 (wArith (· * ·) (laneS true w)) s

/-- VMUL_X_FORM (R184). -/
def execVmulXForm (w : XWord) (s : State) : Host.Outcome State Fault Refusal := runCompute (.vmulXForm w) w 12 (wArith (· * ·) w) s

/-- VMULH_S_FORM (R184). -/
def execVmulhSForm (w : SWord) (s : State) : Host.Outcome State Fault Refusal :=
  runCompute (.vmulhSForm w) (laneS true w) 4 (wMulh (laneS true w)) s

/-- VMULH_X_FORM (R184). -/
def execVmulhXForm (w : XWord) (s : State) : Host.Outcome State Fault Refusal := runCompute (.vmulhXForm w) w 12 (wMulh w) s

/-- VMAD (R184). -/
def execVmad (w : XWord) (s : State) : Host.Outcome State Fault Refusal := runCompute (.vmad w) w 12 (wMad w) s

/-- VDOT4 (R185). -/
def execVdot4 (w : XWord) (s : State) : Host.Outcome State Fault Refusal := runCompute (.vdot4 w) w 12 (wDot4 w) s

/-- VAND_S_FORM (R184). -/
def execVandSForm (w : SWord) (s : State) : Host.Outcome State Fault Refusal :=
  runCompute (.vandSForm w) (laneS true w) 4 (wLogic (· &&& ·) (laneS true w)) s

/-- VAND_X_FORM (R184). -/
def execVandXForm (w : XWord) (s : State) : Host.Outcome State Fault Refusal := runCompute (.vandXForm w) w 12 (wLogic (· &&& ·) w) s

/-- VOR_S_FORM (R184). -/
def execVorSForm (w : SWord) (s : State) : Host.Outcome State Fault Refusal :=
  runCompute (.vorSForm w) (laneS true w) 4 (wLogic (· ||| ·) (laneS true w)) s

/-- VOR_X_FORM (R184). -/
def execVorXForm (w : XWord) (s : State) : Host.Outcome State Fault Refusal := runCompute (.vorXForm w) w 12 (wLogic (· ||| ·) w) s

/-- VXOR_S_FORM (R184). -/
def execVxorSForm (w : SWord) (s : State) : Host.Outcome State Fault Refusal :=
  runCompute (.vxorSForm w) (laneS true w) 4 (wLogic (· ^^^ ·) (laneS true w)) s

/-- VXOR_X_FORM (R184). -/
def execVxorXForm (w : XWord) (s : State) : Host.Outcome State Fault Refusal := runCompute (.vxorXForm w) w 12 (wLogic (· ^^^ ·) w) s

/-- VSHL_S_FORM (R184). -/
def execVshlSForm (w : SWord) (s : State) : Host.Outcome State Fault Refusal :=
  runCompute (.vshlSForm w) (laneS true w) 4 (wShift 0 (laneS true w)) s

/-- VSHL_X_FORM (R184). -/
def execVshlXForm (w : XWord) (s : State) : Host.Outcome State Fault Refusal := runCompute (.vshlXForm w) w 12 (wShift 0 w) s

/-- VSHR_S_FORM (R184). -/
def execVshrSForm (w : SWord) (s : State) : Host.Outcome State Fault Refusal :=
  runCompute (.vshrSForm w) (laneS true w) 4 (wShift 1 (laneS true w)) s

/-- VSHR_X_FORM (R184). -/
def execVshrXForm (w : XWord) (s : State) : Host.Outcome State Fault Refusal := runCompute (.vshrXForm w) w 12 (wShift 1 w) s

/-- VSRA_S_FORM (R184). -/
def execVsraSForm (w : SWord) (s : State) : Host.Outcome State Fault Refusal :=
  runCompute (.vsraSForm w) (laneS true w) 4 (wShift 2 (laneS true w)) s

/-- VSRA_X_FORM (R184). -/
def execVsraXForm (w : XWord) (s : State) : Host.Outcome State Fault Refusal := runCompute (.vsraXForm w) w 12 (wShift 2 w) s

/-- VMIN (R184). -/
def execVmin (w : XWord) (s : State) : Host.Outcome State Fault Refusal := runCompute (.vmin w) w 12 (wMinMax false w) s

/-- VMAX (R184). -/
def execVmax (w : XWord) (s : State) : Host.Outcome State Fault Refusal := runCompute (.vmax w) w 12 (wMinMax true w) s

/-- VABS (R184). -/
def execVabs (w : XWord) (s : State) : Host.Outcome State Fault Refusal := runCompute (.vabs w) w 12 (wAbsNeg false w) s

/-- VNEG (R184). -/
def execVneg (w : XWord) (s : State) : Host.Outcome State Fault Refusal := runCompute (.vneg w) w 12 (wAbsNeg true w) s

/-- VSEL (R186). -/
def execVsel (w : XWord) (s : State) : Host.Outcome State Fault Refusal :=
  runLane (.vsel w) 12 noExtra (fun x ls s => s.deliverPass x w ls (fun l y =>
    (if y.readP (bits w.fn.toNat 0 3) != bit w.fn.toNat 3 then argA w l y else argB w l y, 0))) s

/-- A per-lane instruction that writes a predicate and no belt (R187): executing lanes only. -/
def State.deliverPred (s : State) (x : Ctx) (w : XWord) (ls : List Nat) (f : Nat → Lane → Bool) : State :=
  s.modBundle x.c.gid x.c.bundle (fun b => ls.foldl (fun b l => b.modLane l (fun y => y.writeP w.d9.toNat (f l y))) b)

/-- VCMP (R187). -/
def execVcmp (w : XWord) (s : State) : Host.Outcome State Fault Refusal :=
  runLane (.vcmp w) 12 noExtra (fun x ls s => s.deliverPred x w ls (fun l y =>
    intCompare (bits w.fn.toNat 3 3) (wTy w) (wZ w) (bit w.fn.toNat 6) (argA w l y) (argB w l y))) s

/-- PLOG (R187). -/
def execPlog (w : XWord) (s : State) : Host.Outcome State Fault Refusal :=
  runLane (.plog w) 12 noExtra (fun x ls s => s.deliverPred x w ls (fun _ y =>
    bit (bits w.fn.toNat 0 4) (2 * ofBool (y.readP w.a9.toNat) + ofBool (y.readP w.b9.toNat)))) s

/-- VMOV_S_FORM (R186). -/
def execVmovSForm (w : SWord) (s : State) : Host.Outcome State Fault Refusal :=
  runCompute (.vmovSForm w) (laneS false w) 4 (plain (fun a _ _ => a)) s

/-- VMOV_SL_FORM (R31, R186). -/
def execVmovSlForm (w : SWord) (lit : W64) (s : State) : Host.Outcome State Fault Refusal :=
  runCompute (.vmovSlForm w lit) (laneSl w) 12 (plain (fun _ _ _ => lit.setWidth 32)) s

/-- VMOV_X_FORM (R186): A9 = 268 takes W2. -/
def execVmovXForm (w : XWord) (s : State) : Host.Outcome State Fault Refusal :=
  runCompute (.vmovXForm w) w 12 (plain (fun a _ _ => if w.a9 = 268 then w.imm else a)) s

/-- VFSH (R188). -/
def execVfsh (w : XWord) (s : State) : Host.Outcome State Fault Refusal :=
  runCompute (.vfsh w) { w with imm := if w.c9 = 268 then 0 else w.imm } 12
    (plain (fun a b c => funnel a b (if w.c9 = 268 then bits w.imm.toNat 0 5 else bits c.toNat 0 5))) s

/-- VRSH (R189). -/
def execVrsh (w : XWord) (s : State) : Host.Outcome State Fault Refusal :=
  runCompute (.vrsh w) w 12 (fun a b c =>
    requantise (bits w.fn.toNat 0 2) (wZ w) (rmode (bits w.m6.toNat 0 3)) (bits b.toNat 0 5) a c) s

/-- VPACK (R190). -/
def execVpack (w : XWord) (s : State) : Host.Outcome State Fault Refusal :=
  runCompute (.vpack w) w 12 (fun a b _ => packLanes (wTy w) (wZ w) (wSat w) a b) s

/-- VUNPK (R190). -/
def execVunpk (w : XWord) (s : State) : Host.Outcome State Fault Refusal :=
  runCompute (.vunpk w) w 12 (plain (fun a _ _ => unpackLanes (wTy w) (bit w.fn.toNat 3) (wZ w) a)) s

/-- VPRM (R188): the selector is C, or W2 when C9 is 268. -/
def execVprm (w : XWord) (s : State) : Host.Outcome State Fault Refusal :=
  runCompute (.vprm w) { w with imm := if w.c9 = 268 then 0 else w.imm } 12
    (plain (fun a b c => bytePermute a b (if w.c9 = 268 then bits w.imm.toNat 0 16 else bits c.toNat 0 16))) s

/-- VBITPOPC (R188). -/
def execVbitPopc (w : XWord) (s : State) : Host.Outcome State Fault Refusal := runCompute (.vbitPopc w) w 12 (plain (fun a _ _ => BitVec.ofNat 32 (popCount 32 a.toNat))) s

/-- VBITCLZ (R188). -/
def execVbitClz (w : XWord) (s : State) : Host.Outcome State Fault Refusal := runCompute (.vbitClz w) w 12 (plain (fun a _ _ => BitVec.ofNat 32 (clz 32 a.toNat))) s

/-- VBITCTZ (R188). -/
def execVbitCtz (w : XWord) (s : State) : Host.Outcome State Fault Refusal := runCompute (.vbitCtz w) w 12 (plain (fun a _ _ => BitVec.ofNat 32 (ctz 32 a.toNat))) s

/-- VBITBREV (R188). -/
def execVbitBrev (w : XWord) (s : State) : Host.Outcome State Fault Refusal := runCompute (.vbitBrev w) w 12 (plain (fun a _ _ => BitVec.ofNat 32 (brev 32 a.toNat))) s

/-- VBITBFX (R188). -/
def execVbitBfx (w : XWord) (s : State) : Host.Outcome State Fault Refusal := runCompute (.vbitBfx w) w 12 (plain (fun a b _ => laneExtract (bit w.fn.toNat 0) a b)) s

/-- VBITBFI (R188). -/
def execVbitBfi (w : XWord) (s : State) : Host.Outcome State Fault Refusal := runCompute (.vbitBfi w) w 12 (plain (fun a b c => laneInsert a b c)) s

/-! ## Cross-lane instructions (R191–R194) -/

/-- The lanes that a cross-lane instruction reads: as they stood before the first pass (R191). -/
def Ctx.before (x : Ctx) : List Lane := if x.c.snap.isEmpty then x.b.lanes else x.c.snap

/-- A of a lane as it stood before the first pass (R191). -/
def Ctx.oldA (x : Ctx) (w : XWord) (l : Nat) : W32 :=
  match x.before[l]? with
  | some y => y.read l w.a9.toNat
  | none => 0

/-- VSHFL (R192). -/
def execVshfl (w : XWord) (s : State) : Host.Outcome State Fault Refusal :=
  runLane (.vshfl w) 12 noExtra (fun x ls s => s.deliverPass x w ls (fun l y =>
    (x.oldA w (shuffleSrc (bits w.fn.toNat 0 2) (shflSeg x.g.kernel.width w.fn.toNat) l (argB w l y)), 0))) s

/-- The modifiers of a reduction word (R193). -/
def wMods (w : XWord) : FloatMods := floatMods w.m6.toNat

/-- VRED (R193). -/
def execVred (w : XWord) (s : State) : Host.Outcome State Fault Refusal :=
  runLane (.vred w) 12 noExtra (fun x ls s =>
    let r := reduceLanes (bits w.fn.toNat 0 4) (wSat w) (wMods w)
      ((List.range x.b.lanes.length).map (fun l => if ls.contains l then some (x.oldA w l) else none))
    s.deliverPass x w ls (fun _ _ => r)) s

/-- VSCN (R193). -/
def execVscn (w : XWord) (s : State) : Host.Outcome State Fault Refusal :=
  runLane (.vscn w) 12 noExtra (fun x ls s =>
    let rs := scanLanes (bits w.fn.toNat 0 4) (wSat w) (bit w.fn.toNat 4) (wMods w) (ls.map (x.oldA w))
    s.deliverPass x w ls (fun l _ => ((ls.zip rs).lookup l).getD (0, 0))) s

/-- VBAL (R194). -/
def execVbal (w : XWord) (s : State) : Host.Outcome State Fault Refusal :=
  runLane (.vbal w) 12 noExtra (fun x ls s =>
    let h := w.fn.toNat
    let m := listMask ((ls.filter (fun l => l / 32 == h && x.oldA w l != 0)).map (fun l => l % 32))
    s.deliverPass x w ls (fun _ _ => (BitVec.ofNat 32 m, 0))) s

end Sys2Proof.Machine
end

