-- ==== Sys2Proof/Machine/Dispatch.lean ====
section
/-!
DEFINITION. The dispatch: one arm for each row of the opcode table, each a call of its meaning.
-/

namespace Sys2Proof.Machine

def exec (i : Instr) (s : State) : Host.Outcome State Fault Refusal :=
  match i with
  | .bra w => Sys2Proof.Machine.execBra w s
  | .brx w => Sys2Proof.Machine.execBrx w s
  | .bru w => Sys2Proof.Machine.execBru w s
  | .call w => Sys2Proof.Machine.execCall w s
  | .callIndirect w => Sys2Proof.Machine.execCallIndirect w s
  | .planeSet w => Sys2Proof.Machine.execPlaneSet w s
  | .planeMov w => Sys2Proof.Machine.execPlaneMov w s
  | .planeGet w => Sys2Proof.Machine.execPlaneGet w s
  | .planeBal w => Sys2Proof.Machine.execPlaneBal w s
  | .yield w => Sys2Proof.Machine.execYield w s
  | .trap w => Sys2Proof.Machine.execTrap w s
  | .barInit w => Sys2Proof.Machine.execBarInit w s
  | .barArrive w => Sys2Proof.Machine.execBarArrive w s
  | .barWait w => Sys2Proof.Machine.execBarWait w s
  | .barMeet w => Sys2Proof.Machine.execBarMeet w s
  | .barArriveRemote w => Sys2Proof.Machine.execBarArriveRemote w s
  | .barRed w => Sys2Proof.Machine.execBarRed w s
  | .barQuery w => Sys2Proof.Machine.execBarQuery w s
  | .waitTok w => Sys2Proof.Machine.execWaitTok w s
  | .waitTl w => Sys2Proof.Machine.execWaitTl w s
  | .fence w => Sys2Proof.Machine.execFence w s
  | .fenceAlias w => Sys2Proof.Machine.execFenceAlias w s
  | .grpJoin w => Sys2Proof.Machine.execGrpJoin w s
  | .grpLeave w => Sys2Proof.Machine.execGrpLeave w s
  | .grpQuery w => Sys2Proof.Machine.execGrpQuery w s
  | .grpPublish w => Sys2Proof.Machine.execGrpPublish w s
  | .saddSForm w => Sys2Proof.Machine.execSaddSForm w s
  | .saddSlForm w lit => Sys2Proof.Machine.execSaddSlForm w lit s
  | .saddXForm w => Sys2Proof.Machine.execSaddXForm w s
  | .ssubSForm w => Sys2Proof.Machine.execSsubSForm w s
  | .ssubSlForm w lit => Sys2Proof.Machine.execSsubSlForm w lit s
  | .ssubXForm w => Sys2Proof.Machine.execSsubXForm w s
  | .smulSForm w => Sys2Proof.Machine.execSmulSForm w s
  | .smulSlForm w lit => Sys2Proof.Machine.execSmulSlForm w lit s
  | .smulXForm w => Sys2Proof.Machine.execSmulXForm w s
  | .smulhSForm w => Sys2Proof.Machine.execSmulhSForm w s
  | .smulhSlForm w lit => Sys2Proof.Machine.execSmulhSlForm w lit s
  | .smulhXForm w => Sys2Proof.Machine.execSmulhXForm w s
  | .smulhZ w => Sys2Proof.Machine.execSmulhZ w s
  | .sdivS w => Sys2Proof.Machine.execSdivS w s
  | .sdivZ w => Sys2Proof.Machine.execSdivZ w s
  | .sremS w => Sys2Proof.Machine.execSremS w s
  | .sremZ w => Sys2Proof.Machine.execSremZ w s
  | .sandSForm w => Sys2Proof.Machine.execSandSForm w s
  | .sandSlForm w lit => Sys2Proof.Machine.execSandSlForm w lit s
  | .sandXForm w => Sys2Proof.Machine.execSandXForm w s
  | .sorSForm w => Sys2Proof.Machine.execSorSForm w s
  | .sorSlForm w lit => Sys2Proof.Machine.execSorSlForm w lit s
  | .sorXForm w => Sys2Proof.Machine.execSorXForm w s
  | .sxorSForm w => Sys2Proof.Machine.execSxorSForm w s
  | .sxorSlForm w lit => Sys2Proof.Machine.execSxorSlForm w lit s
  | .sxorXForm w => Sys2Proof.Machine.execSxorXForm w s
  | .sshlSForm w => Sys2Proof.Machine.execSshlSForm w s
  | .sshlSlForm w lit => Sys2Proof.Machine.execSshlSlForm w lit s
  | .sshlXForm w => Sys2Proof.Machine.execSshlXForm w s
  | .sshrSForm w => Sys2Proof.Machine.execSshrSForm w s
  | .sshrSlForm w lit => Sys2Proof.Machine.execSshrSlForm w lit s
  | .sshrXForm w => Sys2Proof.Machine.execSshrXForm w s
  | .ssraSForm w => Sys2Proof.Machine.execSsraSForm w s
  | .ssraSlForm w lit => Sys2Proof.Machine.execSsraSlForm w lit s
  | .ssraXForm w => Sys2Proof.Machine.execSsraXForm w s
  | .sminS w => Sys2Proof.Machine.execSminS w s
  | .sminZ w => Sys2Proof.Machine.execSminZ w s
  | .smaxS w => Sys2Proof.Machine.execSmaxS w s
  | .smaxZ w => Sys2Proof.Machine.execSmaxZ w s
  | .scmp w => Sys2Proof.Machine.execScmp w s
  | .ssel w => Sys2Proof.Machine.execSsel w s
  | .sli w lit => Sys2Proof.Machine.execSli w lit s
  | .smov w => Sys2Proof.Machine.execSmov w s
  | .saddr w => Sys2Proof.Machine.execSaddr w s
  | .sbitPopc w => Sys2Proof.Machine.execSbitPopc w s
  | .sbitClz w => Sys2Proof.Machine.execSbitClz w s
  | .sbitCtz w => Sys2Proof.Machine.execSbitCtz w s
  | .sbitBfx w => Sys2Proof.Machine.execSbitBfx w s
  | .sbitBfi w => Sys2Proof.Machine.execSbitBfi w s
  | .sbitBrev w => Sys2Proof.Machine.execSbitBrev w s
  | .sbitBfxS w => Sys2Proof.Machine.execSbitBfxS w s
  | .srd w => Sys2Proof.Machine.execSrd w s
  | .vget w => Sys2Proof.Machine.execVget w s
  | .vgetS w => Sys2Proof.Machine.execVgetS w s
  | .sld w => Sys2Proof.Machine.execSld w s
  | .sst w => Sys2Proof.Machine.execSst w s
  | .satom w => Sys2Proof.Machine.execSatom w s
  | .vaddSForm w => Sys2Proof.Machine.execVaddSForm w s
  | .vaddXForm w => Sys2Proof.Machine.execVaddXForm w s
  | .vsubSForm w => Sys2Proof.Machine.execVsubSForm w s
  | .vsubXForm w => Sys2Proof.Machine.execVsubXForm w s
  | .vmulSForm w => Sys2Proof.Machine.execVmulSForm w s
  | .vmulXForm w => Sys2Proof.Machine.execVmulXForm w s
  | .vmulhSForm w => Sys2Proof.Machine.execVmulhSForm w s
  | .vmulhXForm w => Sys2Proof.Machine.execVmulhXForm w s
  | .vmad w => Sys2Proof.Machine.execVmad w s
  | .vdot4 w => Sys2Proof.Machine.execVdot4 w s
  | .vandSForm w => Sys2Proof.Machine.execVandSForm w s
  | .vandXForm w => Sys2Proof.Machine.execVandXForm w s
  | .vorSForm w => Sys2Proof.Machine.execVorSForm w s
  | .vorXForm w => Sys2Proof.Machine.execVorXForm w s
  | .vxorSForm w => Sys2Proof.Machine.execVxorSForm w s
  | .vxorXForm w => Sys2Proof.Machine.execVxorXForm w s
  | .vshlSForm w => Sys2Proof.Machine.execVshlSForm w s
  | .vshlXForm w => Sys2Proof.Machine.execVshlXForm w s
  | .vshrSForm w => Sys2Proof.Machine.execVshrSForm w s
  | .vshrXForm w => Sys2Proof.Machine.execVshrXForm w s
  | .vsraSForm w => Sys2Proof.Machine.execVsraSForm w s
  | .vsraXForm w => Sys2Proof.Machine.execVsraXForm w s
  | .vmin w => Sys2Proof.Machine.execVmin w s
  | .vmax w => Sys2Proof.Machine.execVmax w s
  | .vabs w => Sys2Proof.Machine.execVabs w s
  | .vneg w => Sys2Proof.Machine.execVneg w s
  | .vsel w => Sys2Proof.Machine.execVsel w s
  | .vcmp w => Sys2Proof.Machine.execVcmp w s
  | .vmovSForm w => Sys2Proof.Machine.execVmovSForm w s
  | .vmovSlForm w lit => Sys2Proof.Machine.execVmovSlForm w lit s
  | .vmovXForm w => Sys2Proof.Machine.execVmovXForm w s
  | .vfsh w => Sys2Proof.Machine.execVfsh w s
  | .vbitPopc w => Sys2Proof.Machine.execVbitPopc w s
  | .vbitClz w => Sys2Proof.Machine.execVbitClz w s
  | .vbitCtz w => Sys2Proof.Machine.execVbitCtz w s
  | .vbitBrev w => Sys2Proof.Machine.execVbitBrev w s
  | .vbitBfx w => Sys2Proof.Machine.execVbitBfx w s
  | .vbitBfi w => Sys2Proof.Machine.execVbitBfi w s
  | .vrsh w => Sys2Proof.Machine.execVrsh w s
  | .vpack w => Sys2Proof.Machine.execVpack w s
  | .vunpk w => Sys2Proof.Machine.execVunpk w s
  | .vshfl w => Sys2Proof.Machine.execVshfl w s
  | .vred w => Sys2Proof.Machine.execVred w s
  | .vscn w => Sys2Proof.Machine.execVscn w s
  | .vbal w => Sys2Proof.Machine.execVbal w s
  | .plog w => Sys2Proof.Machine.execPlog w s
  | .vprm w => Sys2Proof.Machine.execVprm w s
  | .vlut w => Sys2Proof.Machine.execVlut w s
  | .vlutHi w => Sys2Proof.Machine.execVlutHi w s
  | .vlutP2 w => Sys2Proof.Machine.execVlutP2 w s
  | .pair w => Sys2Proof.Machine.execPair w s
  | .faddSForm w => Sys2Proof.Machine.execFaddSForm w s
  | .faddXForm w => Sys2Proof.Machine.execFaddXForm w s
  | .fsubSForm w => Sys2Proof.Machine.execFsubSForm w s
  | .fsubXForm w => Sys2Proof.Machine.execFsubXForm w s
  | .fmulSForm w => Sys2Proof.Machine.execFmulSForm w s
  | .fmulXForm w => Sys2Proof.Machine.execFmulXForm w s
  | .ffmaSForm w => Sys2Proof.Machine.execFfmaSForm w s
  | .ffmaXForm w => Sys2Proof.Machine.execFfmaXForm w s
  | .fmin w => Sys2Proof.Machine.execFmin w s
  | .fmax w => Sys2Proof.Machine.execFmax w s
  | .fminn w => Sys2Proof.Machine.execFminn w s
  | .fmaxn w => Sys2Proof.Machine.execFmaxn w s
  | .fneg w => Sys2Proof.Machine.execFneg w s
  | .fabs w => Sys2Proof.Machine.execFabs w s
  | .fcpys w => Sys2Proof.Machine.execFcpys w s
  | .fcmp w => Sys2Proof.Machine.execFcmp w s
  | .fcvt w => Sys2Proof.Machine.execFcvt w s
  | .frcpSForm w => Sys2Proof.Machine.execFrcpSForm w s
  | .frcpXForm w => Sys2Proof.Machine.execFrcpXForm w s
  | .frsqSForm w => Sys2Proof.Machine.execFrsqSForm w s
  | .frsqXForm w => Sys2Proof.Machine.execFrsqXForm w s
  | .fsqrtSForm w => Sys2Proof.Machine.execFsqrtSForm w s
  | .fsqrtXForm w => Sys2Proof.Machine.execFsqrtXForm w s
  | .fexp2SForm w => Sys2Proof.Machine.execFexp2SForm w s
  | .fexp2XForm w => Sys2Proof.Machine.execFexp2XForm w s
  | .flog2SForm w => Sys2Proof.Machine.execFlog2SForm w s
  | .flog2XForm w => Sys2Proof.Machine.execFlog2XForm w s
  | .fsinSForm w => Sys2Proof.Machine.execFsinSForm w s
  | .fsinXForm w => Sys2Proof.Machine.execFsinXForm w s
  | .fcosSForm w => Sys2Proof.Machine.execFcosSForm w s
  | .fcosXForm w => Sys2Proof.Machine.execFcosXForm w s
  | .ftanhSForm w => Sys2Proof.Machine.execFtanhSForm w s
  | .ftanhXForm w => Sys2Proof.Machine.execFtanhXForm w s
  | .fcls w => Sys2Proof.Machine.execFcls w s
  | .fscl w => Sys2Proof.Machine.execFscl w s
  | .fdot2 w => Sys2Proof.Machine.execFdot2 w s
  | .frnd w => Sys2Proof.Machine.execFrnd w s
  | .bfpq w => Sys2Proof.Machine.execBfpq w s
  | .bfpd w => Sys2Proof.Machine.execBfpd w s
  | .ld w => Sys2Proof.Machine.execLd w s
  | .st w => Sys2Proof.Machine.execSt w s
  | .lds w => Sys2Proof.Machine.execLds w s
  | .sts w => Sys2Proof.Machine.execSts w s
  | .atom w => Sys2Proof.Machine.execAtom w s
  | .presClr w => Sys2Proof.Machine.execPresClr w s
  | .presSet w => Sys2Proof.Machine.execPresSet w s
  | .presTest w => Sys2Proof.Machine.execPresTest w s
  | .tlocEnt w => Sys2Proof.Machine.execTlocEnt w s
  | .tloc w => Sys2Proof.Machine.execTloc w s
  | .tbind w => Sys2Proof.Machine.execTbind w s
  | .tbindClr w => Sys2Proof.Machine.execTbindClr w s
  | .texp w => Sys2Proof.Machine.execTexp w s
  | .tenc w => Sys2Proof.Machine.execTenc w s
  | .ctld w => Sys2Proof.Machine.execCtld w s
  | .ctldSpm w => Sys2Proof.Machine.execCtldSpm w s
  | .ctst w => Sys2Proof.Machine.execCtst w s
  | .cpyLinG2s w => Sys2Proof.Machine.execCpyLinG2s w s
  | .cpyLinS2g w => Sys2Proof.Machine.execCpyLinS2g w s
  | .cpyLinG2g w => Sys2Proof.Machine.execCpyLinG2g w s
  | .cpyTileG2s w => Sys2Proof.Machine.execCpyTileG2s w s
  | .cpyTileG2sCh w lit => Sys2Proof.Machine.execCpyTileG2sCh w lit s
  | .cpyRowsG2s w => Sys2Proof.Machine.execCpyRowsG2s w s
  | .cpyMcastG2s w => Sys2Proof.Machine.execCpyMcastG2s w s
  | .cpyMcastS2s w => Sys2Proof.Machine.execCpyMcastS2s w s
  | .cpyFill w => Sys2Proof.Machine.execCpyFill w s
  | .mma w => Sys2Proof.Machine.execMma w s
  | .mmaCrew w lit => Sys2Proof.Machine.execMmaCrew w lit s
  | .mmaSp w => Sys2Proof.Machine.execMmaSp w s
  | .bload w => Sys2Proof.Machine.execBload w s
  | .accWin w => Sys2Proof.Machine.execAccWin w s
  | .accLd w => Sys2Proof.Machine.execAccLd w s
  | .accSt w => Sys2Proof.Machine.execAccSt w s
  | .accZero w => Sys2Proof.Machine.execAccZero w s
  | .accOut w => Sys2Proof.Machine.execAccOut w s
  | .scanOpdef w => Sys2Proof.Machine.execScanOpdef w s
  | .scanBegin w => Sys2Proof.Machine.execScanBegin w s
  | .scanTile w => Sys2Proof.Machine.execScanTile w s
  | .scanPub w => Sys2Proof.Machine.execScanPub w s
  | .scanCarry w => Sys2Proof.Machine.execScanCarry w s
  | .scanFix w => Sys2Proof.Machine.execScanFix w s
  | .scanEnd w => Sys2Proof.Machine.execScanEnd w s
  | .spawn w => Sys2Proof.Machine.execSpawn w s
  | .launchInstruction w => Sys2Proof.Machine.execLaunchInstruction w s
  | .jcInit w => Sys2Proof.Machine.execJcInit w s
  | .jcAdd w => Sys2Proof.Machine.execJcAdd w s
  | .collRed w => Sys2Proof.Machine.execCollRed w s
  | .collAr w => Sys2Proof.Machine.execCollAr w s
  | .collBc w => Sys2Proof.Machine.execCollBc w s
  | .dbgHread w => Sys2Proof.Machine.execDbgHread w s
  | .dbgHwrite w => Sys2Proof.Machine.execDbgHwrite w s
  | .dbgHstep w => Sys2Proof.Machine.execDbgHstep w s
  | .dbgHresume w => Sys2Proof.Machine.execDbgHresume w s
  | .dbgHstat w => Sys2Proof.Machine.execDbgHstat w s
  | .dbgHalt w => Sys2Proof.Machine.execDbgHalt w s
  | .watchSet w => Sys2Proof.Machine.execWatchSet w s
  | .watchClr w => Sys2Proof.Machine.execWatchClr w s
  | .watchGet w => Sys2Proof.Machine.execWatchGet w s
  | .watchArm w => Sys2Proof.Machine.execWatchArm w s
  | .perfRd w => Sys2Proof.Machine.execPerfRd w s
  | .perfSel w => Sys2Proof.Machine.execPerfSel w s
  | .perfSamp w => Sys2Proof.Machine.execPerfSamp w s
  | .csrRd w => Sys2Proof.Machine.execCsrRd w s
  | .csrWrFaultact w => Sys2Proof.Machine.execCsrWrFaultact w s
  | .csrWrCecnt w => Sys2Proof.Machine.execCsrWrCecnt w s
  | .csrWrUecnt w => Sys2Proof.Machine.execCsrWrUecnt w s
  | .csrWrStopreq w => Sys2Proof.Machine.execCsrWrStopreq w s
  | .csrWr w => Sys2Proof.Machine.execCsrWr w s
  | .nop => Sys2Proof.Machine.execNop s
  | .ret => Sys2Proof.Machine.execRet s
  | .join => Sys2Proof.Machine.execJoin s
  | .regang => Sys2Proof.Machine.execRegang s
  | .exit => Sys2Proof.Machine.execExit s
  | .powerRailEnable => Sys2Proof.Machine.execPowerRailEnable s
  | .moduleReset asserted => Sys2Proof.Machine.execModuleReset asserted s
  | .powerDown => Sys2Proof.Machine.execPowerDown s
  | .tikelTraining passed => Sys2Proof.Machine.execTikelTraining passed s
  | .trainingRetry => Sys2Proof.Machine.execTrainingRetry s
  | .ack lsn av => Sys2Proof.Machine.execAck lsn av s
  | .ackOnlyTimer => Sys2Proof.Machine.execAckOnlyTimer s
  | .resendTimeout => Sys2Proof.Machine.execResendTimeout s
  | .unlistedMessage kind m => Sys2Proof.Machine.execUnlistedMessage kind m s
  | .firmware m img => Sys2Proof.Machine.execFirmware m img s
  | .attestReq m nonce => Sys2Proof.Machine.execAttestReq m nonce s
  | .attestReport => Sys2Proof.Machine.execAttestReport s
  | .devtimeStart offs => Sys2Proof.Machine.execDevtimeStart offs s
  | .devtimeCheck die off => Sys2Proof.Machine.execDevtimeCheck die off s
  | .memoryAndFabric => Sys2Proof.Machine.execMemoryAndFabric s
  | .thermalLimit die => Sys2Proof.Machine.execThermalLimit die s
  | .overtempShutdown die => Sys2Proof.Machine.execOvertempShutdown die s
  | .partset m body => Sys2Proof.Machine.execPartset m body s
  | .compass m body => Sys2Proof.Machine.execCompass m body s
  | .partattr m body => Sys2Proof.Machine.execPartattr m body s
  | .partreset m part => Sys2Proof.Machine.execPartreset m part s
  | .resetDone die part => Sys2Proof.Machine.execResetDone die part s
  | .resetTimeout die part => Sys2Proof.Machine.execResetTimeout die part s
  | .ringset m part die va entries => Sys2Proof.Machine.execRingset m part die va entries s
  | .memread m a => Sys2Proof.Machine.execMemread m a s
  | .memwrite m a bytes => Sys2Proof.Machine.execMemwrite m a bytes s
  | .launch m packet => Sys2Proof.Machine.execLaunch m packet s
  | .resideOk m of => Sys2Proof.Machine.execResideOk m of s
  | .resideFail m of => Sys2Proof.Machine.execResideFail m of s
  | .resideTimeout die lkey => Sys2Proof.Machine.execResideTimeout die lkey s
  | .leaseReady die lkey => Sys2Proof.Machine.execLeaseReady die lkey s
  | .leaseFail die lkey => Sys2Proof.Machine.execLeaseFail die lkey s
  | .crewPlace die => Sys2Proof.Machine.execCrewPlace die s
  | .backfillTimeout die => Sys2Proof.Machine.execBackfillTimeout die s
  | .late die arrival => Sys2Proof.Machine.execLate die arrival s
  | .pinseg m b => Sys2Proof.Machine.execPinseg m b s
  | .pinfree m part seg => Sys2Proof.Machine.execPinfree m part seg s
  | .invalidate m part va pages => Sys2Proof.Machine.execInvalidate m part va pages s
  | .invalAck die core inv => Sys2Proof.Machine.execInvalAck die core inv s
  | .homeAgentRequest op lane => Sys2Proof.Machine.execHomeAgentRequest op lane s
  | .pageWalkComplete op lane => Sys2Proof.Machine.execPageWalkComplete op lane s
  | .sliceAccess op lane => Sys2Proof.Machine.execSliceAccess op lane s
  | .invalBatch die src => Sys2Proof.Machine.execInvalBatch die src s
  | .loadDataReturn op => Sys2Proof.Machine.execLoadDataReturn op s
  | .crewScratchpadAccess op => Sys2Proof.Machine.execCrewScratchpadAccess op s
  | .xvreg m part die xid desc tabs => Sys2Proof.Machine.execXvreg m part die xid desc tabs s
  | .xvfree m part die xid => Sys2Proof.Machine.execXvfree m part die xid s
  | .expandedViewRead op lane => Sys2Proof.Machine.execExpandedViewRead op lane s
  | .collreg m part gid ends idxs => Sys2Proof.Machine.execCollreg m part gid ends idxs s
  | .fabricFrame f => Sys2Proof.Machine.execFabricFrame f s
  | .preempt m part die lid => Sys2Proof.Machine.execPreempt m part die lid s
  | .wswitch m part die => Sys2Proof.Machine.execWswitch m part die s
  | .wresume m part die => Sys2Proof.Machine.execWresume m part die s
  | .stopSave crew => Sys2Proof.Machine.execStopSave crew s
  | .dump m part die lid idx => Sys2Proof.Machine.execDump m part die lid idx s
  | .dumpDone crew => Sys2Proof.Machine.execDumpDone crew s
  | .dumpRelease m crew resume => Sys2Proof.Machine.execDumpRelease m crew resume s
  | .sxentry m part die e words => Sys2Proof.Machine.execSxentry m part die e words s
  | .sxprog m part die n words => Sys2Proof.Machine.execSxprog m part die n words s
  | .attach m body => Sys2Proof.Machine.execAttach m body s
  | .debug m part die d => Sys2Proof.Machine.execDebug m part die d s
  | .perfset m part die mask => Sys2Proof.Machine.execPerfset m part die mask s
  | .sampring m part die va entries => Sys2Proof.Machine.execSampring m part die va entries s
  | .pcSample gid => Sys2Proof.Machine.execPcSample gid s
  | .waitTick gid b => Sys2Proof.Machine.execWaitTick gid b s
  | .copyChunk op => Sys2Proof.Machine.execCopyChunk op s
  | .matrixKStep op => Sys2Proof.Machine.execMatrixKStep op s
  | .bloadSlotSwitch op => Sys2Proof.Machine.execBloadSlotSwitch op s
  | .decoderResume gid b sub => Sys2Proof.Machine.execDecoderResume gid b sub s
  | .texpDecodeDone gid b sub => Sys2Proof.Machine.execTexpDecodeDone gid b sub s
  | .tencPublish gid b sub => Sys2Proof.Machine.execTencPublish gid b sub s
  | .ctldFill gid b sub => Sys2Proof.Machine.execCtldFill gid b sub s
  | .scanTilePerform op => Sys2Proof.Machine.execScanTilePerform op s
  | .carryOutFormed gid => Sys2Proof.Machine.execCarryOutFormed gid s
  | .scanFixPerform op => Sys2Proof.Machine.execScanFixPerform op s
  | .carryArrive carry => Sys2Proof.Machine.execCarryArrive carry s
  | .remoteArrival arr => Sys2Proof.Machine.execRemoteArrival arr s
  | .collComplete op => Sys2Proof.Machine.execCollComplete op s
  | .collTimeout op => Sys2Proof.Machine.execCollTimeout op s
  | .sextantProgramRun run => Sys2Proof.Machine.execSextantProgramRun run s
  | .haltTakesEffect halt => Sys2Proof.Machine.execHaltTakesEffect halt s
  | .softErrorCorrected die core part => Sys2Proof.Machine.execSoftErrorCorrected die core part s
  | .deviceStructureError die part refetched => Sys2Proof.Machine.execDeviceStructureError die part refetched s
  | .gangRetire gid => Sys2Proof.Machine.execGangRetire gid s
  | .crewRetire crew => Sys2Proof.Machine.execCrewRetire crew s
  | .frameCrcFail => Sys2Proof.Machine.execFrameCrcFail s
  | .instructionCacheFill gid b sub => Sys2Proof.Machine.execInstructionCacheFill gid b sub s
  | .leaseShareReport src die lkey => Sys2Proof.Machine.execLeaseShareReport src die lkey s

end Sys2Proof.Machine
end

