-- ==== Sys2Proof/Machine/Receive.lean ====
section
/-!
DEFINITION. What arrives on the link (R11, R12): frames in LSN order, the message that they carry, and its body taken apart for the
meaning that acts on it.
-/

namespace Sys2Proof.Machine

/-! ## Bodies (R12) -/

/-- The fields of a body in order, each of its width, and what follows them; none where the body is too short. -/
def fieldsFrom : List Nat → List Byte → Option (List Nat × List Byte)
  | [], bs => some ([], bs)
  | n :: ns, bs =>
    if bs.length < n then none
    else
      match fieldsFrom ns (bs.drop n) with
      | some r => some (leNat (bs.take n) :: r.1, r.2)
      | none => none

/-- The fields of a body that they fill to its end. -/
def allFields (ns : List Nat) (bs : List Byte) : Option (List Nat) :=
  match fieldsFrom ns bs with
  | some (fs, []) => some fs
  | _ => none

/-- A body that ends in a list of values of n bytes each: its fields and the values. -/
def listAfter (ns : List Nat) (n : Nat) (bs : List Byte) : Option (List Nat × List Nat) :=
  match fieldsFrom ns bs with
  | some (fs, rest) => (allFields (List.replicate (rest.length / n) n) rest).map (fun vs => (fs, vs))
  | none => none

/-- A firmware image (R13): key, version, code and signature, as its signed bytes are laid out (log 13). -/
def imageOf (bs : List Byte) : Option FwImage :=
  if bs.length < 132 then none
  else some ⟨bs.take 64, leAt bs 64 4, (bs.drop 68).take (bs.length - 132), bs.drop (bs.length - 64)⟩

/-- The body of a PARTSET (R408). -/
def partSetOf (bs : List Byte) : Option PartSet :=
  match allFields [1, 2, 1, 1, 1, 1, 1, 1, 1, 1, 2, 4, 1, 8, 8, 8, 8, 8, 8, 8, 8, 8] bs with
  | some (part :: key :: fs) =>
    some ⟨part, BitVec.ofNat 16 key, fs.take 8, fs.getD 8 0, fs.getD 9 0, fs.getD 10 0, ((fs.drop 11).take 8).map (BitVec.ofNat 64),
      BitVec.ofNat 64 (fs.getD 19 0)⟩
  | _ => none

/-- A partition and a one-byte value (R408). -/
def partFlagOf (bs : List Byte) : Option PartFlag :=
  match allFields [1, 1] bs with
  | some [part, v] => some ⟨part, v⟩
  | _ => none

/-- The crew that a DUMP_RELEASE names as its DUMP did (R362), or a number that no crew has. -/
def State.dumpNamed (s : State) (part die lid idx : Nat) : Nat :=
  match s.crews.find? (fun c => c.part == part && c.die == die && c.index == idx && (s.lidOf c.cid).toNat == lid && c.dumpSlot.isSome) with
  | some c => c.cid
  | none => s.nextId

/-- The meaning of a message by its TYPE and body (R12): the fields that its rule names, in order, each in the fewest of 1, 2, 4 or 8 bytes
that hold its range, none where the body does not hold them. DESIGN CHOICE (log 24): the HBM weight of a PARTSET takes 4 bytes, a COLLREG
counts its participants in one byte and gives each an endpoint of 4 and an index of 2, a DEBUG names the die, the partition, the FN of its
instruction and three operands of 8 bytes, and a DUMP_RELEASE names the crew as DUMP does and 0 for RESUME or 1 for END. -/
def State.messageOf (s : State) (kind : Nat) (m : MsgId) (bs : List Byte) : Option (State → Host.Outcome State Fault Refusal) :=
  let w (n : Nat) : W64 := BitVec.ofNat 64 n
  match kind with
  | 1 => if bs.length ≤ 256 then some (execLaunch m (fitBytes 256 bs)) else none
  | 5 => (imageOf bs).map (fun f => execFirmware m f)
  | 6 => some (execAttestReq m bs)
  | 8 => some (execPartset m (partSetOf bs))
  | 9 => some (execPartreset m ((allFields [1] bs).bind (fun fs => fs.head?)))
  | 10 => some (execCompass m ((allFields [1, 1, 1, 1, 1, 1, 1, 1, 1] bs).map (fun fs => ⟨fs.headD 0, fs.drop 1⟩)))
  | 11 =>
    match allFields [1, 1, 8, 4] bs with
    | some [p, d, va, n] => some (execRingset m p d (w va) n)
    | _ => some (fun s => onMessage 1 0 s (fun s => s.reply m 1))
  | 13 => (allFields [4] bs).map (fun fs => execResideOk m (BitVec.ofNat 32 (fs.headD 0)))
  | 14 => (allFields [4] bs).map (fun fs => execResideFail m (BitVec.ofNat 32 (fs.headD 0)))
  | 15 => match allFields [1, 8, 8] bs with | some [p, va, n] => some (execInvalidate m p (w va) n) | _ => none
  | 17 => match allFields [1, 2, 1, 1, 1, 4] bs with | some [p, g, d, c, n, k] => some (execPinseg m ⟨p, g, d, c, n, k⟩) | _ => none
  | 18 => match allFields [1, 2] bs with | some [p, g] => some (execPinfree m p g) | _ => none
  | 19 => match listAfter [1, 1, 2, 8] 8 bs with | some ([p, d, x, va], ts) => some (execXvreg m p d x (w va) (ts.map w)) | _ => none
  | 20 => match allFields [1, 1, 2] bs with | some [p, d, x] => some (execXvfree m p d x) | _ => none
  | 21 =>
    match fieldsFrom [1, 4, 1] bs with
    | some ([p, g, n], rest) =>
      (allFields ((List.range n).flatMap (fun _ => [4, 2])) rest).map (fun fs =>
        execCollreg m p (BitVec.ofNat 32 g) ((List.range n).map (fun i => fs.getD (2 * i) 0)) ((List.range n).map (fun i => fs.getD (2 * i + 1) 0)))
    | _ => none
  | 22 => some (execPartattr m (partFlagOf bs))
  | 23 => match allFields [1, 1, 8] bs with | some [p, d, l] => some (execPreempt m p d (w l)) | _ => none
  | 24 => match allFields [1, 1] bs with | some [p, d] => some (execWswitch m p d) | _ => none
  | 25 => match allFields [1, 1] bs with | some [p, d] => some (execWresume m p d) | _ => none
  | 26 => match listAfter [1, 1, 1] 8 bs with | some ([p, d, e], ws) => some (execSxentry m p d e (ws.map w)) | _ => none
  | 27 => match listAfter [1, 1, 1] 4 bs with | some ([p, d, n], ws) => some (execSxprog m p d n (ws.map (BitVec.ofNat 32))) | _ => none
  | 28 => some (execAttach m (partFlagOf bs))
  | 29 => match allFields [1, 1, 1, 8, 8, 8] bs with | some [d, p, f, a, b, c] => some (execDebug m p d ⟨f, w a, w b, w c⟩) | _ => none
  | 30 => match allFields [1, 1, 2] bs with | some [p, d, k] => some (execPerfset m p d (BitVec.ofNat 16 k)) | _ => none
  | 31 => match allFields [1, 1, 8, 4] bs with | some [p, d, va, n] => some (execSampring m p d (w va) n) | _ => none
  | 32 => match allFields [1, 1, 8, 4] bs with | some [p, d, l, i] => some (execDump m p d (w l) i) | _ => none
  | 34 =>
    match allFields [1, 1, 8, 4, 1] bs with
    | some [p, d, l, i, e] => if e > 1 then none else some (execDumpRelease m (s.dumpNamed p d l i) (e == 0))
    | _ => none
  | 35 => match allFields [1, 1, 8, 4] bs with | some [sel, u, a, n] => some (execMemread m ⟨sel, u, w a, n⟩) | _ => none
  | 37 => match fieldsFrom [1, 1, 8, 4] bs with | some ([sel, u, a, n], rest) => some (execMemwrite m ⟨sel, u, w a, n⟩ rest) | _ => none
  | _ => none

/-! ## Frames (R11, R12) -/

/-- The module acts on a message of n frames (R9, R12): one that R12 does not list to it is answered by 0xFFFF, and one whose body does not
hold its fields is refused. DESIGN CHOICE (log 24): no rule names that refusal's status where R408 does not. -/
def State.deliverMessage (s : State) (kind : Nat) (m : MsgId) (n : Nat) (bs : List Byte) : Host.Outcome State Fault Refusal :=
  if !typeListed kind then .next ((s.received n).reply m 0xFFFF)
  else
    match s.messageOf kind m bs with
    | some act => act s
    | none => if kind == 5 then .next ((s.received n).refuse m) else onMessage n 0 s (fun s => s.refuse m)

/-- The oldest frame on the line, in order and without an error (R11, R12): its acknowledgement is applied, its bytes join those of its
message, and with its LAST frame the message is delivered; frames come in LSN order and messages are not interleaved, so messages are
delivered in MSGID order. An ACK-only frame carries nothing more. -/
def State.receive (s : State) : Host.Outcome State Fault Refusal :=
  match s.arriving with
  | [] => .fault .notEnabled
  | f :: rest =>
    if !s.linkUp || s.link.discards f then .fault .notEnabled
    else
      let flags := leAt f 5 1
      let l := if bit flags 2 then s.link.acked (BitVec.ofNat 16 (leAt f 2 2)) else s.link
      let body := (if bit flags 0 then [] else l.rxBody) ++ (f.drop 12).take (min 256 (leAt f 6 2))
      if leAt f 4 1 == 0 then .next { s with link := l, arriving := rest }
      else if !bit flags 1 then .next (State.received { s with link := { l with rxBody := body }, arriving := rest } 1)
      else
        let n := max 1 ((body.length + 255) / 256)
        State.deliverMessage { s with link := { l with rxBody := [], rxLast := some (lsnOf f - BitVec.ofNat 16 n) }, arriving := rest }
          (leAt f 4 1) (BitVec.ofNat 32 (leAt f 8 4)) n body

end Sys2Proof.Machine
end

