-- ==== Sys2Proof/Machine/Turns.lean ====
section
/-!
DEFINITION. What the module does by itself when the environment fixes no turn (model, log 9): the device's own events and the
issue of sub-bundles, each in rotation.
-/

namespace Sys2Proof.Machine

/-- An outcome of the step. -/
abbrev Outcome := Host.Outcome State Fault Refusal

/-- A turn that may be tried. -/
abbrev Try := State → Outcome

/-- Whether an outcome is a next state. -/
def isNext : Outcome → Bool
  | .next _ => true
  | _ => false

/-- The first turn of a list that yields a next state. -/
def firstEnabled (s : State) : List Try → Option Outcome
  | [] => none
  | t :: ts => match t s with | .next s' => some (.next s') | _ => firstEnabled s ts

/-- A list started at place n. -/
def rotate {α : Type} (n : Nat) (xs : List α) : List α := xs.drop (n % max 1 xs.length) ++ xs.take (n % max 1 xs.length)

/-- The events of memory operations (R136, R141, R219, R229, R232, R240). -/
def State.memTries (s : State) : List Try :=
  s.memOps.flatMap (fun o => [execLoadDataReturn o.id, execCrewScratchpadAccess o.id] ++ o.lanes.flatMap (fun r =>
    [execHomeAgentRequest o.id r.lane, execPageWalkComplete o.id r.lane, execSliceAccess o.id r.lane, execExpandedViewRead o.id r.lane]))

/-- The next core that has not acknowledged an invalidation, in the order of the cores (R142). -/
def InvalReq.nextAck (q : InvalReq) : Option (Nat × Nat) :=
  let n := match q.acks.head? with | some a => a.1 * 384 + a.2 + 1 | none => 0
  ((List.range 3072).map (fun k => ((n + k) % 3072 / 384, (n + k) % 3072 % 384))).find? (fun a => !q.acks.contains a)

/-- The events of invalidations (R142, R339). -/
def State.invalTries (s : State) : List Try :=
  s.batches.map (fun b => execInvalBatch b.dst b.src) ++
  s.invals.filterMap (fun q => q.nextAck.map (fun a => execInvalAck a.1 a.2 q.id))

/-- The events of engine operations and of the network (R272–R330). -/
def State.engineTries (s : State) : List Try :=
  s.ops.flatMap (fun o => [execCopyChunk o.id, execMatrixKStep o.id, execBloadSlotSwitch o.id, execScanTilePerform o.id,
    execScanFixPerform o.id, execCollComplete o.id, execCollTimeout o.id]) ++
  s.carries.map (fun m => execCarryArrive m.id) ++ s.remotes.map (fun r => execRemoteArrival r.id)

/-- The events of waiting sub-bundles (R148, R243–R259). -/
def State.subTries (s : State) : List Try :=
  s.gangs.flatMap (fun g => ((List.range g.bundles.length).zip g.bundles).flatMap (fun b =>
    ((List.range b.2.subs.length).zip b.2.subs).flatMap (fun q => match q.2.wait with
      | .fetch => [execInstructionCacheFill g.gid b.1 q.1]
      | .decoder _ => [execDecoderResume g.gid b.1 q.1, execTexpDecodeDone g.gid b.1 q.1, execTencPublish g.gid b.1 q.1, execCtldFill g.gid b.1 q.1]
      | _ => [])))

/-- The events of gangs and crews (R313, R354, R362, R384, R389, R397, R398, R404). -/
def State.gangTries (s : State) : List Try :=
  s.gangs.flatMap (fun g => [execCarryOutFormed g.gid, execGangRetire g.gid, execPcSample g.gid]) ++
  s.crews.flatMap (fun c => [execStopSave c.cid, execDumpDone c.cid, execCrewRetire c.cid]) ++
  s.halts.map (fun h => execHaltTakesEffect h.id) ++ s.sxRuns.map (fun r => execSextantProgramRun r.id)

/-- The events of launches and partitions (R105–R127, R114). -/
def State.launchTries (s : State) : List Try :=
  s.leases.flatMap (fun l => (List.range 8).flatMap (fun d =>
    [execLeaseReady d l.lkey, execLeaseFail d l.lkey, execResideTimeout d l.lkey] ++ (List.range 8).map (fun e => execLeaseShareReport d e l.lkey))) ++
  (List.range 8).flatMap (fun d => [execCrewPlace d, execBackfillTimeout d] ++ ((s.die d).store ++ (s.ringRecords d).map (·.2)).map (fun r => execLate d r.arrival)) ++
  (List.range 16).flatMap (fun p => if (s.part p).isSome then (List.range 8).flatMap (fun d => [execResetDone d p, execResetTimeout d p]) else [])

/-- Every event that the device makes by itself. -/
def State.ownTries (s : State) : List Try :=
  [execAckOnlyTimer, execFrameCrcFail, State.receive, execAttestReport, execMemoryAndFabric] ++
    (List.range 8).map (fun d => execDevtimeCheck d (s.die d).devOffset) ++ s.memTries ++ s.invalTries ++ s.engineTries ++ s.subTries ++ s.gangTries ++
    s.launchTries

/-! ## The schedulers (R164, R167) -/

/-- A sub-bundle in the choice of its scheduler: its place, when it last issued (0: never), its bundle slot, its lowest slice, and whether
it waits at an instruction that it has issued already. -/
structure Contender where
  gid : Nat
  bundle : Nat
  sub : Nat
  last : Nat
  slot : Nat
  slice : Nat
  polls : Bool
  deriving DecidableEq, Repr

/-- The contender of a sub-bundle. -/
def Gang.contender (g : Gang) (b : Nat) (y : Bundle) (k : Nat) (q : Sub) : Contender :=
  ⟨g.gid, b, k, q.lastIssue, y.slot, minOr (q.slices.headD 0) q.slices, q.charged⟩

/-- The live sub-bundles of a gang (R149). -/
def Gang.contenders (g : Gang) : List Contender :=
  if g.retired then []
  else
    ((List.range g.bundles.length).zip g.bundles).flatMap (fun p =>
      if p.2.killed then []
      else ((List.range p.2.subs.length).zip p.2.subs).filterMap (fun q =>
        if q.2.isLive then some (g.contender p.1 p.2 q.1 q.2) else none))

/-- Whether a contender comes before another: the older issue, then the lower bundle slot, then the lower lowest slice (R167). -/
def Contender.before (a b : Contender) : Bool :=
  a.last < b.last || (a.last == b.last && (a.slot < b.slot || (a.slot == b.slot && a.slice < b.slice)))

/-- What a sub-bundle waits for, and whether its instruction has issued. -/
def State.waitAt (s : State) (gid b k : Nat) : Option (Wait × Bool) :=
  (s.gang gid).bind (fun g => (g.bundles[b]?).bind (fun y => (y.subs[k]?).map (fun q => (q.wait, q.charged))))

/-- Whether a sub-bundle waits before the issue of its instruction (R167). -/
def State.heldAt (s : State) (gid b k : Nat) : Bool :=
  match s.waitAt gid b k with | some (.retry _, charged) => !charged | _ => false

/-- Whether a sub-bundle is eligible in this step (R167): it waits in no instruction that it has issued, its next instruction has been
fetched and checked and could issue, and no latency or pipe holds it (log 11). -/
def State.eligibleSub (s : State) (c : Contender) : Bool :=
  !c.polls && !Config.late s.tick c.gid c.bundle c.sub &&
    (match s.prepare c.gid c.bundle c.sub with
      | .run i s' => (match exec i s' with | .next t => !t.heldAt c.gid c.bundle c.sub | _ => false)
      | .out _ => false)

/-- Whether the scheduler of a sub-bundle may choose it (R164, R167): no eligible sub-bundle of the scheduler comes before it. -/
def State.chosen (s : State) (gid b k : Nat) : Bool :=
  match s.gang gid with
  | none => false
  | some g =>
    match g.contenders.find? (fun c => c.bundle == b && c.sub == k) with
    | none => false
    | some me =>
      me.polls || ((s.onCore g.die g.core).flatMap Gang.contenders).all (fun c =>
        !(c.slot % 2 == me.slot % 2 && c.before me && s.eligibleSub c))

/-- A sub-bundle's turn to issue: an instruction issues only when its scheduler chooses it (R167); a sub-bundle that turns out to wait before
its issue takes no turn of its scheduler. -/
def State.issueTurn (gid b k : Nat) : Try := fun s =>
  match s.prepare gid b k with
  | .out o => o
  | .run i s' =>
    match exec i s' with
    | .next t => if t.heldAt gid b k || s.chosen gid b k then .next t else .fault .notEnabled
    | o => o

/-- The turn of a sub-bundle when the module takes it by itself: a wait that has not ended is not tried for nothing. -/
def State.ownIssue (c : Contender) : Try := fun s =>
  match State.issueTurn c.gid c.bundle c.sub s with
  | .next s' =>
    if (c.polls || s.heldAt c.gid c.bundle c.sub) && s'.waitAt c.gid c.bundle c.sub == s.waitAt c.gid c.bundle c.sub then .fault .notEnabled
    else .next s'
  | o => o

/-- A contender put in its place. -/
def insertOld (c : Contender) : List Contender → List Contender
  | [] => [c]
  | d :: ds => if d.before c then d :: insertOld c ds else c :: d :: ds

/-- The issue turns of every sub-bundle of the module, the one longest without an issue first (R5, R149, R167). -/
def State.issueTries (s : State) : List Try := ((s.gangs.flatMap Gang.contenders).foldr insertOld []).map State.ownIssue

/-- Waiting ticks of the bundles (R159). -/
def State.tickTries (s : State) : List Try :=
  s.gangs.flatMap (fun g => (List.range g.bundles.length).map (fun b => execWaitTick g.gid b))

/-- The turn of a step that the environment has not fixed: events and issues by turns, waiting ticks when they are due, and otherwise
nothing but the passing of time. -/
def State.autoTurn (s : State) : Outcome :=
  let evs := rotate (s.tick / 2) s.ownTries
  let rest := if s.tick % 2 == 0 then evs ++ s.issueTries else s.issueTries ++ evs
  (firstEnabled s (s.tickTries ++ rest)).getD (.next s)

/-! ## Time -/

/-- A die after some picoseconds (R7, R17, R21): its core clock counts cycles at its frequency; its devtime, ns nanoseconds on at CD0,
drifts against CD0's, is slewed toward it by 1 ns in every 1,000, and never runs backward. -/
def Die.pass (d : Die) (ps ns : Nat) (running : Bool) (drift : Int) : Die :=
  let c := d.cycRem + ps * d.clock
  let d := { d with cycles := d.cycles + c / 1000000, cycRem := c % 1000000 }
  if !running then d
  else
    let k := (d.slew.getD 0 + ns) / 1000
    let cut : Int := if d.slew.isNone then 0 else if d.devOffset > 0 then min (k : Int) d.devOffset else max (-(k : Int)) d.devOffset
    let off := max (d.devOffset + drift - cut) (d.devOffset - ns)
    { d with devOffset := off, slew := if off == 0 then none else d.slew.map (fun x => (x + ns) % 1000) }

/-- The time that a step takes (R5, R7, R17, R21, R402; log 11): devtime and each die's cycles advance, and cycles are counted. -/
def State.passTime (s : State) : State :=
  let t := s.tick
  let ps := Config.elapsedPs t
  let ns := if s.devRunning then (s.psRem + ps) / 1000 else 0
  let on := s.rails && !s.resetHeld
  let before := s.dies
  let s := { s with tick := t + 1, cur := none, devtime := s.devtime + ns, psRem := if s.devRunning then (s.psRem + ps) % 1000 else s.psRem,
                    dies := if on then ((List.range s.dies.length).zip s.dies).map (fun (p : Nat × Die) =>
                      p.2.pass ps ns s.devRunning (if p.1 == 0 then 0 else Config.drift t p.1)) else s.dies }
  if on then s.countCycles (fun d => (s.die d).cycles - (before.getD d Die.reset).cycles) else s

end Sys2Proof.Machine
end

