-- ==== Sys2Proof/Machine/Step.lean ====
section
/-!
DEFINITION. The step: the turn that the environment has fixed, or one of the module's own, and the time that passes with it; and
the placing of one instruction where the next step fetches it.
-/

namespace Sys2Proof.Machine

/-- The end of a step. -/
def endStep : Host.Outcome State Fault Refusal → Host.Outcome State Fault Refusal
  | .next s => .next s.passTime
  | .fault f => .fault f
  | .refused r => .refused r

/-- One step of the module. -/
def step (s : State) : Host.Outcome State Fault Refusal :=
  match s.inputs with
  | [] => endStep s.autoTurn
  | .event i :: rest => endStep (exec i { s with inputs := rest })
  | .issue gid b k :: rest => endStep (State.issueTurn gid b k { s with inputs := rest })
  | .soft e :: rest => endStep (.next ({ s with inputs := rest }.damage e))

/-- A state in which a gang of one bundle is resident on core 0 of CD0 and the next step fetches and runs the instruction given (log 9). -/
def State.withFetchWord (s : State) (nbits w : Nat) : State := s.placeWord nbits w

end Sys2Proof.Machine
end

