-- ==== Sys2Proof/Safety.lean ====
section
/-!
DEFINITION. The words that the statements about the machine use: what surrounds an instruction that issues, how its bundle
stands after it, what the rules give as the results of the instructions, and the invariant of the module.
-/

namespace Sys2Proof.Machine

/-! ## Around an instruction -/

/-- A state without its event counts (R403) and the bank cycles owed beside them (R174), which many rules touch and few statements speak
of. -/
def State.uncounted (s : State) : State :=
  { s with cores := s.cores.map (fun (c : Core) => { c with counters := [], banked := [] }) }

/-- Whether the crew of a gang has ended (R368). -/
def State.ending (s : State) (gid : Nat) : Bool := (s.gang gid).any (fun g => (s.crew g.crew).any (fun c => c.ended))

/-- x is the sub-bundle that issues in s; no halt is due (R384), it is not being stepped (R393) and its crew has not ended (R368), so that
nothing but the instruction acts. -/
structure State.Issues (s : State) (x : Ctx) : Prop where
  ctx : s.ctx = some x
  calm : s.halts = []
  free : x.q.stepping = false
  alive : s.ending x.c.gid = false

/-- The yield deadline lets the instruction issue (R160). -/
def Ctx.inTime (x : Ctx) : Prop := watchdogIssue x = none

/-- A bundle after an instruction or a pass has been counted against the yield deadline, once when it issues, with the cycle of its issue
noted (R159, R401) and, at its first pass, its place in program order taken (R332). -/
def Ctx.counted (x : Ctx) (s : State) (b : Bundle) : Bundle :=
  let now := (s.die x.g.die).cycles
  if x.q.charged then b
  else { b with ycount := b.ycount - 1, lastCycle := now, issues := b.issues + (if x.c.first then 1 else 0) }.modSub x.c.sub (fun q =>
    { q with issuedIn := some now })

/-- A bundle after the issuing sub-bundle has moved on by len bytes and has issued (R149, R167). -/
def Ctx.movedOn (x : Ctx) (s : State) (len : Nat) (b : Bundle) : Bundle :=
  (b.advance x.q len).modSub x.c.sub (fun q => q.issued s.tick)

/-- The latches of the issuing sub-bundle after a control instruction (R148), as they are after any other. -/
def Ctx.latched (x : Ctx) (control : Bool) (b : Bundle) : Bundle := if control then b.invalidateLanes (x.b.heldLanes x.q) else b

/-- A bundle after a uniform instruction of len bytes that completes where it stands. -/
def Ctx.afterUniform (x : Ctx) (s : State) (len : Nat) (control : Bool) (b : Bundle) : Bundle :=
  x.movedOn s len (x.latched control (x.counted s b))

/-- A bundle after a control instruction that has set its slices' offsets (R149). -/
def Ctx.afterMove (x : Ctx) (s : State) (b : Bundle) : Bundle :=
  ((x.latched true (x.counted s b)).modSub x.c.sub (fun q => q.issued s.tick)).regroup x.c.sub

/-- A bundle after an instruction that has issued and waits where it stands (R353): it goes on with the scalars as they stood at its issue
(R169). -/
def Ctx.afterWait (x : Ctx) (s : State) (w : Wait) (b : Bundle) : Bundle :=
  (x.counted s b).modSub x.c.sub (fun q =>
    { q with wait := w, charged := true, lastIssue := if x.q.charged then q.lastIssue else s.tick + 1,
             base := if x.q.charged then q.base else x.b.s })

/-- A bundle one of whose sub-bundles cannot issue its next instruction yet (R167), under a stall reason (R401): with the first sub-bundle
that waits the bundle's waiting cycles begin (R159). -/
def Ctx.afterHold (x : Ctx) (s : State) (reason : Nat) (b : Bundle) : Bundle :=
  (if b.subs.any (fun q => q.isLive && q.wait != .none) then b else { b with lastCycle := (s.die x.g.die).cycles }).modSub x.c.sub
    (fun q => { q with wait := .retry reason })

/-- A bundle after a pass of a per-lane instruction of len bytes (R147, R159): the next pass follows, or the next offset. -/
def Ctx.afterPass (x : Ctx) (s : State) (len : Nat) (b : Bundle) : Bundle :=
  if x.c.rest = [] then x.movedOn s len (x.counted s b)
  else (x.counted s b).modSub x.c.sub (fun q =>
    { q with wait := .none, charged := false, lastIssue := s.tick + 1, pass := some x.passLeft })

/-- A bundle with the lanes of a list changed, each by its own function. -/
def Bundle.eachLane (b : Bundle) (ls : List Nat) (f : Nat → Lane → Lane) : Bundle :=
  ls.foldl (fun b l => b.modLane l (f l)) b

/-- What a lane of the issuing bundle gives, as the lane stands when the instruction issues. -/
def Ctx.ofLane {α : Type} (x : Ctx) (d : α) (l : Nat) (f : Lane → α) : α :=
  match x.b.lanes[l]? with
  | some y => f y
  | none => d

/-! ## The scalar instructions (R175–R182) -/

/-- A uniform instruction of len bytes under a form (R44) completes, for every state in which it issues in time and its fields
pass the form's checks: it leaves the state that eff gives, with the bundle changed by f and moved on, and changes nothing else
but counts. -/
def Completes (i : Instr) (control : Bool) (len : Nat) (form : Form) (w : XWord) (ok : Ctx → State → Prop)
    (eff : Ctx → State → State) (f : Ctx → State → Bundle → Bundle) : Prop :=
  ∀ (s : State) (x : Ctx), s.Issues x → x.inTime →
    { form with uniform := true, result := false }.check x.g.kernel.v x.g.kernel.atlas w = none → ok x s →
    ∃ t, exec i s = .next t ∧ t.uncounted = (eff x s).uncounted.modBundle x.c.gid x.c.bundle
      (fun b => x.afterUniform s len control (f x s b))

/-- A scalar instruction gives a value to its destination (R175, R176). -/
def ScalarGives (i : Instr) (len : Nat) (form : Form) (w : XWord) (value : Ctx → State → W64) : Prop :=
  Completes i false len form w (fun _ _ => True) (fun _ s => s) (fun x s b => b.writeS w.d9.toNat (value x s))

/-- A scalar instruction in format S gives f of its two scalars (R30, R36). -/
def ScalarS (i : SWord → Instr) (f : W64 → W64 → W64) : Prop :=
  ∀ w, ScalarGives (i w) 4 (opForm .scalar .scalar .scalar .unused true (w.nwb = 0)) (scalarS true true w)
    (fun x _ => f (x.s w.a6.toNat) (x.s w.b6.toNat))

/-- A scalar instruction in format SL gives f of a scalar and its literal (R31). -/
def ScalarSl (i : SWord → W64 → Instr) (f : W64 → W64 → W64) : Prop :=
  ∀ w lit, ScalarGives (i w lit) 12 (opForm .scalar .scalar .unused .unused true (w.b6 = 0 && w.nwb = 0)) (scalarSl true w)
    (fun x _ => f (x.s w.a6.toNat) lit)

/-- A scalar instruction in format X gives f of a scalar and a scalar or, where B9 is 268, its sign-extended immediate (R175). -/
def ScalarX (i : XWord → Instr) (fnOk : XWord → Bool) (f : XWord → W64 → W64 → W64) : Prop :=
  ∀ w, ScalarGives (i w) 12
    (opForm .scalar .scalar .scalar .unused (fnOk w) (w.m6 = 0 && (w.b9 = 268 || w.imm = 0) && w.nwb = 0)) w
    (fun x _ => f w (x.s w.a9.toNat) (if w.b9 = 268 then w.imm.signExtend 64 else x.s w.b9.toNat))

/-- The three formats of a scalar operation (R29–R32). -/
def ScalarAll (i1 : SWord → Instr) (i2 : SWord → W64 → Instr) (i3 : XWord → Instr) (f : W64 → W64 → W64) : Prop :=
  ScalarS i1 f ∧ ScalarSl i2 f ∧ ScalarX i3 (fun w => w.fn = 0) (fun _ => f)

/-- A division (R177): B must be named and W2 must be 0. -/
def ScalarDiv (i : XWord → Instr) (f : W64 → W64 → W64) : Prop :=
  ∀ w, ScalarGives (i w) 12 (opForm .scalar .scalar .named .unused (w.fn.toNat ≤ 3) (w.m6 = 0 && w.imm = 0 && w.nwb = 0)) w
    (fun x _ => f (x.s w.a9.toNat) (x.s w.b9.toNat))

/-- The form of a bit instruction (R180). -/
def sbitForm (b : Kind) (immOk : Bool) (w : XWord) : Form :=
  opForm .scalar .scalar b .unused (w.fn.toNat ≤ 6) (w.m6 = 0 && immOk && w.nwb = 0)

/-- A bit instruction on a field (R180): bits 0–5 of W2 are its position and bits 6–12 its length, together at most 64. -/
def ScalarField (i : Instr) (b : Kind) (w : XWord) (f : W64 → W64 → Nat → Nat → W64) : Prop :=
  let pos := w.imm.toNat % 64
  let len := w.imm.toNat / 64 % 128
  Completes i false 12 (sbitForm b (w.imm.toNat < 8192) w) w (fun _ _ => pos + len ≤ 64) (fun _ s => s)
    (fun x _ y => y.writeS w.d9.toNat (f (x.s w.a9.toNat) (x.s w.b9.toNat) pos len))

/-- The high half of the product of two 64-bit numbers widened to 128 bits (R176). -/
def highHalf (a b : BitVec 128) : W64 := (a * b).extractLsb' 64 64

/-- The conditions of bru and scmp (R154). -/
def condition (fn : BitVec 8) (a b : W64) : Bool :=
  if fn = 0 then a = b else if fn = 1 then a ≠ b else if fn = 2 then a.toInt < b.toInt
  else if fn = 3 then b.toInt ≤ a.toInt else if fn = 4 then a.toNat < b.toNat else b.toNat ≤ a.toNat

/-- The scalar values that srd names (R181), in the order of their names. -/
def State.deviceValues (s : State) (x : Ctx) : List W64 :=
  let n (v : Nat) : W64 := BitVec.ofNat 64 v
  let crew := s.crew x.g.crew
  let packet := ((crew.bind (fun c => s.record c.die c.arrival)).map (fun r => r.packet)).getD []
  [n x.g.kernel.width, n x.g.kernel.planes, n x.c.bundle, n x.g.rank, n ((crew.map (fun c => c.gangs.length)).getD 1),
    n ((crew.map (fun c => c.index)).getD 0), n (fieldOf packet 128 24), n x.g.core, n (x.g.core / 192), n x.g.die,
    n x.g.part, n (s.devtimeOf x.g.die), n (s.die x.g.die).cycles, n x.b.ycount, x.g.kernel.kva,
    if x.g.kernel.dataLen = 0 then 0 else x.g.kernel.kva + n x.g.kernel.dataOff, wordOf packet 384, wordOf packet 448,
    wordOf packet 512, wordOf packet 576, wordOf packet 640, n (fieldOf packet 52 2), wordOf packet 192, n x.b.slot]

/-! ## Per-lane instructions (R147, R170, R183–R215) -/

/-- A pass of a per-lane instruction of len bytes under a form completes: f is what it makes of the bundle, and ls the lanes
that execute. -/
def Passes (i : Instr) (len : Nat) (form : Ctx → Form) (w : XWord) (f : Ctx → List Nat → Bundle → Bundle) : Prop :=
  ∀ (s : State) (x : Ctx), s.Issues x → s.watching = false → x.inTime →
    (form x).check x.g.kernel.v x.g.kernel.atlas w = none → x.latchCheck x.c.plane i = none →
    ∃ t, exec i s = .next t ∧ t.uncounted = s.uncounted.modBundle x.c.gid x.c.bundle
      (fun b => x.afterPass s len (f x (x.lanesIn x.c.plane (w.pred.toNat, w.pn == 1)) b))

/-- A per-lane instruction delivers a value to each executing lane (R170, R172): to its destination unless NWB is set, then to
its belt. The value is that of the lane as the pass finds it. -/
def LaneGives (i : Instr) (len : Nat) (form : Ctx → Form) (w : XWord) (value : Ctx → List Nat → Nat → Lane → W32) : Prop :=
  Passes i len form w (fun x ls b => b.eachLane ls (fun l y => y.deliver w (x.ofLane 0 l (value x ls l))))

/-- The B operand of a per-lane instruction marked imm (R183): W2 where B9 is 268. -/
def immOr (w : XWord) (l : Nat) (y : Lane) : W32 := if w.b9 = 268 then w.imm else y.read l w.b9.toNat

/-- A per-lane instruction in format X with a value of its lane's A, B and C (R183). -/
def LaneX (i : XWord → Instr) (form : XWord → Form) (f : XWord → W32 → W32 → W32 → W32) : Prop :=
  ∀ w, LaneGives (i w) 12 (fun _ => form w) w
    (fun _ _ l y => f w (y.read l w.a9.toNat) (immOr w l y) (y.read l w.c9.toNat))

/-- A per-lane instruction in format S (R30): FN and M6 are 0. -/
def LaneS (i : SWord → Instr) (usesB : Bool) (f : XWord → W32 → W32 → W32 → W32) : Prop :=
  ∀ w, LaneGives (i w) 4 (fun _ => opForm .dst .src (if usesB then .src else .unused) .unused true true) (laneS usesB w)
    (fun _ _ l y => f (laneS usesB w) (y.read l (laneS usesB w).a9.toNat) (y.read l (laneS usesB w).b9.toNat) 0)

/-- The two formats of a per-lane operation. -/
def LaneBoth (i1 : SWord → Instr) (i2 : XWord → Instr) (usesB : Bool) (form : XWord → Form)
    (f : XWord → W32 → W32 → W32 → W32) : Prop :=
  LaneS i1 usesB f ∧ LaneX i2 form f

/-- A result by elements of n bits (R56): element e of the result is g of the elements e of the operands. -/
def byElement (n : Nat) (g : Nat → Nat → Nat → Nat) (a b c : W32) : W32 :=
  BitVec.ofNat 32 ((List.range (32 / n)).map (fun e =>
    g (bits a.toNat (n * e) n) (bits b.toNat (n * e) n) (bits c.toNat (n * e) n) % 2 ^ n * 2 ^ (n * e))).sum

/-- The element width that TY names (R183). -/
def elementBits (w : XWord) : Nat := if w.fn.toNat % 4 = 0 then 32 else if w.fn.toNat % 4 = 1 then 16 else 8

/-- The number that an element of n bits stands for (R57): unsigned, or in two's complement. -/
def number (n : Nat) (z : Bool) (e : Nat) : Int := if z then e else Int.bmod e (2 ^ n)

/-- An exact result in n bits (R57): clamped to the range of the type under .sat, else modulo 2^n. -/
def inBits (n : Nat) (z sat : Bool) (v : Int) : Nat :=
  let lo : Int := if z then 0 else -(2 ^ (n - 1))
  let hi : Int := if z then 2 ^ n - 1 else 2 ^ (n - 1) - 1
  ((if sat then max lo (min hi v) else v) % (2 ^ n : Int)).toNat

/-- Z of an integer word, FN bit 2 (R183). -/
def unsignedType (w : XWord) : Bool := w.fn.getLsbD 2

/-- SAT of a word, M6 bit 3 (R32). -/
def saturates (w : XWord) : Bool := w.m6.getLsbD 3

/-- Integer arithmetic by elements (R184). -/
def intByElement (op : Int → Int → Int → Int) (w : XWord) : W32 → W32 → W32 → W32 :=
  let n := elementBits w
  let z := unsignedType w
  byElement n (fun a b c => inBits n z (saturates w) (op (number n z a) (number n z b) (number n z c)))

/-- The form of a per-lane instruction by its B and C fields, its FN and M6 values, and the rule on W2 (R183). -/
def laneRule (b c : Kind) (fnOk m6Ok immOk : Bool) : Form := opForm .dst .src b c (fnOk && m6Ok) immOk

/-- W2 is 0 unless it is the B operand. -/
def immIsB (w : XWord) : Bool := w.b9 = 268 || w.imm = 0

/-- The form of a two-operand integer instruction with an immediate: TY not 3, FN below a bound, M6 within a mask (R183). -/
def intForm2 (fnLimit m6Mask : Nat) (w : XWord) : Form :=
  laneRule .src .unused (w.fn.toNat % 4 ≠ 3 && w.fn.toNat < fnLimit) (w.m6.toNat &&& (63 - m6Mask) == 0) (immIsB w)

/-- The form of an instruction on one operand without modifiers. -/
def unaryForm (fnOk : Bool) (w : XWord) : Form := laneRule .unused .unused fnOk (w.m6 = 0) (w.imm = 0)

/-- An integer divided by 2^n and rounded under a mode (R58): to nearest with ties to even, to zero, down, up. -/
def divideRounded (mode : Nat) (n : Nat) (a : Int) : Int :=
  let d : Int := 2 ^ n
  if mode = 1 then a.tdiv d
  else if mode = 2 then a / d
  else if mode = 3 then -(-a / d)
  else if 2 * (a % d) < d then a / d
  else if 2 * (a % d) > d then a / d + 1
  else a / d + a / d % 2

/-- vrsh (R189): the output code, Z and mode of the word. -/
def requantised (w : XWord) (a b c : W32) : W32 :=
  let n := b.toNat % 32
  let z := unsignedType w
  let bitsOut := if w.fn.toNat % 4 = 0 then 32 else if w.fn.toNat % 4 = 1 then 16 else 8
  let lo : Int := if z then 0 else -(2 ^ (bitsOut - 1))
  let hi : Int := if z then 2 ^ bitsOut - 1 else 2 ^ (bitsOut - 1) - 1
  BitVec.ofInt 32 (max lo (min hi (divideRounded (w.m6.toNat % 8) n (number 32 z a.toNat) + c.toInt)))

/-- vdot4 (R185). -/
def dotOfBytes (w : XWord) (a b c : W32) : W32 :=
  BitVec.ofNat 32 (inBits 32 false (saturates w) (((List.range 4).map (fun e =>
    number 8 (2 ≤ w.fn.toNat % 4) (bits a.toNat (8 * e) 8) * number 8 (w.fn.toNat % 2 = 1) (bits b.toNat (8 * e) 8))).sum + c.toInt))

/-- vpack (R190): the elements of A and then of B, narrowed. -/
def packed (w : XWord) (a b _c : W32) : W32 :=
  let n := elementBits w
  let k := 32 / (2 * n)
  BitVec.ofNat 32 ((List.range (32 / n)).map (fun e =>
    inBits n (unsignedType w) (saturates w) (number (2 * n) (unsignedType w)
      (if e < k then bits a.toNat (2 * n * e) (2 * n) else bits b.toNat (2 * n * (e - k)) (2 * n))) * 2 ^ (n * e))).sum

/-- vunpk (R190): the low or the high elements of A, extended. -/
def unpacked (w : XWord) (a _b _c : W32) : W32 :=
  let n := elementBits w
  let k := 32 / (2 * n)
  let h := if w.fn.getLsbD 3 then k else 0
  BitVec.ofNat 32 ((List.range k).map (fun e =>
    ((number n (unsignedType w) (bits a.toNat (n * (h + e)) n)) % (2 ^ (2 * n) : Int)).toNat * 2 ^ (2 * n * e))).sum

/-- vprm (R188): byte i of the result is byte s of the eight bytes of B and A, or 0. -/
def permuted (sel : Nat) (a b : W32) : W32 :=
  BitVec.ofNat 32 ((List.range 4).map (fun i =>
    let s := sel / 2 ^ (4 * i) % 16
    (if s < 8 then (b.toNat * 2 ^ 32 + a.toNat) / 2 ^ (8 * s) % 256 else 0) * 2 ^ (8 * i))).sum

/-- The field that vbit.bfx and vbit.bfi name in B (R188): its first bit and its length. -/
def laneField (b : W32) : Nat × Nat := (b.toNat % 32, min (b.toNat / 32 % 64) 32)

/-- The condition of vcmp on two numbers (R187). -/
def compares (c : Nat) (x y : Int) : Bool :=
  if c = 0 then x = y else if c = 1 then x ≠ y else if c = 2 then x < y else if c = 3 then x ≤ y else if c = 4 then x > y
  else x ≥ y

/-- A per-lane instruction writes a predicate of each executing lane and shifts no belt (R187, R202). -/
def PredGives (i : Instr) (form : Ctx → Form) (w : XWord) (value : Nat → Lane → Bool) : Prop :=
  Passes i 12 form w (fun x ls b => b.eachLane ls (fun l y => y.writeP w.d9.toNat (x.ofLane false l (value l))))

/-- The combination of A over the participants of a pass (R193), for the operations that do not depend on the order. -/
def combination (op : Nat) (sat : Bool) (xs : List W32) : W32 :=
  if op = 0 then BitVec.ofNat 32 (inBits 32 false sat ((xs.map BitVec.toInt).sum))
  else if op = 1 then xs.foldr (fun a b => if a.toInt ≤ b.toInt then a else b) 0x7FFFFFFF#32
  else if op = 2 then xs.foldr (fun a b => if a.toNat ≤ b.toNat then a else b) 0xFFFFFFFF#32
  else if op = 3 then xs.foldr (fun a b => if a.toInt ≤ b.toInt then b else a) 0x80000000#32
  else if op = 4 then xs.foldr (fun a b => if a.toNat ≤ b.toNat then b else a) 0#32
  else if op = 5 then xs.foldr (fun a b => a &&& b) 0xFFFFFFFF#32
  else if op = 6 then xs.foldr (fun a b => a ||| b) 0#32
  else xs.foldr (fun a b => a ^^^ b) 0#32

/-- The participants before a participant in the order of a pass, and itself unless excluded (R193). -/
def upTo (excluded : Bool) (l : Nat) (ls : List Nat) : List Nat := ls.take (ls.idxOf l + (if excluded then 0 else 1))

/-! ## Float results (R196–R212) -/

/-- The format that FT names (R196). -/
def floatFormat (w : XWord) : Fmt := if w.fn.toNat % 4 = 0 then fp32 else if w.fn.toNat % 4 = 1 then fp16 else bf16

/-- The rounding mode of a word, M6 bits 0–2 (R32, R58). -/
def roundingMode (w : XWord) : RMode :=
  if w.m6.toNat % 8 = 1 then .rtz else if w.m6.toNat % 8 = 2 then .rdn else if w.m6.toNat % 8 = 3 then .rup else .rne

/-- FTZ of a word, M6 bit 4 (R32). -/
def flushes (w : XWord) : Bool := w.m6.getLsbD 4

/-- A float result by elements: an exact value and its invalidity, rounded once (R58, R199). -/
def floatByElement (op : RMode → FVal → FVal → FVal → FVal × Bool) (w : XWord) : W32 → W32 → W32 → W32 :=
  let t := floatFormat w
  let rd := readFloat t (flushes w)
  byElement (1 + t.w + t.f) (fun a b c =>
    let r := op (roundingMode w) (rd a) (rd b) (rd c)
    if r.2 then canonNaN t else (roundTo t (roundingMode w) (saturates w) (flushes w) r.1).1)

/-- The form of a float instruction: FT and OPX, the M6 bits that it allows with a mode of at most 3, and the rule on W2
(R196). -/
def floatRule (b c : Kind) (fnOk : Bool) (m6Mask : Nat) (immOk : XWord → Bool) (w : XWord) : Form :=
  laneRule b c (w.fn.toNat % 4 ≠ 3 && fnOk)
    (w.m6.toNat &&& (63 - m6Mask) == 0 && (m6Mask % 8 == 0 || w.m6.toNat % 8 < 4)) (immOk w)

/-- The form of a special function (R206). -/
def specialForm (m6Mask : Nat) (w : XWord) : Form :=
  floatRule .unused .unused (w.fn.toNat < 4) m6Mask (fun w => w.imm = 0) w

/-- A special function on every element (R206–R208). -/
def specialByElement (major : Nat) (w : XWord) : W32 → W32 → W32 → W32 :=
  byElement (fmtWidth (floatFormat w)) (fun a _ _ =>
    (specialBits major (floatFormat w) (roundingMode w) (saturates w) (flushes w) a).1)

/-- Element j of an fcvt (R204): of the elements of the wider side, part selects those that are converted, and the others of
the destination come from B. -/
def convertedElement (src dst : CvtFmt) (m : FloatMods) (part : Nat) (a b : W32) (j : Nat) : Nat :=
  let ns := 32 / cvtWidth src
  let nd := 32 / cvtWidth dst
  let conv (i : Nat) : Nat := (convElem src dst m (bits a.toNat (cvtWidth src * i) (cvtWidth src))).1
  if nd ≤ ns then conv (part * nd + j)
  else if part * ns ≤ j ∧ j < part * ns + ns then conv (j - part * ns)
  else bits b.toNat (cvtWidth dst * j) (cvtWidth dst)

/-- fcvt (R203–R205). -/
def converted (w : XWord) (a b _c : W32) : W32 :=
  match cvtFmt (w.fn.toNat % 16), cvtFmt (w.fn.toNat / 16) with
  | some src, some dst =>
    BitVec.ofNat 32 ((List.range (32 / cvtWidth dst)).map (fun j =>
      convertedElement src dst ⟨roundingMode w, saturates w, flushes w⟩ (w.imm.toNat % 4) a b j % 2 ^ cvtWidth dst
        * 2 ^ (cvtWidth dst * j))).sum
  | _, _ => 0

/-- A half of a PAIR (R40): the integer halves work on 32-bit values, and the float halves round FP32 to nearest even. -/
def halfValue (op : Nat) (a b : W32) : W32 :=
  let rd (x : W32) := readFloat fp32 false x.toNat
  let rounded (r : FVal × Bool) : W32 :=
    BitVec.ofNat 32 (if r.2 then canonNaN fp32 else (roundTo fp32 .rne false false r.1).1)
  match op with
  | 0x30 => a + b
  | 0x31 => a - b
  | 0x32 => a * b
  | 0x36 => a &&& b
  | 0x37 => a ||| b
  | 0x38 => a ^^^ b
  | 0x39 => a <<< b
  | 0x3A => a >>> b
  | 0x3B => a.sshiftRight' b
  | 0x40 => a
  | 0x50 => rounded (fsumExact .rne (rd a) (rd b))
  | 0x51 => rounded (fsumExact .rne (rd a) (rd b).flip)
  | 0x52 => rounded (fmulExact (rd a) (rd b))
  | n => BitVec.ofNat 32 (specialBits n fp32 .rne false false a.toNat).1

/-- A lane after a PAIR (R42): both halves read before either writes, and the belt takes the first result and then the
second. -/
def Lane.afterPair (y : Lane) (w : PairWord) (l : Nat) : Lane :=
  let r1 := halfValue w.hop1.toNat (y.read l w.a1.toNat) (y.read l w.b1.toNat)
  let r2 := halfValue w.hop2.toNat (y.read l w.a2.toNat) (y.read l w.b2.toNat)
  let y1 := (if w.nwb1 = 1 then y else y.write w.d1.toNat r1).shift r1
  (if w.nwb2 = 1 then y1 else y1.write w.d2.toNat r2).shift r2

/-! ## Control flow (R149–R162, R371) -/

/-- A word without lanes passes the checks of R44 under a form. -/
def Ctx.passesForm (x : Ctx) (f : Form) (w : XWord) : Prop :=
  { f with uniform := true, result := false }.check x.g.kernel.v x.g.kernel.atlas w = none

/-- A control instruction that sets its slices' offsets completes: f is what it makes of the bundle. -/
def Moves (i : Instr) (form : Form) (w : XWord) (ok : Ctx → Prop) (f : Ctx → Bundle → Bundle) : Prop :=
  ∀ (s : State) (x : Ctx), s.Issues x → x.inTime → x.passesForm form w → ok x →
    ∃ t, exec i s = .next t ∧ t.uncounted = s.uncounted.modBundle x.c.gid x.c.bundle (fun b => x.afterMove s (f x b))

/-- A control instruction that acts on each slice of the issuing sub-bundle. -/
def Jumps (i : Instr) (form : Form) (w : XWord) (ok : Ctx → Prop) (f : Ctx → Slice → Slice) : Prop :=
  Moves i form w ok (fun x b => b.modSlices x.q.slices (f x))

/-- An instruction whose word passes the checks of R44 raises a fault (R363). -/
def Raises (i : Instr) (form : Form) (w : XWord) (ok : Ctx → Prop) (f : Ctx → FaultInfo) : Prop :=
  ∀ (s : State) (x : Ctx), s.Issues x → x.passesForm form w → ok x → exec i s = .next (s.takeFault x.faultAt (f x))

/-- A bit instruction whose field reaches past bit 63 (R180). -/
def FieldTooLong (i : Instr) (b : Kind) (w : XWord) : Prop :=
  Raises i (sbitForm b (w.imm.toNat < 8192) w) w (fun x => x.inTime ∧ 64 < w.imm.toNat % 64 + w.imm.toNat / 64 % 128)
    (fun _ => { cls := 1, sub := 20 })

/-- A branch target is in the code and aligned (R150). -/
def Ctx.inCode (x : Ctx) (t : Int) : Prop := t % 4 = 0 ∧ 0 ≤ t ∧ t < x.g.kernel.codeLen

/-- A target by displacement (R150). -/
def Ctx.targetOf (x : Ctx) (d : W32) : Int := x.offset + d.toInt

/-- The active lanes of a slice, by their places in it (R145). -/
def Ctx.sliceLanes (x : Ctx) (sl : Slice) : List Nat :=
  (List.range 4).filter (fun i => sl.active.getLsbD i && sl.own.getLsbD i && laneAwake x.b x.q.stepping (4 * sl.home + i))

/-- The active lanes of a slice whose guard holds (R38, R151). -/
def Ctx.taken (x : Ctx) (p : Nat) (pn : Bool) (sl : Slice) : List Nat :=
  (x.sliceLanes sl).filter (fun i => x.ofLane false (4 * sl.home + i) (fun y => y.readP p != pn))

/-- A mask of four lanes from their places. -/
def laneMask (is : List Nat) : BitVec 4 := BitVec.ofNat 4 ((is.map (fun i => 2 ^ i)).sum)

/-- A slice whose lanes part at a bra (R151). -/
def Ctx.parts (x : Ctx) (w : BraWord) (sl : Slice) : Prop :=
  x.taken w.pred.toNat (w.pn == 1) sl ≠ [] ∧ x.taken w.pred.toNat (w.pn == 1) sl ≠ x.sliceLanes sl

/-- A slice after a bra (R151). -/
def Ctx.branched (x : Ctx) (w : BraWord) (sl : Slice) : Slice :=
  let t := x.taken w.pred.toNat (w.pn == 1) sl
  let n := (x.sliceLanes sl).filter (fun i => i ∉ t)
  if n = [] then { sl with offset := (x.targetOf w.w2).toNat }
  else if t = [] then { sl with offset := x.offset + 12 }
  else { sl with
    offset := (x.targetOf w.w2).toNat, active := laneMask t
    join := { j := (x.targetOf w.w1).toNat, poff := x.offset + 12, pend := laneMask n, full := laneMask (x.sliceLanes sl) } :: sl.join }

/-- No lane of the issuing bundle is detached (R387). -/
def Ctx.whole (x : Ctx) : Prop :=
  (∀ k ∈ x.q.slices, x.b.isDetached k = false) ∧
    ∀ k sl, x.b.slices[k]? = some sl → x.b.isDetached k = true → sl.own = 0 ∧ sl.join = []

/-- A slice after a join (R152). -/
def joined (off : Nat) (sl : Slice) : Slice :=
  match sl.join with
  | [] => { sl with offset := off + 4 }
  | e :: rest =>
    if e.j ≠ off then { sl with offset := off + 4 }
    else if e.pend = 0 then { sl with offset := off + 4, active := e.full, join := rest }
    else { sl with offset := e.poff, active := e.pend, join := { e with pend := 0 } :: rest }

/-- A slice whose join turns it to its pending path (R152). -/
def turnsAt (off : Nat) (sl : Slice) : Bool :=
  match sl.join with
  | e :: _ => e.j = off && e.pend ≠ 0
  | [] => false

/-- The slices of the issuing sub-bundle that a join turns to their pending paths (R152). -/
def Ctx.turned (x : Ctx) : List Nat :=
  x.q.slices.filter (fun i => match x.b.slices[i]? with | some sl => turnsAt x.offset sl | none => false)

/-- A bundle whose sub-bundles that hold one of a list of slices count reason 17 until they issue again (R152). -/
def Bundle.rejoin (b : Bundle) (is : List Nat) : Bundle :=
  { b with subs := b.subs.map (fun q => if q.slices.any is.contains then { q with rejoined := true } else q) }

/-- The sub-bundles of the issuing bundle at a regang, the issuing one first (R156). -/
def Ctx.gathering (x : Ctx) : List Sub := (x.c.sub :: x.otherLive).filterMap (fun k => x.b.subs[k]?)

/-- Every other live sub-bundle waits at the regang that issues (R156). -/
def Ctx.allArrived (x : Ctx) : Prop :=
  ∀ k ∈ x.otherLive, x.b.offsetAt k = x.offset ∧ ∀ q, x.b.subs[k]? = some q → q.wait = .regang

/-- A bundle after its last sub-bundle has come to a regang (R156): one sub-bundle holds all the slices, in ascending order. -/
def Ctx.regathered (x : Ctx) (b : Bundle) : Bundle :=
  let is := x.gathering.flatMap (·.slices)
  let c := (x.gathering.foldl Bundle.invalidate b).modSlices is (fun sl => { sl with offset := x.offset + 4 })
  { c with subs := ((List.range b.subs.length).zip b.subs).map (fun p =>
      if p.1 = x.c.sub then
        { p.2 with slices := (List.range b.slices.length).filter (fun i => i ∈ is), live := mergedLive (x.gathering.map (·.live)),
                   yielded := x.gathering.all (·.yielded), wait := .none, charged := false }
      else if p.1 ∈ x.otherLive then Sub.free else p.2) }

/-- A bundle after exit (R162): the slices of the issuing sub-bundle and their lanes have exited. -/
def Ctx.exitedBundle (x : Ctx) (b : Bundle) : Bundle :=
  (b.eachLane ((x.b.slicesOf x.q).flatMap (fun sl => sl.lanesOf sl.own)) (fun _ y => { y with exited := true, halted := false })).modSlices
    x.q.slices (fun sl => { sl with exited := true, active := 0, join := [], call := [] })

/-- A pair of scalars written (R157). -/
def Bundle.writePair (b : Bundle) (code v : Nat) : Bundle :=
  (b.writeS code (BitVec.ofNat 64 v)).writeS (code + 1) (BitVec.ofNat 64 (v / 2 ^ 64))

/-! ## Instructions that change more than their bundle -/

/-- An instruction that has issued waits where it stands (R353): eff is what it has done before, and w what it waits for. -/
def Waits (i : Instr) (form : Form) (w : XWord) (ok : Ctx → State → Prop) (eff : Ctx → State → State) (why : Ctx → State → Wait) :
    Prop :=
  ∀ (s : State) (x : Ctx), s.Issues x → x.inTime → x.passesForm form w → ok x s →
    ∃ t, exec i s = .next t ∧
      t.uncounted = (eff x s).uncounted.modBundle x.c.gid x.c.bundle (x.afterWait s (why x s))

/-- An instruction may not issue yet (R167): its sub-bundle waits under a stall reason and nothing else is changed, for every state in which
it is tried and its word passes the checks of R44. -/
def Holds (i : Instr) (form : Form) (w : XWord) (ok : Ctx → State → Prop) (reason : Ctx → State → Nat) : Prop :=
  ∀ (s : State) (x : Ctx), s.ctx = some x → x.passesForm form w → ok x s →
    exec i s = .next (s.modBundle x.c.gid x.c.bundle (x.afterHold s (reason x s)))

/-- Nothing is changed but the bundle. -/
def noEffect (_ : Ctx) (s : State) : State := s

/-! ## Barriers, waits and fences (R266, R318–R325, R341–R343) -/

/-- The barrier that a word names exists and holds no damage (R322, R369). -/
def Ctx.barOk (x : Ctx) (w : XWord) : Prop :=
  barN w < x.g.kernel.barriers ∧ barN w < x.g.barriers.length ∧ x.g.damaged 0 (barN w) = none

/-- W2 of a barrier instruction other than bar.red holds N alone (R322). -/
def barImm (w : XWord) : Bool := w.m6 = 0 && w.imm.toNat < 128 && w.nwb = 0

/-- Every access of the bundle has been performed, none is left to issue in later passes of an instruction that has begun, and the
invalidations that reached its die are applied (R223, R325, R342). -/
def State.quiet (s : State) (x : Ctx) : Prop :=
  s.accessesPending x.c.gid x.c.bundle = false ∧ s.settled x.g.die = true

/-- The state after an operation on the barrier that a word names. -/
def State.barrierPut (w : XWord) (f : Ctx → Barrier → Barrier) (x : Ctx) (s : State) : State :=
  s.putBarrier x.c.gid (barN w) (f x (x.bar w))

/-- The sub-bundle has not arrived at what it waits for: it stands before its instruction, tried already or not. -/
def Ctx.fresh (x : Ctx) : Prop := x.q.wait = .none ∨ ∃ r, x.q.wait = .retry r

/-- The acquire of a wait may complete (R266, R339). -/
def State.acquires (s : State) (x : Ctx) : Prop := s.settled x.g.die = true ∧ s.acquirePending x.c.gid x.c.bundle = false

/-- What a fence waits for is over (R342): stores under KIND 1, every access under a release, reads and invalidations under an
acquire. -/
def State.fencePassed (s : State) (x : Ctx) (w : FenceWord) : Prop :=
  (w.kind = 1 → s.writesPending x.c.gid x.c.bundle = false) ∧ (2 ≤ w.ord.toNat → s.quiet x) ∧
    (w.ord.toNat % 2 = 1 → s.settled x.g.die = true ∧ s.readsPending x.c.gid x.c.bundle = false)

/-- The gangs of the issuing crew changed: every one holds the mask and the windows (R133). -/
def Ctx.eachMember (x : Ctx) (s : State) (f : Gang → Gang) : State :=
  { s with gangs := s.gangs.map (fun g => if g.crew = x.g.crew then f g else g) }

/-- The group mask as the issuing gang holds it in a state. -/
def State.groupOf (s : State) (x : Ctx) : W64 := BitVec.ofNat 64 (((s.gang x.c.gid).map (·.group)).getD 0)

/-- No crew access or multicast to the issuing gang, and no crew access by it, is pending or still to issue (R135, R274). -/
structure State.noCrewAccess (s : State) (x : Ctx) : Prop where
  landed : s.accessesTo x.g.crew x.g.rank (fun _ => true) = []
  planned : s.plannedTo x.g.crew x.g.rank = []
  multicast : s.multicastsTo x.g.crew x.g.rank = []
  own : ∀ o ∈ s.memOps, o.gid = x.c.gid → o.space ≠ 2
  ownPlanned : s.plansCrew x.g = false

/-! ## Memory (R216–R237) -/

/-- A per-lane access issues: its word and latches pass their checks, and so do its addresses (R44, R171, R228); and before its first pass
the order of the bundle's accesses and the fills of its slots let it (R223, R262, R335). -/
structure State.Accesses (s : State) (x : Ctx) (i : Instr) (m : MemInfo) : Prop where
  issues : s.Issues x
  calm : s.watching = false
  inTime : x.inTime
  form : laneFieldCheck x.g.kernel i = none
  latch : x.latchCheck x.c.plane i = none
  address : x.c.first = true → s.memPrecheck x i = none
  order : x.c.first = true → ∀ a ∈ x.planeAccesses x.c.words, s.orderWait x a.1 = none
  apart : x.c.first = true → s.meetsRest x (x.planeAccesses x.c.words) = false
  unfilled : x.c.first = true → s.vlutWaits x.c.gid x.c.words = false

/-- A bundle after a pass whose sub-bundle waits for its memory operation (R230). -/
def Ctx.afterIssue (x : Ctx) (s : State) (w : Wait) (b : Bundle) : Bundle :=
  (x.counted s b).modSub x.c.sub (fun q =>
    { q with wait := w, charged := true, lastIssue := s.tick + 1, pass := some x.passLeft })

/-- The scratchpad lines that the instruction's passes read are present before the first, and the words of this pass hold no error
(R221, R369). -/
def State.padReady (s : State) (x : Ctx) (m : MemInfo) (w : XWord) (ls : List Nat) : Prop :=
  (x.c.first = true → ∀ r ∈ s.padRanges x.g (x.planeAccesses x.c.words), s.gatePresent r = true) ∧
  ∀ l ∈ ls, s.padPoisoned x.g m (x.laneEa m w l).toNat = false

/-- A bundle whose issuing sub-bundle owes the cycles of a pass's bank conflicts (R220). -/
def Ctx.conflicted (x : Ctx) (m : MemInfo) (w : XWord) (ls : List Nat) (b : Bundle) : Bundle :=
  let n := bankExtra (ls.map (fun l => (l, (x.laneEa m w l).toNat, m.size)))
  if n = 0 then b else b.modSub x.c.sub (fun q => { q with conflict := q.conflict + n })

/-- A pass of an access to the gang's own scratchpad completes: eff is what it makes of memory, lane by lane in ascending order,
and f what it makes of the bundle (R230, R232). -/
def PadPass (i : Instr) (m : MemInfo) (w : XWord) (eff : Ctx → List Nat → State → State)
    (f : Ctx → List Nat → State → Bundle → Bundle) : Prop :=
  ∀ (s : State) (x : Ctx), s.Accesses x i m → m.spaceOf x.g (x.base w.b9.toNat) = 1 →
    s.padReady x m w (x.lanesIn x.c.plane (w.pred.toNat, w.pn == 1)) →
    let ls := x.lanesIn x.c.plane (w.pred.toNat, w.pn == 1)
    ∃ t, exec i s = .next t ∧
      t.uncounted = (eff x ls s).uncounted.modBundle x.c.gid x.c.bundle (fun b =>
        x.afterPass s 12 (f x ls s (x.conflicted m w ls b)))

/-- The bytes that a lane's store writes (R227). -/
def Ctx.storedBytes (x : Ctx) (m : MemInfo) (w : XWord) (l : Nat) : List Byte :=
  x.ofLane [] l (fun y => (y.group l w.c9.toNat (wdGroup m.wd)).take m.size)

/-- The comparand of a lane's atomic (R233): only cas has one. -/
def Ctx.comparand (x : Ctx) (m : MemInfo) (w : XWord) (l : Nat) : List Byte :=
  if m.aop = 9 then x.ofLane [] l (fun y => (y.group l w.d9.toNat (wdGroup m.wd)).take m.size) else []

/-- The value that an atomic leaves in memory (R233): op, the bytes there, the operand and the comparand. -/
def atomicResult (m : MemInfo) (old operand cmp : List Byte) : List Byte :=
  leBytes m.size (atomNew m.aop (8 * m.size) (leNat old) (leNat operand) (leNat cmp))

/-- One lane of an atomic on the gang's own view: the state and the bundle after it. -/
def Ctx.atomLane (x : Ctx) (m : MemInfo) (w : XWord) (s : State) (l : Nat) : State :=
  let a := (x.laneEa m w l).toNat
  let old := s.readView x.g a m.size
  (s.writeView x.g a (atomicResult m old (x.storedBytes m w l) (x.comparand m w l))).modBundle x.c.gid x.c.bundle (fun b =>
    b.modLane l (fun y => y.deliverGroup w.d9.toNat (w.nwb == 1) (loadWords m.wd old)))

/-- The lanes' requests of a global or crew access (R228–R230): an address, data, and the line where L1 holds it. -/
def State.requests (s : State) (x : Ctx) (m : MemInfo) (w : XWord) (ls : List Nat) : List LaneReq :=
  (x.laneAccesses m w ls).map (fun q =>
    { m.request q.1 q.2.1 q.2.2.1 q.2.2.2 (s.l1Hit x.g x.c.bundle m q.2.1.toNat) with
      noFill := m.spaceOf x.g (x.base w.b9.toNat) != 0 || attrVol m.attr || attrEvict m.attr == 4 })

/-- A pass of a global access, or of a load or atomic on another gang's scratchpad, becomes a memory operation with a request
for each executing lane, for which its sub-bundle waits (R229, R230, R232). -/
def IssuesAccess (i : Instr) (m : MemInfo) (w : XWord) : Prop :=
  ∀ (s : State) (x : Ctx), s.Accesses x i m → m.spaceOf x.g (x.base w.b9.toNat) ≠ 1 →
    (m.spaceOf x.g (x.base w.b9.toNat) = 2 → m.kind ≠ 1) →
    (x.c.first = true → ∀ r ∈ s.padRanges x.g (x.planeAccesses x.c.words),
      s.gatePresent r = true ∨ m.spaceOf x.g (x.base w.b9.toNat) = 2 ∧ r.1 ≠ x.g.gid) →
    let ls := x.lanesIn x.c.plane (w.pred.toNat, w.pn == 1)
    ls ≠ [] →
    ∃ t o n, exec i s = .next t ∧ o.id = s.nextId ∧ o.gid = x.c.gid ∧ o.bundle = x.c.bundle ∧ o.sub = x.c.sub ∧ o.kind = m.kind ∧
      o.lanes = s.requests x m w ls ∧
      t.uncounted = { s with nextId := s.nextId + 1, memOps := s.memOps ++ [o] }.uncounted.modBundle x.c.gid x.c.bundle
        (x.afterIssue s (.mem s.nextId n))

/-- A scalar access to the gang's own scratchpad is ready to be performed (R221, R228, R235). -/
def State.scalarReady (s : State) (x : Ctx) (m : MemInfo) (w : XWord) : Prop :=
  s.watching = false ∧ m.spaceOf x.g (x.s w.b9.toNat) = 1 ∧ s.orderWait x m = none ∧
    s.meetsRest x [(m, x.s w.b9.toNat, [x.scalarEa m w])] = false ∧
    s.accessFault x.g m (x.s w.b9.toNat) (x.scalarEa m w) = none ∧
    (m.kind ≠ 1 → s.viewPresent x.g (x.scalarEa m w).toNat m.size = true) ∧ s.padPoisoned x.g m (x.scalarEa m w).toNat = false

/-- A scalar global access becomes a memory operation of one request (R235). -/
def IssuesScalarAccess (i : Instr) (op : Nat) (w : XWord) : Prop :=
  let m := scalarMemInfo op w
  ∀ (s : State) (x : Ctx), s.Issues x → x.inTime → x.passesForm (scalarMemForm op w) w → s.orderWait x m = none →
    s.meetsRest x [(m, x.s w.b9.toNat, [x.scalarEa m w])] = false →
    s.accessFault x.g m (x.s w.b9.toNat) (x.scalarEa m w) = none → m.spaceOf x.g (x.s w.b9.toNat) = 0 →
    ∃ t o r n, exec i s = .next t ∧ o.id = s.nextId ∧ o.gid = x.c.gid ∧ o.bundle = x.c.bundle ∧ o.sub = x.c.sub ∧ o.kind = m.kind ∧
      o.lanes = [r] ∧ r.va = x.scalarEa m w ∧ r.size = m.size ∧ r.cmp = (x.scalarData m w).2 ∧
      (m.kind ≠ 0 → r.data = (x.scalarData m w).1) ∧
      t.uncounted = { s with nextId := s.nextId + 1, memOps := s.memOps ++ [o] }.uncounted.modBundle x.c.gid x.c.bundle
        (x.afterWait s (.mem s.nextId n))

/-- The bytes of memory that a gang's view addresses name are changed by a write to the view, and no other byte (R130). -/
def Gang.viewBytes (g : Gang) (a n : Nat) : List Nat :=
  (g.viewRuns a n).flatMap (fun r => (List.range r.2).map (fun i => r.1 + i))

/-- A request of a memory operation in a state (R229). -/
structure State.Request (s : State) (o : MemOp) (r : LaneReq) (g : Gang) : Prop where
  op : s.memOp o.id = some o
  lane : o.lanes.find? (fun q => q.lane == r.lane) = some r
  gang : s.gang o.gid = some g
  global : o.space = 0
  unheld : o.held = false

/-- A request after its page has been translated (R136, R140, R141): the home agent keeps the translation, and the request goes to the
slice of its line. -/
def State.sentOn (s : State) (o : MemOp) (r : LaneReq) (part leaf base size : Nat) : State :=
  let va := r.va.toNat
  let loc := hbmLoc (vaDie va) (base + va % size)
  ((s.modDie (vaDie va) (fun d => d.keepTranslation part va leaf base size)).modReq o.id r.lane (fun q =>
    { q with status := 2, loc := loc, slice := homeSlice leaf (loc % 2 ^ 37), data := if o.kind = 0 then [] else q.data,
             replay := q.predicted.isSome && q.predicted != some loc, predicted := none })).resolveMem o.id

/-! ## The coded data path (R92–R94, R238–R263) -/

/-- A handle of the issuing gang holds a descriptor and no damage, and a tile of its grid is named (R94, R252). -/
def Ctx.tileOf (x : Ctx) (n : Nat) (h : Handle) (r c : Nat) : Prop :=
  x.g.damaged 4 n = none ∧ x.g.handle n = some h ∧ r < (descOf h.desc).trows ∧ c < (descOf h.desc).tcols

/-- A gang's handle set (R93). -/
def Gang.bind (g : Gang) (n : Nat) (h : Option Handle) : Gang := { g with handles := setNth g.handles n h }.repair 4 n

/-- A state with an operation of the issuing instruction listed (R264). -/
def State.listed (s : State) (o : EngOp) : State := { s with nextId := s.nextId + 1, ops := s.ops ++ [o] }

/-- A decoder operation in a state where nothing but its event acts: the event's sub-bundle waits for it. -/
structure State.Decoding (s : State) (gid b sub eng : Nat) (o : EngOp) (x : Ctx) : Prop where
  op : s.decOf gid b sub [eng] = some (o, x)
  calm : s.halts = []
  alive : s.ending gid = false
  unwatched : s.watching = false
  free : x.q.stepping = false

/-- The lanes of the slices of the issuing sub-bundle. -/
def Ctx.ownLanes (x : Ctx) : List Nat := (x.b.slicesOf x.q).flatMap (fun sl => sl.lanesOf sl.own)

/-- The elements of a texp laid in the registers of a lane (R253): register i of lane l holds word i × W + l. -/
def Ctx.texpLane (x : Ctx) (d fn rows : Nat) (xs : List Elem) (l : Nat) (y : Lane) : Lane :=
  let words := rows * 64 / (if fn % 4 = 0 then 2 else 1)
  (List.range ((words + x.g.kernel.width - 1) / x.g.kernel.width)).foldl (fun y i =>
    y.write (d + i) (if i * x.g.kernel.width + l < words then texpConv fn xs (i * x.g.kernel.width + l) else 0)) y

/-- A look-up instruction completes a pass (R262): two elements of the codebook in the slot that B names. -/
def LooksUp (i : Instr) (w : XWord) (f : AtlasSlot → Nat → Nat × Nat) : Prop :=
  ∀ (s : State) (x : Ctx), s.Issues x → s.watching = false → x.inTime → laneFieldCheck x.g.kernel i = none →
    x.latchCheck x.c.plane i = none → (x.c.first = true → s.passGate x false x.c.words = none) → (x.c.first = true → s.slotCheck x i = none) →
    ∃ t, exec i s = .next t ∧ t.uncounted = s.uncounted.modBundle x.c.gid x.c.bundle (fun b =>
      x.afterPass s 12 (b.eachLane (x.lanesIn x.c.plane (w.pred.toNat, w.pn == 1)) (fun l y =>
        let r := f ((x.g.atlas[w.b9.toNat]?).getD AtlasSlot.empty) (x.ofLane 0 l (fun y0 => (y0.read l w.a9.toNat).toNat))
        y.deliver w (BitVec.ofNat 32 (r.1 + r.2 * 65536)))))

/-- A message of n frames that the module acts on (R9, R12): it is up, past bring-up, and the message is acknowledged. -/
def Answers (i : Instr) (n : Nat) (ok : State → Prop) (f : State → State) : Prop :=
  ∀ s : State, s.linkUp = true → 8 ≤ s.phase → ok (s.received n) → exec i s = .next (f (s.received n))

/-! ## The copy and matrix engines (R264–R290) -/

/-- A cpy whose checks pass and which has a place in the queue is issued (R264, R268, R272): it takes the next number of the
copy timeline, and its destination lines become absent. -/
def CopyIssues (i : XWord → Instr) (fn : Nat) : Prop :=
  ∀ (w : XWord) (s : State) (x : Ctx), s.Issues x → x.inTime → x.passesForm (cpyForm fn false w true true x) w →
    s.copyFault x (x.copyOp s fn w (encode (i w))) = none → s.copyWaits x (x.copyOp s fn w (encode (i w))) = false →
    ∃ t, exec (i w) s = .next t ∧
      t.uncounted = (s.issueCopy (x.copyOp s fn w (encode (i w)))).uncounted.modBundle x.c.gid x.c.bundle (fun b =>
        x.afterUniform s 12 false (b.writeS w.d9.toNat (BitVec.ofNat 64 (x.g.issued.getD 0 0 + 1))))

/-- A copy that its engine may step (R272): it has started, its prior accesses are done, and something is left to copy. -/
structure State.Copying (s : State) (o : EngOp) (g : Gang) : Prop where
  op : s.op o.id = some o
  steps : s.stepper o = some g
  engine : o.eng = 1
  prior : s.priorDone o = true
  started : o.state = 0 ∨ o.state = 1
  unwatched : s.watching = false
  clean : s.poison = []
  ahead : o.ahead = []
  left : o.pos < o.total

/-- Where the writes of the chunk end that a copy is at (R75, R272). -/
def State.chunkStop (s : State) (g : Gang) (o : EngOp) : Nat := s.writeEnd g o (o.chunkEnd o.pos)

/-- The bytes of a linear copy's chunk at its destination, and at its source. -/
def EngOp.chunkDst (o : EngOp) : Nat := (o.par 1 + o.pos) % 2 ^ 64
/-- Where a linear copy's chunk is read. -/
def EngOp.chunkSrc (o : EngOp) : Nat := (o.par 2 + o.pos) % 2 ^ 64

/-- A matrix instruction whose checks pass is issued (R264, R280, R281): it takes the next number of the matrix timeline. -/
def MatrixIssues (i : Instr) (fn len : Nat) (w : XWord) (mask : W64) : Prop :=
  ∀ (s : State) (x : Ctx), s.Issues x → x.inTime →
    x.passesForm (opForm .scalar .handle .scalar (if w.m6.getLsbD 1 then .unused else .scalar) true
      (w.nwb = 0 && mxZero fn w.m6.toNat w.imm.toNat)) w → x.g.kernel.accRows ≠ 0 →
    s.matrixFault x fn w.imm.toNat w.a9.toNat (if w.m6.getLsbD 1 then some (x.sn w.b9.toNat) else none) (x.sn w.b9.toNat)
      (x.sn w.c9.toNat) mask.toNat = none →
    (∀ h, x.g.handle w.a9.toNat = some h → ∀ n ∈ (descOf h.desc).slots, s.slotFilling x.c.gid n = false) →
    ∃ t, exec i s = .next t ∧
      t.uncounted = (s.addOp (x.matrixOp s.nextId fn (x.g.nextNumber 2) w.a9.toNat (encode i) (x.s w.b9.toNat) (x.s w.c9.toNat)
        mask)).uncounted.modBundle x.c.gid x.c.bundle (fun b =>
        x.afterUniform s len false (b.writeS w.d9.toNat (BitVec.ofNat 64 (x.g.issued.getD 1 0 + 1))))

/-- The first row and the count of rows that an accumulator instruction names (R289). -/
def Ctx.rowBase (x : Ctx) (w : XWord) : Nat := x.sn w.a9.toNat + w.imm.toNat % 1024

/-- An accumulator instruction may use its rows (R278, R288–R290): they lie in the bundle's window, and no matrix operation owns
one of them. -/
def State.rowsFree (s : State) (x : Ctx) (r n : Nat) : Prop :=
  x.g.kernel.accRows ≠ 0 ∧ x.b.awb ≤ r ∧ r + n ≤ x.b.awl ∧ s.ownedRow x.c.gid r n = false

/-- The accumulator rows r to r + n − 1 of a gang replaced, and their damage repaired (R289, R369). -/
def Gang.setRows (g : Gang) (r n : Nat) (f : Nat → List W32) : Gang :=
  { g with acc := ((List.range g.acc.length).zip g.acc).map (fun p => if r ≤ p.1 && p.1 < r + n then f (p.1 - r) else p.2)
           damage := g.damage.filter (fun q => !(q.1 == 2 && r ≤ q.2 && q.2 < r + n)) }

/-! ## The scan engine (R299–R317) -/

/-- The bytes of the tile that a scan instruction of T steps names (R303). -/
def Ctx.tileBytes (x : Ctx) (t : Nat) : Nat := 4 * x.g.scan.nch * t * progK x.g.scan.prog

/-- A range of the view that a scan instruction may name (R303): aligned and within one region. -/
def Ctx.scanRange (x : Ctx) (a n : Nat) : Prop := a % 4 = 0 ∧ x.g.inOneRegion a n = true

/-- A scan operation that its engine may perform (R309): the first of its gang, its accesses ordered, its lines present. -/
structure State.Scanning (s : State) (o : EngOp) (g : Gang) (fn a : Nat) : Prop where
  op : s.op o.id = some o
  steps : s.stepper o = some g
  engine : o.eng = 3
  kind : o.fn = fn
  ready : s.scanReady o g a (4 * g.scan.nch * o.scanT * progK g.scan.prog) = true
  unwatched : s.watching = false

/-- The tile that a scan operation reads at an address, as words. -/
def State.tileAt (s : State) (o : EngOp) (g : Gang) (a : Nat) : List W32 :=
  wordsOfBytes (s.readView g a (4 * g.scan.nch * o.scanT * progK g.scan.prog))

/-- The inputs of a channel, step by step (R303). -/
def State.channel (s : State) (o : EngOp) (g : Gang) (a c : Nat) : List (List W32) :=
  (List.range o.scanT).map (fun i => tileElem g.scan.nch o.scanT (progK g.scan.prog) (s.tileAt o g a) c i)

/-! ## Collectives (R326–R330) -/

/-- A collective whose checks pass and which has a place among eight is issued (R328, R329): numbered on cl, counted for its
participant on the group, its number delivered. -/
def CollIssues (i : XWord → Instr) (fn : Nat) : Prop :=
  ∀ (w : XWord) (bs : List Byte), Completes (i w) false 12
    (opForm .scalar .scalar .scalar .scalar true (w.m6 = 0 && w.nwb = 0 && w.imm = 0)) w
    (fun x s => s.watching = false ∧ x.sn w.a9.toNat % 64 = 0 ∧
      s.acquireRead x (x.sn w.a9.toNat) 64 = .bytes bs (s.tookRange x.g (x.sn w.a9.toNat) 64) ∧
      x.sn w.b9.toNat % collSize (collDesc fn bs).shape.sfmt = 0 ∧ x.sn w.c9.toNat % collSize (collDesc fn bs).shape.dfmt = 0 ∧
      collOk fn bs = true ∧
      (s.tookRange x.g (x.sn w.a9.toNat) 64).collRanges x.g (collDesc fn bs) (x.sn w.b9.toNat) (x.sn w.c9.toNat) = none ∧
      ((s.openOps x.c.gid 4).filter (fun o => o.state != 4)).length < 8)
    (fun x s =>
      let d := collDesc fn bs
      let s := s.tookRange x.g (x.sn w.a9.toNat) 64
      let k := match s.group x.g.part d.gid with | some c => (s.participant c d.idx x.c.gid).count + 1 | none => 0
      let t := s.addOp { x.newOp s.nextId 4 (x.g.issued.getD 3 0 + 1) bs
          [w.d9.setWidth 64, x.s w.a9.toNat, x.s w.b9.toNat, 0, x.s w.c9.toNat, 0] (encode (i w)) with
        major := 0x79, fn := fn, pos := k, time := s.devtimeOf x.g.die }
      { t with groups := t.groups.map (fun (c : CollGroup) =>
          if c.part = x.g.part ∧ c.gid = d.gid then t.countColl c d.idx x.c.gid else c) })
    (fun x _ b => b.writeS w.d9.toNat (BitVec.ofNat 64 (x.g.issued.getD 3 0 + 1)))

/-- A frame of a peer, and not news of a revoked key (R326, R370). -/
def fromPeer (f : FabricFrame) : Prop := f.body ≠ .revoked ∧ f.body ≠ .keyRevoked

/-- One element of a reduction's result, where the rules give its value (R70, R204): the sum rounded once to a float format, or clamped to
an integer format; an infinity or a NaN has no integer result. -/
def collGives (h : CollShape) (w : Wire) : Option Nat :=
  match cvtFmt h.dfmt, wireVal h.q w with
  | some (.float t), v => some (roundTo t (rmode h.mode) h.sat false v).1
  | some (.int n u), .fin neg m e => some (ofInt n (roundIntClamp (rmode h.mode) neg m e (intRange n u).1 (intRange n u).2).1)
  | _, _ => none

/-- A collective operation whose end nothing delays: it is under way, and no contribution is left to make. -/
structure State.Collecting (s : State) (o : EngOp) : Prop where
  op : s.collOp o.id = some o
  done : s.collPeers o = []

/-! ## Privileged instructions, debug and watch entries (R351, R372–R393) -/

/-- In user mode an instruction raises PRIV 1 whatever its operands (R351, R372). -/
def PrivilegedOnly (i : Instr) : Prop :=
  ∀ (s : State) (x : Ctx), s.Issues x → s.isPrivileged x.g.part = false →
    exec i s = .next (s.takeFault x.faultAt { cls := 0x10, sub := 1 })

/-- A debug instruction of a privileged partition completes on its target (R391). -/
def DebugGives (i : Instr) (d b c : Kind) (w : XWord) (ok : Ctx → State → Prop) (eff : Ctx → State → State)
    (f : Ctx → State → Bundle → Bundle) : Prop :=
  Completes i false 12 (opForm d .scalar b c true (w.m6 = 0 && w.nwb = 0 && w.imm = 0)) w
    (fun x s => s.isPrivileged x.g.part = true ∧ ok x s) eff f

/-- The target that an instruction's operand names on its own die and partition (R391). -/
def State.targetOf (s : State) (x : Ctx) (w : XWord) : Option DbgTarget := s.dbgTarget x.g.part x.g.die (x.s w.a9.toNat)

/-- Four scalars of a bundle written from a code. -/
def Bundle.writeQuad (b : Bundle) (code : Nat) (ws : List W64) : Bundle :=
  ((List.range 4).zip ws).foldl (fun b p => b.writeS (code + p.1) p.2) b

/-- The bank of watch entries of a gang's core, each entry changed (R378). -/
def State.bankWith (s : State) (g : Gang) (f : Nat → WatchEntry → WatchEntry) : State :=
  s.modCore g.die g.core (fun c => { c with watch := ((List.range 8).zip c.watch).map (fun p => f p.1 p.2) })

/-- A read of a control register is ordered after the bundle's earlier accesses (R372). -/
def State.csrReady (s : State) (x : Ctx) : Prop :=
  s.isPrivileged x.g.part = true ∧ s.accessesPending x.c.gid x.c.bundle = false ∧ s.settled x.g.die = true

/-- A write of a control register completes (R372). -/
def CsrWrites (i : XWord → Instr) (ok : XWord → Ctx → Prop) (eff : XWord → Ctx → State → State) : Prop :=
  ∀ w : XWord, Completes (i w) false 12 (opForm .unused .named .unused .unused (w.imm.toNat < 8) (w.m6 = 0 && w.nwb = 0)) w
    (fun x s => s.csrReady x ∧ ok w x) (eff w) (fun _ _ b => b)

/-! ## The module's invariant -/

/-- What every step keeps: memory in its canonical form, eight dies and sixteen partitions (R2, R18), the phases of R8, and at
most 1,024 unacknowledged frames (R12). -/
structure State.Inv (s : State) : Prop where
  mem : Memory.wf s.mem = true
  dies : s.dies.length = 8
  parts : s.parts.length = 16
  phase : s.phase ≤ 8
  frames : s.link.unacked.length ≤ 1024

/-! ## Steps -/

/-- The sub-bundle k of bundle b of a gang may take its turn to issue (R149, R167): nothing that stops, holds or fences it applies, its
words can be read, and its scheduler may choose it. -/
structure State.MayIssue (s : State) (gid b k : Nat) (x : Ctx) : Prop where
  ctx : { s with cur := some ⟨gid, b, k, 0, [], true, [], [], []⟩ }.ctx = some x
  ready : x.q.issuable = true
  up : (s.die x.g.die).shutdown = false ∧ s.failed = false
  resident : x.g.retired = false
  going : s.stopPending x.g = true → s.atStop x.g b k x.b x.q = false
  free : s.barred x = false
  sound : x.b.damaged = none
  starts : x.q.pass = none
  fetchable : ∀ p ∈ x.b.planesOf x.q, s.codeRefused x.g p x.offset = none
  turn : s.chosen gid b k = true

/-- A gang without the cycles of bank conflicts that its sub-bundles owe (R220), which pass with the time of a step. -/
def Gang.unconflicted (g : Gang) : Gang :=
  { g with bundles := g.bundles.map (fun (b : Bundle) => { b with subs := b.subs.map (fun (q : Sub) => { q with conflict := 0 }) }) }

/-- The plane whose words a sub-bundle's uniform instruction is read from (R146): the lowest that its lanes occupy. -/
def Ctx.lowPlane (x : Ctx) : Nat := (x.b.planesOf x.q).headD 0

/-- The bytes at a sub-bundle's offset in a plane, none beyond CODELEN (R27, R143). -/
def State.bytesFor (s : State) (x : Ctx) (p : Nat) : List Byte :=
  match s.runs x.g.part 0 (x.g.kernel.codeAt p x.offset) (4 * min 5 ((x.g.kernel.codeLen - x.offset) / 4)) with
  | some rs => s.readRuns rs
  | none => []

/-- The words that the instruction cache holds for an issuing sub-bundle, plane by plane (R148). -/
def State.fetched (s : State) (x : Ctx) : List (Nat × List W32) :=
  (x.b.planesOf x.q).map (fun p => (p, s.codeWords x.g p x.offset))

/-- The instruction cache holds the lines of an issuing sub-bundle's instruction, or it is in the instruction already (R148). -/
def State.cached (s : State) (x : Ctx) : Prop :=
  x.q.wait ≠ .none ∨ ∀ l ∈ (x.b.planesOf x.q).flatMap (fun p => codeLines x.g p x.offset),
    l ∈ (s.core x.g.die x.g.core).icache

end Sys2Proof.Machine
end

