-- ==== Sys2Proof/WellFormed.lean ====
section
/-!
DEFINITION. Which syntax terms stand for something: an instruction whose fields agree with the row its constructor names
(the bits that tell rows of one major apart), and an event whose numbers name parts that the module has (R2).
-/

namespace Sys2Proof

namespace WellFormed

/-- Dies CD0–CD7 (R2). -/
def dieOk (d : Nat) : Bool := d < 8

/-- A list of one entry per die (R2). -/
def perDie {α : Type} (xs : List α) : Bool := xs.length == 8

/-- Byte-sized numbers. -/
def bytesOk (xs : List Nat) : Bool := xs.all (· < 256)

end WellFormed

/-- The well-formed instructions and events. -/
def wellFormed (i : Instr) : Bool :=
  match i with
  | .bra _ => true
  | .brx _ => true
  | .bru _ => true
  | .call w => w.fn == 0#8
  | .callIndirect w => w.fn == 1#8
  | .planeSet w => w.fn == 0#8
  | .planeMov w => w.fn == 1#8
  | .planeGet w => w.fn == 2#8
  | .planeBal w => w.fn == 3#8
  | .yield _ => true
  | .trap _ => true
  | .barInit w => w.fn == 0#8
  | .barArrive w => w.fn == 1#8
  | .barWait w => w.fn == 2#8
  | .barMeet w => w.fn == 3#8
  | .barArriveRemote w => w.fn == 4#8
  | .barRed w => w.fn == 5#8
  | .barQuery w => w.fn == 6#8
  | .waitTok w => w.fn == 0#8
  | .waitTl w => w.fn == 1#8
  | .fence w => w.kind.toNat % 2 == 0
  | .fenceAlias w => w.kind.toNat % 2 == 1
  | .grpJoin w => w.fn == 0#8
  | .grpLeave w => w.fn == 1#8
  | .grpQuery w => w.fn == 2#8
  | .grpPublish w => w.fn == 3#8
  | .saddSForm _ => true
  | .saddSlForm _ _ => true
  | .saddXForm _ => true
  | .ssubSForm _ => true
  | .ssubSlForm _ _ => true
  | .ssubXForm _ => true
  | .smulSForm _ => true
  | .smulSlForm _ _ => true
  | .smulXForm _ => true
  | .smulhSForm _ => true
  | .smulhSlForm _ _ => true
  | .smulhXForm w => w.fn == 0#8
  | .smulhZ w => w.fn == 1#8
  | .sdivS w => w.fn == 0#8
  | .sdivZ w => w.fn == 1#8
  | .sremS w => w.fn == 2#8
  | .sremZ w => w.fn == 3#8
  | .sandSForm _ => true
  | .sandSlForm _ _ => true
  | .sandXForm _ => true
  | .sorSForm _ => true
  | .sorSlForm _ _ => true
  | .sorXForm _ => true
  | .sxorSForm _ => true
  | .sxorSlForm _ _ => true
  | .sxorXForm _ => true
  | .sshlSForm _ => true
  | .sshlSlForm _ _ => true
  | .sshlXForm _ => true
  | .sshrSForm _ => true
  | .sshrSlForm _ _ => true
  | .sshrXForm _ => true
  | .ssraSForm _ => true
  | .ssraSlForm _ _ => true
  | .ssraXForm _ => true
  | .sminS w => w.fn == 0#8
  | .sminZ w => w.fn == 1#8
  | .smaxS w => w.fn == 2#8
  | .smaxZ w => w.fn == 3#8
  | .scmp _ => true
  | .ssel _ => true
  | .sli _ _ => true
  | .smov _ => true
  | .saddr _ => true
  | .sbitPopc w => w.fn == 0#8
  | .sbitClz w => w.fn == 1#8
  | .sbitCtz w => w.fn == 2#8
  | .sbitBfx w => w.fn == 3#8
  | .sbitBfi w => w.fn == 4#8
  | .sbitBrev w => w.fn == 5#8
  | .sbitBfxS w => w.fn == 6#8
  | .srd _ => true
  | .vget w => w.fn == 0#8
  | .vgetS w => w.fn == 1#8
  | .sld _ => true
  | .sst _ => true
  | .satom _ => true
  | .vaddSForm _ => true
  | .vaddXForm _ => true
  | .vsubSForm _ => true
  | .vsubXForm _ => true
  | .vmulSForm _ => true
  | .vmulXForm _ => true
  | .vmulhSForm _ => true
  | .vmulhXForm _ => true
  | .vmad _ => true
  | .vdot4 _ => true
  | .vandSForm _ => true
  | .vandXForm _ => true
  | .vorSForm _ => true
  | .vorXForm _ => true
  | .vxorSForm _ => true
  | .vxorXForm _ => true
  | .vshlSForm _ => true
  | .vshlXForm _ => true
  | .vshrSForm _ => true
  | .vshrXForm _ => true
  | .vsraSForm _ => true
  | .vsraXForm _ => true
  | .vmin w => w.fn.toNat / 8 % 2 == 0
  | .vmax w => w.fn.toNat / 8 % 2 == 1
  | .vabs w => w.fn.toNat / 8 % 2 == 0
  | .vneg w => w.fn.toNat / 8 % 2 == 1
  | .vsel _ => true
  | .vcmp _ => true
  | .vmovSForm _ => true
  | .vmovSlForm _ _ => true
  | .vmovXForm _ => true
  | .vfsh _ => true
  | .vbitPopc w => w.fn == 0#8
  | .vbitClz w => w.fn == 1#8
  | .vbitCtz w => w.fn == 2#8
  | .vbitBrev w => w.fn == 3#8
  | .vbitBfx w => w.fn == 4#8 || w.fn == 5#8
  | .vbitBfi w => w.fn == 6#8
  | .vrsh _ => true
  | .vpack _ => true
  | .vunpk _ => true
  | .vshfl _ => true
  | .vred _ => true
  | .vscn _ => true
  | .vbal _ => true
  | .plog _ => true
  | .vprm _ => true
  | .vlut w => w.fn == 0#8
  | .vlutHi w => w.fn == 1#8
  | .vlutP2 w => w.fn == 2#8
  | .pair _ => true
  | .faddSForm _ => true
  | .faddXForm _ => true
  | .fsubSForm _ => true
  | .fsubXForm _ => true
  | .fmulSForm _ => true
  | .fmulXForm _ => true
  | .ffmaSForm _ => true
  | .ffmaXForm _ => true
  | .fmin w => w.fn.toNat / 4 == 0
  | .fmax w => w.fn.toNat / 4 == 1
  | .fminn w => w.fn.toNat / 4 == 2
  | .fmaxn w => w.fn.toNat / 4 == 3
  | .fneg w => w.fn.toNat / 4 == 0
  | .fabs w => w.fn.toNat / 4 == 1
  | .fcpys w => w.fn.toNat / 4 == 2
  | .fcmp _ => true
  | .fcvt _ => true
  | .frcpSForm _ => true
  | .frcpXForm _ => true
  | .frsqSForm _ => true
  | .frsqXForm _ => true
  | .fsqrtSForm _ => true
  | .fsqrtXForm _ => true
  | .fexp2SForm _ => true
  | .fexp2XForm _ => true
  | .flog2SForm _ => true
  | .flog2XForm _ => true
  | .fsinSForm _ => true
  | .fsinXForm _ => true
  | .fcosSForm _ => true
  | .fcosXForm _ => true
  | .ftanhSForm _ => true
  | .ftanhXForm _ => true
  | .fcls _ => true
  | .fscl _ => true
  | .fdot2 _ => true
  | .frnd _ => true
  | .bfpq _ => true
  | .bfpd _ => true
  | .ld _ => true
  | .st _ => true
  | .lds _ => true
  | .sts _ => true
  | .atom _ => true
  | .presClr w => w.fn == 0#8
  | .presSet w => w.fn == 1#8
  | .presTest w => w.fn == 2#8
  | .tlocEnt w => w.fn == 0#8
  | .tloc w => w.fn == 1#8
  | .tbind w => w.fn == 0#8
  | .tbindClr w => w.fn == 1#8
  | .texp _ => true
  | .tenc _ => true
  | .ctld w => w.fn == 0#8
  | .ctldSpm w => w.fn == 1#8
  | .ctst _ => true
  | .cpyLinG2s w => w.fn == 0#8 && w.m6.toNat % 2 == 0
  | .cpyLinS2g w => w.fn == 1#8 && w.m6.toNat % 2 == 0
  | .cpyLinG2g w => w.fn == 2#8 && w.m6.toNat % 2 == 0
  | .cpyTileG2s w => w.fn == 3#8 && w.m6.toNat % 2 == 0
  | .cpyTileG2sCh w _ => w.fn == 3#8 && w.m6.toNat % 2 == 1
  | .cpyRowsG2s w => w.fn == 4#8 && w.m6.toNat % 2 == 0
  | .cpyMcastG2s w => w.fn == 5#8 && w.m6.toNat % 2 == 0
  | .cpyMcastS2s w => w.fn == 6#8 && w.m6.toNat % 2 == 0
  | .cpyFill w => w.fn == 7#8 && w.m6.toNat % 2 == 0
  | .mma w => w.fn == 0#8
  | .mmaCrew w _ => w.fn == 1#8
  | .mmaSp w => w.fn == 2#8
  | .bload w => w.fn == 3#8
  | .accWin w => w.fn == 0#8
  | .accLd w => w.fn == 1#8
  | .accSt w => w.fn == 2#8
  | .accZero w => w.fn == 3#8
  | .accOut w => w.fn == 4#8
  | .scanOpdef w => w.fn == 0#8
  | .scanBegin w => w.fn == 1#8
  | .scanTile w => w.fn == 2#8
  | .scanPub w => w.fn == 3#8
  | .scanCarry w => w.fn == 4#8
  | .scanFix w => w.fn == 5#8
  | .scanEnd w => w.fn == 6#8
  | .spawn w => w.fn == 0#8
  | .launchInstruction w => w.fn == 1#8
  | .jcInit w => w.fn == 2#8
  | .jcAdd w => w.fn == 3#8
  | .collRed w => w.fn == 0#8
  | .collAr w => w.fn == 1#8
  | .collBc w => w.fn == 2#8
  | .dbgHread w => w.fn == 0#8
  | .dbgHwrite w => w.fn == 1#8
  | .dbgHstep w => w.fn == 2#8
  | .dbgHresume w => w.fn == 3#8
  | .dbgHstat w => w.fn == 4#8
  | .dbgHalt w => w.fn == 5#8
  | .watchSet w => w.fn == 0#8
  | .watchClr w => w.fn == 1#8
  | .watchGet w => w.fn == 2#8
  | .watchArm w => w.fn == 3#8
  | .perfRd w => w.fn == 0#8
  | .perfSel w => w.fn == 1#8
  | .perfSamp w => w.fn == 2#8
  | .csrRd w => w.fn == 0#8
  | .csrWrFaultact w => w.fn == 1#8 && w.imm == 1#32
  | .csrWrCecnt w => w.fn == 1#8 && w.imm == 2#32
  | .csrWrUecnt w => w.fn == 1#8 && w.imm == 3#32
  | .csrWrStopreq w => w.fn == 1#8 && w.imm == 7#32
  | .csrWr w => w.fn == 1#8 && w.imm != 1#32 && w.imm != 2#32 && w.imm != 3#32 && w.imm != 7#32
  | .nop => true
  | .ret => true
  | .join => true
  | .regang => true
  | .exit => true
  | .powerRailEnable => true
  | .moduleReset _ => true
  | .powerDown => true
  | .tikelTraining _ => true
  | .trainingRetry => true
  | .ack _ _ => true
  | .ackOnlyTimer => true
  | .resendTimeout => true
  | .unlistedMessage k _ => ([0, 1, 5, 6, 8, 9, 10, 11, 13, 14, 15, 17, 18, 19, 20, 21, 22, 23, 24, 25, 26, 27, 28, 29, 30, 31, 32, 34, 35, 37].all (fun t => k.toNat != t))
  | .firmware _ _ => true
  | .attestReq _ n => n.length == 32
  | .attestReport => true
  | .devtimeStart offs => WellFormed.perDie offs
  | .devtimeCheck d _ => WellFormed.dieOk d
  | .memoryAndFabric => true
  | .thermalLimit d => WellFormed.dieOk d
  | .overtempShutdown d => WellFormed.dieOk d
  | .partset _ b => match b with
    | none => true
    | some p => WellFormed.perDie p.weights && WellFormed.bytesOk p.weights && WellFormed.perDie p.roots
  | .compass _ b => match b with
    | none => true
    | some p => WellFormed.perDie p.weights && WellFormed.bytesOk p.weights
  | .partattr _ _ => true
  | .partreset _ _ => true
  | .resetDone d p => WellFormed.dieOk d && p < 16
  | .resetTimeout d p => WellFormed.dieOk d && p < 16
  | .ringset _ _ _ _ _ => true
  | .memread _ _ => true
  | .memwrite _ _ _ => true
  | .launch _ p => p.length == 256
  | .resideOk _ _ => true
  | .resideFail _ _ => true
  | .resideTimeout d _ => WellFormed.dieOk d
  | .leaseReady d _ => WellFormed.dieOk d
  | .leaseFail d _ => WellFormed.dieOk d
  | .crewPlace d => WellFormed.dieOk d
  | .backfillTimeout d => WellFormed.dieOk d
  | .late d _ => WellFormed.dieOk d
  | .pinseg _ _ => true
  | .pinfree _ _ _ => true
  | .invalidate _ _ _ _ => true
  | .invalAck d c _ => WellFormed.dieOk d && c < 384
  | .homeAgentRequest _ _ => true
  | .pageWalkComplete _ _ => true
  | .sliceAccess _ _ => true
  | .invalBatch d s => WellFormed.dieOk d && WellFormed.dieOk s
  | .loadDataReturn _ => true
  | .crewScratchpadAccess _ => true
  | .xvreg _ _ _ _ _ _ => true
  | .xvfree _ _ _ _ => true
  | .expandedViewRead _ _ => true
  | .collreg _ _ _ _ _ => true
  | .fabricFrame f => WellFormed.dieOk f.die && f.port < 16 && (match f.body with
    | .contrib _ _ words _ => words.all (fun x => x >>> 101 == 0)
    | _ => true)
  | .preempt _ _ _ _ => true
  | .wswitch _ _ _ => true
  | .wresume _ _ _ => true
  | .stopSave _ => true
  | .dump _ _ _ _ _ => true
  | .dumpDone _ => true
  | .dumpRelease _ _ _ => true
  | .sxentry _ _ _ _ ws => ws.length == 4
  | .sxprog _ _ _ _ _ => true
  | .attach _ _ => true
  | .debug _ _ _ _ => true
  | .perfset _ _ _ _ => true
  | .sampring _ _ _ _ _ => true
  | .pcSample _ => true
  | .waitTick _ _ => true
  | .copyChunk _ => true
  | .matrixKStep _ => true
  | .bloadSlotSwitch _ => true
  | .decoderResume _ _ _ => true
  | .texpDecodeDone _ _ _ => true
  | .tencPublish _ _ _ => true
  | .ctldFill _ _ _ => true
  | .scanTilePerform _ => true
  | .carryOutFormed _ => true
  | .scanFixPerform _ => true
  | .carryArrive _ => true
  | .remoteArrival _ => true
  | .collComplete _ => true
  | .collTimeout _ => true
  | .sextantProgramRun _ => true
  | .haltTakesEffect _ => true
  | .softErrorCorrected d c p => WellFormed.dieOk d && c < 384 && p < 16
  | .deviceStructureError d p _ => WellFormed.dieOk d && p < 16
  | .gangRetire _ => true
  | .crewRetire _ => true
  | .frameCrcFail => true
  | .instructionCacheFill _ _ _ => true
  | .leaseShareReport s d _ => WellFormed.dieOk s && WellFormed.dieOk d

end Sys2Proof
end

