-- ==== Sys2Proof/Certificates/Slice0/Obligations.lean ====
section
/-!
DEFINITION. The statements about the machine.
-/

open Sys2Proof Sys2Proof.Machine

/-- R175, R176: the scalar arithmetic, in each of its formats, writes its result to its destination and changes nothing else
but the bundle's progress; counts of 64 and more shift everything out, and ssra then leaves the sign. -/
def Obligations.ScalarArithmetic : Prop :=
  ScalarAll .saddSForm .saddSlForm .saddXForm (fun a b => a + b) ∧
  ScalarAll .ssubSForm .ssubSlForm .ssubXForm (fun a b => a - b) ∧
  ScalarAll .smulSForm .smulSlForm .smulXForm (fun a b => a * b) ∧
  ScalarAll .smulhSForm .smulhSlForm .smulhXForm (fun a b => highHalf (a.signExtend 128) (b.signExtend 128)) ∧
  ScalarAll .sandSForm .sandSlForm .sandXForm (fun a b => a &&& b) ∧
  ScalarAll .sorSForm .sorSlForm .sorXForm (fun a b => a ||| b) ∧
  ScalarAll .sxorSForm .sxorSlForm .sxorXForm (fun a b => a ^^^ b) ∧
  ScalarAll .sshlSForm .sshlSlForm .sshlXForm (fun a b => a <<< b) ∧
  ScalarAll .sshrSForm .sshrSlForm .sshrXForm (fun a b => a >>> b) ∧
  ScalarAll .ssraSForm .ssraSlForm .ssraXForm (fun a b => a.sshiftRight' b) ∧
  ScalarX .smulhZ (fun w => w.fn = 1) (fun _ a b => highHalf (a.setWidth 128) (b.setWidth 128)) ∧
  ScalarX .sminS (fun w => w.fn = 0) (fun _ a b => if a.toInt ≤ b.toInt then a else b) ∧
  ScalarX .sminZ (fun w => w.fn = 1) (fun _ a b => if a.toNat ≤ b.toNat then a else b) ∧
  ScalarX .smaxS (fun w => w.fn = 2) (fun _ a b => if a.toInt ≤ b.toInt then b else a) ∧
  ScalarX .smaxZ (fun w => w.fn = 3) (fun _ a b => if a.toNat ≤ b.toNat then b else a)

/-- R177–R179: the divisions, whose quotient by 0 is all ones and whose remainder by 0 is the dividend; the comparison, whose
reserved FN values raise ILLEGAL FN; the selection; the moves; the scaled address. -/
def Obligations.ScalarDivideSelectMove : Prop :=
  ScalarDiv .sdivS (fun a b => if b = 0 then BitVec.allOnes 64 else a.sdiv b) ∧
  ScalarDiv .sdivZ (fun a b => if b = 0 then BitVec.allOnes 64 else a / b) ∧
  ScalarDiv .sremS (fun a b => if b = 0 then a else a.srem b) ∧
  ScalarDiv .sremZ (fun a b => if b = 0 then a else a % b) ∧
  ScalarX .scmp (fun w => w.fn.toNat ≤ 5) (fun w a b => if condition w.fn a b then 1 else 0) ∧
  (∀ (w : XWord) (s : State) (x : Ctx), s.Issues x → 6 ≤ w.fn.toNat →
    exec (.scmp w) s = .next (s.takeFault x.faultAt { cls := 1, sub := 3 })) ∧
  (∀ w, ScalarGives (.ssel w) 12 (opForm .scalar .named .named .named (w.fn = 0) (w.m6 = 0 && w.imm = 0 && w.nwb = 0)) w
    (fun x _ => if x.s w.c9.toNat = 0 then x.s w.b9.toNat else x.s w.a9.toNat)) ∧
  (∀ w lit, ScalarGives (.sli w lit) 12 (opForm .scalar .unused .unused .unused true (w.b6 = 0 && w.nwb = 0))
    (scalarSl false w) (fun _ _ => lit)) ∧
  (∀ w, ScalarGives (.smov w) 4 (opForm .scalar .scalar .unused .unused true (w.nwb = 0)) (scalarS true false w)
    (fun x _ => x.s w.a6.toNat)) ∧
  (∀ w, ScalarGives (.saddr w) 12 (opForm .scalar .scalar .named .unused (w.fn = 0) (w.m6.toNat < 8 && w.nwb = 0)) w
    (fun x _ => x.s w.a9.toNat + x.s w.b9.toNat * BitVec.ofNat 64 (2 ^ w.m6.toNat) + w.imm.signExtend 64))

/-- R180: the bit instructions. W2 bits 0–5 are the position and bits 6–12 the length of the field; a field that reaches past bit 63 is
ILLEGAL with subcode 20, and FN 7 to 255 are reserved. -/
def Obligations.ScalarBits : Prop :=
  (∀ w, ScalarGives (.sbitPopc w) 12 (sbitForm .unused (w.imm = 0) w) w
    (fun x _ => BitVec.ofNat 64 ((List.range 64).countP (fun i => (x.s w.a9.toNat).getLsbD i)))) ∧
  (∀ w, ScalarGives (.sbitClz w) 12 (sbitForm .unused (w.imm = 0) w) w
    (fun x _ => if x.s w.a9.toNat = 0 then 64 else BitVec.ofNat 64 (63 - (x.s w.a9.toNat).toNat.log2))) ∧
  (∀ w, ScalarGives (.sbitCtz w) 12 (sbitForm .unused (w.imm = 0) w) w
    (fun x _ => BitVec.ofNat 64 ((List.range 64).countP (fun i => (x.s w.a9.toNat).toNat % 2 ^ (i + 1) = 0)))) ∧
  (∀ w, ScalarGives (.sbitBrev w) 12 (sbitForm .unused (w.imm = 0) w) w (fun x _ => (x.s w.a9.toNat).reverse)) ∧
  (∀ w, ScalarField (.sbitBfx w) .unused w (fun a _ pos len => BitVec.ofNat 64 (a.toNat / 2 ^ pos % 2 ^ len))) ∧
  (∀ w, ScalarField (.sbitBfxS w) .unused w (fun a _ pos len => BitVec.ofInt 64 (Int.bmod (a.toNat / 2 ^ pos : Nat) (2 ^ len)))) ∧
  (∀ w, ScalarField (.sbitBfi w) .scalar w (fun a b pos len =>
    let mask := BitVec.ofNat 64 ((2 ^ len - 1) * 2 ^ pos)
    (a &&& ~~~mask) ||| ((b <<< pos) &&& mask))) ∧
  (∀ w, FieldTooLong (.sbitBfx w) .unused w ∧ FieldTooLong (.sbitBfxS w) .unused w ∧ FieldTooLong (.sbitBfi w) .scalar w) ∧
  (∀ (w : XWord) (rest : List W32), 7 ≤ w.fn.toNat → decodeWords (Encode.xWords 1 0x21 w ++ rest) = .error .fn)

/-- R181, R182: srd gives the device value that it names, and vget the register of lane sB mod W. That srd of YCOUNT gives the counter
before the instruction's own count is the model's choice (log 44). -/
def Obligations.ScalarReads : Prop :=
  (∀ w, ScalarGives (.srd w) 12 (opForm .scalar .unused .unused .unused (w.fn = 0 && w.imm.toNat < 24) (w.m6 = 0 && w.nwb = 0)) w
    (fun x s => (s.deviceValues x).getD w.imm.toNat 0)) ∧
  (∀ w, ScalarGives (.vget w) 12 (opForm .scalar .vfield .scalar .unused (w.fn.toNat < 2) (w.m6 = 0 && w.imm = 0 && w.nwb = 0)) w
    (fun x _ => (x.ofLane 0 (x.sn w.b9.toNat % x.g.kernel.width) (fun y => y.read (x.sn w.b9.toNat % x.g.kernel.width) w.a9.toNat)).setWidth 64)) ∧
  (∀ w, ScalarGives (.vgetS w) 12 (opForm .scalar .vfield .scalar .unused (w.fn.toNat < 2) (w.m6 = 0 && w.imm = 0 && w.nwb = 0)) w
    (fun x _ => (x.ofLane 0 (x.sn w.b9.toNat % x.g.kernel.width) (fun y => y.read (x.sn w.b9.toNat % x.g.kernel.width) w.a9.toNat)).signExtend 64))

/-- R184, R185: the per-lane integer arithmetic, logic and shifts, element by element, in each of their formats. -/
def Obligations.LaneArithmetic : Prop :=
  LaneBoth .vaddSForm .vaddXForm true (intForm2 8 8) (intByElement (fun a b _ => a + b)) ∧
  LaneBoth .vsubSForm .vsubXForm true (intForm2 8 8) (intByElement (fun a b _ => a - b)) ∧
  LaneBoth .vmulSForm .vmulXForm true (intForm2 8 8) (intByElement (fun a b _ => a * b)) ∧
  LaneBoth .vmulhSForm .vmulhXForm true (intForm2 8 0) (fun w => byElement (elementBits w) (fun a b _ =>
    (number (elementBits w) (unsignedType w) a * number (elementBits w) (unsignedType w) b / 2 ^ elementBits w
      % 2 ^ elementBits w).toNat)) ∧
  LaneX .vmad (fun w => laneRule .src .src (w.fn.toNat % 4 ≠ 3 && w.fn.toNat < 8) (w.m6.toNat &&& 55 == 0) (w.imm = 0))
    (intByElement (fun a b c => a * b + c)) ∧
  LaneX .vdot4 (fun w => laneRule .src .src (w.fn.toNat < 4) (w.m6.toNat &&& 55 == 0) (w.imm = 0)) dotOfBytes ∧
  LaneBoth .vandSForm .vandXForm true (intForm2 1 0) (fun _ a b _ => a &&& b) ∧
  LaneBoth .vorSForm .vorXForm true (intForm2 1 0) (fun _ a b _ => a ||| b) ∧
  LaneBoth .vxorSForm .vxorXForm true (intForm2 1 0) (fun _ a b _ => a ^^^ b) ∧
  LaneBoth .vshlSForm .vshlXForm true (intForm2 4 0) (fun w => byElement (elementBits w) (fun a b _ =>
    if b < elementBits w then a * 2 ^ b else 0)) ∧
  LaneBoth .vshrSForm .vshrXForm true (intForm2 4 0) (fun w => byElement (elementBits w) (fun a b _ =>
    if b < elementBits w then a / 2 ^ b else 0)) ∧
  LaneBoth .vsraSForm .vsraXForm true (intForm2 4 0) (fun w => byElement (elementBits w) (fun a b _ =>
    (number (elementBits w) false a / 2 ^ min b (elementBits w - 1) % 2 ^ elementBits w).toNat)) ∧
  LaneX .vmin (intForm2 16 0) (fun w => byElement (elementBits w) (fun a b _ =>
    if number (elementBits w) (unsignedType w) a < number (elementBits w) (unsignedType w) b then a else b)) ∧
  LaneX .vmax (intForm2 16 0) (fun w => byElement (elementBits w) (fun a b _ =>
    if number (elementBits w) (unsignedType w) a < number (elementBits w) (unsignedType w) b then b else a)) ∧
  LaneX .vabs (fun w => laneRule .unused .unused (w.fn.toNat < 3) (w.m6.toNat &&& 55 == 0) (w.imm = 0))
    (intByElement (fun a _ _ => (a.natAbs : Int))) ∧
  LaneX .vneg (fun w => laneRule .unused .unused (w.fn.toNat % 4 ≠ 3 && 8 ≤ w.fn.toNat && w.fn.toNat < 16)
    (w.m6.toNat &&& 55 == 0) (w.imm = 0)) (intByElement (fun a _ _ => 0 - a))

/-- R186, R188–R190: selection and moves, the bit-level instructions, requantisation, packing and unpacking. -/
def Obligations.LaneBitsAndMoves : Prop :=
  (∀ w, LaneGives (.vsel w) 12 (fun _ => laneRule .src .unused (w.fn.toNat < 16) (w.m6 = 0) (w.imm = 0)) w (fun _ _ l y =>
    if y.readP (w.fn.toNat % 8) ≠ w.fn.getLsbD 3 then y.read l w.a9.toNat else y.read l w.b9.toNat)) ∧
  LaneS .vmovSForm false (fun _ a _ _ => a) ∧
  (∀ w lit, LaneGives (.vmovSlForm w lit) 12 (fun _ => { opForm .dst .unused .unused .unused true (w.b6 = 0) with
    litOk := lit = (lit.setWidth 32).signExtend 64 }) (laneSl w) (fun _ _ _ _ => lit.setWidth 32)) ∧
  (∀ w, LaneGives (.vmovXForm w) 12 (fun _ => laneRule .unused .unused (w.fn = 0) (w.m6 = 0) (w.a9 = 268 || w.imm = 0)) w
    (fun _ _ l y => if w.a9 = 268 then w.imm else y.read l w.a9.toNat)) ∧
  (∀ w, LaneGives (.vfsh w) 12 (fun _ => laneRule .src .src (w.fn = 0) (w.m6 = 0)
      (if w.c9 = 268 then w.imm.toNat < 32 else w.imm = 0)) w (fun _ _ l y =>
    let k := (if w.c9 = 268 then w.imm else y.read l w.c9.toNat).toNat % 32
    BitVec.ofNat 32 (((y.read l w.a9.toNat).toNat * 2 ^ 32 + (y.read l w.b9.toNat).toNat) / 2 ^ k))) ∧
  (∀ w, LaneGives (.vprm w) 12 (fun _ => laneRule .src .src (w.fn = 0) (w.m6 = 0)
      (if w.c9 = 268 then w.imm.toNat < 65536 else w.imm = 0)) w (fun _ _ l y =>
    permuted (if w.c9 = 268 then w.imm else y.read l w.c9.toNat).toNat (y.read l w.a9.toNat) (y.read l w.b9.toNat))) ∧
  LaneX .vbitPopc (fun w => unaryForm (w.fn.toNat < 4) w)
    (fun _ a _ _ => BitVec.ofNat 32 ((List.range 32).countP (fun i => a.getLsbD i))) ∧
  LaneX .vbitClz (fun w => unaryForm (w.fn.toNat < 4) w)
    (fun _ a _ _ => if a = 0 then 32 else BitVec.ofNat 32 (31 - a.toNat.log2)) ∧
  LaneX .vbitCtz (fun w => unaryForm (w.fn.toNat < 4) w)
    (fun _ a _ _ => BitVec.ofNat 32 ((List.range 32).countP (fun i => a.toNat % 2 ^ (i + 1) = 0))) ∧
  LaneX .vbitBrev (fun w => unaryForm (w.fn.toNat < 4) w) (fun _ a _ _ => a.reverse) ∧
  LaneX .vbitBfx (fun w => laneRule .src .unused (4 ≤ w.fn.toNat && w.fn.toNat < 6) (w.m6 = 0) (immIsB w)) (fun w a b _ =>
    let v := a.toNat / 2 ^ (laneField b).1 % 2 ^ (laneField b).2
    if w.fn = 5 then BitVec.ofInt 32 (Int.bmod v (2 ^ (laneField b).2)) else BitVec.ofNat 32 v) ∧
  LaneX .vbitBfi (fun w => laneRule .src .src (w.fn = 6) (w.m6 = 0) (w.imm = 0)) (fun _ a b c =>
    let mask := BitVec.ofNat 32 ((2 ^ (laneField b).2 - 1) * 2 ^ (laneField b).1)
    (c &&& ~~~mask) ||| ((a <<< (laneField b).1) &&& mask)) ∧
  LaneX .vrsh (fun w => laneRule .src .src (w.fn.toNat % 4 ≠ 3 && w.fn.toNat < 8 && w.fn.toNat ≠ 4) (w.m6.toNat < 4)
    (if w.b9 = 268 then w.imm.toNat < 32 else w.imm = 0)) requantised ∧
  LaneX .vpack (fun w => laneRule .src .unused ((w.fn.toNat % 4 = 1 || w.fn.toNat % 4 = 2) && w.fn.toNat < 8)
    (w.m6.toNat &&& 55 == 0) (w.imm = 0)) packed ∧
  LaneX .vunpk (fun w => laneRule .unused .unused ((w.fn.toNat % 4 = 1 || w.fn.toNat % 4 = 2) && w.fn.toNat < 16) (w.m6 = 0)
    (w.imm = 0)) unpacked

/-- R187, R202: the instructions that write a predicate of each executing lane, which leave every register and the belt. -/
def Obligations.LanePredicates : Prop :=
  (∀ w, PredGives (.vcmp w) (fun _ => { laneRule .src .unused (w.fn.toNat % 4 ≠ 3 && w.fn.toNat / 8 % 8 < 6 && w.fn.toNat < 128)
      (w.m6 = 0) (immIsB w) with d := .pred, result := false }) w (fun l y =>
    let n := elementBits w
    let holds (e : Nat) : Bool := compares (w.fn.toNat / 8 % 8)
      (number n (unsignedType w) (bits (y.read l w.a9.toNat).toNat (n * e) n))
      (number n (unsignedType w) (bits (immOr w l y).toNat (n * e) n))
    if w.fn.getLsbD 6 then (List.range (32 / n)).any holds else (List.range (32 / n)).all holds)) ∧
  (∀ w, PredGives (.plog w) (fun _ => { opForm .pred .pred .pred .unused (w.fn.toNat < 16 && w.m6 = 0) (w.imm = 0) with
      result := false }) w (fun _ y => w.fn.getLsbD (2 * (if y.readP w.a9.toNat then 1 else 0) + (if y.readP w.b9.toNat then 1 else 0)))) ∧
  (∀ w, PredGives (.fcmp w) (fun _ => { floatRule .src .unused (w.fn.toNat < 64) 16 immIsB w with d := .pred, result := false }) w
    (fun l y =>
      let t := floatFormat w
      let n := 1 + t.w + t.f
      let holds (e : Nat) : Bool := fcmpHolds (w.fn.toNat / 4 % 8)
        (fcompare (readFloat t (flushes w) (bits (y.read l w.a9.toNat).toNat (n * e) n))
          (readFloat t (flushes w) (bits (immOr w l y).toNat (n * e) n)))
      if w.fn.getLsbD 5 then (List.range (32 / n)).any holds else (List.range (32 / n)).all holds))

/-- R191–R194: the instructions across lanes read every lane as it stood before the first pass, and write the participants. -/
def Obligations.AcrossLanes : Prop :=
  (∀ w, LaneGives (.vshfl w) 12 (fun x =>
      let seg := if w.fn.toNat / 4 = 0 then x.g.kernel.width else 2 ^ (w.fn.toNat / 4 + 1)
      laneRule .src .unused (w.fn.toNat / 4 < 5 && seg ≠ 0 && seg ≤ x.g.kernel.width) (w.m6 = 0) (immIsB w)) w (fun x _ l y =>
    let seg := if w.fn.toNat / 4 = 0 then x.g.kernel.width else 2 ^ (w.fn.toNat / 4 + 1)
    let k := (immOr w l y).toNat % seg
    let q := l % seg
    x.oldA w (l - q + (if w.fn.toNat % 4 = 0 then k else if w.fn.toNat % 4 = 1 then (q + k) % seg
      else if w.fn.toNat % 4 = 2 then (q + seg - k) % seg else q ^^^ k)))) ∧
  (∀ w, LaneGives (.vred w) 12 (fun _ => laneRule .unused .unused (w.fn.toNat < 11) (redM6 w.fn.toNat w) (w.imm = 0)) w
    (fun x ls _ _ => if w.fn.toNat < 8 then combination w.fn.toNat (saturates w) (ls.map (x.oldA w))
      else (treeReduce (redFloat w.fn.toNat (floatMods w.m6.toNat)) x.b.lanes.length.log2
        ((List.range x.b.lanes.length).map (fun l =>
          (if l ∈ ls then x.oldA w l else redIdentity w.fn.toNat, 0)))).1)) ∧
  (∀ w, LaneGives (.vscn w) 12 (fun _ => laneRule .unused .unused (w.fn.toNat % 16 < 11 && w.fn.toNat < 32)
      (redM6 (w.fn.toNat % 16) w) (w.imm = 0)) w (fun x ls l _ =>
    let xs := (upTo (w.fn.getLsbD 4) l ls).map (x.oldA w)
    if w.fn.toNat % 16 < 8 then combination (w.fn.toNat % 16) (saturates w) xs
    else xs.foldl (fun a b => (redFloat (w.fn.toNat % 16) (floatMods w.m6.toNat) a b).1) (redIdentity (w.fn.toNat % 16)))) ∧
  (∀ w, LaneGives (.vbal w) 12 (fun _ => laneRule .unused .unused (w.fn.toNat < 2) (w.m6 = 0) (w.imm = 0)) w (fun x ls _ _ =>
    BitVec.ofNat 32 ((List.range 32).map (fun i =>
      if 32 * w.fn.toNat + i ∈ ls ∧ x.oldA w (32 * w.fn.toNat + i) ≠ 0 then 2 ^ i else 0)).sum))

/-- R199–R201, R209–R212: the float arithmetic rounds the exact result once; the minimum and maximum families; the sign
instructions; classes; scaling; dot products; rounding to an integral value. -/
def Obligations.FloatArithmetic : Prop :=
  LaneBoth .faddSForm .faddXForm true (fun w => floatRule .src .unused (w.fn.toNat < 4) 31 immIsB w)
    (floatByElement (fun md a b _ => fsumExact md a b)) ∧
  LaneBoth .fsubSForm .fsubXForm true (fun w => floatRule .src .unused (w.fn.toNat < 4) 31 immIsB w)
    (floatByElement (fun md a b _ => fsumExact md a b.flip)) ∧
  LaneBoth .fmulSForm .fmulXForm true (fun w => floatRule .src .unused (w.fn.toNat < 4) 31 immIsB w)
    (floatByElement (fun _ a b _ => fmulExact a b)) ∧
  LaneBoth .ffmaSForm .ffmaXForm true (fun w => floatRule .src .src (w.fn.toNat < 4) 31 (fun w => w.imm = 0) w)
    (floatByElement (fun md a b c => if (fmulExact a b).2 then (.nan, true) else fsumExact md (fmulExact a b).1 c)) ∧
  LaneX .fmin (fun w => floatRule .src .unused (w.fn.toNat / 4 = 0) 16 immIsB w)
    (fun w => byElement (fmtWidth (floatFormat w)) (fun a b _ => fminmax (floatFormat w) (flushes w) false false a b)) ∧
  LaneX .fmax (fun w => floatRule .src .unused (w.fn.toNat / 4 = 1) 16 immIsB w)
    (fun w => byElement (fmtWidth (floatFormat w)) (fun a b _ => fminmax (floatFormat w) (flushes w) true false a b)) ∧
  LaneX .fminn (fun w => floatRule .src .unused (w.fn.toNat / 4 = 2) 16 immIsB w)
    (fun w => byElement (fmtWidth (floatFormat w)) (fun a b _ => fminmax (floatFormat w) (flushes w) false true a b)) ∧
  LaneX .fmaxn (fun w => floatRule .src .unused (w.fn.toNat / 4 = 3) 16 immIsB w)
    (fun w => byElement (fmtWidth (floatFormat w)) (fun a b _ => fminmax (floatFormat w) (flushes w) true true a b)) ∧
  LaneX .fneg (fun w => floatRule .unused .unused (w.fn.toNat / 4 = 0) 0 (fun w => w.imm = 0) w) (fun w =>
    let n := fmtWidth (floatFormat w)
    byElement n (fun a _ _ => a + 2 ^ (n - 1))) ∧
  LaneX .fabs (fun w => floatRule .unused .unused (w.fn.toNat / 4 = 1) 0 (fun w => w.imm = 0) w) (fun w =>
    let n := fmtWidth (floatFormat w)
    byElement n (fun a _ _ => a % 2 ^ (n - 1))) ∧
  LaneX .fcpys (fun w => floatRule .src .unused (w.fn.toNat / 4 = 2) 0 immIsB w) (fun w =>
    let n := fmtWidth (floatFormat w)
    byElement n (fun a b _ => a % 2 ^ (n - 1) + b / 2 ^ (n - 1) * 2 ^ (n - 1))) ∧
  LaneX .fcls (fun w => floatRule .unused .unused (w.fn.toNat < 4) 0 (fun w => w.imm = 0) w)
    (fun w => byElement (fmtWidth (floatFormat w)) (fun a _ _ => fclassMask (floatFormat w) a)) ∧
  LaneX .fscl (fun w => floatRule .src .unused (w.fn.toNat < 4) 31 immIsB w) (fun w a b _ =>
    let t := floatFormat w
    byElement (fmtWidth t) (fun x y _ =>
      let k : Int := if w.b9 = 268 ∨ w.fn.toNat % 4 = 0 then b.toInt else Int.bmod y 65536
      (roundTo t (roundingMode w) (saturates w) (flushes w) ((readFloat t (flushes w) x).scale k)).1) a b 0) ∧
  LaneX .fdot2 (fun w => floatRule .src .src (w.fn.toNat % 4 ≠ 0 && w.fn.toNat < 4) 31 (fun w => w.imm = 0) w) (fun w a b c =>
    let rd (x : W32) (i : Nat) := readFloat (floatFormat w) (flushes w) (bits x.toNat (16 * i) 16)
    let r := fdot2Exact (roundingMode w) (rd a 0) (rd b 0) (rd a 1) (rd b 1) (readFloat fp32 (flushes w) c.toNat)
    BitVec.ofNat 32 (if r.2 then canonNaN fp32 else (roundTo fp32 (roundingMode w) (saturates w) (flushes w) r.1).1)) ∧
  LaneX .frnd (fun w => floatRule .unused .unused (w.fn.toNat < 4) 23 (fun w => w.imm = 0) w)
    (fun w => byElement (fmtWidth (floatFormat w)) (fun a _ _ =>
      (frndBits (floatFormat w) (roundingMode w) (flushes w) a).1))

/-- R203–R206, R213–R215: the special functions, the conversions and the block float instructions. Which value within its bound a special
function gives (log 12), and what a lane contributes to bfpq outside .act (log 32), is the model's choice. -/
def Obligations.FloatSpecialAndConversions : Prop :=
  LaneBoth .frcpSForm .frcpXForm false (specialForm 24) (specialByElement 0x58) ∧
  LaneBoth .frsqSForm .frsqXForm false (specialForm 24) (specialByElement 0x59) ∧
  LaneBoth .fsqrtSForm .fsqrtXForm false (specialForm 31) (specialByElement 0x5A) ∧
  LaneBoth .fexp2SForm .fexp2XForm false (specialForm 24) (specialByElement 0x5B) ∧
  LaneBoth .flog2SForm .flog2XForm false (specialForm 24) (specialByElement 0x5C) ∧
  LaneBoth .fsinSForm .fsinXForm false (specialForm 24) (specialByElement 0x5D) ∧
  LaneBoth .fcosSForm .fcosXForm false (specialForm 24) (specialByElement 0x5E) ∧
  LaneBoth .ftanhSForm .ftanhXForm false (specialForm 24) (specialByElement 0x5F) ∧
  (∀ w, LaneGives (.fcvt w) 12 (fun _ =>
      laneRule .src .unused (cvtLegal w.fn.toNat w.m6.toNat (w.imm.toNat % 4)) true (w.imm.toNat < 4)) w
    (fun _ _ l y => converted w (y.read l w.a9.toNat) (y.read l w.b9.toNat) 0)) ∧
  LaneX .bfpd (fun w => laneRule .unused .unused (w.fn.toNat % 4 = 0 && w.fn.toNat / 4 < 7)
      (w.m6.toNat &&& 48 == 0 && w.m6.toNat % 8 < 4) (w.imm = 0)) (fun w a _ _ =>
    let m := w.fn.toNat / 4 + 2
    BitVec.ofNat 32 (roundTo fp32 (roundingMode w) (saturates w) false
      (bfpVal m (a.toNat / 256 % 256) (a.toNat / 65536 % 2) (Int.bmod (a.toNat % 2 ^ m) (2 ^ m)))).1) ∧
  (∀ w, LaneGives (.bfpq w) 12 (fun _ => laneRule .unused .unused (w.fn.toNat % 4 = 0 && w.fn.toNat / 4 % 8 < 7 && w.fn.toNat < 64)
      (w.m6 = 0) (w.imm = 0)) w (fun x _ l _ =>
    let q := (quantise (w.fn.toNat / 4 % 8 + 2) ((List.range 16).map (fun i => x.contribution w (l / 16 * 16 + i)))).1
    BitVec.ofNat 32 ((q.m.getD (l % 16) 0 % 256).toNat + q.e * 256 + q.mu.getD (l % 16 / 2) 0 * 65536)))

/-- R58, R207: an operand that a format holds rounds to itself without an exception, a significand rounds to the multiple that its
mode names, and the special functions give the stated results on NaN, infinite, zero and negative operands. -/
def Obligations.RoundingAndSpecialOperands : Prop :=
  (∀ (t : Fmt), t ∈ [fp32, fp16, bf16, e4m3, e5m2] → ∀ (mode : RMode) (sat : Bool) (x : Nat) (n : Bool) (m : Nat) (e : Int),
    x < 2 ^ fmtWidth t → readFloat t false x = .fin n m e → roundTo t mode sat false (.fin n m e) = (x, 0)) ∧
  (∀ (mode m d : Nat) (neg : Bool) (q : Int), mode < 4 → m ≠ 0 →
    smant neg (roundMult (rmode mode) neg m (q - d) q).1 = divideRounded mode d (smant neg m) ∧
    ((roundMult (rmode mode) neg m (q - d) q).2 = true ↔ m % 2 ^ d = 0)) ∧
  (∀ (t : Fmt), t ∈ [fp32, fp16, bf16] → ∀ (mode : RMode) (sat ftz : Bool) (x : Nat),
     let f (major : Nat) : Nat := (specialBits major t mode sat ftz x).1
     let nan := canonNaN t
     let zero (neg : Bool) := if neg then 2 ^ (t.w + t.f) else 0
     let one (neg : Bool) := zero neg + (2 ^ (t.w - 1) - 1) * 2 ^ t.f
     let inf (neg : Bool) := zero neg + ((2 ^ t.w - 1) * 2 ^ t.f - if sat then 1 else 0)
     match readFloat t ftz x with
     | .nan => [0x58, 0x59, 0x5A, 0x5B, 0x5C, 0x5D, 0x5E, 0x5F].map f = List.replicate 8 nan
     | .inf neg => [0x58, 0x59, 0x5A, 0x5B, 0x5C, 0x5D, 0x5E, 0x5F].map f =
         [zero neg, if neg then nan else zero false, if neg then nan else inf false, if neg then zero false else inf false,
           if neg then nan else inf false, nan, nan, one neg]
     | .fin neg 0 _ => [0x58, 0x59, 0x5A, 0x5B, 0x5C, 0x5D, 0x5E, 0x5F].map f =
         [inf neg, inf neg, zero neg, one false, inf true, zero neg, one false, zero neg]
     | .fin true (_ + 1) _ => [0x59, 0x5A, 0x5C].map f = [nan, nan, nan]
     | .fin false (_ + 1) _ => True)

/-- R39–R42, R147: a PAIR reads both halves before either writes; nop has no effect. -/
def Obligations.PairAndNop : Prop :=
  (∀ (w : PairWord) (s : State) (x : Ctx), s.Issues x → s.watching = false → x.inTime →
    pairCheck x.g.kernel.v w = none → x.latchCheck x.c.plane (.pair w) = none →
    ∃ t, exec (.pair w) s = .next t ∧ t.uncounted = s.uncounted.modBundle x.c.gid x.c.bundle (fun b =>
      x.afterPass s 12 (b.eachLane (x.lanesIn x.c.plane (w.pred.toNat, w.pn == 1)) (fun l y =>
        x.ofLane y l (fun y0 => y0.afterPair w l))))) ∧
  Passes .nop 4 (fun _ => bareForm true true) (plainWord 0 0 0 268 268) (fun _ _ b => b)

/-- R150, R151, R154, R155: the branches and calls. -/
def Obligations.Branches : Prop :=
  (∀ w : BraWord, Jumps (.bra w) (bareForm true (w.nwb = 0)) (plainWord 0 0 0 w.d9 w.a9)
    (fun x => x.inCode (x.targetOf w.w2) ∧ (w.w1 = 0 ∨ x.inCode (x.targetOf w.w1)) ∧
      ∀ sl ∈ x.b.slicesOf x.q, x.parts w sl → w.w1 ≠ 0 ∧ sl.join.length < 8)
    (fun x sl => x.branched w sl)) ∧
  (∀ w : XWord, Jumps (.brx w) { bareForm (w.fn = 0) (w.m6 = 0 && w.imm = 0 && w.nwb = 0) with a := .named } w
    (fun x => x.inCode (x.sn w.a9.toNat)) (fun x sl => { sl with offset := x.sn w.a9.toNat })) ∧
  (∀ w : XWord, Jumps (.bru w) { bareForm (w.fn.toNat ≤ 5) (w.m6 = 0 && w.nwb = 0) with a := .scalar, b := .scalar } w
    (fun x => x.inCode (x.targetOf w.imm))
    (fun x sl =>
      let t := if condition w.fn (x.s w.a9.toNat) (x.s w.b9.toNat) then (x.targetOf w.imm).toNat else x.offset + 12
      { sl with offset := t })) ∧
  (∀ w : XWord, Jumps (.call w) (bareForm true (w.m6 = 0 && w.nwb = 0)) w
    (fun x => x.inCode (x.targetOf w.imm) ∧ ∀ sl ∈ x.b.slicesOf x.q, sl.call.length < 16)
    (fun x sl => { sl with call := (x.offset + 12) :: sl.call, offset := (x.targetOf w.imm).toNat })) ∧
  (∀ w : XWord, Jumps (.callIndirect w) { bareForm true (w.m6 = 0 && w.imm = 0 && w.nwb = 0) with a := .named } w
    (fun x => x.inCode (x.sn w.a9.toNat) ∧ ∀ sl ∈ x.b.slicesOf x.q, sl.call.length < 16)
    (fun x sl => { sl with call := (x.offset + 12) :: sl.call, offset := x.sn w.a9.toNat })) ∧
  Jumps .ret (bareForm true true) (plainWord 0 0 0 268 268) (fun x => ∀ sl ∈ x.b.slicesOf x.q, sl.call ≠ [])
    (fun _ sl => { sl with offset := sl.call.headD 0, call := sl.call.tail })

/-- R150, R151, R155: a target outside the code or misaligned is ILLEGAL, and the stacks of a slice raise STACK, where the yield deadline
lets the instruction issue (what a spent counter raises first is the model's choice, log 42). -/
def Obligations.BranchFaults : Prop :=
  (∀ w : XWord, Raises (.call w) (bareForm true (w.m6 = 0 && w.nwb = 0)) w
    (fun x => x.inTime ∧ (x.targetOf w.imm) % 4 ≠ 0)
    (fun _ => { cls := 1, sub := 18 })) ∧
  (∀ w : XWord, Raises (.call w) (bareForm true (w.m6 = 0 && w.nwb = 0)) w
    (fun x => x.inTime ∧ (x.targetOf w.imm) % 4 = 0 ∧ ¬ x.inCode (x.targetOf w.imm)) (fun _ => { cls := 1, sub := 10 })) ∧
  (∀ w : XWord, Raises (.call w) (bareForm true (w.m6 = 0 && w.nwb = 0)) w
    (fun x => x.inTime ∧ x.inCode (x.targetOf w.imm) ∧ ∃ sl ∈ x.b.slicesOf x.q, 16 ≤ sl.call.length) (fun _ => { cls := 0x0C, sub := 1 })) ∧
  Raises .ret (bareForm true true) (plainWord 0 0 0 268 268) (fun x => x.inTime ∧ ∃ sl ∈ x.b.slicesOf x.q, sl.call = [])
    (fun _ => { cls := 0x0C, sub := 2 }) ∧
  (∀ w : BraWord, Raises (.bra w) (bareForm true (w.nwb = 0)) (plainWord 0 0 0 w.d9 w.a9)
    (fun x => x.inTime ∧ x.inCode (x.targetOf w.w2) ∧ w.w1 = 0 ∧ ∃ sl ∈ x.b.slicesOf x.q, x.parts w sl) (fun _ => { cls := 0x0C, sub := 4 })) ∧
  (∀ w : BraWord, Raises (.bra w) (bareForm true (w.nwb = 0)) (plainWord 0 0 0 w.d9 w.a9)
    (fun x => x.inTime ∧ x.inCode (x.targetOf w.w2) ∧ w.w1 ≠ 0 ∧ x.inCode (x.targetOf w.w1) ∧
      ∃ sl ∈ x.b.slicesOf x.q, x.parts w sl ∧ 8 ≤ sl.join.length) (fun _ => { cls := 0x0C, sub := 3 }))

/-- R152, R156, R162: join, regang and exit in a bundle without detached lanes. The live count of the merged sub-bundle is the
model's choice (log 14). -/
def Obligations.JoinRegangExit : Prop :=
  (∀ (s : State) (x : Ctx), s.Issues x → x.inTime → x.whole →
    ∃ t, exec .join s = .next t ∧ t.uncounted = s.uncounted.modBundle x.c.gid x.c.bundle
      (fun b => (x.afterMove s (b.modSlices x.q.slices (joined x.offset))).rejoin x.turned)) ∧
  Moves .regang (bareForm true true) (plainWord 0 0 0 268 268) (fun x => x.whole ∧ x.q.slices ≠ [] ∧ x.allArrived ∧
    ∀ q ∈ x.gathering, ∀ i ∈ q.slices, x.b.isDetached i = false) Ctx.regathered ∧
  (∀ (s : State) (x : Ctx), s.Issues x → x.inTime → (∃ k ∈ x.otherLive, ∃ q, x.b.subs[k]? = some q ∧ q.wait ≠ .regang) →
    ∃ t, exec .regang s = .next t ∧ t.uncounted = s.uncounted.modBundle x.c.gid x.c.bundle (x.afterWait s .regang)) ∧
  (∀ (s : State) (x : Ctx), s.Issues x → x.whole →
    ∃ t, exec .exit s = .next t ∧ t.uncounted = s.uncounted.modBundle x.c.gid x.c.bundle
      (fun b => x.afterMove s (x.exitedBundle b)))

/-- R157: the instructions on planes: what each does, where it is ILLEGAL or raises PLANE and leaves every lane's plane, and the reserved FN
values. -/
def Obligations.Planes : Prop :=
  (∀ w : XWord, Completes (.planeSet w) true 12 (bareForm true (w.m6 = 0 && w.imm.toNat < 64 && w.nwb = 0)) w
    (fun x _ => w.imm.toNat % 4 < x.g.kernel.planes) (fun _ s => s)
    (fun x _ b => b.eachLane (x.b.activeLanes x.q) (fun _ y =>
      if y.readP (w.imm.toNat / 4 % 8) ≠ w.imm.getLsbD 5 then { y with plane := w.imm.toNat % 4 } else y))) ∧
  (∀ w : XWord, Completes (.planeMov w) true 12 { bareForm true (w.m6 = 0 && w.imm = 0 && w.nwb = 0) with a := .pair } w
    (fun x _ => ∀ l ∈ x.b.activeLanes x.q, (x.sn w.a9.toNat + x.sn (w.a9.toNat + 1) * 2 ^ 64) / 4 ^ l % 4 < x.g.kernel.planes)
    (fun _ s => s)
    (fun x _ b => b.eachLane (x.b.activeLanes x.q) (fun l y =>
      { y with plane := (x.sn w.a9.toNat + x.sn (w.a9.toNat + 1) * 2 ^ 64) / 4 ^ l % 4 }))) ∧
  (∀ w : XWord, Completes (.planeGet w) true 12 { bareForm true (w.m6 = 0 && w.imm = 0 && w.nwb = 0) with d := .pair } w
    (fun _ _ => True) (fun _ s => s)
    (fun x _ b => b.writePair w.d9.toNat (((List.range x.b.lanes.length).map (fun l =>
      x.ofLane 0 l (fun y => y.plane) % 4 * 4 ^ l)).sum))) ∧
  (∀ w : XWord, Completes (.planeBal w) true 12 { bareForm true (w.m6 = 0 && w.imm.toNat < 4 && w.nwb = 0) with d := .scalar } w
    (fun _ _ => True) (fun _ s => s)
    (fun x _ b => b.writeS w.d9.toNat (BitVec.ofNat 64 (((List.range 64).map (fun l =>
      if l ∈ x.b.activeLanes x.q ∧ x.ofLane 4 l (fun y => y.plane) = w.imm.toNat then 2 ^ l else 0)).sum)))) ∧
  (∀ w : XWord, Raises (.planeSet w) (bareForm true (w.m6 = 0 && w.imm.toNat < 64 && w.nwb = 0)) w
    (fun x => x.inTime ∧ x.g.kernel.planes ≤ w.imm.toNat % 4) (fun _ => { cls := 1, sub := 19 })) ∧
  (∀ w : XWord, Raises (.planeMov w) { bareForm true (w.m6 = 0 && w.imm = 0 && w.nwb = 0) with a := .pair } w
    (fun x => x.inTime ∧ ∃ l ∈ x.b.activeLanes x.q,
      x.g.kernel.planes ≤ (x.sn w.a9.toNat + x.sn (w.a9.toNat + 1) * 2 ^ 64) / 4 ^ l % 4) (fun _ => { cls := 0x0B, sub := 4 })) ∧
  (∀ w : XWord, Raises (.planeMov w) { bareForm true (w.m6 = 0 && w.imm = 0 && w.nwb = 0) with a := .named } w
    (fun x => x.inTime ∧ (w.a9.toNat % 2 = 1 ∨ w.a9.toNat < 2)) (fun _ => { cls := 1, sub := 16 })) ∧
  (∀ w : XWord, Raises (.planeGet w) { bareForm true (w.m6 = 0 && w.imm = 0 && w.nwb = 0) with d := .named } w
    (fun x => x.inTime ∧ (w.d9.toNat % 2 = 1 ∨ w.d9.toNat < 2)) (fun _ => { cls := 1, sub := 16 })) ∧
  (∀ (w : XWord) (rest : List W32), 4 ≤ w.fn.toNat → decodeWords (Encode.xWords 1 0x07 w ++ rest) = .error .fn)

/-- R158–R160, R371: yield loads the counter and does not need time left; an sadd that would issue at 0 raises WATCHDOG 1;
trap raises TRAP with its code; waiting counts the counter down, and at 0 raises WATCHDOG 2 (what the state keeps of the instruction that
waited is the model's choice, log 43). -/
def Obligations.YieldWatchdogTrap : Prop :=
  (∀ (w : XWord) (s : State) (x : Ctx), s.Issues x →
    x.passesForm (bareForm (w.fn = 0) (w.m6 = 0 && w.imm.toNat < 2 ^ 23 && w.nwb = 0)) w →
    1 ≤ w.imm.toNat % 2 ^ 14 → w.imm.toNat % 2 ^ 14 ≤ x.g.kernel.yieldMax → w.imm.toNat / 2 ^ 14 ≤ x.g.kernel.v →
    ∃ t, exec (.yield w) s = .next t ∧ t.uncounted = s.uncounted.modBundle x.c.gid x.c.bundle (fun b =>
      ({ (x.latched true b).advance x.q 12 with
          ycount := w.imm.toNat % 2 ^ 14, lastCycle := (s.die x.g.die).cycles, issues := b.issues + 1 }).modSub
        x.c.sub (fun q => { q.issued s.tick with
          live := some (w.imm.toNat / 2 ^ 14), yielded := true, atYield := true
          stopped := ((s.crew x.g.crew).bind (fun c => c.stop)).isSome, issuedIn := some (s.die x.g.die).cycles }))) ∧
  (∀ w : XWord, Raises (.saddXForm w)
    (opForm .scalar .scalar .scalar .unused (w.fn = 0) (w.m6 = 0 && (w.b9 = 268 || w.imm = 0) && w.nwb = 0)) w
    (fun x => x.b.ycount = 0 ∧ x.q.charged = false ∧ x.c.first = true) (fun _ => { cls := 0x0A, sub := 1 })) ∧
  (∀ w : TrapWord, Raises (.trap w) (bareForm true (w.rsv = 0 && w.nwb = 0)) (plainWord w.pred w.pn 0 268 268) Ctx.inTime
    (fun _ => { cls := 0x0E, detail := w.code.toNat })) ∧
  (∀ (s : State) (gid b k : Nat) (g : Gang) (y : Bundle) (q : Sub), s.gang gid = some g → g.bundles[b]? = some y →
    y.firstWaiting = some (k, q) → g.retired = false → y.done = false → y.anyHalted = false → (s.die g.die).shutdown = false →
    s.failed = false → s.bundleStopped g b y = false → y.lastCycle + 256 ≤ (s.die g.die).cycles →
    let t := s.modBundle gid b (fun y => { y with lastCycle := y.lastCycle + 256 })
    (1 ≤ y.ycount → exec (.waitTick gid b) s = .next (t.modBundle gid b (fun y => { y with ycount := y.ycount - 1 }))) ∧
    (y.ycount = 0 → exec (.waitTick gid b) s = .next ((t.unissue g b k y q).takeFault
      ⟨gid, b, y.offsetOf q, (y.planesOf q).headD 0⟩ { cls := 0x0A, sub := 2 })))

/-- R319: an arrival counts one, and the arrival that reaches the count, or any arrival while AB is set, completes the phase: the
phase goes up by one, the arrivals return to 0, the contributions are discarded, and the count stays. A phase counts as complete
when it lies 1 to 2^31 behind, and while AB is set every phase does. -/
def Obligations.BarrierPhases : Prop :=
  ∀ b : Barrier,
    (b.ab = false → b.arr + 1 < b.count → b.arrive = { b with arr := b.arr + 1 }) ∧
    ((b.ab = true ∨ b.count ≤ b.arr + 1) → b.arrive.phase = b.phase + 1 ∧ b.arrive.arr = 0 ∧ b.arrive.count = b.count ∧
      b.arrive.ab = b.ab ∧ b.arrive.red = none ∧ b.arrive.payload = b.payload.map (fun _ => none) ∧
      b.arrive.isComplete b.phase = true) ∧
    (b.abandon.ab = true ∧ b.abandon.phase = b.phase + 1 ∧ ∀ p, b.abandon.isComplete p = true) ∧
    (b.ab = true → ∀ p, b.isComplete p = true) ∧
    (b.ab = false → ∀ p, b.isComplete p = true ↔ 1 ≤ (b.phase - p).toNat ∧ (b.phase - p).toNat ≤ 2 ^ 31)

/-- R318–R323, R325: the barrier instructions, which arrive when no access of the bundle is pending and the invalidations are applied, and
wait for that under reason 24 (R401). That a barrier number out of range is ILLEGAL also where the yield counter is spent is the model's
choice (log 42). -/
def Obligations.Barriers : Prop :=
  (∀ w : XWord, Completes (.barInit w) true 12 (opForm .unused .scalar .unused .unused true (barImm w)) w
    (fun x _ => x.barOk w ∧ 1 ≤ x.sn w.a9.toNat ∧ x.sn w.a9.toNat ≤ 4095)
    (State.barrierPut w (fun x b =>
      let b := if b.ab then { b with ab := false, arr := 0, red := none, payload := b.payload.map (fun _ => none) } else b
      let b := { b with count := x.sn w.a9.toNat }
      if b.count ≤ b.arr then b.complete else b)) (fun _ _ b => b)) ∧
  (∀ w : XWord, Completes (.barArrive w) true 12 (opForm .scalar .unused .unused .unused true (barImm w)) w
    (fun x s => x.barOk w ∧ s.quiet x)
    (State.barrierPut w (fun _ b => b.arrive)) (fun x _ b => b.writeS w.d9.toNat ((x.bar w).phase.setWidth 64))) ∧
  (∀ w : XWord, Holds (.barArrive w) (opForm .scalar .unused .unused .unused true (barImm w)) w
    (fun x s => x.barOk w ∧ ¬ s.quiet x) (fun _ _ => 24)) ∧
  (∀ w : XWord, Completes (.barQuery w) true 12 (opForm .scalar .unused .unused .unused true (barImm w)) w
    (fun x _ => x.barOk w) noEffect (fun x _ b => b.writeS w.d9.toNat (BitVec.ofNat 64 ((x.bar w).phase.toNat
      + (x.bar w).arr % 4096 * 2 ^ 32 + (x.bar w).count % 4096 * 2 ^ 44 + (if (x.bar w).ab then 2 ^ 56 else 0))))) ∧
  (∀ w : XWord, Completes (.barWait w) true 12 (opForm .scalar .scalar .unused .unused true (barImm w)) w
    (fun x s => x.barOk w ∧ x.fresh ∧ s.acquires x ∧ (x.bar w).isComplete ((x.s w.a9.toNat).setWidth 32) = true)
    noEffect (fun x _ b => b.writeS w.d9.toNat (if (x.bar w).ab then 1 else 0))) ∧
  (∀ w : XWord, Waits (.barWait w) (opForm .scalar .scalar .unused .unused true (barImm w)) w
    (fun x _ => x.barOk w ∧ x.fresh ∧ (x.bar w).isComplete ((x.s w.a9.toNat).setWidth 32) = false)
    noEffect (fun x _ => .barrier (barN w) ((x.s w.a9.toNat).setWidth 32))) ∧
  (∀ w : XWord, Completes (.barMeet w) true 12 (opForm .scalar .unused .unused .unused true (barImm w)) w
    (fun x s => x.barOk w ∧ x.fresh ∧ s.quiet x ∧ (x.bar w).arrive.isComplete (x.bar w).phase = true ∧
      (State.barrierPut w (fun _ b => b.arrive) x s).acquires x)
    (State.barrierPut w (fun _ b => b.arrive)) (fun x _ b => b.writeS w.d9.toNat (if (x.bar w).ab then 1 else 0))) ∧
  (∀ w : XWord, Waits (.barMeet w) (opForm .scalar .unused .unused .unused true (barImm w)) w
    (fun x s => x.barOk w ∧ x.fresh ∧ s.quiet x ∧
      (x.bar w).arrive.isComplete (x.bar w).phase = false)
    (State.barrierPut w (fun _ b => b.arrive)) (fun x _ => .barrier (barN w) (x.bar w).phase)) ∧
  (∀ w : XWord, Raises (.barInit w) (opForm .unused .scalar .unused .unused true (barImm w)) w
    (fun x => x.g.kernel.barriers ≤ barN w) (fun _ => { cls := 1, sub := 32 })) ∧
  (∀ w : XWord, Holds (.barMeet w) (opForm .scalar .unused .unused .unused true (barImm w)) w
    (fun x s => x.barOk w ∧ x.fresh ∧ ¬ s.quiet x) (fun _ _ => 24))

/-- R323, R324: the payload barrier, and arrivals at another gang's barrier; that bar.arrive.remote completes when the arrival is sent is
the model's choice (log 68). -/
def Obligations.PayloadAndRemote : Prop :=
  (∀ w : XWord, Completes (.barRed w) true 12
    { opForm .pair .scalar .unused .unused (redFnOk w) (!w.imm.getLsbD 7 && w.imm.toNat < 4096 && w.nwb = 0) with result := false } w
    (fun x s => x.barOk w ∧ x.fresh ∧ s.quiet x ∧
      ((x.bar w).red = none ∨ (x.bar w).red = some (redOp w, w.m6.toNat)) ∧ ((x.bar w).payload[x.c.bundle]?).join = none ∧
      ((x.bar w).contribute (redOp w) w.m6.toNat x.c.bundle (x.s w.a9.toNat)).arrive.isComplete (x.bar w).phase = true ∧
      (State.barrierPut w (fun x b => (b.contribute (redOp w) w.m6.toNat x.c.bundle (x.s w.a9.toNat)).arrive) x s).acquires x)
    (State.barrierPut w (fun x b => (b.contribute (redOp w) w.m6.toNat x.c.bundle (x.s w.a9.toNat)).arrive))
    (fun x _ b =>
      let c := ((x.bar w).contribute (redOp w) w.m6.toNat x.c.bundle (x.s w.a9.toNat)).arrive
      (b.writeS w.d9.toNat c.result.2.1).writeS (w.d9.toNat + 1) (if c.ab then 1 else 0))) ∧
  (∀ w : XWord, Completes (.barArriveRemote w) true 12 (opForm .unused .scalar .unused .unused true (barImm w)) w
    (fun x s => x.barOk w ∧ x.sn w.a9.toNat = x.g.rank ∧ s.quiet x)
    (State.barrierPut w (fun _ b => b.arrive)) (fun _ _ b => b)) ∧
  (∀ w : XWord, Holds (.barArriveRemote w) (opForm .unused .scalar .unused .unused true (barImm w)) w
    (fun x s => x.barOk w ∧ x.sn w.a9.toNat = x.g.rank ∧ ¬ s.quiet x) (fun _ _ => 24)) ∧
  (∀ w : XWord, Holds (.barRed w)
    { opForm .pair .scalar .unused .unused (redFnOk w) (!w.imm.getLsbD 7 && w.imm.toNat < 4096 && w.nwb = 0) with result := false } w
    (fun x s => x.barOk w ∧ x.fresh ∧ ¬ s.quiet x ∧ ((x.bar w).red = none ∨ (x.bar w).red = some (redOp w, w.m6.toNat)) ∧
      ((x.bar w).payload[x.c.bundle]?).join = none) (fun _ _ => 24)) ∧
  (∀ (w : XWord) (t : Gang), Completes (.barArriveRemote w) true 12 (opForm .unused .scalar .unused .unused true (barImm w)) w
    (fun x s => x.barOk w ∧ x.sn w.a9.toNat ≠ x.g.rank ∧ x.sn w.a9.toNat < s.ranks x.g.crew ∧ bit x.g.group x.g.rank = true ∧
      bit x.g.group (x.sn w.a9.toNat) = true ∧ s.gangOfRank x.g.crew (x.sn w.a9.toNat) = some t)
    (fun x s => { s with nextId := s.nextId + 1, remotes := s.remotes ++ [⟨s.nextId, x.seq, x.c.gid, x.c.bundle, t.gid, barN w⟩] })
    (fun _ _ b => b)) ∧
  (∀ (s : State) (r : RemoteArr) (g : Gang) (b : Barrier), s.remotes.find? (fun q => q.id == r.id) = some r →
    s.remoteReady r = true → s.gang r.dstGid = some g → g.barriers[r.barrier]? = some b →
    exec (.remoteArrival r.id) s =
      .next (({ s with remotes := s.remotes.filter (fun q => q.id != r.id) }).putBarrier r.dstGid r.barrier b.arrive))

/-- R266, R341–R343: the waits on tokens and timelines, and the fences; that a fence waits for the accesses of every scope is the model's
choice (logs 20 and 69). -/
def Obligations.WaitsAndFences : Prop :=
  (∀ w : XWord, Completes (.waitTok w) true 12 (bareForm true (w.m6 = 0 && w.nwb = 0 && w.imm.toNat < 256)) w
    (fun x s => s.acquires x ∧ ∀ i < 8, w.imm.getLsbD i = true → x.b.tok.getD i 0 = 0) noEffect (fun _ _ b => b)) ∧
  (∀ w : XWord, Waits (.waitTok w) (bareForm true (w.m6 = 0 && w.nwb = 0 && w.imm.toNat < 256)) w
    (fun x s => ¬ (s.acquires x ∧ ∀ i < 8, w.imm.getLsbD i = true → x.b.tok.getD i 0 = 0)) noEffect (fun _ _ => .retry 9)) ∧
  (∀ w : XWord, Completes (.waitTl w) true 12
    { bareForm true (w.m6 = 0 && w.nwb = 0 && w.imm.toNat < 4) with a := .scalar } w
    (fun x s => s.acquires x ∧ x.fresh ∧
      min (x.sn w.a9.toNat) (x.g.issued.getD w.imm.toNat 0) ≤ x.g.tl.getD w.imm.toNat 0) noEffect (fun _ _ b => b)) ∧
  (∀ w : XWord, Waits (.waitTl w) { bareForm true (w.m6 = 0 && w.nwb = 0 && w.imm.toNat < 4) with a := .scalar } w
    (fun x s => x.fresh ∧ ¬ (s.acquires x ∧ min (x.sn w.a9.toNat) (x.g.issued.getD w.imm.toNat 0) ≤ x.g.tl.getD w.imm.toNat 0)) noEffect
    (fun x _ => .timeline (min (x.sn w.a9.toNat) (x.g.issued.getD w.imm.toNat 0)))) ∧
  (∀ w : FenceWord, w.kind ≠ 1 → Completes (.fence w) true 4
    (bareForm (w.kind.toNat ≤ 1 && w.scope != 7 && !(w.kind == 0 && w.ord == 0)) (w.rsv = 0 && w.nwb = 0))
    (plainWord w.pred w.pn 0 268 268) (fun x s => s.fencePassed x w) noEffect (fun _ _ b => b)) ∧
  (∀ w : FenceWord, w.kind = 1 → Completes (.fenceAlias w) true 4
    (bareForm (w.kind.toNat ≤ 1 && w.scope != 7 && !(w.kind == 0 && w.ord == 0)) (w.rsv = 0 && w.nwb = 0))
    (plainWord w.pred w.pn 0 268 268) (fun x s => s.fencePassed x w)
    (fun x s => s.modCore x.g.die x.g.core (fun c => { c with l1 := c.l1.filter (fun l => l.part != x.g.part) }))
    (fun _ _ b => { b with aliasFences := b.aliasFences + 1 })) ∧
  (∀ w : FenceWord, w.kind = 1 → Waits (.fenceAlias w)
    (bareForm (w.kind.toNat ≤ 1 && w.scope != 7 && !(w.kind == 0 && w.ord == 0)) (w.rsv = 0 && w.nwb = 0))
    (plainWord w.pred w.pn 0 268 268) (fun x s => ¬ s.fencePassed x w) noEffect (fun _ _ => .fence)) ∧
  (∀ w : FenceWord, Waits (.fence w)
    (bareForm (w.kind.toNat ≤ 1 && w.scope != 7 && !(w.kind == 0 && w.ord == 0)) (w.rsv = 0 && w.nwb = 0))
    (plainWord w.pred w.pn 0 268 268) (fun x s => ¬ s.fencePassed x w) noEffect (fun _ _ => .fence))

/-- R133–R135: membership of the sharing group; every gang of the crew holds the mask and the windows. -/
def Obligations.SharingGroups : Prop :=
  (∀ w : XWord, Completes (.grpJoin w) true 12 (opForm .scalar .unused .unused .unused true (w.m6 = 0 && w.nwb = 0 && w.imm = 0)) w
    (fun x s => s.quiet x ∧ x.updating = false ∧ bit x.g.group x.g.rank = false)
    (fun x s => x.eachMember s (fun g =>
      { g with group := g.group ||| 2 ^ x.g.rank, windows := setNth g.windows x.g.rank (0, 0x40000) }))
    (fun x s b => b.writeS w.d9.toNat ((x.eachMember s (fun g => { g with group := g.group ||| 2 ^ x.g.rank })).groupOf x))) ∧
  (∀ w : XWord, Completes (.grpJoin w) true 12 (opForm .scalar .unused .unused .unused true (w.m6 = 0 && w.nwb = 0 && w.imm = 0)) w
    (fun x s => s.quiet x ∧ x.updating = false ∧ bit x.g.group x.g.rank = true) noEffect (fun x s b => b.writeS w.d9.toNat (s.groupOf x))) ∧
  (∀ w : XWord, Completes (.grpLeave w) true 12 (opForm .scalar .unused .unused .unused true (w.m6 = 0 && w.nwb = 0 && w.imm = 0)) w
    (fun x s => s.quiet x ∧ x.updating = false ∧ bit x.g.group x.g.rank = true ∧ s.noCrewAccess x)
    (fun x s => x.eachMember s (fun g => { g with group := g.group &&& (2 ^ 64 - 1 - 2 ^ x.g.rank) }))
    (fun x s b => b.writeS w.d9.toNat
      ((x.eachMember s (fun g => { g with group := g.group &&& (2 ^ 64 - 1 - 2 ^ x.g.rank) })).groupOf x))) ∧
  (∀ w : XWord, Completes (.grpLeave w) true 12 (opForm .scalar .unused .unused .unused true (w.m6 = 0 && w.nwb = 0 && w.imm = 0)) w
    (fun x s => s.quiet x ∧ x.updating = false ∧ bit x.g.group x.g.rank = false) noEffect
    (fun x s b => b.writeS w.d9.toNat (s.groupOf x))) ∧
  (∀ w : XWord, Completes (.grpQuery w) true 12
    (opForm .scalar .unused .unused .unused true (w.m6 = 0 && w.nwb = 0 && w.imm = 0)) w
    (fun _ _ => True) noEffect (fun x s b => b.writeS w.d9.toNat (s.groupOf x))) ∧
  (∀ w : XWord, Completes (.grpPublish w) true 12 (opForm .unused .scalar .scalar .unused true (w.m6 = 0 && w.nwb = 0 && w.imm = 0)) w
    (fun x s => s.quiet x ∧ x.updating = false ∧ x.sn w.a9.toNat % 128 = 0 ∧ x.sn w.b9.toNat % 128 = 0 ∧
      x.sn w.a9.toNat + x.sn w.b9.toNat ≤ 0x40000 ∧ s.noCrewAccess x)
    (fun x s => x.eachMember s (fun g => { g with windows := setNth g.windows x.g.rank (x.sn w.a9.toNat, x.sn w.b9.toNat) }))
    (fun _ _ b => b))

/-- R130, R221, R232, R235: the scalar accesses to the gang's own scratchpad; a load whose line is absent does not issue, under reason 6. -/
def Obligations.ScratchpadScalar : Prop :=
  (∀ w : XWord, Completes (.sld w) false 12 (scalarMemForm 0x24 w) w (fun x s => s.scalarReady x (scalarMemInfo 0x24 w) w) noEffect
    (fun x s b => b.writeS w.d9.toNat (scalarLoad (w.fn.toNat % 8)
      (s.readView x.g (x.scalarEa (scalarMemInfo 0x24 w) w).toNat (wdBytes (w.fn.toNat % 8)))))) ∧
  (∀ w : XWord, Completes (.sst w) false 12 (scalarMemForm 0x25 w) w (fun x s => s.scalarReady x (scalarMemInfo 0x25 w) w)
    (fun x s => s.writeView x.g (x.scalarEa (scalarMemInfo 0x25 w) w).toNat
      (leBytes (wdBytes (w.fn.toNat % 8)) (x.sn w.c9.toNat))) (fun _ _ b => b)) ∧
  (∀ w : XWord, Completes (.satom w) false 12 (scalarMemForm 0x26 w) w (fun x s => s.scalarReady x (scalarMemInfo 0x26 w) w)
    (fun x s =>
      let m := scalarMemInfo 0x26 w
      let a := (x.scalarEa m w).toNat
      s.writeView x.g a (atomicResult m (s.readView x.g a m.size) (leBytes m.size (x.sn w.c9.toNat))
        (leBytes m.size (x.sn w.d9.toNat))))
    (fun x s b =>
      let m := scalarMemInfo 0x26 w
      b.writeS w.d9.toNat (BitVec.ofNat 64 (leNat (s.readView x.g (x.scalarEa m w).toNat m.size))))) ∧
  (∀ w : XWord, Holds (.sld w) (scalarMemForm 0x24 w) w (fun x s =>
      let m := scalarMemInfo 0x24 w
      m.spaceOf x.g (x.s w.b9.toNat) = 1 ∧ s.orderWait x m = none ∧
        s.meetsRest x [(m, x.s w.b9.toNat, [x.scalarEa m w])] = false ∧
        s.accessFault x.g m (x.s w.b9.toNat) (x.scalarEa m w) = none ∧ s.viewPresent x.g (x.scalarEa m w).toNat m.size = false)
    (fun _ _ => 6))

/-- R130, R227, R230, R232, R233: the per-lane accesses to the gang's own scratchpad, lanes in ascending order. -/
def Obligations.ScratchpadLanes : Prop :=
  (∀ w : XWord, PadPass (.lds w) (memInfo 0x6A w) w (fun _ _ s => s) (fun x ls s b => b.eachLane ls (fun l y =>
    y.deliverGroup w.d9.toNat (w.nwb == 1) (loadWords (w.fn.toNat % 8)
      (s.readView x.g (x.laneEa (memInfo 0x6A w) w l).toNat (wdBytes (w.fn.toNat % 8))))))) ∧
  (∀ w : XWord, PadPass (.sts w) (memInfo 0x6B w) w (fun x ls s => ls.foldl (fun s l =>
    s.writeView x.g (x.laneEa (memInfo 0x6B w) w l).toNat (x.storedBytes (memInfo 0x6B w) w l)) s) (fun _ _ _ b => b)) ∧
  (∀ w : XWord, PadPass (.atom w) (memInfo 0x6C w) w (fun x ls s => ls.foldl (x.atomLane (memInfo 0x6C w) w) s)
    (fun _ _ _ b => b))

/-- R130: a write to a gang's view changes the bytes of memory that its addresses name and no other byte, and reading the view
gives the bytes back. -/
def Obligations.ScratchpadMemory : Prop :=
  ∀ (s : State) (g : Gang) (a : Nat) (bs : List Byte), Memory.wf s.mem = true → g.inView a bs.length = true →
    (g.viewBytes a bs.length).length = bs.length ∧
    (∀ c, c ∉ g.viewBytes a bs.length → memRead (s.writeView g a bs).mem c = memRead s.mem c) ∧
    ((g.viewBytes a bs.length).Nodup → (s.writeView g a bs).readView g a bs.length = bs) ∧
    (s.writeView g a bs).gangs = s.gangs

/-- R226, R229, R230, R235: the accesses to global memory, and loads and atomics on another gang's scratchpad, become memory operations; that
the sub-bundle waits for the operation of every form, a store's until its checks are known, is the model's choice (log 46). -/
def Obligations.AccessesIssue : Prop :=
  (∀ w : XWord, IssuesAccess (.ld w) (memInfo 0x68 w) w) ∧ (∀ w : XWord, IssuesAccess (.st w) (memInfo 0x69 w) w) ∧
  (∀ w : XWord, IssuesAccess (.lds w) (memInfo 0x6A w) w) ∧ (∀ w : XWord, IssuesAccess (.atom w) (memInfo 0x6C w) w) ∧
  (∀ w : XWord, IssuesScalarAccess (.sld w) 0x24 w) ∧ (∀ w : XWord, IssuesScalarAccess (.sst w) 0x25 w) ∧
  (∀ w : XWord, IssuesScalarAccess (.satom w) 0x26 w)

/-- R136–R139: a home agent translates a request by its TLB or begins a walk; a leaf with the permission gives the request its
location, and a request without one fails with PROTECTION. -/
def Obligations.Translation : Prop :=
  (∀ (s : State) (o : MemOp) (r : LaneReq) (g : Gang) (e : TlbEnt), s.Request o r g → r.status = 0 → vaIsXv r.va.toNat = false →
    (s.die (vaDie r.va.toNat)).tlbFind g.part r.va.toNat = some e → bit e.leaf.toNat (o.kind + 1) = true →
    s.resetStops g (vaDie r.va.toNat) (entryPa e.leaf.toNat + r.va.toNat % e.size) = false →
    exec (.homeAgentRequest o.id r.lane) s = .next (s.sentOn o r g.part e.leaf.toNat (entryPa e.leaf.toNat) e.size)) ∧
  (∀ (s : State) (o : MemOp) (r : LaneReq) (g : Gang), s.Request o r g → r.status = 0 → vaIsXv r.va.toNat = false →
    (s.die (vaDie r.va.toNat)).tlbFind g.part r.va.toNat = none →
    ∃ p, exec (.homeAgentRequest o.id r.lane) s = .next (s.modReq o.id r.lane (fun r =>
      { r with status := 1, predicted := p, data := if o.kind = 0 then [] else r.data }))) ∧
  (∀ (s : State) (o : MemOp) (r : LaneReq) (g : Gang) (p : Partition) (e base size : Nat), s.Request o r g → r.status = 1 →
    r.data = [] ∨ o.kind ≠ 0 → s.part g.part = some p → s.walk p r.va.toNat = .leaf e base size → bit e (o.kind + 1) = true →
    s.resetStops g (vaDie r.va.toNat) (base + r.va.toNat % size) = false →
    exec (.pageWalkComplete o.id r.lane) s = .next (s.sentOn o r g.part e base size)) ∧
  (∀ (s : State) (o : MemOp) (r : LaneReq) (g : Gang) (p : Partition), s.Request o r g → r.status = 1 →
    s.part g.part = some p → s.walk p r.va.toNat = .invalid →
    exec (.pageWalkComplete o.id r.lane) s = .next (s.failReq o r [5, 0]))

/-- R219, R233, R234, R236: a translated request is performed at its home slice: a load reads the bytes there, a store writes
them and nothing else of memory, and an atomic does both as one. -/
def Obligations.SliceAccesses : Prop :=
  ∀ (s : State) (o : MemOp) (r : LaneReq) (g : Gang), s.Request o r g → s.watching = false → r.status = 2 →
    s.mayPerform o r = true → s.resetStops g (vaDie r.va.toNat) (r.loc % 2 ^ 37) = false →
    (o.kind = 0 → s.poisoned r.loc r.size = false → ∃ t, exec (.sliceAccess o.id r.lane) s = .next t ∧ t.mem = s.mem ∧
      ∃ q, t.memOp o.id = some q ∧ ∀ k ∈ q.lanes, k.lane = r.lane → k.status = 3 ∧ k.data = s.bytesAt r.loc r.size) ∧
    (o.kind = 1 → ∃ t, exec (.sliceAccess o.id r.lane) s = .next t ∧ t.mem = writeBytes s.mem r.loc r.data) ∧
    (o.kind = 2 → s.poisonedLane o = none → ∃ t, exec (.sliceAccess o.id r.lane) s = .next t ∧
      t.mem = writeBytes s.mem r.loc (leBytes r.size (atomNew (o.aop % 16) (8 * r.size)
        (leNat (s.bytesAt r.loc r.size)) (leNat r.data) (leNat r.cmp))) ∧
      ∃ q, t.memOp o.id = some q ∧ ∀ k ∈ q.lanes, k.lane = r.lane → k.status = 3 ∧ k.data = s.bytesAt r.loc r.size)

/-- R227, R229, R230, R232, R233, R235: returned data is delivered, to the lanes or to a scalar, and a crew access lands in its target's
view. -/
def Obligations.AccessReturns : Prop :=
  (∀ (s : State) (o : MemOp) (g : Gang) (x : Ctx), s.memOp o.id = some o → s.gang o.gid = some g → s.watching = false →
    s.halts = [] → s.ending o.gid = false → s.opCtx o = some x → x.q.stepping = false → x.q.charged = true → o.uniform = false → o.kind ≠ 1 →
    (∀ r ∈ o.lanes, r.status = 3 ∧ s.delivered g.die r.clock = true) →
    ∃ t, exec (.loadDataReturn o.id) s = .next t ∧ t.mem = s.mem ∧ t.memOps = s.memOps.filter (fun q => q.id != o.id) ∧
      t.gangs = (s.modBundle o.gid o.bundle (fun b => x.afterPass s o.len (o.lanes.foldl (fun b r => b.modLane r.lane (fun y =>
        y.deliverGroup o.dest o.nwb (loadWords (o.aop / 16) r.data))) b))).gangs) ∧
  (∀ (s : State) (o : MemOp) (g : Gang) (x : Ctx) (r : LaneReq), s.memOp o.id = some o → s.gang o.gid = some g → s.watching = false →
    s.halts = [] → s.ending o.gid = false → s.opCtx o = some x → x.q.stepping = false → x.q.charged = true → o.uniform = true → o.kind ≠ 1 →
    o.lanes = [r] → r.status = 3 → s.delivered g.die r.clock = true →
    ∃ t, exec (.loadDataReturn o.id) s = .next t ∧ t.mem = s.mem ∧ t.memOps = s.memOps.filter (fun q => q.id != o.id) ∧
      t.gangs = (s.modBundle o.gid o.bundle (fun b => x.afterUniform s o.len false (b.writeS o.dest
        (if o.kind = 0 then scalarLoad (o.aop / 16) r.data else BitVec.ofNat 64 (leNat r.data))))).gangs) ∧
  (∀ (s : State) (o : MemOp) (g t : Gang) (r : LaneReq), s.memOp o.id = some o → s.gang o.gid = some g → s.watching = false →
    o.space = 2 → o.held = false → s.gangOfRank g.crew o.rank = some t → o.lanes = [r] → r.status ≠ 3 → s.crewEarlier o = false →
    o.gate.all s.gatePresent = true →
    let n := if o.uniform then 0 else bankExtra [(r.lane, r.va.toNat, r.size)]
    (o.kind = 1 → exec (.crewScratchpadAccess o.id) s =
      .next ((((s.writeView t r.va.toNat r.data).modReq o.id r.lane (fun q => { q with status := 3, data := [], cmp := r.data })).countConflicts
        g o.bundle o.sub n).dropMemOp o.id)) ∧
    (o.kind = 0 → s.poisonedRuns (t.viewRuns r.va.toNat r.size) = false → exec (.crewScratchpadAccess o.id) s =
      .next ((s.modReq o.id r.lane (fun q =>
        { q with status := 3, data := s.readView t r.va.toNat r.size, cmp := s.readView t r.va.toNat r.size })).countConflicts
          g o.bundle o.sub n)) ∧
    (o.kind = 2 → s.poisonedRuns (t.viewRuns r.va.toNat r.size) = false →
      let new := leBytes r.size (atomNew (o.aop % 16) (8 * r.size) (leNat (s.readView t r.va.toNat r.size)) (leNat r.data) (leNat r.cmp))
      exec (.crewScratchpadAccess o.id) s = .next (((s.writeView t r.va.toNat new).modReq o.id r.lane (fun q =>
        { q with status := 3, data := s.readView t r.va.toNat r.size, cmp := new })).countConflicts g o.bundle o.sub n)))

/-- R93, R94, R261, R262: handles, index entries, slot states and look-ups. -/
def Obligations.HandlesAndLookups : Prop :=
  (∀ (w : XWord) (bs : List Byte), Completes (.tbind w) false 12
    (opForm .handle .scalar .unused .unused true (w.m6 = 0 && w.nwb = 0)) w
    (fun x s => s.watching = false ∧ (x.s w.a9.toNat + w.imm.signExtend 64).toNat % 64 = 0 ∧
      s.acquireRead x (x.s w.a9.toNat + w.imm.signExtend 64).toNat 64 =
        .bytes bs (s.tookRange x.g (x.s w.a9.toNat + w.imm.signExtend 64).toNat 64) ∧ descOk bs x.g.kernel.atlas = true)
    (fun x s => (s.tookRange x.g (x.s w.a9.toNat + w.imm.signExtend 64).toNat 64).modGang x.c.gid (fun g => g.bind w.d9.toNat (some ⟨x.s w.a9.toNat + w.imm.signExtend 64, bs⟩)))
    (fun _ _ b => b)) ∧
  (∀ w : XWord, Completes (.tbindClr w) false 12
    (opForm .handle .unused .unused .unused true (w.m6 = 0 && w.nwb = 0 && w.imm = 0)) w (fun _ _ => True)
    (fun x s => s.modGang x.c.gid (fun g => g.bind w.d9.toNat none)) (fun _ _ b => b)) ∧
  (∀ (w : XWord) (h : Handle), Completes (.tlocEnt w) false 12
    (opForm .scalar .handle .scalar .scalar true (w.m6 = 0 && w.nwb = 0 && w.imm = 0)) w
    (fun x _ => x.tileOf w.a9.toNat h (x.sn w.b9.toNat) (x.sn w.c9.toNat)) noEffect
    (fun x _ b => b.writeS w.d9.toNat (BitVec.ofNat 64 ((descOf h.desc).entryVa (x.sn w.b9.toNat) (x.sn w.c9.toNat))))) ∧
  (∀ (w : XWord) (h : Handle) (bs : List Byte), Completes (.tloc w) false 12
    (opForm .pair .handle .scalar .scalar true (w.m6 = 0 && w.nwb = 0 && w.imm = 0)) w
    (fun x s => x.tileOf w.a9.toNat h (x.sn w.b9.toNat) (x.sn w.c9.toNat) ∧
      s.acquireRead x ((descOf h.desc).entryVa (x.sn w.b9.toNat) (x.sn w.c9.toNat)) 16 =
        .bytes bs (s.tookRange x.g ((descOf h.desc).entryVa (x.sn w.b9.toNat) (x.sn w.c9.toNat)) 16))
    (fun x s => s.tookRange x.g ((descOf h.desc).entryVa (x.sn w.b9.toNat) (x.sn w.c9.toNat)) 16)
    (fun _ _ b => b.writePair w.d9.toNat (leNat bs))) ∧
  (∀ w : XWord, Completes (.ctst w) false 12
    (opForm .scalar .slot .unused .unused true (w.m6 = 0 && w.nwb = 0 && w.imm = 0)) w
    (fun x s => x.g.damaged 1 w.a9.toNat = none ∧ s.slotFilling x.c.gid w.a9.toNat = false) noEffect
    (fun x _ b => b.writeS w.d9.toNat (BitVec.ofNat 64 (((x.g.atlas[w.a9.toNat]?).getD AtlasSlot.empty).word)))) ∧
  (∀ w : XWord, LooksUp (.vlut w) w (fun a y => (a.look y 0, a.look y 1))) ∧
  (∀ w : XWord, LooksUp (.vlutHi w) w (fun a y => (a.look y 2, a.look y 3))) ∧
  (∀ w : XWord, LooksUp (.vlutP2 w) w (fun a y => (a.look y 0, a.look (y / 256) 0)))

/-- R243, R247, R252, R256, R259: texp, tenc and ctld start an operation of the core's decoders or encoder, for which their
sub-bundle waits. -/
def Obligations.DecodersStart : Prop :=
  (∀ (w : XWord) (h : Handle), Waits (.texp w)
    { opForm .dst .handle .scalar .scalar
        (w.fn.toNat < 8 && w.fn.toNat % 4 != 3 && 1 ≤ w.imm.toNat / 64 % 128 && w.imm.toNat / 64 % 128 ≤ 64)
        (w.m6 = 0 && w.nwb = 0 && w.imm.toNat < 2 ^ 13) with operandOk := w.d9.toNat < 256 } w
    (fun x s =>
      x.g.damaged 4 w.a9.toNat = none ∧ x.g.handle w.a9.toNat = some h ∧
      w.imm.toNat % 64 + w.imm.toNat / 64 % 128 ≤ (descOf h.desc).rows ∧
      w.d9.toNat + (w.imm.toNat / 64 % 128 * 64 / (if w.fn.toNat % 4 = 0 then 2 else 1) + x.g.kernel.width - 1)
        / x.g.kernel.width ≤ x.g.kernel.v ∧
      (if w.fn.getLsbD 2 then x.sn w.b9.toNat % 4 = 0 ∧ x.sn w.c9.toNat % 4 = 0 ∧ 4 ≤ x.sn w.c9.toNat ∧
          x.g.inOneRegion (x.sn w.b9.toNat) (x.sn w.c9.toNat) = true
        else x.sn w.b9.toNat < (descOf h.desc).trows ∧ x.sn w.c9.toNat < (descOf h.desc).tcols) ∧
      x.g.damagedSlots (descOf h.desc) = none ∧ (∀ n ∈ (descOf h.desc).slots, s.slotFilling x.c.gid n = false) ∧
      (w.fn.getLsbD 2 = true → ∃ tb, tablesFor (descOf h.desc) (fun i => x.g.atlas[i]?) = .ok tb) ∧
      s.accessesPending x.c.gid x.c.bundle = false ∧ x.fenceWaits = false)
    (fun x s => s.listed (x.newOp s.nextId 5 w.a9.toNat h.desc
      [h.va, w.d9.setWidth 64, w.fn.setWidth 64, w.imm.setWidth 64, x.s w.b9.toNat, x.s w.c9.toNat] []))
    (fun _ s => .decoder s.nextId)) ∧
  (∀ (w : XWord) (h : Handle), Waits (.tenc w)
    (opForm .scalar .handle .scalar .scalar (w.fn.toNat < 2 && (w.fn = 1 || w.m6.toNat % 8 ≤ 3))
      ((w.fn != 1 || w.m6 = 0) && !w.m6.getLsbD 5 && w.nwb = 0 && w.imm.toNat < 256)) w
    (fun x _ => w.imm.toNat + 64 / x.g.kernel.width ≤ x.g.kernel.v ∧ x.g.damaged 4 w.a9.toNat = none ∧
      x.g.handle w.a9.toNat = some h)
    (fun x s => s.listed (x.newOp s.nextId 6 w.a9.toNat h.desc [h.va, w.d9.setWidth 64, x.s w.b9.toNat, x.s w.c9.toNat]
      (x.tencRow w (descOf h.desc))))
    (fun _ s => .decoder s.nextId)) ∧
  (∀ (w : XWord) (bs : List Byte), Waits (.ctld w) (opForm .slot .scalar .unused .unused true (w.m6 = 0 && w.nwb = 0)) w
    (fun x s => (x.s w.a9.toNat + w.imm.signExtend 64).toNat % 2 = 0 ∧
      s.readGang x.g 1 (x.s w.a9.toNat + w.imm.signExtend 64).toNat 2 = .ok bs ∧ s.slotFilling x.c.gid w.d9.toNat = false ∧
      s.accessesPending x.c.gid x.c.bundle = false ∧ x.fenceWaits = false)
    (fun x s => s.listed (x.newOp s.nextId 7 w.d9.toNat [] [x.s w.a9.toNat + w.imm.signExtend 64, 0] []))
    (fun _ s => .decoder s.nextId)) ∧
  (∀ w : XWord, Waits (.ctldSpm w) (opForm .slot .scalar .unused .unused true (w.m6 = 0 && w.nwb = 0)) w
    (fun x s => (x.s w.a9.toNat + w.imm.signExtend 64).toNat % 2 = 0 ∧
      x.g.inView (x.s w.a9.toNat + w.imm.signExtend 64).toNat 2 = true ∧ s.slotFilling x.c.gid w.d9.toNat = false ∧
      s.acquirePending x.c.gid x.c.bundle = false ∧ x.fenceWaits = false)
    (fun x s => s.listed (x.newOp s.nextId 7 w.d9.toNat [] [x.s w.a9.toNat + w.imm.signExtend 64, 1] []))
    (fun _ s => .decoder s.nextId))

/-- R247, R253, R257–R260: the events that end the operations of the decoders and the encoder. -/
def Obligations.DecodersEnd : Prop :=
  (∀ (s : State) (gid b sub : Nat) (o : EngOp) (x : Ctx), s.decOf gid b sub [5, 6, 7] = some (o, x) → o.state = 0 → o.eng = 5 →
    s.settled x.g.die = true → s.unitBusy x.g o = false → s.portBusy x.g o = false → (o.par 2).testBit 2 = false →
    exec (.decoderResume gid b sub) s = .next (s.modOp o.id (fun o => { o with state := 1 }))) ∧
  (∀ (s : State) (gid b sub : Nat) (o : EngOp) (x : Ctx) (bs : List Byte), s.decOf gid b sub [5, 6, 7] = some (o, x) →
    o.state = 0 → o.eng = 7 → s.settled x.g.die = true → s.decReady x.g o = true → s.ctldObject x o = .ok bs →
    exec (.decoderResume gid b sub) s = .next ((if o.par 1 = 0 then s.tookRange x.g (o.par 0) bs.length else s).modOp o.id
      (fun o => { o with state := 1, desc := bs }))) ∧
  (∀ (s : State) (gid b sub : Nat) (o : EngOp) (x : Ctx) (xs : List Elem), s.Decoding gid b sub 5 o x → o.state = 1 →
    s.unitBusy x.g o = false → s.portBusy x.g o = false → s.settled x.g.die = true → s.texpElems x o = .ok xs →
    ∃ t, exec (.texpDecodeDone gid b sub) s = .next t ∧
      t.uncounted = ((s.texpSeen x o).dropOp o.id).uncounted.modBundle x.c.gid x.c.bundle (fun b => x.afterUniform s 12 false
        (b.eachLane x.ownLanes (x.texpLane (o.par 1) (o.par 2) (bits (o.par 3) 6 7) (xs.drop (64 * bits (o.par 3) 0 6)))))) ∧
  (∀ (s s' : State) (gid b sub : Nat) (o : EngOp) (x : Ctx) (n : Nat), s.Decoding gid b sub 6 o x → o.state = 1 →
    s.settled x.g.die = true → s.tencAppend x o (entryOf (o.desc.drop 64)) = .ok (n, s') → s'.halts = [] → s'.ending gid = false →
    ∃ t, exec (.tencPublish gid b sub) s = .next t ∧
      t.uncounted = (s'.dropOp o.id).uncounted.modBundle x.c.gid x.c.bundle (fun b => x.afterUniform s' 12 false
        (b.writeS (o.par 1) (BitVec.ofNat 64 n)))) ∧
  (∀ (s : State) (gid b sub : Nat) (o : EngOp) (x : Ctx), s.Decoding gid b sub 7 o x → o.state = 1 →
    s.slotRead gid o.id o.number = false →
    ∃ t, exec (.ctldFill gid b sub) s = .next t ∧
      t.uncounted = ((s.dropOp o.id).modGang gid (fun g =>
        { g with atlas := setNth g.atlas o.number (slotOf o.desc) }.repair 1 o.number)).uncounted.modBundle x.c.gid x.c.bundle
          (x.afterUniform s 12 false))

/-- R238–R242: the expanded view; that xvfree removes a view at once is the model's choice (log 84). -/
def Obligations.ExpandedView : Prop :=
  (∀ (m : MsgId) (part die xid : Nat) (desc : W64) (tabs : List W64) (v : XView),
    Answers (.xvreg m part die xid desc tabs) 1 (fun s => s.makeView part die xid desc tabs = some v)
      (fun s => { s with xviews := s.xviews ++ [v] }.reply m 0)) ∧
  (∀ (m : MsgId) (part die xid : Nat), Answers (.xvfree m part die xid) 1
    (fun s => ∃ v ∈ s.xviews, v.part = part ∧ v.die = die ∧ v.xid = xid)
    (fun s => { s with xviews := s.xviews.filter (fun v => !(v.part == part && v.die == die && v.xid == xid)) }.reply m 0)) ∧
  (∀ (s : State) (o : MemOp) (r : LaneReq) (g : Gang) (bs : List Byte), s.Request o r g → r.status = 0 →
    vaIsXv r.va.toNat = true → o.kind = 0 → s.mayPerform o r = true →
    let s1 := s.carryClock g.die (vaDie r.va.toNat)
    let s2 := s1.xvUsed g.part r.va.toNat r.size
    s1.xvRead g.part r.va.toNat r.size = .ok bs →
    exec (.expandedViewRead o.id r.lane) s = .next ((s2.modReq o.id r.lane (fun q =>
      { q with status := 3, data := bs, noFill := true, clock := (s2.die (vaDie r.va.toNat)).vclock })).resolveMem o.id)) ∧
  (∀ (s : State) (o : MemOp) (r : LaneReq) (g : Gang) (f : FaultInfo), s.Request o r g → r.status = 0 →
    vaIsXv r.va.toNat = true → o.kind = 0 → s.mayPerform o r = true →
    let s1 := s.carryClock g.die (vaDie r.va.toNat)
    s1.xvRead g.part r.va.toNat r.size = .error f →
    ∃ e, exec (.expandedViewRead o.id r.lane) s = .next ((s1.xvUsed g.part r.va.toNat r.size).failReq o r (f.cls :: f.sub :: e)))

/-- R237: the presence instructions; pres.set is a release of what it makes present, and waits for that under reason 24 (R401). -/
def Obligations.Presence : Prop :=
  let a (x : Ctx) (w : XWord) : Nat := (x.s w.a9.toNat + w.imm.signExtend 64).toNat
  let ok (x : Ctx) (w : XWord) : Prop := a x w % 128 = 0 ∧
    (x.sn w.b9.toNat = 0 ∨ x.g.inOneRegion (a x w) (128 * x.sn w.b9.toNat) = true)
  (∀ w : XWord, Completes (.presClr w) false 12 (presForm w) w (fun x _ => ok x w)
    (fun x s => s.setPresence x.g (a x w) (128 * x.sn w.b9.toNat) false) (fun _ _ b => b)) ∧
  (∀ w : XWord, Completes (.presSet w) false 12 (presForm w) w
    (fun x s => ok x w ∧ (x.sn w.b9.toNat = 0 ∨ s.quiet x))
    (fun x s => s.setPresence x.g (a x w) (128 * x.sn w.b9.toNat) true) (fun _ _ b => b)) ∧
  (∀ w : XWord, Holds (.presSet w) (presForm w) w (fun x s => ok x w ∧ x.sn w.b9.toNat ≠ 0 ∧ ¬ s.quiet x) (fun _ _ => 24)) ∧
  (∀ w : XWord, Completes (.presTest w) false 12 (presForm w) w (fun x _ => ok x w) noEffect
    (fun x s b => b.writeS w.d9.toNat (BitVec.ofNat 64 (((List.range (min (x.sn w.b9.toNat) 64)).map (fun i =>
      if s.viewPresent x.g (a x w + 128 * i) 128 then 2 ^ i else 0)).sum)))) ∧
  (∀ (s : State) (g : Gang) (a n : Nat), (s.setPresence g a n true).viewPresent g a n = true)

/-- R264, R268–R277: the copy instructions take their numbers and list their copies; cpy with CH lists the chained matrix
instruction too, which waits for the copy. -/
def Obligations.CopiesIssue : Prop :=
  CopyIssues .cpyLinG2s 0 ∧ CopyIssues .cpyLinS2g 1 ∧ CopyIssues .cpyLinG2g 2 ∧ CopyIssues .cpyTileG2s 3 ∧
  CopyIssues .cpyRowsG2s 4 ∧ CopyIssues .cpyMcastG2s 5 ∧ CopyIssues .cpyMcastS2s 6 ∧ CopyIssues .cpyFill 7 ∧
  (∀ (w : XWord) (lit : W64) (s : State) (x : Ctx), s.Issues x → x.inTime →
    x.passesForm (cpyForm 3 true w (chainFnOk lit) (chainLitOk lit) x) w → x.g.kernel.accRows ≠ 0 →
    let o := x.copyOp s 3 w (encode (.cpyTileG2sCh w lit))
    s.copyFault x o = none → s.chainFault x w lit (o.par 1) = none → s.copyWaits x o = false →
    (∀ h, x.g.handle (bits w.imm.toNat 12 4) = some h → ∀ n ∈ (descOf h.desc).slots, s.slotFilling x.c.gid n = false) →
    ∃ t s1 m, exec (.cpyTileG2sCh w lit) s = .next t ∧ s1 = s.issueCopy { o with chain := x.g.nextNumber 2 } ∧
      m = { x.matrixOp s1.nextId (bits lit.toNat 32 2) (x.g.nextNumber 2) (bits w.imm.toNat 12 4) (encode (chainInstr w lit))
        (BitVec.ofNat 64 (o.par 1)) 0 0 with state := 3 } ∧
      t.uncounted = (s1.addOp m).uncounted.modBundle x.c.gid x.c.bundle (fun b => x.afterUniform s 20 false
        ((b.writeS w.d9.toNat (BitVec.ofNat 64 (x.g.issued.getD 0 0 + 1))).writeS (w.d9.toNat + 1)
          (BitVec.ofNat 64 (x.g.issued.getD 1 0 + 1)))))

/-- R270, R272: a chunk of a linear copy writes the bytes that it reads at its destination, and nothing else of memory; a fill
writes its word. A copy to global memory writes the last 16-byte block of a chunk whole, and one from global memory reads it whole (R75; the
model's reading, log 29). -/
def Obligations.CopiesMove : Prop :=
  ∀ (s : State) (o : EngOp) (g : Gang), s.Copying o g →
    let n := o.chunkEnd o.pos - o.pos
    let k := s.chunkStop g o - o.pos
    let m := s.readEnd g o (o.chunkEnd o.pos) - o.pos
    (∀ rs, o.fn = 0 → s.copyReadFault g (o.chunkSrc, n) = none → vaIsXv o.chunkSrc = false →
      cutXv (o.chunkSrc, m) = [(o.chunkSrc, m)] → s.runs g.part 0 o.chunkSrc m = some rs →
      ∃ t, exec (.copyChunk o.id) s = .next t ∧ t.mem = (s.putRuns (g.viewRuns o.chunkDst n) ((s.readRuns rs).take n)).mem) ∧
    (∀ rs, o.fn = 1 → s.chunkFault g o o.pos (o.chunkEnd o.pos) = none → s.runs g.part 1 o.chunkDst k = some rs →
      ∃ t, exec (.copyChunk o.id) s = .next t ∧
        t.mem = (s.writeRuns none rs (s.readRuns (g.viewRuns o.chunkSrc k))).mem) ∧
    (o.fn = 7 → o.cw.testBit 12 = false → ∃ t, exec (.copyChunk o.id) s = .next t ∧
      t.mem = (s.putRuns (g.viewRuns o.chunkDst n)
        ((List.replicate (n / 4) (leBytes 4 (o.par 2 % 2 ^ 32))).flatten)).mem)

/-- R264, R280–R285: the matrix instructions take their numbers and list their operations; a K-step multiplies and accumulates,
and bload switches a slot to its new contents. -/
def Obligations.Matrix : Prop :=
  (∀ w, MatrixIssues (.mma w) 0 12 w 0) ∧ (∀ w lit, MatrixIssues (.mmaCrew w lit) 1 20 w lit) ∧
  (∀ w, MatrixIssues (.mmaSp w) 2 12 w 0) ∧ (∀ w, MatrixIssues (.bload w) 3 12 w 0) ∧
  (∀ (s : State) (o : EngOp) (g : Gang) (rows : List (List FVal)) (st : List MxRead), s.op o.id = some o →
    s.stepper o = some g → o.arrayUse = true → o.fn = 0 → o.pos < mxNk o.w2 → s.mayMultiply o = true → s.texpFirst g o = false →
    s.settled g.die = true → s.mxDamage o o.pos = none → s.watching = false →
    s.aAll g o (descOf (o.desc.take 64)).rows (mxM o.w2) (mxNk o.w2) [o.pos]
      ((mxM o.w2 + (descOf (o.desc.take 64)).rows - 1) / (descOf (o.desc.take 64)).rows) 0 = some (rows, none, st) →
    ∃ t, exec (.matrixKStep o.id) s = .next t ∧ t.uncounted =
      (let s1 := ((s.modGang o.gid (fun k =>
        k.multiply (mxAcc o.w2) (mxSlot o.w2 + o.pos) 1 (o.pos == 0 && bit o.mxWord.m6.toNat 0) rows)).comeToPort [o.gid]).tookStreams g st
       if mxNk o.w2 ≤ o.pos + 1 then s1.completeOp { o with time := s.nextId }
       else s1.modOp o.id (fun p => { p with state := 1, pos := o.pos + 1 })).uncounted) ∧
  (∀ (s : State) (o : EngOp) (g : Gang) (xs : List Elem) (st : List MxRead), s.op o.id = some o →
    s.stepper o = some g → o.eng = 2 → o.fn = 3 → s.mayFill o (mxSlot o.w2 + o.pos2) = true → s.settled g.die = true →
    s.watching = false → o.pos2 < mxNk o.w2 →
    s.mxTile g o o.pos2 0 1 = .got xs none st → mxSlot o.w2 + o.pos2 < g.bBack.length →
    ∃ t, exec (.bloadSlotSwitch o.id) s = .next t ∧ ∃ k, t.gang o.gid = some k ∧
      k.bFront = setNth g.bFront (mxSlot o.w2 + o.pos2) (slotFrom xs) ∧ k.acc = g.acc ∧ t.mem = s.mem)

/-- R278, R288–R290: the accumulator instructions. -/
def Obligations.Accumulators : Prop :=
  (∀ w : XWord, Completes (.accWin w) false 12 (opForm .unused .scalar .scalar .scalar true (w.m6 = 0 && w.imm = 0 && w.nwb = 0)) w
    (fun x _ => x.g.kernel.accRows ≠ 0 ∧ x.c.bundle = 0 ∧ x.sn w.a9.toNat < x.g.bundles.length ∧
      x.sn w.b9.toNat ≤ x.sn w.c9.toNat ∧ x.sn w.c9.toNat ≤ x.g.kernel.accRows)
    (fun x s => s.modBundle x.c.gid (x.sn w.a9.toNat) (fun b => { b with awb := x.sn w.b9.toNat, awl := x.sn w.c9.toNat }))
    (fun _ _ b => b)) ∧
  (∀ w : XWord, Completes (.accLd w) false 12
    { opForm .dst .scalar .unused .unused true (w.m6 = 0 && w.nwb = 0 && w.imm.toNat < 2 ^ 14) with operandOk := w.d9.toNat < 256 } w
    (fun x s => s.rowsFree x (x.rowBase w) (w.imm.toNat / 1024 + 1) ∧
      x.g.damagedRows (x.rowBase w) (w.imm.toNat / 1024 + 1) = none ∧
      w.d9.toNat + (64 * (w.imm.toNat / 1024 + 1) + x.g.kernel.width - 1) / x.g.kernel.width ≤ x.g.kernel.v) noEffect
    (fun x _ b =>
      let n := 64 * (w.imm.toNat / 1024 + 1)
      let width := x.g.kernel.width
      let vals := ((x.g.acc.drop (x.rowBase w)).take (w.imm.toNat / 1024 + 1)).flatten
      b.eachLane x.ownLanes (fun l y => (List.range ((n + width - 1) / width)).foldl (fun y k =>
        if k * width + l < n then y.write (w.d9.toNat + k) (vals.getD (k * width + l) 0) else y) y))) ∧
  (∀ w : XWord, Completes (.accSt w) false 12
    { opForm .unused .scalar .vfield .unused true (w.m6 = 0 && w.nwb = 0 && w.imm.toNat < 2 ^ 14) with
      operandOk := w.b9.toNat < 256 } w
    (fun x s => s.rowsFree x (x.rowBase w) (w.imm.toNat / 1024 + 1) ∧
      w.b9.toNat + (64 * (w.imm.toNat / 1024 + 1) + x.g.kernel.width - 1) / x.g.kernel.width ≤ x.g.kernel.v)
    (fun x s => s.modGang x.c.gid (fun g => g.setRows (x.rowBase w) (w.imm.toNat / 1024 + 1) (fun i => (List.range 64).map (fun c =>
      let j := 64 * i + c
      x.ofLane 0 (j % x.g.kernel.width) (fun y => y.read (j % x.g.kernel.width) (w.b9.toNat + j / x.g.kernel.width))))))
    (fun _ _ b => b)) ∧
  (∀ w : XWord, Completes (.accZero w) false 12
    (opForm .unused .scalar .unused .unused true (w.m6 = 0 && w.nwb = 0 && w.imm.toNat < 2 ^ 20)) w
    (fun x s => s.rowsFree x (x.rowBase w) (w.imm.toNat / 1024 + 1))
    (fun x s => s.modGang x.c.gid (fun g => g.setRows (x.rowBase w) (w.imm.toNat / 1024 + 1) (fun _ => List.replicate 64 0)))
    (fun _ _ b => b)) ∧
  (∀ w : XWord, Completes (.accOut w) false 12
    (opForm .unused .scalar .scalar .scalar (w.imm.toNat / 2 ^ 20 % 8 < 5 && w.m6.toNat % 8 ≤ 3)
      (!w.m6.getLsbD 5 && w.nwb = 0 && w.imm.toNat < 2 ^ 23)) w
    (fun x s => s.watching = false ∧ s.rowsFree x (x.rowBase w) (w.imm.toNat / 1024 % 1024 + 1) ∧
      x.g.damagedRows (x.rowBase w) (w.imm.toNat / 1024 % 1024 + 1) = none ∧ x.sn w.b9.toNat % 4 = 0 ∧ x.sn w.c9.toNat % 4 = 0 ∧
      x.g.outside ((List.range (w.imm.toNat / 1024 % 1024 + 1)).map (fun i => ((x.sn w.b9.toNat + i * x.sn w.c9.toNat) % 2 ^ 64,
        64 * fmtWidth (accFmt (w.imm.toNat / 2 ^ 20 % 8)) / 8))) = none ∧
      s.acquirePending x.c.gid x.c.bundle = false ∧ x.fenceWaits = false ∧
      s.meetsRest x [(⟨1, 1, 0, 64 * fmtWidth (accFmt (w.imm.toNat / 2 ^ 20 % 8)) / 8, 0, 0⟩, 0,
        (List.range (w.imm.toNat / 1024 % 1024 + 1)).map (fun i =>
          BitVec.ofNat 64 ((x.sn w.b9.toNat + i * x.sn w.c9.toNat) % 2 ^ 64)))] = false)
    (fun x s => (List.range (w.imm.toNat / 1024 % 1024 + 1)).foldl (fun s i =>
      s.writeView x.g ((x.sn w.b9.toNat + i * x.sn w.c9.toNat) % 2 ^ 64) ((x.g.acc.getD (x.rowBase w + i) []).flatMap (fun c =>
        leBytes (fmtWidth (accFmt (w.imm.toNat / 2 ^ 20 % 8)) / 8)
          (roundTo (accFmt (w.imm.toNat / 2 ^ 20 % 8)) (roundingMode w) (saturates w) (flushes w)
            (readFloat fp32 false c.toNat)).1))) s) (fun _ _ b => b))

/-- R309–R316: the scan instructions. -/
def Obligations.ScanInstructions : Prop :=
  (∀ w : XWord, Completes (.scanOpdef w) false 12
    (opForm .unused .scalar .unused .unused true (w.nwb = 0 && w.m6.toNat < 8)) w
    (fun x s =>
      let a := (x.s w.a9.toNat + w.imm.signExtend 64).toNat
      let n := 4 + 4 * progSteps (leNat (s.readView x.g a 4))
      w.m6.getLsbD 0 = true ∧ ¬ (x.g.scan.isOpen = true ∧ x.g.scan.opslot = w.m6.toNat / 2) ∧ a % 4 = 0 ∧
        x.g.inView a 4 = true ∧ s.viewPresent x.g a 4 = true ∧ x.g.inView a n = true ∧ s.viewPresent x.g a n = true ∧
        s.acquirePending x.c.gid x.c.bundle = false ∧ x.fenceWaits = false ∧
        s.poisonedRuns (x.g.viewRuns a n) = false ∧ progBad (wordsOfBytes (s.readView x.g a n)) = none)
    (fun x s =>
      let a := (x.s w.a9.toNat + w.imm.signExtend 64).toNat
      let n := 4 + 4 * progSteps (leNat (s.readView x.g a 4))
      s.modScan x.c.gid (fun c => { c with ops := setNth c.ops (w.m6.toNat / 2) (some (wordsOfBytes (s.readView x.g a n))) }))
    (fun _ _ b => b)) ∧
  (∀ w : XWord, Completes (.scanBegin w) false 12
    (opForm .scalar .scalar .unused .unused (w.imm.toNat / 2 ^ 20 % 4 ≠ 3) (w.m6 = 0 && w.nwb = 0 && w.imm.toNat < 2 ^ 22)) w
    (fun x s => beginFault w x = none ∧ w.imm.toNat / 2 ^ 20 % 4 = 0 ∧ w.imm.toNat / 2 ^ 14 % 64 < s.ranks x.g.crew)
    (fun x s => s.openScan x w none) (fun _ _ b => b)) ∧
  (∀ (w : XWord) (s : State) (x : Ctx) (block : Option (List W32)), s.ctx = some x →
    ∃ g, (s.openScan x w block).gang x.c.gid = some g ∧ g.scan.isOpen = true ∧ g.scan.published = false ∧
      g.scan.epoch = x.g.scan.epoch + 1 ∧ g.scan.nch = w.imm.toNat / 4 % 64 + 1 ∧ g.scan.first = w.imm.toNat / 2 ^ 8 % 64 ∧
      g.scan.last = w.imm.toNat / 2 ^ 14 % 64 ∧ g.scan.prog = ((x.g.scan.ops[w.imm.toNat % 4]?).join).getD [] ∧
      g.scan.g = List.replicate (w.imm.toNat / 4 % 64 + 1) none ∧ g.scan.carryOut = none ∧
      (block = none → x.g.rank = g.scan.first → g.scan.carryIn = some ⟨2, x.g.scan.epoch + 1, g.scan.first, g.scan.last, []⟩)) ∧
  (∀ w : XWord, Completes (.scanTile w) false 12
    (opForm .scalar .scalar .scalar .unused true (w.m6 = 0 && w.nwb = 0 && w.imm.toNat < 64)) w
    (fun x s => x.g.scan.isOpen = true ∧ x.g.scan.published = false ∧ s.scanFull x.g = false ∧
      x.scanRange (x.sn w.a9.toNat) (x.tileBytes (w.imm.toNat + 1)) ∧ x.scanRange (x.sn w.b9.toNat) (x.tileBytes (w.imm.toNat + 1)))
    (fun x s => s.issueScan x 2 (encode (.scanTile w)) (x.s w.a9.toNat) (x.s w.b9.toNat))
    (fun x _ b => b.writeS w.d9.toNat (BitVec.ofNat 64 (x.g.issued.getD 2 0 + 1)))) ∧
  (∀ w : XWord, Completes (.scanPub w) false 12
    (opForm .scalar .unused .unused .unused true (w.m6 = 0 && w.nwb = 0 && w.imm = 0)) w
    (fun x s => x.g.scan.isOpen = true ∧ x.g.scan.published = false ∧ s.scanFull x.g = false)
    (fun x s => (s.issueScan x 3 (encode (.scanPub w)) 0 0).modScan x.c.gid (fun c => { c with published := true }))
    (fun x _ b => b.writeS w.d9.toNat (BitVec.ofNat 64 (x.g.issued.getD 2 0 + 1)))) ∧
  (∀ (w : XWord) (c : CarryBlock), Completes (.scanCarry w) false 12
    (opForm .scalar .scalar .unused .unused true (w.m6 = 0 && w.nwb = 0 && w.imm = 0)) w
    (fun x s => s.watching = false ∧ x.g.scan.isOpen = true ∧ x.g.scan.carryIn = some c ∧ s.settled x.g.die = true ∧
      s.acquirePending x.c.gid x.c.bundle = false ∧ x.fenceWaits = false ∧ (w.a9 ≠ 268 → x.scanRange (x.sn w.a9.toNat) (4 * x.g.scan.nch * progK x.g.scan.prog)))
    (fun x s => if c.status = 0 ∧ w.a9 ≠ 268 then s.writeView x.g (x.sn w.a9.toNat) (bytesOfWords c.data) else s)
    (fun _ _ b => b.writeS w.d9.toNat (BitVec.ofNat 64 c.status))) ∧
  (∀ w : XWord, Waits (.scanCarry w) (opForm .scalar .scalar .unused .unused true (w.m6 = 0 && w.nwb = 0 && w.imm = 0)) w
    (fun x s => x.g.scan.isOpen = true ∧ (x.g.scan.carryIn = none ∨ s.settled x.g.die = false ∨
        s.acquirePending x.c.gid x.c.bundle = true ∨ x.fenceWaits = true) ∧
      (w.a9 ≠ 268 → x.scanRange (x.sn w.a9.toNat) (4 * x.g.scan.nch * progK x.g.scan.prog))) noEffect (fun _ _ => .carry)) ∧
  (∀ w : XWord, Completes (.scanFix w) false 12
    (opForm .scalar .scalar .unused .unused true (w.m6 = 0 && w.nwb = 0 && w.imm.toNat < 64)) w
    (fun x s => x.g.scan.isOpen = true ∧ s.scanFull x.g = false ∧ x.scanRange (x.sn w.a9.toNat) (x.tileBytes (w.imm.toNat + 1)))
    (fun x s => s.issueScan x 5 (encode (.scanFix w)) (x.s w.a9.toNat) 0)
    (fun x _ b => b.writeS w.d9.toNat (BitVec.ofNat 64 (x.g.issued.getD 2 0 + 1)))) ∧
  (∀ w : XWord, Completes (.scanEnd w) false 12
    (opForm .unused .scalar .unused .unused true (w.m6 = 0 && w.nwb = 0 && w.imm = 0)) w
    (fun x s => w.a9 = 268 ∧ x.g.scan.isOpen = true ∧ x.g.scan.published = true ∧ s.openOps x.c.gid 3 = [] ∧
      ∃ c, x.g.scan.carryOut = some c ∧ (x.g.scan.sent = true ∨ c.status = 1))
    (fun x s => s.modScan x.c.gid (fun c => { c with
      isOpen := false, outbox := c.outbox ++ (if c.sent then [] else c.carryOut.toList), sent := true }.rescan)) (fun _ _ b => b))

/-- R302–R306, R312, R315: a scan over one tile and then another is the scan over both, the running value carrying from one to
the next and each delivered value being the running value after its step; the scan engine's operations; and the carries
between ranks. -/
def Obligations.ScanEngine : Prop :=
  (∀ (p : List W32) (g : Option (List W32)) (es fs : List (List W32)),
    (prefixes p g es).1.length = es.length ∧
    (prefixes p g (es ++ fs)).1 = (prefixes p g es).1 ++ (prefixes p (prefixes p g es).2 fs).1 ∧
    (prefixes p g (es ++ fs)).2 = (prefixes p (prefixes p g es).2 fs).2 ∧
    (es ≠ [] → (prefixes p g es).2 = (prefixes p g es).1.getLast?) ∧
    ∀ e, (prefixes p g [e]).1 = [match g with | none => e | some y => scanCombine p y e]) ∧
  (∀ (s : State) (o : EngOp) (g : Gang), s.Scanning o g 2 (o.par 2) →
    exec (.scanTilePerform o.id) s = .next
      ((((s.modScan o.gid (fun c => { c with g := (List.range g.scan.nch).map (fun ch =>
          (prefixes g.scan.prog (g.scan.g.getD ch none) (s.channel o g (o.par 2) ch)).2) })).writeView g (o.par 1)
        (bytesOfWords (tileWords g.scan.nch o.scanT (progK g.scan.prog) (fun ch i =>
          if ch < g.scan.nch then
            ((prefixes g.scan.prog (g.scan.g.getD ch none) (s.channel o g (o.par 2) ch)).1).getD i [] else [])))).completeOp o))) ∧
  (∀ (s : State) (o : EngOp) (g : Gang) (c : CarryBlock), s.Scanning o g 5 (o.par 1) → g.scan.carryIn = some c → c.status = 0 →
    exec (.scanFixPerform o.id) s = .next
      ((s.writeView g (o.par 1) (bytesOfWords (tileWords g.scan.nch o.scanT (progK g.scan.prog) (fun ch i =>
        scanCombine g.scan.prog (carryElem g.scan.nch (progK g.scan.prog) c.data ch)
          (tileElem g.scan.nch o.scanT (progK g.scan.prog) (s.tileAt o g (o.par 1)) ch i))))).completeOp o)) ∧
  (∀ (s : State) (o : EngOp) (g : Gang) (c : CarryBlock), s.Scanning o g 5 (o.par 1) → g.scan.carryIn = some c → c.status ≠ 0 →
    exec (.scanFixPerform o.id) s = .next (s.completeOp o)) ∧
  (∀ (s : State) (gid : Nat) (g : Gang) (o : EngOp) (c : CarryBlock), s.gang gid = some g → g.scan.carryOut = none →
    g.scan.outbox = [] → g.scan.carryIn = some c → s.firstScan gid = some o → o.fn = 3 → s.priorDone o = true →
    s.settled g.die = true → s.stepper o = some g →
    exec (.carryOutFormed gid) s =
      .next (((s.modScan gid (fun k => { k with carryOut := some (g.scan.formOut c) })).sendCarry gid).completeOp o)) ∧
  (∀ (s : State) (gid : Nat), s.canSend gid = true → exec (.carryOutFormed gid) s = .next (s.sendCarry gid)) ∧
  (∀ (s : State) (m : CarryMsg), s.carries.find? (fun q => q.id == m.id) = some m → (∀ q ∈ s.carries, s.aheadOf q m = false) →
    exec (.carryArrive m.id) s = .next ((({ s with carries := s.carries.filter (fun q => q.id != m.id) }).modScan m.dst (fun c =>
      c.receive m.block)).abandonCarries)) ∧
  (∀ (c : ScanCtx) (b : CarryBlock), c.isOpen = true → b.epoch = c.epoch → c.carryIn = none →
    (b.first = c.first → b.last = c.last → b.status = 0 → b.data.length = c.nch * progK c.prog → c.receive b = { c with carryIn := some b }) ∧
    (b.first = c.first → b.last = c.last → b.status ≠ 0 → c.receive b = { c with carryIn := some { b with data := [] } }) ∧
    (b.first ≠ c.first ∨ b.last ≠ c.last → c.receive b = { c with carryIn := some { b with status := 3, data := [] } })) ∧
  (∀ (c : ScanCtx) (b : CarryBlock), b.epoch < c.epoch ∨ b.epoch = c.epoch ∧ c.isOpen = false → c.receive b = c)

/-- R97–R104: the Compass shares of a die are the crews that its record's list holds; a launch gives every die with a share its
record, a die accepts a record into its store, its ring or not at all, and a packet that fails a check is refused. -/
def Obligations.Launching : Prop :=
  (∀ (r : Record) (d : Nat), r.mode = 0 → r.wt.length = 8 → sumOf r.wt ≠ 0 → d < 8 →
    (List.range (pkCrews r.packet)).countP (r.has d) =
      compassBelow r.wt d (r.lseq + pkCrews r.packet) - compassBelow r.wt d r.lseq) ∧
  (∀ (m : MsgId) (p : List Byte) (n : Nat), Answers (.launch m p) 1 (fun s => s.packetCheck p none = some n)
    (fun s => s.notice 2 (pkPart p) 0 n (pkLid p) [])) ∧
  (∀ (m : MsgId) (p : List Byte) (q : Partition),
    Answers (.launch m p) 1 (fun s => s.packetCheck p none = none ∧ s.part (pkPart p) = some q)
    (fun s => (s.reply m 0).launch p q)) ∧
  (∀ (s : State) (p : List Byte) (q : Partition), s.part (pkPart p) = some q →
    ((s.launch p q).part (pkPart p)).map (·.lseq) = some ((q.lseq + 1) % 2 ^ 64) ∧
    ∀ d < s.dies.length, d < 8 → s.storeRoom q (pkPart p) d = true → (q.ring d).count = 0 → (s.shareOf p q d).2.2 ≠ 0 →
      ∃ r, ((s.launch p q).die d).store = (s.die d).store ++ [r] ∧ r.packet = p ∧
        r.lseq = (if pkPinMode p = 0 then q.lseq else 0) ∧
        r.arrival = (s.die d).arrivals ∧ r.ncrew = (s.shareOf p q d).2.2 ∧ r.left = r.ncrew ∧ r.imageOk = false) ∧
  (∀ (s : State) (d : Nat) (r : Record) (q : Partition), s.part (pkPart r.packet) = some q → d < s.dies.length →
    (s.storeRoom q (pkPart r.packet) d = true → (q.ring d).count = 0 →
      (s.accept d r false).2 = 0 ∧ ((s.accept d r false).1.die d).store =
        (s.die d).store ++ [{ r with arrival := (s.die d).arrivals, next := r.from_ d 0 }]) ∧
    (¬ (s.storeRoom q (pkPart r.packet) d = true ∧ (q.ring d).count = 0) → (q.ring d).entries ≤ (q.ring d).count →
      s.accept d r false = (s, 2)) ∧
    ∀ rs, ¬ (s.storeRoom q (pkPart r.packet) d = true ∧ (q.ring d).count = 0) → (q.ring d).count < (q.ring d).entries →
      s.runs (pkPart r.packet) 1 ((q.ring d).entryVa (q.ring d).count) 512 = some rs →
      (s.accept d r false).2 = 1 ∧ (s.accept d r false).1.mem = (s.writeRuns none rs
        { r with arrival := (s.die d).arrivals, next := r.from_ d 0 }.bytes).mem)

/-- R109–R111, R116–R119: spawn and launch queue work and give its status; the join counter instructions write the counter and
apply a change to it. That the JC_UNDERFLOW notice carries LID 0 is the model's choice (log 67). -/
def Obligations.LaunchInstructions : Prop :=
  (∀ (w : XWord) (r : Record), Completes (.spawn w) false 12
    (opForm .scalar .scalar .scalar .scalar true (w.m6 = 0 && w.nwb = 0 && w.imm = 0)) w
    (fun x s => 1 ≤ x.sn w.a9.toNat ∧ x.sn w.a9.toNat < 2 ^ 24 ∧ x.sn w.c9.toNat % 16 = 0 ∧
      s.quiet x ∧ s.taskOf x.g = some r ∧ s.pushable x.g.part = true)
    (fun x s => (s.accept x.g.die (newRecord (childPacket r.packet (x.sn w.a9.toNat) (x.s w.b9.toNat) (x.s w.c9.toNat)) r.lkey 0
      (List.replicate 8 0) 1 0 (x.sn w.a9.toNat) true) false).1)
    (fun x s b => b.writeS w.d9.toNat (BitVec.ofNat 64 (s.accept x.g.die (newRecord (childPacket r.packet (x.sn w.a9.toNat)
      (x.s w.b9.toNat) (x.s w.c9.toNat)) r.lkey 0 (List.replicate 8 0) 1 0 (x.sn w.a9.toNat) true) false).2))) ∧
  (∀ w : XWord, Completes (.spawn w) false 12
    (opForm .scalar .scalar .scalar .scalar true (w.m6 = 0 && w.nwb = 0 && w.imm = 0)) w
    (fun x _ => x.sn w.a9.toNat = 0 ∨ 2 ^ 24 ≤ x.sn w.a9.toNat) noEffect (fun _ _ b => b.writeS w.d9.toNat 3)) ∧
  (∀ (p : List Byte) (n : Nat) (a j : W64), p.length = 256 → n < 2 ^ 24 →
    let c := childPacket p n a j
    pkCrews c = n ∧ wordOf c 384 = a ∧ pkJc c = j.toNat ∧ pkPinMode c = 0 ∧ pkPinBase c = 0 ∧ pkPart c = pkPart p ∧
      pkKva c = pkKva p ∧ pkLid c = pkLid p ∧ pkClass c = pkClass p ∧ pkRanks c = pkRanks p ∧ pkDeadline c = pkDeadline p) ∧
  (∀ (w : XWord) (p : List Byte), Completes (.launchInstruction w) false 12
    (opForm .scalar .scalar .unused .unused true (w.m6 = 0 && w.nwb = 0)) w
    (fun x s => s.watching = false ∧ (x.s w.a9.toNat + w.imm.signExtend 64).toNat % 64 = 0 ∧
      s.acquireRead x (x.s w.a9.toNat + w.imm.signExtend 64).toNat 256 =
        .bytes p (s.tookRange x.g (x.s w.a9.toNat + w.imm.signExtend 64).toNat 256) ∧ s.packetCheck p (some x.g.die) = none ∧
      pkPart p = x.g.part ∧ (∃ r, s.taskOf x.g = some r ∧ pkClass p ≤ pkClass r.packet) ∧ s.pushable x.g.part = true)
    (fun x s => ((s.tookRange x.g (x.s w.a9.toNat + w.imm.signExtend 64).toNat 256).queueWhole x.g.die p false).1)
    (fun x s b => b.writeS w.d9.toNat (BitVec.ofNat 64
      ((s.tookRange x.g (x.s w.a9.toNat + w.imm.signExtend 64).toNat 256).queueWhole x.g.die p false).2))) ∧
  (∀ (w : XWord) (p : List Byte), Completes (.launchInstruction w) false 12
    (opForm .scalar .scalar .unused .unused true (w.m6 = 0 && w.nwb = 0)) w
    (fun x s => s.watching = false ∧ (x.s w.a9.toNat + w.imm.signExtend 64).toNat % 64 = 0 ∧
      s.acquireRead x (x.s w.a9.toNat + w.imm.signExtend 64).toNat 256 =
        .bytes p (s.tookRange x.g (x.s w.a9.toNat + w.imm.signExtend 64).toNat 256) ∧
      (s.packetCheck p (some x.g.die) ≠ none ∨ pkPart p ≠ x.g.part))
    (fun x s => s.tookRange x.g (x.s w.a9.toNat + w.imm.signExtend 64).toNat 256) (fun _ _ b => b.writeS w.d9.toNat 3)) ∧
  (∀ (w : XWord) (rs : List (Nat × Nat)), Completes (.jcInit w) false 12
    (opForm .unused .scalar .scalar .scalar true (w.m6 = 0 && w.nwb = 0)) w
    (fun x s => let va := (x.s w.a9.toNat + w.imm.signExtend 64).toNat
      s.watching = false ∧ va % 16 = 0 ∧ s.checkAccess x.g 1 va 16 = none ∧ s.runs x.g.part 1 va 16 = some rs ∧ s.quiet x)
    (fun x s => let va := (x.s w.a9.toNat + w.imm.signExtend 64).toNat
      (((s.useRange x.g.die x.g.part 0 va 16).writeRuns none rs
        (leBytes 8 (x.sn w.b9.toNat) ++ leBytes 8 (x.sn w.c9.toNat))).dropOwn x.g rs).hearRange x.g.die va) (fun _ _ b => b)) ∧
  (∀ (w : XWord) (t : State) (old : W64) (rs : List (Nat × Nat)), Completes (.jcAdd w) false 12
    (opForm .scalar .scalar .scalar .unused true (w.m6 = 0 && w.nwb = 0)) w
    (fun x s => let va := (x.s w.a9.toNat + w.imm.signExtend 64).toNat
      s.watching = false ∧ va % 16 = 0 ∧ s.checkAccess x.g 2 va 16 = none ∧ s.poison = [] ∧
        s.runs x.g.part 2 va 16 = some rs ∧ s.quiet x ∧ s.settled (vaDie va) = true ∧ s.jcApply x.g.die x.g.part va (x.s w.b9.toNat) = some (t, old))
    (fun x _ => (t.dropOwn x.g rs).hearRange x.g.die (x.s w.a9.toNat + w.imm.signExtend 64).toNat)
    (fun _ _ b => b.writeS w.d9.toNat old)) ∧
  (∀ (s : State) (die part va : Nat) (delta : W64) (rs : List (Nat × Nat)), s.runs part 2 va 16 = some rs →
    let old := BitVec.ofNat 64 (leAt (s.readRuns rs) 0 8)
    let cont := BitVec.ofNat 64 (leAt (s.readRuns rs) 8 8)
    let t := (s.useRange die part 0 va 16).writeRuns none rs (leBytes 8 (old + delta).toNat ++ leBytes 8 cont.toNat)
    (0 < old.toInt → old + delta = 0 → cont ≠ 0 → s.jcApply die part va delta = some (t.continuation part va cont, old)) ∧
    (¬ (0 < old.toInt ∧ old + delta = 0 ∧ cont ≠ 0) → ¬ (0 ≤ old.toInt ∧ (old + delta).toInt < 0) →
      s.jcApply die part va delta = some (t, old)) ∧
    (0 ≤ old.toInt → (old + delta).toInt < 0 → s.jcApply die part va delta =
      some (t.notice 9 part (vaDie va) 0 0 (leBytes 8 va ++ leBytes 8 old.toNat ++ leBytes 8 delta.toNat), old)))

/-- R25, R121–R123: residency. -/
def Obligations.Residency : Prop :=
  (∀ (m of : MsgId) (l : Lease) (d : Nat) (run : W64 × Nat) (p : Partition), Answers (.resideOk m of) 1
    (fun s => s.resideOf of = some (l, d, run) ∧ s.lease l.lkey = some l ∧ l.headed = true ∧ s.part l.part = some p ∧
      s.missingPages p run.1.toNat run.2 = ([], false))
    (fun s => (s.reply m 0).dropReside l.lkey d of)) ∧
  (∀ (m of : MsgId) (l : Lease) (d : Nat) (run : W64 × Nat), Answers (.resideFail m of) 1
    (fun s => s.resideOf of = some (l, d, run)) (fun s => ((s.reply m 0).dropReside l.lkey d of).failShare l.lkey d)) ∧
  (∀ (s : State) (die lkey t : Nat) (l : Lease) (h : LeaseShare), s.openShare lkey die = some (l, h) → h.first = some t →
    t + 1000000000 ≤ s.devtimeOf die → (s.shareMissing l die).1 ≠ 0 →
    exec (.resideTimeout die lkey) s = .next (s.failShare lkey die)) ∧
  (∀ (s : State) (die lkey : Nat) (l : Lease) (h : LeaseShare), s.openShare lkey die = some (l, h) → h.resides = [] →
    (vaDie l.kva.toNat = die → l.headed = true) → s.shareMissing l die = (0, false) →
    ∃ t l', exec (.leaseReady die lkey) s = .next t ∧ t.lease lkey = some l' ∧ l'.holds = setNth l.holds die 1 ∧
      l'.shares = modNth l.shares die (fun h => { h with status := 1 })) ∧
  (∀ (s : State) (d : Nat) (r : Record) (l : Lease), s.lease r.lkey = some l → r.imageOk = false → (∀ h ∈ l.holds, h = 1) →
    (s.imageCheck l.part l.kva = none → (∀ k, s.pinBad d r k = false) →
      s.vetRecord d r = (s.tookImage d l.part l.kva).modRecord d r.arrival (fun q => { q with imageOk := true })) ∧
    ∀ n, s.imageCheck l.part l.kva = some n →
      s.vetRecord d r = ((s.tookImage d l.part l.kva).dropRecord d r.arrival).notice 2 (pkPart r.packet) d n (pkLid r.packet) []) ∧
  (∀ (s : State) (die lkey : Nat) (l : Lease) (h : LeaseShare), s.lease lkey = some l → die < 8 → l.shares[die]? = some h →
    h.status = 2 → l.holds.getD die 0 ≠ 2 →
    (∀ n p d, s.part n = some p → some lkey ∈ (p.ring d).lkeys → n = l.part) →
    ∃ t, exec (.leaseFail die lkey) s = .next t ∧ ∀ d < 8, ∀ r ∈ (t.die d).store, r.lkey ≠ lkey) ∧
  (∀ (s : State) (src die lkey : Nat) (l : Lease), s.lease lkey = some l → src < 8 → die < 8 → l.records.getD src 0 = 0 →
    (src, die) ∉ l.reported →
    ∃ t, exec (.leaseShareReport src die lkey) s = .next t ∧ (t.lease lkey = none ∨ ∃ l', t.lease lkey = some l' ∧
      l'.reported = (src, die) :: l.reported ∧ l'.records = l.records ∧
      ((∀ d < 8, (d, die) ∈ l'.reported) → die < l.shares.length → (l'.shares.map (·.status)).getD die 0 = 3)))

/-- R105–R108, R126–R132, R144: crews are placed with every register 0, or wait; pinned segments. When a record waits and which crews are
stopped for it follow logs 26 and 78, and what a PINSEG refuses log 77: choices of the model. -/
def Obligations.Placement : Prop :=
  (∀ (s : State) (die c : Nat) (r : Record) (rest : List Record) (o : Offer) (cores : List Nat), die < 8 → s.failed = false →
    s.placeOrder die = r :: rest → s.offer r = some o → o.saved = [] → o.seg = none → r.stoppedCrews = [] →
    s.chooseCores die o = some (c, cores) →
    ∃ t q, exec (.crewPlace die) s = .next t ∧ q ∈ t.crews ∧ q.cid = s.nextId ∧ q.die = die ∧ q.cluster = c ∧
      q.arrival = r.arrival ∧ q.index = r.next ∧ cores.length = pkRanks r.packet ∧
      ∀ k < pkRanks r.packet, ∃ g ∈ t.gangs, g.crew = q.cid ∧ g.rank = k ∧ g.die = die ∧ g.core = cores.getD k 0 ∧
        g.part = pkPart r.packet ∧ g.kernel = o.kernel ∧ g.bundles.length ≤ o.kernel.bundles ∧ g.tl = [0, 0, 0, 0] ∧
        (∀ h ∈ g.handles, h = none) ∧ (∀ row ∈ g.acc, ∀ e ∈ row, e = 0) ∧
        ∀ b ∈ g.bundles, (∀ v ∈ b.s, v = 0) ∧ b.ycount = o.kernel.yieldMax ∧
          ∀ y ∈ b.lanes, (∀ v ∈ y.v, v = 0) ∧ (∀ v ∈ y.o, v = 0) ∧ y.p = 0 ∧ y.plane = 0) ∧
  (∀ (s : State) (die : Nat) (r : Record) (rest : List Record), die < 8 → s.failed = false → s.placeOrder die = r :: rest →
    s.tryPlace die r = none → (rest = [] ∨ s.waitedLong die r = true) →
    let vs := (s.withoutCrews (s.leaving die)).planVictims die (r :: rest)
    (vs ≠ [] ∨ r.waitSince = none) →
    exec (.crewPlace die) s = .next (vs.foldl (fun s c => s.requestStop c 0)
      (s.modRecord die r.arrival (fun q => { q with waitSince := some (q.waitSince.getD (s.devtimeOf die)) })))) ∧
  (∀ (s : State) (die : Nat) (r : Record),
    (pkClass r.packet < 2 → s.planVictims die [r] = []) ∧
    ((∃ t, s.tryPlace die r = some t) → s.planVictims die [r] = []) ∧
    ∀ o, 2 ≤ pkClass r.packet → s.tryPlace die r = none → s.offer r = some o → s.planVictims die [r] = s.chooseVictims die o) ∧
  (∀ (s : State) (die t : Nat) (r : Record) (rest : List Record), s.placeOrder die = r :: rest → r.waitSince = some t →
    t + 100000 ≤ s.devtimeOf die → (s.die die).backfillStop ≠ some r.arrival →
    exec (.backfillTimeout die) s = .next (s.modDie die (fun x => { x with backfillStop := some r.arrival }))) ∧
  (∀ (s : State) (die arrival : Nat) (r : Record), s.record die arrival = some r → pkDeadline r.packet ≠ 0 →
    pkDeadline r.packet < s.devtimeOf die → r.placedAny = false → r.lateSent = false →
    exec (.late die arrival) s = .next ((s.modRecord die r.arrival (fun q => { q with lateSent := true })).notice 6
      (pkPart r.packet) die 0 (pkLid r.packet) (leBytes 8 (pkDeadline r.packet)))) ∧
  (∀ (s : State) (die arrival part : Nat) (r : Record), s.record die arrival = none →
    (s.ringRecords die).find? (fun p => p.2.arrival == arrival) = some (part, r) → pkDeadline r.packet ≠ 0 →
    pkDeadline r.packet < s.devtimeOf die → r.placedAny = false → r.lateSent = false →
    exec (.late die arrival) s = .next ((s.modRing part die (fun q => { q with late := q.late ++ [r.arrival] })).notice 6
      part die 0 (pkLid r.packet) (leBytes 8 (pkDeadline r.packet)))) ∧
  (∀ (m : MsgId) (b : PinSet), Answers (.pinseg m b) 1
    (fun s => (s.part b.part).isSome = true ∧ b.seg < 65536 ∧ b.die < 8 ∧ b.cluster < 2 ∧ 1 ≤ b.n ∧ b.n ≤ 64 ∧ b.ps % 128 = 0 ∧
      b.ps ≤ 0x40000 ∧ s.segment b.part b.seg = none ∧ (s.segs.filter (fun g => g.part == b.part)).length < 256 ∧
      b.n ≤ (s.roomyCores b.die b.cluster b.ps).length)
    (fun s => ((List.range b.n).foldl (fun (s : State) r => s.clearPad (pinLoc b.part b.seg r) b.ps) { s with segs := s.segs ++
        [(⟨b.part, b.seg, b.die, b.cluster, b.ps, (s.roomyCores b.die b.cluster b.ps).take b.n, none, false⟩ : Segment)] }).send
      (.cores m ((s.roomyCores b.die b.cluster b.ps).take b.n)))) ∧
  (∀ (m : MsgId) (part seg : Nat) (g : Segment), Answers (.pinfree m part seg) 1
    (fun s => s.segment part seg = some g ∧ g.holder = none)
    (fun s => { s with segs := s.segs.filter (fun q => !(q.part == part && q.seg == seg)) }.reply m 0)) ∧
  (∀ (m : MsgId) (part seg h : Nat) (g : Segment), Answers (.pinfree m part seg) 1
    (fun s => s.segment part seg = some g ∧ g.holder = some h)
    (fun s => { s with segs := s.segs.map (fun (q : Segment) =>
      if q.part = part ∧ q.seg = seg then { q with freePending := true } else q) }.reply m 0))

/-- R132, R397–R399: a gang and a crew retire. -/
def Obligations.Retirement : Prop :=
  (∀ (s : State) (g : Gang) (c : Crew), s.gang g.gid = some g → s.crew g.crew = some c → g.retired = false →
    (∀ b ∈ g.bundles, b.done = true) → (∀ o ∈ s.ops, o.gid = g.gid → o.state = 4) → s.carryReady g.gid = false →
    g.scan.owes = 0 → (∀ o ∈ s.memOps, o.gid ≠ g.gid) → s.reached g = false → c.captured = false →
    ∃ t g', exec (.gangRetire g.gid) s = .next t ∧ t.gang g.gid = some g' ∧ g'.retired = true ∧ t.mem = s.mem ∧
      t.crews = s.crews ∧ ∀ o ∈ t.ops, o.gid ≠ g.gid) ∧
  (∀ (s : State) (c : Crew) (r : Record), s.crew c.cid = some c → s.crewDone c = true → s.record c.die c.arrival = some r →
    pkJc r.packet = 0 → c.seg = none → 2 ≤ r.left →
    exec (.crewRetire c.cid) s = .next { s.modRecord c.die c.arrival (fun r =>
        { r with left := r.left - 1, retired := r.retired + 1, faulted := r.faulted + if c.faulted then 1 else 0 }) with
      gangs := s.gangs.filter (fun g => g.crew != c.cid), crews := s.crews.filter (fun q => q.cid != c.cid) }) ∧
  (∀ (s : State) (c : Crew) (r : Record), s.crew c.cid = some c → s.crewDone c = true → s.record c.die c.arrival = some r →
    pkJc r.packet = 0 → c.seg = none → r.left = 1 →
    exec (.crewRetire c.cid) s = .next (({ s.modRecord c.die c.arrival (fun r =>
        { r with left := r.left - 1, retired := r.retired + 1, faulted := r.faulted + if c.faulted then 1 else 0 }) with
      gangs := s.gangs.filter (fun g => g.crew != c.cid)
      crews := s.crews.filter (fun q => q.cid != c.cid) }.dropRecord c.die c.arrival).notice 4 (pkPart r.packet) c.die 0
        (pkLid r.packet) (leBytes 4 (r.retired + 1) ++ leBytes 3 (r.faulted + if c.faulted then 1 else 0)) |>.drainAll
        (pkPart r.packet) c.die)) ∧
  (∀ (s : State) (c : Crew) (r : Record) (t : State) (old : W64), s.crew c.cid = some c → s.crewDone c = true →
    s.record c.die c.arrival = some r → pkJc r.packet ≠ 0 → 2 ≤ r.left → s.settled (vaDie (pkJc r.packet)) = true →
    s.jcApply c.die c.part (pkJc r.packet) (-1) = some (t, old) →
    ∃ u, exec (.crewRetire c.cid) s = .next u ∧ u.mem = t.mem)

/-- R69, R70, R326–R330, R370: fabric collectives: sums do not depend on their order; groups and frames; the instructions; and how an
operation ends. That a result's exact zero is +0, that an infinity or a NaN has a free integer result, and that NCONT and the flags of a
time-out away from the root are free values, is the model's choice (log 17). -/
def Obligations.Collectives : Prop :=
  (∀ (q : Int) (v : FVal), -(2 ^ 79 - 1) ≤ (wireOf q v).n.toInt ∧ (wireOf q v).n.toInt ≤ 2 ^ 79 - 1) ∧
  (∀ w : Wire, wireOfWord (Wire.word w) = w ∧ (Wire.word w).extractLsb' 0 96 = w.n ∧ (Wire.word w).extractLsb' 101 27 = 0 ∧
    [(Wire.word w).getLsbD 96, (Wire.word w).getLsbD 97, (Wire.word w).getLsbD 98, (Wire.word w).getLsbD 99, (Wire.word w).getLsbD 100] =
      [w.nan, w.pinf, w.ninf, w.ovf, w.inx]) ∧
  (∀ (c d : CollState) (n : Nat), c.contribs.Perm d.contribs → c.sums n = d.sums n) ∧
  CollIssues .collRed 0 ∧ CollIssues .collAr 1 ∧ CollIssues .collBc 2 ∧
  (∀ (m : MsgId) (part : Nat) (gid : W32) (ends idxs : List Nat), Answers (.collreg m part gid ends idxs)
    ((6 + 6 * ends.length + 255) / 256) (fun s => (s.part part).isSome = true ∧ ends.length = idxs.length)
    (fun s =>
      let c : CollGroup := ⟨part, gid, ends, idxs, ((s.group part gid).map (·.issued)).getD []⟩
      { s with groups := c :: s.groups.filter (fun (c : CollGroup) => !(c.part == part && c.gid == gid)) }.reply m 0)) ∧
  (∀ (s : State) (f : FabricFrame) (p : Nat), 8 ≤ s.phase → s.failed = false → f.die < 8 → f.port < 16 → fromPeer f →
    f.src ∉ s.revoked → f.key ∉ s.ownRevoked → s.keyOwner f.key = some p → (∃ c ∈ s.groups, c.gid = f.gid ∧ c.part = p) →
    s.ownFrame p f = false →
    exec (.fabricFrame f) s = .next (s.modColl p f.gid f.k (fun y => y.take f.body))) ∧
  (∀ (s : State) (f : FabricFrame), 8 ≤ s.phase → s.failed = false → f.die < 8 → f.port < 16 → fromPeer f →
    (s.keyOwner f.key = none ∨ f.src ∈ s.revoked ∨ f.key ∈ s.ownRevoked) → exec (.fabricFrame f) s = .next s) ∧
  (∀ (s : State) (f : FabricFrame) (p : Nat), 8 ≤ s.phase → s.failed = false → f.die < 8 → f.port < 16 → fromPeer f →
    s.keyOwner f.key = some p → (∃ c ∈ s.groups, c.gid = f.gid) → (∀ c ∈ s.groups, c.gid = f.gid → c.part ≠ p) →
    ∃ t, exec (.fabricFrame f) s = .next t ∧ t.colls = s.colls) ∧
  (∀ (s : State) (f : FabricFrame), 8 ≤ s.phase → s.failed = false → f.die < 8 → f.port < 16 → f.body = .revoked →
    ∃ t, exec (.fabricFrame f) s = .next t ∧ f.src ∈ t.revoked ∧ t.colls = s.colls ∧ ∀ e ∈ s.revoked, e ∈ t.revoked) ∧
  (∀ (s : State) (f : FabricFrame), 8 ≤ s.phase → s.failed = false → f.die < 8 → f.port < 16 → f.body = .keyRevoked →
    ∃ t, exec (.fabricFrame f) s = .next t ∧ f.key ∈ t.ownRevoked ∧ t.colls = s.colls ∧ ∀ e ∈ s.ownRevoked, e ∈ t.ownRevoked) ∧
  (∀ (s : State) (o : EngOp) (r n : Nat) (ovf inx : Bool) (bs : List Byte), s.Collecting o → o.pos ≠ 0 → o.state = 1 →
    s.devtimeOf o.site.2.1 < o.time + 1000 * o.coll.tmo → (s.coll o.site.1 o.coll.gid o.pos).outcome = some (r, ovf, inx, n, bs) →
    exec (.collComplete o.id) s = .next (s.finishColl o r ovf inx n bs)) ∧
  (∀ (s : State) (o : EngOp), s.collOp o.id = some o → o.pos = 0 →
    exec (.collComplete o.id) s = .next (s.finishColl o 5 false false 0 [])) ∧
  (∀ (s : State) (o : EngOp), s.Collecting o → o.time + 1000 * o.coll.tmo ≤ s.devtimeOf o.site.2.1 →
    let c := s.coll o.site.1 o.coll.gid o.pos
    let r := if s.fencedParts c = [] ∧ s.keyRevoked o.site.1 = false then 2 else 3
    (s.rootHere o = true → exec (.collTimeout o.id) s = .next (s.finishColl o r (c.contribs.any (fun q => q.2.2.1.any (·.ovf)))
      (c.contribs.any (fun q => q.2.2.1.any (·.inx))) c.contribs.length [])) ∧
    (s.rootHere o = false → ∃ ovf inx n, exec (.collTimeout o.id) s = .next (s.draw.2.draw.2.finishColl o r ovf inx n []))) ∧
  (∀ (s : State) (part die k : Nat) (gid : W32) (h : CollShape), (s.coll part gid k).outcome = none → s.keyRevoked part = false →
    s.goneParts (s.coll part gid k) = [] → (∀ p ∈ (s.coll part gid k).contribs, p.2.1 = h) →
    ((s.coll part gid k).contribs.map (·.1)).Nodup → h.root ∈ (s.coll part gid k).contribs.map (·.1) →
    (s.coll part gid k).contribs.length = h.npart + 1 → h.fn ≠ 2 →
    let c := s.coll part gid k
    ∃ bs, ((s.decideColl part die gid k).coll part gid k).outcome =
        some (0, c.contribs.any (fun p => p.2.2.1.any (·.ovf)), c.contribs.any (fun p => p.2.2.1.any (·.inx)), h.npart + 1, bs) ∧
      bs.length = h.nelem * collSize h.dfmt ∧
      ∀ i < h.nelem, ∀ v, collGives h ((c.sums h.nelem).getD i wireZero) = some v →
        (bs.drop (i * collSize h.dfmt)).take (collSize h.dfmt) = leBytes (collSize h.dfmt) v) ∧
  (∀ (s : State) (part die k : Nat) (gid : W32), (s.coll part gid k).outcome = none → s.keyRevoked part = false →
    s.goneParts (s.coll part gid k) = [] →
    (∃ p ∈ (s.coll part gid k).contribs, ∃ q ∈ (s.coll part gid k).contribs, p.2.1 ≠ q.2.1) →
    let c := s.coll part gid k
    ((s.decideColl part die gid k).coll part gid k).outcome = some (4, c.contribs.any (fun p => p.2.2.1.any (·.ovf)),
      c.contribs.any (fun p => p.2.2.1.any (·.inx)), c.contribs.length, [])) ∧
  (∀ (s : State) (o : EngOp) (n : Nat) (ovf inx : Bool) (bs : List Byte) (rs : List (Nat × Nat)), o.coll.writes = true →
    bs.length = o.coll.shape.nelem * collSize o.coll.shape.dfmt → s.watching = false →
    s.runs o.site.1 1 (o.par 4) bs.length = some rs →
    s.finishColl o 0 ovf inx n bs = ((((s.useRange o.site.2.1 o.site.1 0 (o.par 4) bs.length).writeRuns none rs bs).hearRange
      o.site.2.1 (o.par 4)).collStatus o 0 ovf inx n).endColl o)

/-- R351, R391–R393: the debug instructions read and write the state of halted gangs, step, resume and halt them; in user mode
each raises PRIV 1; and a requested halt falls. That a whole gang has no items, that dbg.hstep and dbg.hresume of a lane that is not detached
answer NOTHALTED, and what a target that does not exist leaves in a pair is the model's choice (logs 55 and 20). -/
def Obligations.Debugging : Prop :=
  (∀ (w : XWord) (t : DbgTarget), DebugGives (.dbgHread w) .pair .scalar .unused w
    (fun x s => s.targetOf x w = some t ∧ itemOk t (x.s w.b9.toNat) = true) noEffect
    (fun x _ b => (b.writeS w.d9.toNat (t.read (x.s w.b9.toNat))).writeS (w.d9.toNat + 1) 0)) ∧
  (∀ (w : XWord) (t : DbgTarget), DebugGives (.dbgHread w) .pair .scalar .unused w
    (fun x s => s.targetOf x w = some t ∧ itemOk t (x.s w.b9.toNat) = false) noEffect
    (fun _ _ b => b.writeS (w.d9.toNat + 1) 3)) ∧
  (∀ w : XWord, DebugGives (.dbgHread w) .pair .scalar .unused w (fun x s => s.targetOf x w = none) noEffect
    (fun _ _ b => b.writeS (w.d9.toNat + 1) 1)) ∧
  (∀ (w : XWord) (t : DbgTarget) (n : Nat), DebugGives (.dbgHwrite w) .scalar .scalar .scalar w
    (fun x s => s.targetOf x w = some t ∧ itemOk t (x.s w.b9.toNat) = true ∧
      (x.sn w.b9.toNat) % 256 ∈ [0, 1, 3, 4, 5, 6, 8] ∧ n = x.sn w.b9.toNat / 256 % 256 ∧
      ¬ (x.sn w.b9.toNat % 256 = 4 ∧ n = 0) ∧ t.halted = true ∧ t.valueOk (x.sn w.b9.toNat % 256) (x.sn w.c9.toNat) = true)
    (fun x s => s.modBundle t.g.gid t.bundle (fun b => b.writeItem (x.sn w.b9.toNat % 256) n (t.lane.getD 0) (x.sn w.c9.toNat)))
    (fun _ _ b => b.writeS w.d9.toNat 0)) ∧
  (∀ (w : XWord) (t : DbgTarget), DebugGives (.dbgHwrite w) .scalar .scalar .scalar w
    (fun x s => s.targetOf x w = some t ∧ itemOk t (x.s w.b9.toNat) = true ∧
      x.sn w.b9.toNat % 256 ∈ [0, 1, 3, 5, 6, 8] ∧ t.halted = false) noEffect (fun _ _ b => b.writeS w.d9.toNat 2)) ∧
  (∀ (w : XWord) (t : DbgTarget), DebugGives (.dbgHstep w) .scalar .unused .unused w
    (fun x s => s.targetOf x w = some t ∧ t.lane = none ∧ (∀ b ∈ t.bundles, ∀ q ∈ b.liveSubs, q.stepping = false) ∧
      ∃ b ∈ t.bundles, ∃ q ∈ b.liveSubs, q.halted = true ∧ q.slices.any b.isDetached = false)
    (fun _ s => s.modTarget t (fun b q => if !(q.slices.any b.isDetached) && q.halted then { q with stepping := true } else q))
    (fun _ _ b => b.writeS w.d9.toNat 0)) ∧
  (∀ (w : XWord) (t : DbgTarget), DebugGives (.dbgHresume w) .scalar .unused .unused w
    (fun x s => s.targetOf x w = some t ∧ t.lane = none ∧ ∃ q ∈ t.subs, q.halted = true)
    (fun _ s => s.release t (fun _ _ => true)) (fun _ _ b => b.writeS w.d9.toNat 0)) ∧
  (∀ (w : XWord) (t : DbgTarget) (l : Nat),
    DebugGives (.dbgHstep w) .scalar .unused .unused w
      (fun x s => s.targetOf x w = some t ∧ t.lane = some l ∧ t.detached = false) noEffect (fun _ _ b => b.writeS w.d9.toNat 2) ∧
    DebugGives (.dbgHresume w) .scalar .unused .unused w
      (fun x s => s.targetOf x w = some t ∧ t.lane = some l ∧ t.detached = false) noEffect (fun _ _ b => b.writeS w.d9.toNat 2)) ∧
  (∀ (w : XWord) (t : DbgTarget), DebugGives (.dbgHstat w) .pair .unused .unused w
    (fun x s => s.targetOf x w = some t ∧ t.subs ≠ [] ∧ ∀ q ∈ t.subs, q.halted = true ∧ q.stepping = false) noEffect
    (fun _ _ b => (b.writeS w.d9.toNat (BitVec.ofNat 64 (1 + t.b.detachedCount * 4))).writeS (w.d9.toNat + 1)
      (BitVec.ofNat 64 (listMask ((List.range t.b.lanes.length).filter (fun l => match t.b.subOf l with
        | some q => q.stands && (match t.b.lanes[l]? with | some y => !y.exited | none => false)
        | none => false)))))) ∧
  (∀ (w : XWord) (h : PendingHalt), DebugGives (.dbgHalt w) .scalar .unused .unused w
    (fun x s => (∀ i n, x.q.wait ≠ .halting i n) ∧ s.dbgHalt x.g.part x.g.die (x.s w.a9.toNat) none = .ok h ∧
      ∀ q ∈ s.haltTargets h, s.haltable q = true)
    (fun _ s => { s with nextId := s.nextId + 1 }.performHalt h) (fun _ _ b => b.writeS w.d9.toNat 0)) ∧
  (∀ (w : XWord) (h : PendingHalt), Waits (.dbgHalt w) (opForm .scalar .scalar .unused .unused true (w.m6 = 0 && w.nwb = 0 && w.imm = 0)) w
    (fun x s => s.isPrivileged x.g.part = true ∧ (∀ i n, x.q.wait ≠ .halting i n) ∧
      s.dbgHalt x.g.part x.g.die (x.s w.a9.toNat) none = .ok h ∧ ∃ q ∈ s.haltTargets h, s.haltable q = false)
    (fun _ s => { s with nextId := s.nextId + 1, halts := s.halts ++ [h] }) (fun _ _ => .halting h.id 0)) ∧
  (∀ (w : XWord) (i n : Nat), DebugGives (.dbgHalt w) .scalar .unused .unused w
    (fun x s => x.q.wait = .halting i n ∧ ∀ h ∈ s.halts, h.id ≠ i) noEffect (fun _ _ b => b.writeS w.d9.toNat (BitVec.ofNat 64 n))) ∧
  (∀ (s : State) (part die : Nat) (n : W64) (t : DbgTarget) (r : Option MsgId), s.dbgTarget part die n = some t →
    t.lane = none → t.whole = false → t.subs ≠ [] → t.halted = false →
    ∃ h, s.dbgHalt part die n r = .ok h ∧ h.gid = t.g.gid ∧ h.bundle = t.bundle ∧ h.level = 2 ∧ h.reply = r) ∧
  (∀ (s : State) (h : PendingHalt), s.halts.find? (fun y => y.id == h.id) = some h → (∀ q ∈ s.haltTargets h, s.haltable q = true) →
    (∀ r ∈ s.sxRuns, r.ev ≠ h.ev) → exec (.haltTakesEffect h.id) s = .next (s.performHalt h)) ∧
  (∀ (s t : State) (h : PendingHalt) (g : Gang) (b : Bundle),
    t = { s with halts := s.halts.filter (fun y => y.id != h.id) }.answerHalt h 0 → t.gang h.gid = some g →
    g.bundles[h.bundle]? = some b → b.done = false → h.level = 2 → h.bound = 0 →
    s.performHalt h = ((t.modBundle h.gid h.bundle (fun y => y.haltAll h.report)).notice 10 g.part g.die 0
      (t.lidOf g.crew) h.report).keepHalt h) ∧
  (∀ w : XWord, PrivilegedOnly (.dbgHread w) ∧ PrivilegedOnly (.dbgHwrite w) ∧ PrivilegedOnly (.dbgHstep w) ∧
    PrivilegedOnly (.dbgHresume w) ∧ PrivilegedOnly (.dbgHstat w) ∧ PrivilegedOnly (.dbgHalt w)) ∧
  (∀ (m : MsgId) (b : PartFlag), Answers (.attach m (some b)) 1
    (fun s => (s.part b.part).isSome = true ∧ b.value ≤ 1)
    (fun s => (s.modPart b.part (fun p => { p with session := b.value = 1 })).reply m 0)) ∧
  (∀ (m : MsgId) (part die : Nat) (d : DbgCmd), Answers (.debug m part die d) 1
    (fun s => ∀ p, s.part part = some p → p.session = false) (fun s => s.reply m 8)) ∧
  (∀ (m : MsgId) (part die : Nat) (d : DbgCmd) (p : Partition), Answers (.debug m part die d) 1
    (fun s => s.part part = some p ∧ p.session = true ∧ d.op = 0 ∧ (s.dbgRead part die d.target d.item).1 = 0)
    (fun s => s.send (.reply m 0 [(s.dbgRead part die d.target d.item).2]))) ∧
  (∀ (m : MsgId) (part die : Nat) (d : DbgCmd) (p : Partition), Answers (.debug m part die d) 1
    (fun s => s.part part = some p ∧ p.session = true ∧ d.op = 1)
    (fun s => (s.dbgWrite part die d.target d.item d.value).1.reply m (s.dbgWrite part die d.target d.item d.value).2))

/-- R378–R380, R389, R390: the watch instructions, Sextant entries and programs, and a program's run. That SXENTRY arms the entry that it
writes, with no hits counted for any gang, is the model's choice (log 56). -/
def Obligations.WatchAndSextant : Prop :=
  (∀ w : XWord, Completes (.watchSet w) false 12 (opForm .scalar .quad .unused .unused true
      (w.imm.toNat / 16 = 0 && w.m6 = 0 && w.nwb = 0)) w
    (fun x s => w.imm.toNat % 16 < 8 ∧ ((s.watchEntry x.g (w.imm.toNat % 16)).owner = none ∨
        (s.watchEntry x.g (w.imm.toNat % 16)).owner = some x.c.gid) ∧
      entryBad (entryNat (x.quad w.a9.toNat)) (some x.g.kernel) = none)
    (fun x s => s.bankWith x.g (fun n y =>
      if n = w.imm.toNat % 16 then ⟨x.quad w.a9.toNat, 0, false, some x.c.gid⟩ else y))
    (fun _ _ b => b.writeS w.d9.toNat 0)) ∧
  (∀ (w : XWord) (o : Nat), Completes (.watchSet w) false 12 (opForm .scalar .quad .unused .unused true
      (w.imm.toNat / 16 = 0 && w.m6 = 0 && w.nwb = 0)) w
    (fun x s => w.imm.toNat % 16 < 8 ∧ (s.watchEntry x.g (w.imm.toNat % 16)).owner = some o ∧ o ≠ x.c.gid) noEffect
    (fun _ _ b => b.writeS w.d9.toNat 1)) ∧
  (∀ w : XWord, Completes (.watchClr w) false 12 (opForm .unused .unused .unused .unused true
      (w.imm.toNat / 2 ^ 16 = 0 && w.m6 = 0 && w.nwb = 0)) w
    (fun _ _ => w.imm.toNat / 2 ^ 8 % 2 ^ 8 = 0)
    (fun x s => s.bankWith x.g (fun n y =>
      if w.imm.getLsbD n ∧ y.owner = some x.c.gid then { y with armed := false, owner := none } else y)) (fun _ _ b => b)) ∧
  (∀ w : XWord, Completes (.watchGet w) false 12 (opForm .quad .unused .unused .unused true
      (w.imm.toNat / 16 = 0 && w.m6 = 0 && w.nwb = 0)) w (fun _ _ => True) noEffect
    (fun x s b => b.writeQuad w.d9.toNat (s.readEntry x.g (w.imm.toNat % 16)))) ∧
  (∀ w : XWord, Completes (.watchArm w) false 12 (opForm .unused .scalar .scalar .unused true (w.imm = 0 && w.m6 = 0 && w.nwb = 0)) w
    (fun x s => x.sn w.a9.toNat < 256 ∧ x.sn w.b9.toNat < 256 ∧ s.watchPending x.c.gid x.c.bundle = false)
    (fun x s => s.bankWith x.g (fun n y => if y.owner = some x.c.gid then
      { y with armed := (y.armed || (x.s w.a9.toNat).getLsbD n) && !(x.s w.b9.toNat).getLsbD n } else y)) (fun _ _ b => b)) ∧
  (∀ (s : State) (g : Gang) (e : Nat), (8 ≤ e → s.readEntry g e = [0, 0, 0, 3 <<< 57]) ∧
    (e < 8 → (s.watchEntry g e).owner = none → s.readEntry g e = [0, 0, 0, 0]) ∧
    ∀ o, e < 8 → (s.watchEntry g e).owner = some o → o ≠ g.gid → s.readEntry g e = [0, 0, 0, 2 <<< 57]) ∧
  (∀ (m : MsgId) (part die e : Nat) (ws : List W64), Answers (.sxentry m part die e ws) 1
    (fun s => (s.part part).isSome = true ∧ die < 8 ∧ 8 ≤ e ∧ e < 16 ∧ ws.length = 4 ∧ entryBad (entryNat ws) none = none)
    (fun s => { s with sxEntries := s.sxEntries.filter (fun (y : SxEntry) => !(y.part == part && y.die == die && y.e == e)) ++
      [({ part := part, die := die, e := e, w := ws, copies := [] } : SxEntry)] }.reply m 0)) ∧
  (∀ (m : MsgId) (part die n : Nat) (ws : List W32), Answers (.sxprog m part die n ws) 1
    (fun s => (s.part part).isSome = true ∧ die < 8 ∧ n < 8 ∧ 1 ≤ ws.length ∧ ws.length ≤ 32 ∧
      ∀ k < ws.length, sxWordBad ws.length k (ws.getD k 0) = false)
    (fun s => { s with sxProgs := s.sxProgs.filter (fun (y : SxProg) => !(y.part == part && y.die == die && y.n == n)) ++
      [(⟨part, die, n, ws, List.replicate 16 0⟩ : SxProg)] }.reply m 0)) ∧
  (∀ (s : State) (r : SxRun) (p : SxProg) (read : Nat → Option W64) (f : SxState), s.sxRuns.find? (fun q => q.id == r.id) = some r →
    (∀ q ∈ s.sxRuns, q.part = r.part → q.die = r.die → q.prog = r.prog → r.id ≤ q.id) → s.settled r.die = true →
    s.sxProgs.find? (fun q => q.part == r.part && q.die == r.die && q.n == r.prog) = some p →
    (∀ va, read va = if va % 8 ≠ 0 then none else match s.readAny r.part 1 va 8 with
      | .ok b => some (BitVec.ofNat 64 (leNat b)) | .error _ => none) →
    f = sxRun read r.event p.words 0 ⟨List.replicate 8 0, p.cells, none⟩ →
    ((f.action = none ∨ f.action = some 0) → exec (.sextantProgramRun r.id) s = .next { s with
      sxRuns := s.sxRuns.filter (fun q => q.id != r.id)
      sxProgs := s.sxProgs.map (fun (q : SxProg) =>
        if q.part = r.part ∧ q.die = r.die ∧ q.n = r.prog then { q with cells := f.cells } else q) }) ∧
    ∀ a, f.action = some a → 1 ≤ a → a ≤ 3 → exec (.sextantProgramRun r.id) s = .next (State.joinHalt { s with
      sxRuns := s.sxRuns.filter (fun q => q.id != r.id)
      sxProgs := s.sxProgs.map (fun (q : SxProg) =>
        if q.part = r.part ∧ q.die = r.die ∧ q.n = r.prog then { q with cells := f.cells } else q) } r a)) ∧
  (∀ (read : Nat → Option W64) (ev : List W64) (w : W32) (x : SxState), x.g.length = 8 →
    let d := w.toNat / 16 % 8
    let a := x.g.getD (w.toNat / 128 % 8) 0
    let b := x.g.getD (w.toNat / 1024 % 8) 0
    (w.toNat % 16 = 0 → sxStep read ev w x = ({ x with g := x.g.set d (ev.getD (w.toNat / 2 ^ 13 % 16) 0) }, 0)) ∧
    (w.toNat % 16 = 1 → sxStep read ev w x = ({ x with g := x.g.set d ((w.extractLsb' 13 19).signExtend 64) }, 0)) ∧
    (w.toNat % 16 = 2 → sxStep read ev w x = ({ x with g := x.g.set d (a + b) }, 0)) ∧
    (w.toNat % 16 = 3 → sxStep read ev w x = ({ x with g := x.g.set d (a + (w.extractLsb' 13 19).signExtend 64) }, 0)) ∧
    (w.toNat % 16 = 13 → sxStep read ev w x = (x, if a.toNat < b.toNat then w.toNat / 2 ^ 13 % 32 else 0)) ∧
    (w.toNat % 16 = 14 → sxStep read ev w x = ({ x with action := some (w.toNat / 2 ^ 13 % 8) }, 0)))

/-- R351, R372, R373, R401–R405: control registers, counters and sampling. The model's choices: a PERFSET takes from its partition the
counters outside its mask, and sampling begins its rotation with the first live sub-bundle (log 20); the bits of FAULTACT above the fields
of the classes of R46 read as zero, and a write of it reaches the issuing die first and the others when it completes (log 60); the faults come before that of a spent yield
counter (log 42). -/
def Obligations.RegistersAndCounters : Prop :=
  (∀ w : XWord, Completes (.csrRd w) false 12 (opForm .named .unused .unused .unused (w.imm.toNat < 8) (w.m6 = 0 && w.nwb = 0)) w
    (fun x s => s.csrReady x) noEffect (fun x s b => b.writeS w.d9.toNat (s.csrValue x w.imm.toNat))) ∧
  (∀ w : XWord, Holds (.csrRd w) (opForm .named .unused .unused .unused (w.imm.toNat < 8) (w.m6 = 0 && w.nwb = 0)) w
    (fun x s => s.isPrivileged x.g.part = true ∧ ¬ s.quiet x) (fun _ _ => 24)) ∧
  (∀ w : XWord, Waits (.csrWrFaultact w) (opForm .unused .named .unused .unused (w.imm.toNat < 8) (w.m6 = 0 && w.nwb = 0)) w
    (fun x s => s.csrReady x ∧ x.q.charged = false)
    (fun x s => s.modPart x.g.part (fun p => { p with faultact := modNth p.faultact x.g.die (fun old =>
      (old &&& 0x030000C0) ||| (x.s w.a9.toNat &&& 0x3FFCFFFF3F)) })) (fun _ _ => .retry 26)) ∧
  (∀ w : XWord, Completes (.csrWrFaultact w) false 12 (opForm .unused .named .unused .unused (w.imm.toNat < 8) (w.m6 = 0 && w.nwb = 0)) w
    (fun x s => s.isPrivileged x.g.part = true ∧ x.q.charged = true)
    (fun x s => s.modPart x.g.part (fun p => { p with faultact := (List.range 8).foldl (fun l d => modNth l d (fun old =>
      (old &&& 0x030000C0) ||| (x.s w.a9.toNat &&& 0x3FFCFFFF3F))) p.faultact })) (fun _ _ b => b)) ∧
  CsrWrites .csrWrCecnt (fun _ _ => True)
    (fun _ x s => s.modCore x.g.die x.g.core (fun c => c.setErrors x.g.part (0, (c.errorCounts x.g.part).2))) ∧
  CsrWrites .csrWrUecnt (fun _ _ => True)
    (fun _ x s => s.modCore x.g.die x.g.core (fun c => c.setErrors x.g.part ((c.errorCounts x.g.part).1, 0))) ∧
  CsrWrites .csrWrStopreq (fun w x => x.sn w.a9.toNat ≤ 1)
    (fun w x s => if x.sn w.a9.toNat = 1 then s.requestStop x.g.crew 0 else s) ∧
  (∀ (w : XWord) (s : State) (x : Ctx), s.Issues x → s.isPrivileged x.g.part = true →
    x.passesForm (opForm .unused .named .unused .unused (w.imm.toNat < 8) (w.m6 = 0 && w.nwb = 0)) w →
    w.imm.toNat ∈ [0, 4, 5, 6] → exec (.csrWr w) s = .next (s.takeFault x.faultAt { cls := 1, sub := 37 })) ∧
  (∀ (w : XWord) (s : State) (x : Ctx), s.Issues x → s.isPrivileged x.g.part = true →
    x.passesForm (opForm .unused .named .unused .unused (w.imm.toNat < 8) (w.m6 = 0 && w.nwb = 0)) w →
    1 < x.sn w.a9.toNat → exec (.csrWrStopreq w) s = .next (s.takeFault x.faultAt { cls := 1, sub := 3 })) ∧
  (∀ w : XWord, PrivilegedOnly (.csrRd w) ∧ PrivilegedOnly (.csrWrFaultact w) ∧ PrivilegedOnly (.csrWrCecnt w) ∧
    PrivilegedOnly (.csrWrUecnt w) ∧ PrivilegedOnly (.csrWrStopreq w) ∧ PrivilegedOnly (.csrWr w)) ∧
  (∀ w : XWord, Completes (.perfRd w) false 12 (opForm .scalar .unused .unused .unused true
      (w.m6 = 0 && w.nwb = 0 && w.imm.toNat < 16)) w (fun _ _ => True) noEffect
    (fun x s b => b.writeS w.d9.toNat (if (s.die x.g.die).ctrOwner.getD w.imm.toNat none = some x.g.part then
      BitVec.ofNat 64 ((s.counter x w.imm.toNat).value + (if (s.counter x w.imm.toNat).ovf then 2 ^ 48 else 0) +
        (if (s.counter x w.imm.toNat).sel.toNat.testBit 12 then 2 ^ 49 else 0)) else 0))) ∧
  (∀ w : XWord, Completes (.perfSel w) false 12 (opForm .scalar .scalar .unused .unused true
      (w.m6 = 0 && w.nwb = 0 && w.imm.toNat < 16)) w
    (fun x s => (s.die x.g.die).ctrOwner.getD w.imm.toNat none ≠ some x.g.part ∧ s.counterMoving x.g.die w.imm.toNat = false) noEffect
    (fun _ _ b => b.writeS w.d9.toNat 1)) ∧
  (∀ w : XWord, Holds (.perfSel w) (opForm .scalar .scalar .unused .unused true
      (w.m6 = 0 && w.nwb = 0 && w.imm.toNat < 16)) w (fun x s => s.counterMoving x.g.die w.imm.toNat = true) (fun _ _ => 27)) ∧
  (∀ (w : XWord) (s : State) (x : Ctx), s.Issues x → x.inTime → x.passesForm (opForm .scalar .scalar .unused .unused true
      (w.m6 = 0 && w.nwb = 0 && w.imm.toNat < 16)) w →
    s.counterMoving x.g.die w.imm.toNat = false →
    (s.die x.g.die).ctrOwner.getD w.imm.toNat none = some x.g.part → selectorBad (x.sn w.a9.toNat) = false →
    (s.core x.g.die x.g.core).counters.length = 16 →
    ∃ t c, exec (.perfSel w) s = .next t ∧ (t.core x.g.die x.g.core).counters[w.imm.toNat]? = some c ∧ c.sel = x.s w.a9.toNat ∧
      ((x.s w.a9.toNat).getLsbD 11 = true → (x.s w.a9.toNat).getLsbD 12 = false → c.value = 0 ∧ c.ovf = false) ∧
      t.mem = s.mem ∧ t.gangs = (s.modBundle x.c.gid x.c.bundle
        (fun b => x.afterUniform s 12 false (b.writeS w.d9.toNat 0))).gangs) ∧
  (∀ (w : XWord) (s : State) (x : Ctx), s.Issues x → x.inTime → x.passesForm (opForm .scalar .scalar .unused .unused true
      (w.m6 = 0 && w.nwb = 0 && w.imm.toNat < 16)) w →
    s.counterMoving x.g.die w.imm.toNat = false →
    (s.die x.g.die).ctrOwner.getD w.imm.toNat none = some x.g.part → selectorBad (x.sn w.a9.toNat) = true →
    exec (.perfSel w) s = .next (s.takeFault x.faultAt { cls := 1, sub := 40 })) ∧
  (∀ w : XWord, Completes (.perfSamp w) false 12 (opForm .scalar .scalar .unused .unused true
      (w.m6 = 0 && w.nwb = 0 && w.imm = 0)) w
    (fun x s => x.sn w.a9.toNat ≠ 0 ∧ s.sampRing x.g.part x.g.die = none) noEffect (fun _ _ b => b.writeS w.d9.toNat 1)) ∧
  (∀ w : XWord, Completes (.perfSamp w) false 12 (opForm .scalar .scalar .unused .unused true
      (w.m6 = 0 && w.nwb = 0 && w.imm = 0)) w
    (fun x s => x.sn w.a9.toNat ≠ 0 ∧ (s.sampRing x.g.part x.g.die).isSome = true ∧
      ∀ k, 10 ≤ k → k ≤ 24 → x.sn w.a9.toNat ≠ 2 ^ k) noEffect (fun _ _ b => b.writeS w.d9.toNat 2)) ∧
  (∀ w : XWord, Completes (.perfSamp w) false 12 (opForm .scalar .scalar .unused .unused true
      (w.m6 = 0 && w.nwb = 0 && w.imm = 0)) w
    (fun x s => x.q.charged = true ∧ (s.sampRing x.g.part x.g.die).isSome = true ∧ ∃ k, 10 ≤ k ∧ k ≤ 24 ∧ x.sn w.a9.toNat = 2 ^ k)
    (fun x s =>
      let m : Sampling := ⟨x.sn w.a9.toNat, (s.die x.g.die).cycles + x.sn w.a9.toNat, 0⟩
      s.modGang x.c.gid (fun g => { g with sampling := some m })) (fun _ _ b => b.writeS w.d9.toNat 0)) ∧
  (∀ w : XWord, Waits (.perfSamp w) (opForm .scalar .scalar .unused .unused true
      (w.m6 = 0 && w.nwb = 0 && w.imm = 0)) w
    (fun x s => x.q.charged = false ∧ (s.sampRing x.g.part x.g.die).isSome = true ∧ ∃ k, 10 ≤ k ∧ k ≤ 24 ∧ x.sn w.a9.toNat = 2 ^ k)
    noEffect (fun _ _ => .retry 28)) ∧
  (∀ w : XWord, Completes (.perfSamp w) false 12 (opForm .scalar .scalar .unused .unused true
      (w.m6 = 0 && w.nwb = 0 && w.imm = 0)) w (fun x _ => x.sn w.a9.toNat = 0)
    (fun x s => s.modGang x.c.gid (fun g => { g with sampling := none })) (fun _ _ b => b.writeS w.d9.toNat 0)) ∧
  (∀ (m : MsgId) (part die : Nat) (mask : BitVec 16) (s : State), s.linkUp = true → 8 ≤ s.phase → (s.part part).isSome = true →
    die < 8 → s.dies.length = 8 → ∃ t, exec (.perfset m part die mask) s = .next t ∧ t.out = s.out ++ [.reply m 0 []] ∧
      (∀ k < 16, (t.die die).ctrOwner.getD k none = if mask.getLsbD k then some part
        else if (s.die die).ctrOwner.getD k none = some part then none else (s.die die).ctrOwner.getD k none) ∧
      (∀ k < 16, mask.getLsbD k = true → (t.die die).ctrMoved.getD k none = some (s.die die).cycles) ∧
      ∀ c ∈ t.cores, c.die = die → ∀ k < 16, mask.getLsbD k = true → k < c.counters.length → c.counters[k]? = some ⟨0, false, 0, none⟩) ∧
  (∀ (m : MsgId) (part die n k : Nat) (va : W64), Answers (.sampring m part die va n) 1
    (fun s => (s.part part).isSome = true ∧ die < 8 ∧ va.toNat % 2 ^ 16 = 0 ∧ 10 ≤ k ∧ k ≤ 20 ∧ n = 2 ^ k)
    (fun s => (s.modPart part (fun p => { p with sampRings := setNth p.sampRings die (some (va, n)) })).reply m 0)) ∧
  (∀ (s : State) (gid : Nat) (g : Gang) (m : Sampling) (ring : W64 × Nat) (p : SubAt), s.gang gid = some g →
    g.sampling = some m → s.sampRing g.part g.die = some ring → m.next ≤ (s.die g.die).cycles → g.allSubs ≠ [] →
    g.allSubs[m.rotation % g.allSubs.length]? = some p →
    let m' : Sampling := { m with next := m.next + m.interval, rotation := m.rotation + 1 }
    let t := s.modGang gid (fun g => { g with sampling := some m' })
    exec (.pcSample gid) s = .next (t.putSample g.die g.part ring (t.sampleEntry g p m.next)))

/-- R8–R17, R21: power, reset and the phases of bring-up, the link and its acknowledgements, attestation, devtime, and heat. The layout of
the bytes that are signed and of a report (log 13), the reason codes, BRINGUP 9 for the module's errors and what phase 6 fails on (log 15),
and SHA-256 and ECDSA themselves (log 86, PRESUMED) are the model's choice. -/
def Obligations.BringUp : Prop :=
  (∀ s : State, s.hbmRails = false → s.rails = false → exec .powerRailEnable s = .next { s with hbmRails := true }) ∧
  (∀ s : State, s.hbmRails = true → s.rails = false → exec .powerRailEnable s = .next { s with rails := true }) ∧
  (∀ s : State, s.rails = true → ∃ t, exec (.moduleReset true) s = .next t ∧ t.rails = true ∧ t.resetHeld = true ∧ t.phase = 0 ∧
    t.failed = false ∧ t.flash = s.flash ∧ t.roms = s.roms ∧ t.gangs = [] ∧ t.crews = [] ∧ t.link.trained = none ∧ ∀ p ∈ t.parts, p = none) ∧
  (∀ s : State, s.rails = true → s.resetHeld = true → exec (.moduleReset false) s = .next { s with resetHeld := false, phase := 1 }) ∧
  (∀ s : State, s.hbmRails = true → ∃ t, exec .powerDown s = .next t ∧ t.rails = false ∧ t.hbmRails = false ∧ t.flash = s.flash ∧
    t.gangs = [] ∧ ∀ d ∈ t.dies, d.secret = none) ∧
  (∀ (s : State) (passed : List LinkSetting), s.rails = true → s.resetHeld = false → s.failed = false → s.link.trained = none →
    (∃ y ∈ passed, settingOk y = true) →
    ∃ t x, exec (.tikelTraining passed) s = .next t ∧ t.link.trained = some x ∧ x ∈ passed ∧ settingOk x = true ∧
      (∀ y ∈ passed, settingOk y = true → y.lanes < x.lanes ∨ (y.lanes = x.lanes ∧ y.rate ≤ x.rate)) ∧
      (t.link.degraded = true ↔ ¬ (x.lanes = 4 ∧ x.rate = 100)) ∧ t.phase = max s.phase 2 ∧
      s.link.sent ++ s.link.unacked <+: t.link.sent ∧
      t.out = s.out ++ [.bringup 2 0 0 [x.order, x.polarity, x.lanes, x.rate, if t.link.degraded then 1 else 0]]) ∧
  (∀ s : State, s.rails = true → s.resetHeld = false → s.failed = false → s.link.trained = none →
    exec .trainingRetry s = .next { s with link := { s.link with retries := s.link.retries + 1 } }) ∧
  (∀ (s : State) (m : MsgId) (f : FwImage), s.linkUp = true → s.phase = 2 → s.dies.length = 8 →
    let c := s.flash.config
    let boots (d : Nat) := sha256 f.key = s.roms.getD d [] ∧ ecdsaVerify f.key f.sig (sha256 (imageBytes f)) = true ∧
      s.flash.minRecord ≤ f.version
    let configured := ecdsaVerify f.key s.flash.sig (sha256 c.bytes) = true ∧ c.minVersion = s.flash.minRecord
    let known (d : Nat) := ∃ k, Config.pufSecret d c.helper = some k ∧ c.cert.keys[d]? = some (publicKey k)
    ∃ t, exec (.firmware m f) s = .next t ∧ (t.failed = false ↔ (∀ d < 8, boots d) ∧ configured ∧ ∀ d < 8, known d) ∧
      (∀ d < 8, (boots d → (t.die d).fw = some f ∧ (t.die d).fwStatus = 1) ∧ (¬ boots d → (t.die d).fw = none ∧ (t.die d).fwStatus = 2)) ∧
      ((∃ d < 8, ¬ boots d) → t.phase = 2) ∧
      ((∀ d < 8, boots d) → (¬ configured → t.phase = 3 ∧ ∀ d < 8, (t.die d).applied = none ∧ (t.die d).cfgStatus = 2) ∧
        (configured → (∀ d < 8, (t.die d).applied = some c ∧ (t.die d).cfgStatus = 1 ∧
            (t.die d).secret = Config.pufSecret d c.helper ∧ ((t.die d).idStatus = 1 ↔ known d)) ∧
          ((∃ d < 8, ¬ known d) → t.phase = 4) ∧
          ((∀ d < 8, known d) → t.phase = 5 ∧
            ∃ pre, t.out = pre ++ (List.range 8).map (fun d => .identity d (publicKey (((t.die d).secret).getD 0)) c.cert))))) ∧
  (∀ (s : State) (m : MsgId) (n : List Byte), s.linkUp = true → n.length = 32 → s.attest.length < 4 →
    exec (.attestReq m n) s = .next { s.received 1 with attest := s.attest ++ [(m, n)] }) ∧
  (∀ (s : State) (m : MsgId) (n : List Byte) (rest : List (MsgId × List Byte)) (f : FwImage), s.linkUp = true → 5 ≤ s.phase →
    s.attest = (m, n) :: rest → (s.die 0).fw = some f → exec .attestReport s =
      .next ({ s with attest := rest, draws := s.draws + 1 }.send (.attest m (s.reportBody n f)
        (ecdsaSign ((s.die 0).secret.getD 0) (Config.signNonce s.draws) (sha256 (s.reportBody n f)))))) ∧
  (∀ (s : State) (offs : List Int), s.phase = 5 → s.failed = false → s.linkUp = true → offs.length = 8 → offs.head? = some 0 →
    (∀ a ∈ offs, ∀ b ∈ offs, (a - b).natAbs ≤ 4) →
    ∃ t, exec (.devtimeStart offs) s = .next t ∧ t.devRunning = true ∧ t.devtime = 0 ∧ t.phase = 6 ∧
      t.dies.map (·.devOffset) = offs.take s.dies.length ∧ t.mem = s.mem) ∧
  (∀ (s : State) (offs : List Int), s.phase = 5 → s.failed = false → s.linkUp = true → offs.length = 8 → offs.head? = some 0 →
    (∃ a ∈ offs, 64 < a.natAbs) → ∃ t, exec (.devtimeStart offs) s = .next t ∧ t.failed = true ∧ t.phase = 5) ∧
  (∀ (s : State) (die : Nat) (off : Int), s.devRunning = true → 1 ≤ die → die < 8 → off = (s.die die).devOffset →
    (s.die die).lastCheck + 1000000 ≤ s.devtimeOf die →
    (off.natAbs ≤ 4 → exec (.devtimeCheck die off) s =
      .next (s.modDie die (fun d => { d with lastCheck := s.devtimeOf die }))) ∧
    (4 < off.natAbs → off.natAbs ≤ 64 → exec (.devtimeCheck die off) s =
      .next (s.modDie die (fun d => { d with lastCheck := s.devtimeOf die, slew := some (d.slew.getD 0) }))) ∧
    (64 < off.natAbs → ∃ t r, exec (.devtimeCheck die off) s = .next t ∧ t.out = s.out ++ [.bringup 9 die r [off.natAbs]])) ∧
  (∀ (d : Die) (ps ns : Nat) (r : Nat), d.slew = some r →
    (d.pass ps ns true 0).devOffset.natAbs ≤ d.devOffset.natAbs ∧
    d.devOffset - (ns : Int) ≤ (d.pass ps ns true 0).devOffset ∧
    ((d.pass ps ns true 0).devOffset - d.devOffset).natAbs ≤ (r + ns) / 1000) ∧
  (∀ s : State, s.phase = 6 → s.failed = false → s.linkUp = true → s.trainFault = none → ∃ t, exec .memoryAndFabric s = .next t ∧ t.phase = 8 ∧
    t.out = s.out ++ [.bringup 7 0 0 [], .bringup 8 0 0 []]) ∧
  (∀ (s : State) (d r : Nat), s.phase = 6 → s.failed = false → s.linkUp = true → s.trainFault = some (d, r) → ∃ t, exec .memoryAndFabric s = .next t ∧
    t.failed = true ∧ t.phase = 6 ∧ t.out = s.out ++ [.bringup 7 d r []]) ∧
  (∀ (s : State) (die : Nat), s.rails = true → s.resetHeld = false → die < 8 → die < s.dies.length → 100 < (s.die die).clock →
    ∃ t, exec (.thermalLimit die) s = .next t ∧ (t.die die).clock = (s.die die).clock - 100 ∧ t.out.length = s.out.length + 1) ∧
  (∀ (s : State) (die : Nat), s.rails = true → s.resetHeld = false → die < 8 → die < s.dies.length → (s.die die).shutdown = false →
    ∃ t, exec (.overtempShutdown die) s = .next t ∧ (t.die die).shutdown = true ∧ t.out.length = s.out.length + 1)

/-- R9, R11, R12, R113: frames, their CRC and acknowledgements, the notice layout, and messages that the module does not act on. An
ACK-only frame takes the LSN of the next frame and MSGID 0, NOT_READY names partition and die 0, and the first frame taken has LSN 0: the
model's choice (logs 24 and 3). -/
def Obligations.LinkFrames : Prop :=
  (∀ (f : TxFrame) (lsn : BitVec 16) (ack : Option (BitVec 16)), f.payload.length ≤ 256 → f.kind < 256 →
    let b := f.bytes lsn ack
    b.length = 272 ∧ crcOk b = true ∧ fieldOf b 0 16 = lsn.toNat ∧ fieldOf b 16 16 = (ack.getD 0).toNat ∧ fieldOf b 32 8 = f.kind ∧
      fieldOf b 40 8 = (if f.first then 1 else 0) + (if f.last then 2 else 0) + (if ack.isSome then 4 else 0) ∧
      fieldOf b 48 16 = f.payload.length ∧ fieldOf b 64 32 = f.msg.toNat ∧ (b.drop 12).take f.payload.length = f.payload) ∧
  (∀ (k : Nat) (m : MsgId) (body : List Byte), let fs := framesOf k m body
    fs.flatMap (·.payload) = body ∧ (∀ f ∈ fs, f.kind = k ∧ f.msg = m ∧ f.payload.length ≤ 256) ∧
      (∀ i (h : i < fs.length), (fs[i].first = true ↔ i = 0) ∧ (fs[i].last = true ↔ i + 1 = fs.length)) ∧
      fs.length = max 1 ((body.length + 255) / 256)) ∧
  (∀ (kind part die detail time : Nat) (lid : W64) (body : List Byte), kind < 256 → part < 16 → die < 8 → detail < 65536 →
    time < 2 ^ 64 → body.length ≤ 104 →
    let b := noticeBytes kind part die detail lid time body
    b.length = 128 ∧ fieldOf b 0 8 = kind ∧ fieldOf b 8 4 = part ∧ fieldOf b 12 3 = die ∧ fieldOf b 16 16 = detail ∧
      fieldOf b 64 64 = lid.toNat ∧ fieldOf b 128 64 = time ∧ b.drop 24 = body ++ List.replicate (104 - body.length) 0) ∧
  (∀ (s : State) (pre post : List (List Byte)) (f : List Byte) (lsn : BitVec 16), s.linkUp = true →
    s.link.unacked = pre ++ f :: post → lsnOf f = lsn → (∀ g ∈ pre, lsnOf g ≠ lsn) → s.link.backlog = [] →
    exec (.ack lsn true) s = .next { s with link := { s.link with unacked := post, resends := 0 } }) ∧
  (∀ (s : State) (lsn : BitVec 16), s.linkUp = true → exec (.ack lsn false) s = .next s) ∧
  (∀ s : State, s.linkUp = true → s.link.ackOwed = true →
    exec .ackOnlyTimer s = .next { s with link := { s.link with ackOwed := false, sent := s.link.sent ++
      [TxFrame.bytes { kind := 0, first := false, last := false, msg := 0, payload := [] } s.link.txLsn s.link.rxLast] } }) ∧
  (∀ s : State, s.linkUp = true → s.link.unacked ≠ [] →
    (s.link.resends < 16 → exec .resendTimeout s = .next { s with link := { s.link with
      sent := s.link.sent ++ s.link.unacked, resends := s.link.resends + 1 } }) ∧
    (16 ≤ s.link.resends → ∃ t, exec .resendTimeout s = .next t ∧ t.link.trained = none ∧ t.link.unacked = s.link.unacked)) ∧
  (∀ (s : State) (f : List Byte) (rest : List (List Byte)), s.linkUp = true → s.arriving = f :: rest →
    (crcOk f = false ∨ lsnOf f ≠ s.link.nextRx) →
    exec .frameCrcFail s = .next { s with link := { s.link with ackOwed := s.link.ackOwed || crcOk f }, arriving := rest }) ∧
  (∀ (s : State) (f : TxFrame) (rest : List (List Byte)), s.linkUp = true → f.payload.length ≤ 256 → f.kind < 256 → f.kind ≠ 0 →
    s.arriving = f.bytes s.link.nextRx none :: rest →
    let body := (if f.first then [] else s.link.rxBody) ++ f.payload
    (f.last = false → ∃ t, s.receive = .next t ∧ t.arriving = rest ∧ t.link.rxLast = some s.link.nextRx ∧ t.link.ackOwed = true ∧
      t.link.rxBody = body ∧ t.out = s.out) ∧
    (f.last = true → f.kind = 1 → body.length ≤ 256 → ∃ t, s.receive = exec (.launch f.msg (fitBytes 256 body)) t ∧ t.arriving = rest ∧
      (t.received 1).link.rxLast = some s.link.nextRx ∧ t.parts = s.parts ∧ t.phase = s.phase ∧ t.out = s.out)) ∧
  (∀ (s : State) (k : Byte) (m : MsgId), s.linkUp = true → (37 < k.toNat ∨ k.toNat ∈ [2, 3, 4, 7, 12, 16, 33, 36]) →
    exec (.unlistedMessage k m) s = .next ((s.received 1).reply m 0xFFFF)) ∧
  (∀ (s : State) (m : MsgId) (p : List Byte), s.linkUp = true → s.phase < 8 →
    exec (.launch m p) s = .next ((s.received 1).notice 1 0 0 0 (pkLid p) [])) ∧
  (∀ (l : Link) (k : Nat) (b : List Byte), l.trained.isSome = true → l.backlog = [] →
    l.unacked.length + (framesOf k l.txMsg b).length ≤ 1024 →
    (l.post k b).unacked.length = l.unacked.length + (framesOf k l.txMsg b).length ∧ (l.post k b).backlog = [] ∧
      (l.post k b).txMsg = l.txMsg + 1 ∧
      ∃ fs, (l.post k b).sent = l.sent ++ fs ∧ (l.post k b).unacked = l.unacked ++ fs ∧
        fs.map lsnOf = (List.range fs.length).map (fun i => l.txLsn + BitVec.ofNat 16 i)) ∧
  (∀ l : Link, l.unacked.length ≤ 1024 → (∀ k b, (l.post k b).unacked.length ≤ 1024) ∧ ∀ n, (l.acked n).unacked.length ≤ 1024)

/-- R18, R99, R102, R114, R351, R369, R408: partitions, their attributes, rings and resets. The model's choices: a new partition is a user
partition (log 6), the lowest of several PARTSET statuses is answered (log 33), and a reset that is late is told by BRINGUP 9 (log 15). -/
def Obligations.Partitions : Prop :=
  (∀ (m : MsgId) (b : PartSet), Answers (.partset m (some b)) 1
    (fun s => partSetOk b = true ∧ s.otherQuotas b.part + b.quota ≤ 7936 ∧ s.part b.part = none ∧
      ∀ p q, s.part p = some q → q.key ≠ b.key)
    (fun s => { s with parts := s.parts.set b.part (some (createPartition b)) }.reply m 0)) ∧
  (∀ b : PartSet, (createPartition b).privileged = false ∧ (createPartition b).session = false ∧
    (createPartition b).resetting = none ∧ (createPartition b).lseq = 0 ∧ (∀ v ∈ (createPartition b).fseq, v = 0) ∧
    ∀ die < 8, ∀ c, 1 ≤ c → c ≤ 0x13 → disposition (createPartition b) die c = if c = 4 then 1 else 0) ∧
  (∀ (m : MsgId) (b : PartSet) (p : Partition), Answers (.partset m (some b)) 1
    (fun s => partSetOk b = true ∧ s.otherQuotas b.part + b.quota ≤ 7936 ∧ s.part b.part = some p ∧ p.key = b.key ∧
      p.roots = b.roots ∧ p.vlog = b.vlog ∧
      ∀ n q, s.part n = some q → ∀ d < 8, (q.ring d).count = 0)
    (fun s => (s.modPart b.part (fun p => { p with
      weights := b.weights, quota := b.quota, hbmWeight := b.hbmWeight, llcQuota := b.llcQuota })).reply m 0)) ∧
  (∀ (m : MsgId) (b : PartSet), Answers (.partset m (some b)) 1 (fun _ => partSetOk b = false) (fun s => s.reply m 1)) ∧
  (∀ (m : MsgId) (b : PartSet), Answers (.partset m (some b)) 1
    (fun s => partSetOk b = true ∧ 7936 < s.otherQuotas b.part + b.quota) (fun s => s.reply m 2)) ∧
  (∀ (m : MsgId) (b : CompassSet), Answers (.compass m (some b)) 1
    (fun s => (s.part b.part).isSome = true ∧ b.weights.length = 8 ∧ ∀ w ∈ b.weights, w < 256)
    (fun s => (s.modPart b.part (fun p => { p with weights := b.weights })).reply m 0)) ∧
  (∀ (m : MsgId) (b : PartFlag), Answers (.partattr m (some b)) 1
    (fun s => (s.part b.part).isSome = true ∧ b.value ≤ 1 ∧ ∀ g ∈ s.gangs, g.part = b.part → g.retired = true)
    (fun s => (s.modPart b.part (fun p => { p with privileged := b.value = 1 })).reply m 0)) ∧
  (∀ (m : MsgId) (b : PartFlag) (g : Gang), Answers (.partattr m (some b)) 1
    (fun s => (s.part b.part).isSome = true ∧ b.value ≤ 1 ∧ g ∈ s.gangs ∧ g.part = b.part ∧ g.retired = false)
    (fun s => s.reply m 3)) ∧
  (∀ (m : MsgId) (part die n k : Nat) (va : W64) (p : Partition), Answers (.ringset m part die va n) 1
    (fun s => part < 16 ∧ die < 8 ∧ va.toNat % 2 ^ 16 = 0 ∧ (n = 0 ∨ k ≤ 16 ∧ n = 2 ^ k) ∧ s.part part = some p ∧
      ∀ q ∈ (p.ring die).lkeys, q = none)
    (fun s => (s.modPart part (fun p => { p with rings := modNth p.rings die (fun _ => ⟨va, n, 0, 0, [], []⟩) })).reply m 0)) ∧
  (∀ (m : MsgId) (part : Nat), Answers (.partreset m (some part)) 1
    (fun s => ∃ p, s.part part = some p ∧ p.resetting = none ∧ p.resetMsgs = [])
    (fun s => s.modPart part (fun p => { p with resetting := some s.devtime, resetMsgs := p.resetMsgs ++ [m] }))) ∧
  (∀ (s : State) (die part t : Nat) (p : Partition), s.part part = some p → p.resetting = some t → die < 8 → die < s.dies.length →
    die ∉ p.resetDone → s.resettable part die = true →
    ∃ u, exec (.resetDone die part) s = .next u ∧ (∀ g ∈ u.gangs, ¬ (g.part = part ∧ g.die = die)) ∧
      (∀ r ∈ (u.die die).store, pkPart r.packet ≠ part) ∧ (∀ g ∈ u.segs, ¬ (g.part = part ∧ g.die = die)) ∧
      (∀ v ∈ u.xviews, ¬ (v.part = part ∧ v.die = die)) ∧ (∀ c ∈ u.crews, ¬ (c.part = part ∧ c.die = die)) ∧
      (p.resetDone.length = 7 → ∀ q, u.part part = some q → q.resetting = none ∧ q.lseq = 0 ∧ q.resetMsgs = [])) ∧
  (∀ (s : State) (die part t : Nat) (p : Partition), s.part part = some p → p.resetting = some t → die < 8 → die ∉ p.resetDone →
    die ∉ p.resetLate → t + 1000000 ≤ s.devtime →
    ∃ u r, exec (.resetTimeout die part) s = .next u ∧ u.out = s.out ++ [.bringup 9 die r [part]]) ∧
  (∀ (s : State) (die core part : Nat), 8 ≤ s.phase → die < 8 → core < 384 → (s.part part).isSome = true →
    ∃ t, exec (.softErrorCorrected die core part) s = .next t ∧
      (t.core die core).errorCounts part = (((s.core die core).errorCounts part).1 + 1, ((s.core die core).errorCounts part).2)) ∧
  (∀ (s : State) (die part : Nat), 8 ≤ s.phase → die < 8 → (s.part part).isSome = true →
    exec (.deviceStructureError die part true) s = .next s ∧
    ∃ t, exec (.deviceStructureError die part false) s = .next t ∧ ∀ q, t.part part = some q → q.resetting.isSome = true)

/-- R12, R142, R339: the control node's reads and writes of memory, and invalidation. -/
def Obligations.ControlNodeMemory : Prop :=
  (∀ (m : MsgId) (a : MemSpan) (bs : List Byte), Answers (.memread m a) 1
    (fun s => s.spanBad a = false ∧ a.sel = 0 ∧ s.spanRead a.unit a.addr.toNat a.len = .ok bs)
    (fun s => (s.tookSpan a.unit a.addr.toNat a.len).send (.memData m 0 bs))) ∧
  (∀ (m : MsgId) (a : MemSpan), Answers (.memread m a) 1
    (fun s => s.spanBad a = false ∧ a.sel = 1 ∧ a.addr.toNat + a.len ≤ 2 ^ 37)
    (fun s => s.send (.memData m 0 (s.bytesAt (hbmLoc a.unit a.addr.toNat) a.len)))) ∧
  (∀ (m : MsgId) (a : MemSpan), Answers (.memread m a) 1 (fun s => s.spanBad a = true) (fun s => s.send (.memData m 1 []))) ∧
  (∀ (m : MsgId) (a : MemSpan) (bs : List Byte) (rs : List (Nat × Nat)), Answers (.memwrite m a bs) ((14 + bs.length + 255) / 256)
    (fun s => s.spanBad a = false ∧ a.sel = 0 ∧ bs.length = a.len ∧ vaIsXv a.addr.toNat = false ∧
      a.addr.toNat % 2 ^ 53 + a.len ≤ 2 ^ 53 ∧ s.runs a.unit 1 a.addr.toNat a.len = some rs)
    (fun s => ((s.tookSpan a.unit a.addr.toNat a.len).writeRuns none rs bs).reply m 0)) ∧
  (∀ (m : MsgId) (a : MemSpan) (bs : List Byte), Answers (.memwrite m a bs) ((14 + bs.length + 255) / 256)
    (fun s => s.spanBad a = false ∧ a.sel = 1 ∧ bs.length = a.len ∧ a.addr.toNat + a.len ≤ 2 ^ 37)
    (fun s => (s.writeHome none (hbmLoc a.unit a.addr.toNat) bs).reply m 0)) ∧
  (∀ (s : State) (die a : Nat) (bs : List Byte), Memory.wf s.mem = true →
    (s.writeHome none (hbmLoc die a) bs).bytesAt (hbmLoc die a) bs.length = bs) ∧
  (∀ (m : MsgId) (a : MemSpan) (bs : List Byte), Answers (.memwrite m a bs) ((14 + bs.length + 255) / 256)
    (fun s => s.spanBad a = true ∨ bs.length ≠ a.len) (fun s => s.reply m 1)) ∧
  (∀ (m : MsgId) (part n : Nat) (va : W64) (s : State), s.linkUp = true → 8 ≤ s.phase → va.toNat % 2 ^ 16 = 0 → 1 ≤ n →
    (s.part part).isSome = true → vaLegal va.toNat = true → (va.toNat + n * 2 ^ 16 - 1) / 2 ^ 54 = va.toNat / 2 ^ 54 →
    s.pinned part (vaDie va.toNat) va.toNat (n * 2 ^ 16) = false →
    ∃ t, exec (.invalidate m part va n) s = .next t ∧
      t.invals = s.invals ++ [⟨s.nextId, m, part, vaDie va.toNat, va, n * 2 ^ 16, []⟩] ∧ t.mem = s.mem ∧
      ∀ e ∈ (t.die (vaDie va.toNat)).tlb, e ∈ (s.die (vaDie va.toNat)).tlb ∧
        ¬ (e.part = part ∧ e.va < va.toNat + n * 2 ^ 16 ∧ va.toNat < e.va + e.size)) ∧
  (∀ (s : State) (die core : Nat) (q : InvalReq), s.invals.find? (fun y => y.id == q.id) = some q → die < 8 → core < 384 →
    (die, core) ∉ q.acks → s.drained q = true →
    ∃ t, exec (.invalAck die core q.id) s = .next t ∧ t.mem = s.mem ∧ t.gangs = s.gangs ∧
      (∀ l ∈ (t.core die core).l1, ¬ (l.part = q.part ∧ q.va.toNat ≤ l.va ∧ l.va < q.va.toNat + q.bytes)) ∧
      (q.acks.length + 1 < 3072 → t.out = s.out ∧ ∃ y ∈ t.invals, y.id = q.id ∧ y.acks = (die, core) :: q.acks) ∧
      (3072 ≤ q.acks.length + 1 → t.out = s.out ++ [.invalDone q.msg 0] ∧ ∀ y ∈ t.invals, y.id ≠ q.id)) ∧
  (∀ (s : State) (die src : Nat) (b : InvalBatch), s.batches.find? (fun y => y.dst == die && y.src == src) = some b →
    die < s.dies.length →
    ∃ t, exec (.invalBatch die src) s = .next t ∧ t.batches = s.batches.erase b ∧ t.mem = s.mem ∧ t.gangs = s.gangs ∧
      (∀ core, b.spare ≠ some (die, core) → ∀ l ∈ (t.core die core).l1, l.loc / 128 ∉ b.lines) ∧
      ((∀ o ∈ s.memOps, o.kind ≠ 1) → (t.die die).vclock = mergeClock (s.die die).vclock b.clock))

/-- R352–R358, R362: stops and dumps. That DUMP takes the oldest crew that matches, and that a stop or the end of a dump is one step, is the
model's choice (log 58). -/
def Obligations.StopsAndDumps : Prop :=
  (∀ (s : State) (m : MsgId) (part die : Nat) (lid : W64), s.linkUp = true → 8 ≤ s.phase → (s.part part).isSome = true → die < 8 →
    (s.crews.map (·.cid)).Nodup →
    ∃ t, exec (.preempt m part die lid) s = .next t ∧ t.out = s.out ++ [.reply m 0 []] ∧ t.mem = s.mem ∧ t.gangs = s.gangs ∧
      t.crews = s.crews.map (fun c => if c.part = part ∧ c.die = die ∧ s.lidOf c.cid = lid then
        { c with stop := some (c.stop.getD 0) } else c)) ∧
  (∀ (s : State) (m : MsgId) (part die : Nat) (p : Partition), s.linkUp = true → 8 ≤ s.phase → s.part part = some p → die < 8 →
    (s.crews.map (·.cid)).Nodup →
    ∃ t, exec (.wswitch m part die) s = .next t ∧ t.out = s.out ++ [.reply m 0 []] ∧
      t.part part = some { p with held := setNth p.held die true } ∧
      t.crews = s.crews.map (fun c => if c.part = part ∧ c.die = die then { c with stop := some (max 1 (c.stop.getD 0)) } else c)) ∧
  (∀ (m : MsgId) (part die : Nat), Answers (.wresume m part die) 1 (fun s => (s.part part).isSome = true ∧ die < 8)
    (fun s => (s.modPart part (fun p => { p with held := setNth p.held die false })).reply m 0)) ∧
  (∀ (s s1 : State) (c : Crew) (r : Record) (why k : Nat), s.crew c.cid = some c → c.stop = some why →
    s.record c.die c.arrival = some r → s.mayStop c = true → c.die < s.dies.length →
    s.allocSlot c.die c.part (pkSave r.packet) (s.crewBlocks c why 0 (fun _ => [])).2 = some (some (k, s1)) →
    ∃ t r', exec (.stopSave c.cid) s = .next t ∧ (∀ g ∈ t.gangs, g.crew ≠ c.cid) ∧
      t.crews = s.crews.filter (fun q => q.cid != c.cid) ∧ t.record c.die c.arrival = some r' ∧
      r'.stoppedCrews = r.stoppedCrews ++ [(c.index, k, c.faulted)] ∧ r'.left = r.left) ∧
  (∀ (s : State) (c : Crew) (r : Record), s.crew c.cid = some c → s.record c.die c.arrival = some r → s.mayStop c = true →
    (c.stop = some 0 → s.allocSlot c.die c.part (pkSave r.packet) (s.crewBlocks c 0 0 (fun _ => [])).2 = some none →
      exec (.stopSave c.cid) s = .next (s.cancelStop c.cid)) ∧
    (c.stop = some 1 → s.allocSlot c.die c.part (pkSave r.packet) (s.crewBlocks c 1 0 (fun _ => [])).2 = some none →
      exec (.stopSave c.cid) s = .next (s.faultCrew c.cid { cls := 0x0A, sub := 3 })) ∧
    ∀ why, c.stop = some why → s.allocSlot c.die c.part (pkSave r.packet) (s.crewBlocks c why 0 (fun _ => [])).2 = none →
      exec (.stopSave c.cid) s = .next (s.faultCrew c.cid { cls := 5, sub := 2, addr := pkSave r.packet })) ∧
  (∀ (m : MsgId) (part die idx : Nat) (lid : W64) (c : Crew), Answers (.dump m part die lid idx) 1
    (fun s => s.crews.find? (fun c => c.part == part && c.die == die && c.index == idx && s.lidOf c.cid == lid) = some c ∧
      c.dump = none ∧ c.dumpSlot = none)
    (fun s => s.modCrew c.cid (fun c => { c with dump := some m }))) ∧
  (∀ (m : MsgId) (part die idx : Nat) (lid : W64), Answers (.dump m part die lid idx) 1
    (fun s => ∀ c ∈ s.crews, ¬ (c.part = part ∧ c.die = die ∧ c.index = idx ∧ s.lidOf c.cid = lid)) (fun s => s.reply m 1)) ∧
  (∀ (s s1 : State) (c : Crew) (r : Record) (m : MsgId) (k : Nat), s.crew c.cid = some c → c.dump = some m →
    s.record c.die c.arrival = some r → s.mayDump c = true →
    s.allocSlot c.die c.part (pkSave r.packet) (s.crewBlocks c 2 0 (fun g => s.pendList g.gid)).2 = some (some (k, s1)) →
    ∃ t c', exec (.dumpDone c.cid) s = .next t ∧ t.crew c.cid = some c' ∧ c'.dump = none ∧ c'.dumpSlot = some k ∧
      t.out.getLast? = some (.dumpDone m 0 k) ∧
      ∀ g ∈ s.gangsOf c.cid, ∀ o ∈ s.unperformed g.gid, o.id ∈ c'.held ∧ ∀ p ∈ t.memOps, p.id = o.id → p.held = true) ∧
  (∀ (s : State) (c : Crew) (r : Record) (m : MsgId), s.crew c.cid = some c → c.dump = some m →
    s.record c.die c.arrival = some r → s.mayDump c = true →
    s.allocSlot c.die c.part (pkSave r.packet) (s.crewBlocks c 2 0 (fun g => s.pendList g.gid)).2 = some none →
    exec (.dumpDone c.cid) s = .next (((((s.haltCrew c).performAll ((s.memOps.filter (fun o =>
        ((s.gangsOf c.cid).flatMap (fun g => (s.unperformed g.gid).map (·.id))).contains o.id)).map (·.id))).unhaltCrew
      { c with kept := s.haltedSubs c.cid }).modCrew c.cid (fun c => { c with dump := none })).send (.dumpDone m 1 0))) ∧
  (∀ (m : MsgId) (c : Crew) (r : Record) (k : Nat), Answers (.dumpRelease m c.cid true) 1
    (fun s => s.crew c.cid = some c ∧ c.dumpSlot = some k ∧ s.record c.die c.arrival = some r)
    (fun s => ((((s.performAll c.held).putSlot c.die c.part (pkSave r.packet) k false).modCrew c.cid (fun c =>
      { c with dumpSlot := none, held := [], kept := [] })).unhaltCrew c).reply m 0)) ∧
  (∀ (m : MsgId) (c : Crew) (r : Record) (k : Nat), Answers (.dumpRelease m c.cid false) 1
    (fun s => s.crew c.cid = some c ∧ c.dumpSlot = some k ∧ s.record c.die c.arrival = some r)
    (fun s => ((((s.performAll c.held).putSlot c.die c.part (pkSave r.packet) k false).modCrew c.cid (fun c =>
      { c with dumpSlot := none, held := [], kept := [] })).endCrew c.cid).reply m 0))

/-- R46, R113, R321, R363–R368: taking a fault: its record names what raised it, the notice and the next FSEQ follow, memory stays, and the
class's disposition kills the bundle and sets AB in the barriers of every gang of the crew, ends the crew, whose bundles stop at their next
instruction boundaries, or asks for a halt of the gang. -/
def Obligations.FaultEntry : Prop :=
  ∀ (s : State) (w : FaultAt) (f : FaultInfo) (g : Gang) (p : Partition), s.gang w.gid = some g → s.part g.part = some p →
    let record := faultRecord g w f (f.time.getD (s.devtimeOf g.die)) (p.fseq.getD g.die 0)
    let t := s.takeFault w f
    t.out = s.out ++ [.notice 5 g.part g.die f.cls (s.lidOf g.crew) (s.devtimeOf g.die) record] ∧ t.mem = s.mem ∧
    (t.part g.part).map (·.fseq) = some (modNth p.fseq g.die (· + 1)) ∧
    (f.cls < 256 → f.sub < 256 → w.bundle < 32 → g.rank < 64 → g.die < 8 → g.core < 512 → g.part < 16 → f.opnum < 2 ^ 64 →
      f.handle < 2 ^ 12 → f.trow < 2 ^ 16 → f.tcol < 2 ^ 16 → f.bitoff < 2 ^ 48 → f.progress < 2 ^ 32 → f.engine < 8 →
      f.plane.getD w.plane < 4 → f.lane.getD 0 < 64 → f.offset.getD w.offset < 2 ^ 32 →
      record.length = 64 ∧ fieldOf record 0 8 = f.cls ∧ fieldOf record 8 8 = f.sub ∧
      fieldOf record 16 2 = f.plane.getD w.plane ∧ fieldOf record 64 32 = f.offset.getD w.offset ∧ fieldOf record 96 5 = w.bundle ∧
      fieldOf record 101 6 = g.rank ∧ fieldOf record 107 3 = g.die ∧ fieldOf record 110 9 = g.core ∧ fieldOf record 119 4 = g.part ∧
      fieldOf record 128 64 = f.addr % 2 ^ 64 ∧ fieldOf record 448 64 = p.fseq.getD g.die 0 % 2 ^ 64) ∧
    (disposition p g.die f.cls = 0 → ∀ k, t.gang w.gid = some k → (∀ b, k.bundles[w.bundle]? = some b → b.killed = true) ∧
      (∀ n, n ≠ w.bundle → (k.bundles[n]?).map (fun b => (b.killed, b.s, b.lanes)) =
        (g.bundles[n]?).map (fun b => (b.killed, b.s, b.lanes)))) ∧
    (disposition p g.die f.cls = 0 → ∀ k ∈ t.gangs, k.crew = g.crew → ∀ r ∈ k.barriers, r.ab = true) ∧
    (disposition p g.die f.cls = 1 → ∀ k ∈ t.gangs, k.crew = g.crew → ∀ b ∈ k.bundles, b.killed = true ∨ s.bundleAtBoundary b = false) ∧
    (disposition p g.die f.cls = 1 → ∀ c, s.crew g.crew = some c →
      ∃ c', t.crew g.crew = some c' ∧ c'.ended = true ∧ c'.faulted = true ∧ c'.stop = none) ∧
    (disposition p g.die f.cls = 2 → ∃ h, t.halts = s.halts ++ [h] ∧ h.gid = g.gid ∧ h.bundle = w.bundle ∧ h.level = 3 ∧
      ∀ k, t.gang w.gid = some k → ∀ b, k.bundles[w.bundle]? = some b → b.faultRec = record) ∧
    (f.cls = 4 → disposition p g.die f.cls = 1) ∧ (f.cls = 0x0D → disposition p g.die f.cls = 0) ∧
    (p.session = false → disposition p g.die f.cls ≠ 2) ∧
    (1 ≤ f.cls → f.cls ≤ 0x13 → f.cls ≠ 4 → f.cls ≠ 0x0D → disposition p g.die f.cls = match bits (p.faultact.getD g.die 0).toNat (2 * (f.cls - 1)) 2 with
      | 1 => 1
      | 2 => if p.session then 2 else 0
      | _ => 0) ∧
    ∀ (b : PartSet) (c : Nat), 1 ≤ c → c ≤ 0x13 → c ≠ 4 → disposition (createPartition b) g.die c = 0

/-- R27–R42: the decoder and the encoder agree: a list of words decodes to an instruction exactly when it starts with the words
that encode it, and the rest is what follows them. -/
def Obligations.DecodeEncode : Prop :=
  ∀ (ws rest : List W32) (i : Instr),
    decodeWords ws = .ok (i, rest) ↔ wellFormed i = true ∧ encode i ≠ [] ∧ ws = encode i ++ rest

/-- Words that the spec's text spells out decode to the instructions that they stand for. -/
def Obligations.SampleWords : Prop :=
  decodeTableWord 32 0x3CE4C0C0 = some (.vaddSForm ⟨0, 0, 0, 19, 14, 15⟩) ∧
  decodeTableWord 96 0x123400614042 = some (.saddSlForm ⟨0, 0, 0, 5, 6, 0⟩ 0x1234) ∧
  decodeTableWord 96 0x402190108B21749 = some (.fmulXForm ⟨3, 1, 0, 200, 17, 257, 268, 0, 1, 0⟩) ∧
  decodeTableWord 32 0x48C028 = some (.trap ⟨0, 0, 0, 0x123, 0⟩) ∧
  decodeTableWord 96 0x140000001486430205 = some (.bra ⟨1, 0, 0, 268, 268, 0x14, 0x14⟩) ∧
  decodeTableWord 96 0x618060281004D = some (.smulhZ ⟨0, 0, 0, 4, 5, 6, 268, 1, 0, 0⟩) ∧
  decodeTableWord 96 0x1001500121808048141A1 = some (.ld ⟨0, 0, 0, 5, 9, 8, 268, 4, 0, 0x10015⟩) ∧
  decodeTableWord 96 0x400002190C0400C1C5 = some (.tbind ⟨0, 0, 0, 3, 8, 268, 268, 0, 0, 0x40⟩) ∧
  decodeTableWord 96 0x120C218010580415D = some (.fcvt ⟨0, 0, 0, 1, 11, 1, 268, 48, 8, 1⟩) ∧
  decodeTableWord 96 0x8020016190C0381002D = some (.barRed ⟨0, 0, 0, 4, 7, 268, 268, 5, 0, 0x802⟩) ∧
  decodeTableWord 160 0x4047F100000112901040C1606050101D3 = some (.cpyTileG2sCh ⟨0, 0, 0, 4, 10, 6, 11, 3, 1, 0x112901⟩ 0x4047F1000) ∧
  decodeTableWord 96 0xF000A180B050241DD = some (.scanTile ⟨0, 0, 0, 9, 10, 11, 268, 2, 0, 0xF⟩) ∧
  decodeTableWord 96 0x10006190C03C301F5 = some (.csrWrFaultact ⟨0, 0, 0, 268, 7, 268, 268, 1, 0, 1⟩) ∧
  decodeTableWord 96 0xE06028081E1 = some (.spawn ⟨0, 0, 0, 2, 5, 6, 7, 0, 0, 0⟩) ∧
  decodeTableWord 96 0x2190C020081ED = some (.watchSet ⟨0, 0, 0, 2, 4, 268, 268, 0, 0, 0⟩) ∧
  decodeTableWord 32 0x24 = some .exit

/-- R144–R149: a step whose turn is the issue of a sub-bundle runs the instruction that its bytes decode to: a uniform instruction
once, a per-lane instruction plane by plane; a fill brings the lines that a fetch waits for; then the time of the step passes,
which changes no memory, and of the gangs only the cycles of bank conflicts that they owe. -/
def Obligations.StepRunsDecoded : Prop :=
  (∀ (s s0 : State) (gid b k n : Nat) (rest : List Turn) (x : Ctx) (i : Instr), s.inputs = .issue gid b k :: rest →
    s0 = { s with inputs := rest } → s0.MayIssue gid b k x → s0.cached x → x.offset < x.g.kernel.codeLen →
    planeCheck (s0.fetched x) = none → s0.regHeld x (s0.fetched x) = false → x.b.planesOf x.q ≠ [] →
    decodeBytes (s0.bytesFor x x.lowPlane) = .ok (i, n) →
    (uniformClass (leNat (s0.bytesFor x x.lowPlane) / 4 % 128) = true →
      let c : Issuer := { x.c with plane := x.lowPlane, rest := [], first := true, words := s0.fetched x, snap := x.b.lanes, base := x.b.s }
      step s = endStep (exec i { s0 with cur := some c })) ∧
    (∀ ps, uniformClass (leNat (s0.bytesFor x x.lowPlane) / 4 % 128) = false →
      sweepPlanes x s0 (fun x' i => laneFieldCheck x'.g.kernel i) (s0.fetched x) = none → laneChecks x s0 (s0.fetched x) = none →
      passPlanes (s0.fetched x) = x.lowPlane :: ps →
      let c : Issuer := { x.c with plane := x.lowPlane, rest := ps, first := true, words := s0.fetched x, snap := x.b.lanes, base := x.b.s }
      ((memWord i).isSome = true ∨ s0.passGate { x with c := c } false (s0.fetched x) = none) →
      step s = endStep (exec i { s0 with cur := some c }))) ∧
  (∀ (s : State) (gid b k : Nat) (g : Gang) (y : Bundle) (q : Sub), s.gang gid = some g → g.bundles[b]? = some y →
    y.subs[k]? = some q → q.wait = .fetch → q.isLive = true → y.killed = false →
    ((y.planesOf q).flatMap (fun p => codeLines g p (y.offsetOf q))).length ≤ 256 →
    ∃ t, exec (.instructionCacheFill gid b k) s = .next t ∧ t.mem = s.mem ∧
      t.gangs = (s.modBundle gid b (fun y => y.modSub k (fun q => { q with wait := .retry 1 }))).gangs ∧
      ∀ p ∈ y.planesOf q, ∀ l ∈ codeLines g p (y.offsetOf q), l ∉ (s.core g.die g.core).icache →
        l ∈ (t.core g.die g.core).icache) ∧
  (∀ (s : State) (i : Instr) (rest : List Turn), s.inputs = .event i :: rest →
    step s = endStep (exec i { s with inputs := rest })) ∧
  (∀ s : State, endStep (.next s) = .next s.passTime ∧ s.passTime.mem = s.mem ∧
    s.passTime.gangs.map Gang.unconflicted = s.gangs.map Gang.unconflicted ∧
    s.passTime.tick = s.tick + 1 ∧ s.passTime.parts = s.parts ∧ s.passTime.out = s.out)

/-- R8, R18: the module after reset is in phase 0, unpowered, without partitions, launches or gangs; the model's invariant holds
there (the values that no rule gives are those of log 2 to log 9). -/
def Obligations.Reset : Prop :=
  State.reset.phase = 0 ∧ State.reset.rails = false ∧ State.reset.failed = false ∧ State.reset.devRunning = false ∧
  State.reset.link.trained = none ∧ (∀ p, State.reset.part p = none) ∧ State.reset.gangs = [] ∧ State.reset.crews = [] ∧
  State.reset.leases = [] ∧ (∀ d, (State.reset.die d).store = []) ∧ (∀ d, (State.reset.die d).arrivals = 0) ∧ State.reset.Inv

/-- R2, R8, R12, R18: every step keeps the module's invariant. -/
def Obligations.InvStep : Prop :=
  ∀ s t : State, s.Inv → step s = .next t → t.Inv
end

