-- ==== Sys2Proof/Laws/Encoding.lean ====
section
/-!
SUPPORT. Laws of the encoder and the decoder: every field of every layout comes back from the words that hold it, and the
header of a word tells its length and its major.
-/

namespace Sys2Proof.Laws

/-- A field below 2^n is what its bit vector holds. -/
theorem ofNat_toNat_of_eq (n x : Nat) (b : BitVec n) (h : x % 2 ^ n = b.toNat) : BitVec.ofNat n x = b := by
  apply BitVec.eq_of_toNat_eq
  simpa using h

theorem sWord_toNat (len op : Nat) (w : SWord) (hl : len < 4) (ho : op < 128) :
    (Encode.sWord len op w).toNat = len + 4 * op + 512 * w.pred.toNat + 4096 * w.pn.toNat + 8192 * w.nwb.toNat
      + 16384 * w.d6.toNat + 1048576 * w.a6.toNat + 67108864 * w.b6.toNat := by
  have h1 := w.pred.isLt; have h2 := w.pn.isLt; have h3 := w.nwb.isLt
  have h4 := w.d6.isLt; have h5 := w.a6.isLt; have h6 := w.b6.isLt
  simp only [Encode.sWord, BitVec.toNat_ofNat]
  omega

theorem sWord_len (len op : Nat) (w : SWord) (hl : len < 4) (ho : op < 128) :
    Decode.lenField (Encode.sWord len op w) = len := by
  simp only [Decode.lenField, sWord_toNat len op w hl ho]; omega

theorem sWord_op (len op : Nat) (w : SWord) (hl : len < 4) (ho : op < 128) :
    Decode.opField (Encode.sWord len op w) = op := by
  have h1 := w.pred.isLt
  simp only [Decode.opField, sWord_toNat len op w hl ho]; omega

theorem sWord_fields (len op : Nat) (w : SWord) (hl : len < 4) (ho : op < 128) :
    Decode.sFields (Encode.sWord len op w) = w := by
  have h1 := w.pred.isLt; have h2 := w.pn.isLt; have h3 := w.nwb.isLt
  have h4 := w.d6.isLt; have h5 := w.a6.isLt; have h6 := w.b6.isLt
  have e := sWord_toNat len op w hl ho
  cases w
  simp only [Decode.sFields, Decode.field, e, SWord.mk.injEq]
  refine ⟨?_, ?_, ?_, ?_, ?_, ?_⟩ <;> (apply ofNat_toNat_of_eq; simp only [] at *; omega)

theorem xWord0_toNat (len op : Nat) (w : XWord) (hl : len < 4) (ho : op < 128) :
    ((Encode.xWords len op w).headD 0).toNat = len + 4 * op + 512 * w.pred.toNat + 4096 * w.pn.toNat
      + 8192 * w.nwb.toNat + 16384 * w.d9.toNat + 8388608 * w.a9.toNat := by
  have h1 := w.pred.isLt; have h2 := w.pn.isLt; have h3 := w.nwb.isLt
  have h4 := w.d9.isLt; have h5 := w.a9.isLt
  simp only [Encode.xWords, List.headD_cons, BitVec.toNat_ofNat]
  omega

theorem xWords_eq (len op : Nat) (w : XWord) (hl : len < 4) (ho : op < 128) :
    ∃ w0 w1, Encode.xWords len op w = [w0, w1, w.imm] ∧ Decode.lenField w0 = len ∧ Decode.opField w0 = op ∧
      Decode.xFields w0 w1 w.imm = w := by
  have h1 := w.pred.isLt; have h2 := w.pn.isLt; have h3 := w.nwb.isLt
  have h4 := w.d9.isLt; have h5 := w.a9.isLt; have h6 := w.b9.isLt; have h7 := w.c9.isLt; have h8 := w.fn.isLt
  have h9 := w.m6.isLt
  have e := xWord0_toNat len op w hl ho
  refine ⟨_, _, rfl, ?_, ?_, ?_⟩
  · simp only [Encode.xWords, List.headD_cons] at e
    simp only [Decode.lenField, e]; omega
  · simp only [Encode.xWords, List.headD_cons] at e
    simp only [Decode.opField, e]; omega
  · simp only [Encode.xWords, List.headD_cons] at e
    cases w
    simp only [Decode.xFields, Decode.field, e, XWord.mk.injEq, BitVec.toNat_ofNat]
    refine ⟨?_, ?_, ?_, ?_, ?_, ?_, ?_, ?_, ?_, trivial⟩ <;> (apply ofNat_toNat_of_eq; simp only [] at *; omega)

theorem lit_eq (lit : W64) : ∃ lo hi, Encode.litWords lit = [lo, hi] ∧ Decode.literal lo hi = lit := by
  refine ⟨_, _, rfl, ?_⟩
  have := lit.isLt
  simp only [Decode.literal, BitVec.toNat_ofNat]
  apply ofNat_toNat_of_eq; omega

theorem braWords_eq (w : BraWord) :
    ∃ w0, Encode.braWords w = [w0, w.w1, w.w2] ∧ Decode.lenField w0 = 1 ∧ Decode.opField w0 = 1 ∧
      Decode.braFields w0 w.w1 w.w2 = w := by
  have h1 := w.pred.isLt; have h2 := w.pn.isLt; have h3 := w.nwb.isLt
  have h4 := w.d9.isLt; have h5 := w.a9.isLt
  refine ⟨_, rfl, ?_, ?_, ?_⟩
  · simp only [Decode.lenField, BitVec.toNat_ofNat]; omega
  · simp only [Decode.opField, BitVec.toNat_ofNat]; omega
  · cases w
    simp only [Decode.braFields, Decode.field, BraWord.mk.injEq, BitVec.toNat_ofNat]
    refine ⟨?_, ?_, ?_, ?_, ?_, trivial, trivial⟩ <;> (apply ofNat_toNat_of_eq; simp only [] at *; omega)

theorem trapWord_eq (w : TrapWord) :
    Decode.lenField (Encode.trapWord w) = 0 ∧ Decode.opField (Encode.trapWord w) = 10 ∧
      Decode.trapFields (Encode.trapWord w) = w := by
  have h1 := w.pred.isLt; have h2 := w.pn.isLt; have h3 := w.nwb.isLt
  have h4 := w.code.isLt; have h5 := w.rsv.isLt
  refine ⟨?_, ?_, ?_⟩
  · simp only [Encode.trapWord, Decode.lenField, BitVec.toNat_ofNat]; omega
  · simp only [Encode.trapWord, Decode.opField, BitVec.toNat_ofNat]; omega
  · cases w
    simp only [Encode.trapWord, Decode.trapFields, Decode.field, TrapWord.mk.injEq, BitVec.toNat_ofNat]
    refine ⟨?_, ?_, ?_, ?_, ?_⟩ <;> (apply ofNat_toNat_of_eq; simp only [] at *; omega)

theorem fenceWord_eq (w : FenceWord) :
    Decode.lenField (Encode.fenceWord w) = 0 ∧ Decode.opField (Encode.fenceWord w) = 13 ∧
      Decode.fenceFields (Encode.fenceWord w) = w := by
  have h1 := w.pred.isLt; have h2 := w.pn.isLt; have h3 := w.nwb.isLt
  have h4 := w.ord.isLt; have h5 := w.scope.isLt; have h6 := w.kind.isLt; have h7 := w.rsv.isLt
  refine ⟨?_, ?_, ?_⟩
  · simp only [Encode.fenceWord, Decode.lenField, BitVec.toNat_ofNat]; omega
  · simp only [Encode.fenceWord, Decode.opField, BitVec.toNat_ofNat]; omega
  · cases w
    simp only [Encode.fenceWord, Decode.fenceFields, Decode.field, FenceWord.mk.injEq, BitVec.toNat_ofNat]
    refine ⟨?_, ?_, ?_, ?_, ?_, ?_, ?_⟩ <;> (apply ofNat_toNat_of_eq; simp only [] at *; omega)

theorem pairWords_eq (w : PairWord) :
    ∃ w0 w1 w2, Encode.pairWords w = [w0, w1, w2] ∧ Decode.lenField w0 = 1 ∧ Decode.opField w0 = 127 ∧
      Decode.pairFields w0 w1 w2 = w := by
  have h1 := w.pred.isLt; have h2 := w.pn.isLt; have h3 := w.r13.isLt; have h4 := w.hop1.isLt
  have h5 := w.nwb1.isLt; have h6 := w.d1.isLt; have h7 := w.a1.isLt; have h8 := w.b1.isLt
  have h9 := w.r49.isLt; have h10 := w.hop2.isLt; have h11 := w.nwb2.isLt; have h12 := w.d2.isLt
  have h13 := w.a2.isLt; have h14 := w.b2.isLt; have h15 := w.r85.isLt
  refine ⟨_, _, _, rfl, ?_, ?_, ?_⟩
  · simp only [Decode.lenField, BitVec.toNat_ofNat]; omega
  · simp only [Decode.opField, BitVec.toNat_ofNat]; omega
  · cases w
    simp only [Decode.pairFields, Decode.field96, PairWord.mk.injEq, BitVec.toNat_ofNat]
    refine ⟨?_, ?_, ?_, ?_, ?_, ?_, ?_, ?_, ?_, ?_, ?_, ?_, ?_, ?_, ?_⟩ <;>
      (apply ofNat_toNat_of_eq; simp only [] at *; omega)

end Sys2Proof.Laws
end

