-- ==== Sys2Proof/Laws/State.lean ====
section
/-!
SUPPORT. What each update of the state leaves as it was: one lemma for each field and update.
-/

namespace Sys2Proof.Machine

variable (s : State)

/-! ## State.modDie -/

@[simp] theorem State.modDie_phase (d : Nat) (f : Die → Die) : (s.modDie d f).phase = s.phase := rfl
@[simp] theorem State.modDie_failed (d : Nat) (f : Die → Die) : (s.modDie d f).failed = s.failed := rfl
@[simp] theorem State.modDie_hbmRails (d : Nat) (f : Die → Die) : (s.modDie d f).hbmRails = s.hbmRails := rfl
@[simp] theorem State.modDie_rails (d : Nat) (f : Die → Die) : (s.modDie d f).rails = s.rails := rfl
@[simp] theorem State.modDie_resetHeld (d : Nat) (f : Die → Die) : (s.modDie d f).resetHeld = s.resetHeld := rfl
@[simp] theorem State.modDie_link (d : Nat) (f : Die → Die) : (s.modDie d f).link = s.link := rfl
@[simp] theorem State.modDie_flash (d : Nat) (f : Die → Die) : (s.modDie d f).flash = s.flash := rfl
@[simp] theorem State.modDie_roms (d : Nat) (f : Die → Die) : (s.modDie d f).roms = s.roms := rfl
@[simp] theorem State.modDie_devtime (d : Nat) (f : Die → Die) : (s.modDie d f).devtime = s.devtime := rfl
@[simp] theorem State.modDie_psRem (d : Nat) (f : Die → Die) : (s.modDie d f).psRem = s.psRem := rfl
@[simp] theorem State.modDie_devRunning (d : Nat) (f : Die → Die) : (s.modDie d f).devRunning = s.devRunning := rfl
@[simp] theorem State.modDie_attest (d : Nat) (f : Die → Die) : (s.modDie d f).attest = s.attest := rfl
@[simp] theorem State.modDie_out (d : Nat) (f : Die → Die) : (s.modDie d f).out = s.out := rfl
@[simp] theorem State.modDie_parts (d : Nat) (f : Die → Die) : (s.modDie d f).parts = s.parts := rfl
@[simp] theorem State.modDie_segs (d : Nat) (f : Die → Die) : (s.modDie d f).segs = s.segs := rfl
@[simp] theorem State.modDie_xviews (d : Nat) (f : Die → Die) : (s.modDie d f).xviews = s.xviews := rfl
@[simp] theorem State.modDie_groups (d : Nat) (f : Die → Die) : (s.modDie d f).groups = s.groups := rfl
@[simp] theorem State.modDie_leases (d : Nat) (f : Die → Die) : (s.modDie d f).leases = s.leases := rfl
@[simp] theorem State.modDie_invals (d : Nat) (f : Die → Die) : (s.modDie d f).invals = s.invals := rfl
@[simp] theorem State.modDie_crews (d : Nat) (f : Die → Die) : (s.modDie d f).crews = s.crews := rfl
@[simp] theorem State.modDie_gangs (d : Nat) (f : Die → Die) : (s.modDie d f).gangs = s.gangs := rfl
@[simp] theorem State.modDie_cores (d : Nat) (f : Die → Die) : (s.modDie d f).cores = s.cores := rfl
@[simp] theorem State.modDie_mem (d : Nat) (f : Die → Die) : (s.modDie d f).mem = s.mem := rfl
@[simp] theorem State.modDie_absent (d : Nat) (f : Die → Die) : (s.modDie d f).absent = s.absent := rfl
@[simp] theorem State.modDie_poison (d : Nat) (f : Die → Die) : (s.modDie d f).poison = s.poison := rfl
@[simp] theorem State.modDie_memOps (d : Nat) (f : Die → Die) : (s.modDie d f).memOps = s.memOps := rfl
@[simp] theorem State.modDie_batches (d : Nat) (f : Die → Die) : (s.modDie d f).batches = s.batches := rfl
@[simp] theorem State.modDie_ops (d : Nat) (f : Die → Die) : (s.modDie d f).ops = s.ops := rfl
@[simp] theorem State.modDie_carries (d : Nat) (f : Die → Die) : (s.modDie d f).carries = s.carries := rfl
@[simp] theorem State.modDie_remotes (d : Nat) (f : Die → Die) : (s.modDie d f).remotes = s.remotes := rfl
@[simp] theorem State.modDie_colls (d : Nat) (f : Die → Die) : (s.modDie d f).colls = s.colls := rfl
@[simp] theorem State.modDie_fabric (d : Nat) (f : Die → Die) : (s.modDie d f).fabric = s.fabric := rfl
@[simp] theorem State.modDie_revoked (d : Nat) (f : Die → Die) : (s.modDie d f).revoked = s.revoked := rfl
@[simp] theorem State.modDie_ownRevoked (d : Nat) (f : Die → Die) : (s.modDie d f).ownRevoked = s.ownRevoked := rfl
@[simp] theorem State.modDie_sxEntries (d : Nat) (f : Die → Die) : (s.modDie d f).sxEntries = s.sxEntries := rfl
@[simp] theorem State.modDie_sxProgs (d : Nat) (f : Die → Die) : (s.modDie d f).sxProgs = s.sxProgs := rfl
@[simp] theorem State.modDie_sxRuns (d : Nat) (f : Die → Die) : (s.modDie d f).sxRuns = s.sxRuns := rfl
@[simp] theorem State.modDie_halts (d : Nat) (f : Die → Die) : (s.modDie d f).halts = s.halts := rfl
@[simp] theorem State.modDie_inputs (d : Nat) (f : Die → Die) : (s.modDie d f).inputs = s.inputs := rfl
@[simp] theorem State.modDie_arriving (d : Nat) (f : Die → Die) : (s.modDie d f).arriving = s.arriving := rfl
@[simp] theorem State.modDie_trainFault (d : Nat) (f : Die → Die) : (s.modDie d f).trainFault = s.trainFault := rfl
@[simp] theorem State.modDie_cur (d : Nat) (f : Die → Die) : (s.modDie d f).cur = s.cur := rfl
@[simp] theorem State.modDie_tick (d : Nat) (f : Die → Die) : (s.modDie d f).tick = s.tick := rfl
@[simp] theorem State.modDie_draws (d : Nat) (f : Die → Die) : (s.modDie d f).draws = s.draws := rfl
@[simp] theorem State.modDie_nextId (d : Nat) (f : Die → Die) : (s.modDie d f).nextId = s.nextId := rfl

/-! ## State.modPart -/

@[simp] theorem State.modPart_phase (p : Nat) (f : Partition → Partition) : (s.modPart p f).phase = s.phase := rfl
@[simp] theorem State.modPart_failed (p : Nat) (f : Partition → Partition) : (s.modPart p f).failed = s.failed := rfl
@[simp] theorem State.modPart_hbmRails (p : Nat) (f : Partition → Partition) : (s.modPart p f).hbmRails = s.hbmRails := rfl
@[simp] theorem State.modPart_rails (p : Nat) (f : Partition → Partition) : (s.modPart p f).rails = s.rails := rfl
@[simp] theorem State.modPart_resetHeld (p : Nat) (f : Partition → Partition) : (s.modPart p f).resetHeld = s.resetHeld := rfl
@[simp] theorem State.modPart_link (p : Nat) (f : Partition → Partition) : (s.modPart p f).link = s.link := rfl
@[simp] theorem State.modPart_flash (p : Nat) (f : Partition → Partition) : (s.modPart p f).flash = s.flash := rfl
@[simp] theorem State.modPart_roms (p : Nat) (f : Partition → Partition) : (s.modPart p f).roms = s.roms := rfl
@[simp] theorem State.modPart_dies (p : Nat) (f : Partition → Partition) : (s.modPart p f).dies = s.dies := rfl
@[simp] theorem State.modPart_devtime (p : Nat) (f : Partition → Partition) : (s.modPart p f).devtime = s.devtime := rfl
@[simp] theorem State.modPart_psRem (p : Nat) (f : Partition → Partition) : (s.modPart p f).psRem = s.psRem := rfl
@[simp] theorem State.modPart_devRunning (p : Nat) (f : Partition → Partition) : (s.modPart p f).devRunning = s.devRunning := rfl
@[simp] theorem State.modPart_attest (p : Nat) (f : Partition → Partition) : (s.modPart p f).attest = s.attest := rfl
@[simp] theorem State.modPart_out (p : Nat) (f : Partition → Partition) : (s.modPart p f).out = s.out := rfl
@[simp] theorem State.modPart_segs (p : Nat) (f : Partition → Partition) : (s.modPart p f).segs = s.segs := rfl
@[simp] theorem State.modPart_xviews (p : Nat) (f : Partition → Partition) : (s.modPart p f).xviews = s.xviews := rfl
@[simp] theorem State.modPart_groups (p : Nat) (f : Partition → Partition) : (s.modPart p f).groups = s.groups := rfl
@[simp] theorem State.modPart_leases (p : Nat) (f : Partition → Partition) : (s.modPart p f).leases = s.leases := rfl
@[simp] theorem State.modPart_invals (p : Nat) (f : Partition → Partition) : (s.modPart p f).invals = s.invals := rfl
@[simp] theorem State.modPart_crews (p : Nat) (f : Partition → Partition) : (s.modPart p f).crews = s.crews := rfl
@[simp] theorem State.modPart_gangs (p : Nat) (f : Partition → Partition) : (s.modPart p f).gangs = s.gangs := rfl
@[simp] theorem State.modPart_cores (p : Nat) (f : Partition → Partition) : (s.modPart p f).cores = s.cores := rfl
@[simp] theorem State.modPart_mem (p : Nat) (f : Partition → Partition) : (s.modPart p f).mem = s.mem := rfl
@[simp] theorem State.modPart_absent (p : Nat) (f : Partition → Partition) : (s.modPart p f).absent = s.absent := rfl
@[simp] theorem State.modPart_poison (p : Nat) (f : Partition → Partition) : (s.modPart p f).poison = s.poison := rfl
@[simp] theorem State.modPart_memOps (p : Nat) (f : Partition → Partition) : (s.modPart p f).memOps = s.memOps := rfl
@[simp] theorem State.modPart_batches (p : Nat) (f : Partition → Partition) : (s.modPart p f).batches = s.batches := rfl
@[simp] theorem State.modPart_ops (p : Nat) (f : Partition → Partition) : (s.modPart p f).ops = s.ops := rfl
@[simp] theorem State.modPart_carries (p : Nat) (f : Partition → Partition) : (s.modPart p f).carries = s.carries := rfl
@[simp] theorem State.modPart_remotes (p : Nat) (f : Partition → Partition) : (s.modPart p f).remotes = s.remotes := rfl
@[simp] theorem State.modPart_colls (p : Nat) (f : Partition → Partition) : (s.modPart p f).colls = s.colls := rfl
@[simp] theorem State.modPart_fabric (p : Nat) (f : Partition → Partition) : (s.modPart p f).fabric = s.fabric := rfl
@[simp] theorem State.modPart_revoked (p : Nat) (f : Partition → Partition) : (s.modPart p f).revoked = s.revoked := rfl
@[simp] theorem State.modPart_ownRevoked (p : Nat) (f : Partition → Partition) : (s.modPart p f).ownRevoked = s.ownRevoked := rfl
@[simp] theorem State.modPart_sxEntries (p : Nat) (f : Partition → Partition) : (s.modPart p f).sxEntries = s.sxEntries := rfl
@[simp] theorem State.modPart_sxProgs (p : Nat) (f : Partition → Partition) : (s.modPart p f).sxProgs = s.sxProgs := rfl
@[simp] theorem State.modPart_sxRuns (p : Nat) (f : Partition → Partition) : (s.modPart p f).sxRuns = s.sxRuns := rfl
@[simp] theorem State.modPart_halts (p : Nat) (f : Partition → Partition) : (s.modPart p f).halts = s.halts := rfl
@[simp] theorem State.modPart_inputs (p : Nat) (f : Partition → Partition) : (s.modPart p f).inputs = s.inputs := rfl
@[simp] theorem State.modPart_arriving (p : Nat) (f : Partition → Partition) : (s.modPart p f).arriving = s.arriving := rfl
@[simp] theorem State.modPart_trainFault (p : Nat) (f : Partition → Partition) : (s.modPart p f).trainFault = s.trainFault := rfl
@[simp] theorem State.modPart_cur (p : Nat) (f : Partition → Partition) : (s.modPart p f).cur = s.cur := rfl
@[simp] theorem State.modPart_tick (p : Nat) (f : Partition → Partition) : (s.modPart p f).tick = s.tick := rfl
@[simp] theorem State.modPart_draws (p : Nat) (f : Partition → Partition) : (s.modPart p f).draws = s.draws := rfl
@[simp] theorem State.modPart_nextId (p : Nat) (f : Partition → Partition) : (s.modPart p f).nextId = s.nextId := rfl

/-! ## State.modGang -/

@[simp] theorem State.modGang_phase (g : Nat) (f : Gang → Gang) : (s.modGang g f).phase = s.phase := rfl
@[simp] theorem State.modGang_failed (g : Nat) (f : Gang → Gang) : (s.modGang g f).failed = s.failed := rfl
@[simp] theorem State.modGang_hbmRails (g : Nat) (f : Gang → Gang) : (s.modGang g f).hbmRails = s.hbmRails := rfl
@[simp] theorem State.modGang_rails (g : Nat) (f : Gang → Gang) : (s.modGang g f).rails = s.rails := rfl
@[simp] theorem State.modGang_resetHeld (g : Nat) (f : Gang → Gang) : (s.modGang g f).resetHeld = s.resetHeld := rfl
@[simp] theorem State.modGang_link (g : Nat) (f : Gang → Gang) : (s.modGang g f).link = s.link := rfl
@[simp] theorem State.modGang_flash (g : Nat) (f : Gang → Gang) : (s.modGang g f).flash = s.flash := rfl
@[simp] theorem State.modGang_roms (g : Nat) (f : Gang → Gang) : (s.modGang g f).roms = s.roms := rfl
@[simp] theorem State.modGang_dies (g : Nat) (f : Gang → Gang) : (s.modGang g f).dies = s.dies := rfl
@[simp] theorem State.modGang_devtime (g : Nat) (f : Gang → Gang) : (s.modGang g f).devtime = s.devtime := rfl
@[simp] theorem State.modGang_psRem (g : Nat) (f : Gang → Gang) : (s.modGang g f).psRem = s.psRem := rfl
@[simp] theorem State.modGang_devRunning (g : Nat) (f : Gang → Gang) : (s.modGang g f).devRunning = s.devRunning := rfl
@[simp] theorem State.modGang_attest (g : Nat) (f : Gang → Gang) : (s.modGang g f).attest = s.attest := rfl
@[simp] theorem State.modGang_out (g : Nat) (f : Gang → Gang) : (s.modGang g f).out = s.out := rfl
@[simp] theorem State.modGang_parts (g : Nat) (f : Gang → Gang) : (s.modGang g f).parts = s.parts := rfl
@[simp] theorem State.modGang_segs (g : Nat) (f : Gang → Gang) : (s.modGang g f).segs = s.segs := rfl
@[simp] theorem State.modGang_xviews (g : Nat) (f : Gang → Gang) : (s.modGang g f).xviews = s.xviews := rfl
@[simp] theorem State.modGang_groups (g : Nat) (f : Gang → Gang) : (s.modGang g f).groups = s.groups := rfl
@[simp] theorem State.modGang_leases (g : Nat) (f : Gang → Gang) : (s.modGang g f).leases = s.leases := rfl
@[simp] theorem State.modGang_invals (g : Nat) (f : Gang → Gang) : (s.modGang g f).invals = s.invals := rfl
@[simp] theorem State.modGang_crews (g : Nat) (f : Gang → Gang) : (s.modGang g f).crews = s.crews := rfl
@[simp] theorem State.modGang_cores (g : Nat) (f : Gang → Gang) : (s.modGang g f).cores = s.cores := rfl
@[simp] theorem State.modGang_mem (g : Nat) (f : Gang → Gang) : (s.modGang g f).mem = s.mem := rfl
@[simp] theorem State.modGang_absent (g : Nat) (f : Gang → Gang) : (s.modGang g f).absent = s.absent := rfl
@[simp] theorem State.modGang_poison (g : Nat) (f : Gang → Gang) : (s.modGang g f).poison = s.poison := rfl
@[simp] theorem State.modGang_memOps (g : Nat) (f : Gang → Gang) : (s.modGang g f).memOps = s.memOps := rfl
@[simp] theorem State.modGang_batches (g : Nat) (f : Gang → Gang) : (s.modGang g f).batches = s.batches := rfl
@[simp] theorem State.modGang_ops (g : Nat) (f : Gang → Gang) : (s.modGang g f).ops = s.ops := rfl
@[simp] theorem State.modGang_carries (g : Nat) (f : Gang → Gang) : (s.modGang g f).carries = s.carries := rfl
@[simp] theorem State.modGang_remotes (g : Nat) (f : Gang → Gang) : (s.modGang g f).remotes = s.remotes := rfl
@[simp] theorem State.modGang_colls (g : Nat) (f : Gang → Gang) : (s.modGang g f).colls = s.colls := rfl
@[simp] theorem State.modGang_fabric (g : Nat) (f : Gang → Gang) : (s.modGang g f).fabric = s.fabric := rfl
@[simp] theorem State.modGang_revoked (g : Nat) (f : Gang → Gang) : (s.modGang g f).revoked = s.revoked := rfl
@[simp] theorem State.modGang_ownRevoked (g : Nat) (f : Gang → Gang) : (s.modGang g f).ownRevoked = s.ownRevoked := rfl
@[simp] theorem State.modGang_sxEntries (g : Nat) (f : Gang → Gang) : (s.modGang g f).sxEntries = s.sxEntries := rfl
@[simp] theorem State.modGang_sxProgs (g : Nat) (f : Gang → Gang) : (s.modGang g f).sxProgs = s.sxProgs := rfl
@[simp] theorem State.modGang_sxRuns (g : Nat) (f : Gang → Gang) : (s.modGang g f).sxRuns = s.sxRuns := rfl
@[simp] theorem State.modGang_halts (g : Nat) (f : Gang → Gang) : (s.modGang g f).halts = s.halts := rfl
@[simp] theorem State.modGang_inputs (g : Nat) (f : Gang → Gang) : (s.modGang g f).inputs = s.inputs := rfl
@[simp] theorem State.modGang_arriving (g : Nat) (f : Gang → Gang) : (s.modGang g f).arriving = s.arriving := rfl
@[simp] theorem State.modGang_trainFault (g : Nat) (f : Gang → Gang) : (s.modGang g f).trainFault = s.trainFault := rfl
@[simp] theorem State.modGang_cur (g : Nat) (f : Gang → Gang) : (s.modGang g f).cur = s.cur := rfl
@[simp] theorem State.modGang_tick (g : Nat) (f : Gang → Gang) : (s.modGang g f).tick = s.tick := rfl
@[simp] theorem State.modGang_draws (g : Nat) (f : Gang → Gang) : (s.modGang g f).draws = s.draws := rfl
@[simp] theorem State.modGang_nextId (g : Nat) (f : Gang → Gang) : (s.modGang g f).nextId = s.nextId := rfl

/-! ## State.modCrew -/

@[simp] theorem State.modCrew_phase (c : Nat) (f : Crew → Crew) : (s.modCrew c f).phase = s.phase := rfl
@[simp] theorem State.modCrew_failed (c : Nat) (f : Crew → Crew) : (s.modCrew c f).failed = s.failed := rfl
@[simp] theorem State.modCrew_hbmRails (c : Nat) (f : Crew → Crew) : (s.modCrew c f).hbmRails = s.hbmRails := rfl
@[simp] theorem State.modCrew_rails (c : Nat) (f : Crew → Crew) : (s.modCrew c f).rails = s.rails := rfl
@[simp] theorem State.modCrew_resetHeld (c : Nat) (f : Crew → Crew) : (s.modCrew c f).resetHeld = s.resetHeld := rfl
@[simp] theorem State.modCrew_link (c : Nat) (f : Crew → Crew) : (s.modCrew c f).link = s.link := rfl
@[simp] theorem State.modCrew_flash (c : Nat) (f : Crew → Crew) : (s.modCrew c f).flash = s.flash := rfl
@[simp] theorem State.modCrew_roms (c : Nat) (f : Crew → Crew) : (s.modCrew c f).roms = s.roms := rfl
@[simp] theorem State.modCrew_dies (c : Nat) (f : Crew → Crew) : (s.modCrew c f).dies = s.dies := rfl
@[simp] theorem State.modCrew_devtime (c : Nat) (f : Crew → Crew) : (s.modCrew c f).devtime = s.devtime := rfl
@[simp] theorem State.modCrew_psRem (c : Nat) (f : Crew → Crew) : (s.modCrew c f).psRem = s.psRem := rfl
@[simp] theorem State.modCrew_devRunning (c : Nat) (f : Crew → Crew) : (s.modCrew c f).devRunning = s.devRunning := rfl
@[simp] theorem State.modCrew_attest (c : Nat) (f : Crew → Crew) : (s.modCrew c f).attest = s.attest := rfl
@[simp] theorem State.modCrew_out (c : Nat) (f : Crew → Crew) : (s.modCrew c f).out = s.out := rfl
@[simp] theorem State.modCrew_parts (c : Nat) (f : Crew → Crew) : (s.modCrew c f).parts = s.parts := rfl
@[simp] theorem State.modCrew_segs (c : Nat) (f : Crew → Crew) : (s.modCrew c f).segs = s.segs := rfl
@[simp] theorem State.modCrew_xviews (c : Nat) (f : Crew → Crew) : (s.modCrew c f).xviews = s.xviews := rfl
@[simp] theorem State.modCrew_groups (c : Nat) (f : Crew → Crew) : (s.modCrew c f).groups = s.groups := rfl
@[simp] theorem State.modCrew_leases (c : Nat) (f : Crew → Crew) : (s.modCrew c f).leases = s.leases := rfl
@[simp] theorem State.modCrew_invals (c : Nat) (f : Crew → Crew) : (s.modCrew c f).invals = s.invals := rfl
@[simp] theorem State.modCrew_gangs (c : Nat) (f : Crew → Crew) : (s.modCrew c f).gangs = s.gangs := rfl
@[simp] theorem State.modCrew_cores (c : Nat) (f : Crew → Crew) : (s.modCrew c f).cores = s.cores := rfl
@[simp] theorem State.modCrew_mem (c : Nat) (f : Crew → Crew) : (s.modCrew c f).mem = s.mem := rfl
@[simp] theorem State.modCrew_absent (c : Nat) (f : Crew → Crew) : (s.modCrew c f).absent = s.absent := rfl
@[simp] theorem State.modCrew_poison (c : Nat) (f : Crew → Crew) : (s.modCrew c f).poison = s.poison := rfl
@[simp] theorem State.modCrew_memOps (c : Nat) (f : Crew → Crew) : (s.modCrew c f).memOps = s.memOps := rfl
@[simp] theorem State.modCrew_batches (c : Nat) (f : Crew → Crew) : (s.modCrew c f).batches = s.batches := rfl
@[simp] theorem State.modCrew_ops (c : Nat) (f : Crew → Crew) : (s.modCrew c f).ops = s.ops := rfl
@[simp] theorem State.modCrew_carries (c : Nat) (f : Crew → Crew) : (s.modCrew c f).carries = s.carries := rfl
@[simp] theorem State.modCrew_remotes (c : Nat) (f : Crew → Crew) : (s.modCrew c f).remotes = s.remotes := rfl
@[simp] theorem State.modCrew_colls (c : Nat) (f : Crew → Crew) : (s.modCrew c f).colls = s.colls := rfl
@[simp] theorem State.modCrew_fabric (c : Nat) (f : Crew → Crew) : (s.modCrew c f).fabric = s.fabric := rfl
@[simp] theorem State.modCrew_revoked (c : Nat) (f : Crew → Crew) : (s.modCrew c f).revoked = s.revoked := rfl
@[simp] theorem State.modCrew_ownRevoked (c : Nat) (f : Crew → Crew) : (s.modCrew c f).ownRevoked = s.ownRevoked := rfl
@[simp] theorem State.modCrew_sxEntries (c : Nat) (f : Crew → Crew) : (s.modCrew c f).sxEntries = s.sxEntries := rfl
@[simp] theorem State.modCrew_sxProgs (c : Nat) (f : Crew → Crew) : (s.modCrew c f).sxProgs = s.sxProgs := rfl
@[simp] theorem State.modCrew_sxRuns (c : Nat) (f : Crew → Crew) : (s.modCrew c f).sxRuns = s.sxRuns := rfl
@[simp] theorem State.modCrew_halts (c : Nat) (f : Crew → Crew) : (s.modCrew c f).halts = s.halts := rfl
@[simp] theorem State.modCrew_inputs (c : Nat) (f : Crew → Crew) : (s.modCrew c f).inputs = s.inputs := rfl
@[simp] theorem State.modCrew_arriving (c : Nat) (f : Crew → Crew) : (s.modCrew c f).arriving = s.arriving := rfl
@[simp] theorem State.modCrew_trainFault (c : Nat) (f : Crew → Crew) : (s.modCrew c f).trainFault = s.trainFault := rfl
@[simp] theorem State.modCrew_cur (c : Nat) (f : Crew → Crew) : (s.modCrew c f).cur = s.cur := rfl
@[simp] theorem State.modCrew_tick (c : Nat) (f : Crew → Crew) : (s.modCrew c f).tick = s.tick := rfl
@[simp] theorem State.modCrew_draws (c : Nat) (f : Crew → Crew) : (s.modCrew c f).draws = s.draws := rfl
@[simp] theorem State.modCrew_nextId (c : Nat) (f : Crew → Crew) : (s.modCrew c f).nextId = s.nextId := rfl

/-! ## State.modBundle -/

@[simp] theorem State.modBundle_phase (g b : Nat) (f : Bundle → Bundle) : (s.modBundle g b f).phase = s.phase := rfl
@[simp] theorem State.modBundle_failed (g b : Nat) (f : Bundle → Bundle) : (s.modBundle g b f).failed = s.failed := rfl
@[simp] theorem State.modBundle_hbmRails (g b : Nat) (f : Bundle → Bundle) : (s.modBundle g b f).hbmRails = s.hbmRails := rfl
@[simp] theorem State.modBundle_rails (g b : Nat) (f : Bundle → Bundle) : (s.modBundle g b f).rails = s.rails := rfl
@[simp] theorem State.modBundle_resetHeld (g b : Nat) (f : Bundle → Bundle) : (s.modBundle g b f).resetHeld = s.resetHeld := rfl
@[simp] theorem State.modBundle_link (g b : Nat) (f : Bundle → Bundle) : (s.modBundle g b f).link = s.link := rfl
@[simp] theorem State.modBundle_flash (g b : Nat) (f : Bundle → Bundle) : (s.modBundle g b f).flash = s.flash := rfl
@[simp] theorem State.modBundle_roms (g b : Nat) (f : Bundle → Bundle) : (s.modBundle g b f).roms = s.roms := rfl
@[simp] theorem State.modBundle_dies (g b : Nat) (f : Bundle → Bundle) : (s.modBundle g b f).dies = s.dies := rfl
@[simp] theorem State.modBundle_devtime (g b : Nat) (f : Bundle → Bundle) : (s.modBundle g b f).devtime = s.devtime := rfl
@[simp] theorem State.modBundle_psRem (g b : Nat) (f : Bundle → Bundle) : (s.modBundle g b f).psRem = s.psRem := rfl
@[simp] theorem State.modBundle_devRunning (g b : Nat) (f : Bundle → Bundle) : (s.modBundle g b f).devRunning = s.devRunning := rfl
@[simp] theorem State.modBundle_attest (g b : Nat) (f : Bundle → Bundle) : (s.modBundle g b f).attest = s.attest := rfl
@[simp] theorem State.modBundle_out (g b : Nat) (f : Bundle → Bundle) : (s.modBundle g b f).out = s.out := rfl
@[simp] theorem State.modBundle_parts (g b : Nat) (f : Bundle → Bundle) : (s.modBundle g b f).parts = s.parts := rfl
@[simp] theorem State.modBundle_segs (g b : Nat) (f : Bundle → Bundle) : (s.modBundle g b f).segs = s.segs := rfl
@[simp] theorem State.modBundle_xviews (g b : Nat) (f : Bundle → Bundle) : (s.modBundle g b f).xviews = s.xviews := rfl
@[simp] theorem State.modBundle_groups (g b : Nat) (f : Bundle → Bundle) : (s.modBundle g b f).groups = s.groups := rfl
@[simp] theorem State.modBundle_leases (g b : Nat) (f : Bundle → Bundle) : (s.modBundle g b f).leases = s.leases := rfl
@[simp] theorem State.modBundle_invals (g b : Nat) (f : Bundle → Bundle) : (s.modBundle g b f).invals = s.invals := rfl
@[simp] theorem State.modBundle_crews (g b : Nat) (f : Bundle → Bundle) : (s.modBundle g b f).crews = s.crews := rfl
@[simp] theorem State.modBundle_cores (g b : Nat) (f : Bundle → Bundle) : (s.modBundle g b f).cores = s.cores := rfl
@[simp] theorem State.modBundle_mem (g b : Nat) (f : Bundle → Bundle) : (s.modBundle g b f).mem = s.mem := rfl
@[simp] theorem State.modBundle_absent (g b : Nat) (f : Bundle → Bundle) : (s.modBundle g b f).absent = s.absent := rfl
@[simp] theorem State.modBundle_poison (g b : Nat) (f : Bundle → Bundle) : (s.modBundle g b f).poison = s.poison := rfl
@[simp] theorem State.modBundle_memOps (g b : Nat) (f : Bundle → Bundle) : (s.modBundle g b f).memOps = s.memOps := rfl
@[simp] theorem State.modBundle_batches (g b : Nat) (f : Bundle → Bundle) : (s.modBundle g b f).batches = s.batches := rfl
@[simp] theorem State.modBundle_ops (g b : Nat) (f : Bundle → Bundle) : (s.modBundle g b f).ops = s.ops := rfl
@[simp] theorem State.modBundle_carries (g b : Nat) (f : Bundle → Bundle) : (s.modBundle g b f).carries = s.carries := rfl
@[simp] theorem State.modBundle_remotes (g b : Nat) (f : Bundle → Bundle) : (s.modBundle g b f).remotes = s.remotes := rfl
@[simp] theorem State.modBundle_colls (g b : Nat) (f : Bundle → Bundle) : (s.modBundle g b f).colls = s.colls := rfl
@[simp] theorem State.modBundle_fabric (g b : Nat) (f : Bundle → Bundle) : (s.modBundle g b f).fabric = s.fabric := rfl
@[simp] theorem State.modBundle_revoked (g b : Nat) (f : Bundle → Bundle) : (s.modBundle g b f).revoked = s.revoked := rfl
@[simp] theorem State.modBundle_ownRevoked (g b : Nat) (f : Bundle → Bundle) : (s.modBundle g b f).ownRevoked = s.ownRevoked := rfl
@[simp] theorem State.modBundle_sxEntries (g b : Nat) (f : Bundle → Bundle) : (s.modBundle g b f).sxEntries = s.sxEntries := rfl
@[simp] theorem State.modBundle_sxProgs (g b : Nat) (f : Bundle → Bundle) : (s.modBundle g b f).sxProgs = s.sxProgs := rfl
@[simp] theorem State.modBundle_sxRuns (g b : Nat) (f : Bundle → Bundle) : (s.modBundle g b f).sxRuns = s.sxRuns := rfl
@[simp] theorem State.modBundle_halts (g b : Nat) (f : Bundle → Bundle) : (s.modBundle g b f).halts = s.halts := rfl
@[simp] theorem State.modBundle_inputs (g b : Nat) (f : Bundle → Bundle) : (s.modBundle g b f).inputs = s.inputs := rfl
@[simp] theorem State.modBundle_arriving (g b : Nat) (f : Bundle → Bundle) : (s.modBundle g b f).arriving = s.arriving := rfl
@[simp] theorem State.modBundle_trainFault (g b : Nat) (f : Bundle → Bundle) : (s.modBundle g b f).trainFault = s.trainFault := rfl
@[simp] theorem State.modBundle_cur (g b : Nat) (f : Bundle → Bundle) : (s.modBundle g b f).cur = s.cur := rfl
@[simp] theorem State.modBundle_tick (g b : Nat) (f : Bundle → Bundle) : (s.modBundle g b f).tick = s.tick := rfl
@[simp] theorem State.modBundle_draws (g b : Nat) (f : Bundle → Bundle) : (s.modBundle g b f).draws = s.draws := rfl
@[simp] theorem State.modBundle_nextId (g b : Nat) (f : Bundle → Bundle) : (s.modBundle g b f).nextId = s.nextId := rfl

/-! ## State.setS -/

@[simp] theorem State.setS_phase (x : Ctx) (c : Nat) (v : W64) : (s.setS x c v).phase = s.phase := rfl
@[simp] theorem State.setS_failed (x : Ctx) (c : Nat) (v : W64) : (s.setS x c v).failed = s.failed := rfl
@[simp] theorem State.setS_hbmRails (x : Ctx) (c : Nat) (v : W64) : (s.setS x c v).hbmRails = s.hbmRails := rfl
@[simp] theorem State.setS_rails (x : Ctx) (c : Nat) (v : W64) : (s.setS x c v).rails = s.rails := rfl
@[simp] theorem State.setS_resetHeld (x : Ctx) (c : Nat) (v : W64) : (s.setS x c v).resetHeld = s.resetHeld := rfl
@[simp] theorem State.setS_link (x : Ctx) (c : Nat) (v : W64) : (s.setS x c v).link = s.link := rfl
@[simp] theorem State.setS_flash (x : Ctx) (c : Nat) (v : W64) : (s.setS x c v).flash = s.flash := rfl
@[simp] theorem State.setS_roms (x : Ctx) (c : Nat) (v : W64) : (s.setS x c v).roms = s.roms := rfl
@[simp] theorem State.setS_dies (x : Ctx) (c : Nat) (v : W64) : (s.setS x c v).dies = s.dies := rfl
@[simp] theorem State.setS_devtime (x : Ctx) (c : Nat) (v : W64) : (s.setS x c v).devtime = s.devtime := rfl
@[simp] theorem State.setS_psRem (x : Ctx) (c : Nat) (v : W64) : (s.setS x c v).psRem = s.psRem := rfl
@[simp] theorem State.setS_devRunning (x : Ctx) (c : Nat) (v : W64) : (s.setS x c v).devRunning = s.devRunning := rfl
@[simp] theorem State.setS_attest (x : Ctx) (c : Nat) (v : W64) : (s.setS x c v).attest = s.attest := rfl
@[simp] theorem State.setS_out (x : Ctx) (c : Nat) (v : W64) : (s.setS x c v).out = s.out := rfl
@[simp] theorem State.setS_parts (x : Ctx) (c : Nat) (v : W64) : (s.setS x c v).parts = s.parts := rfl
@[simp] theorem State.setS_segs (x : Ctx) (c : Nat) (v : W64) : (s.setS x c v).segs = s.segs := rfl
@[simp] theorem State.setS_xviews (x : Ctx) (c : Nat) (v : W64) : (s.setS x c v).xviews = s.xviews := rfl
@[simp] theorem State.setS_groups (x : Ctx) (c : Nat) (v : W64) : (s.setS x c v).groups = s.groups := rfl
@[simp] theorem State.setS_leases (x : Ctx) (c : Nat) (v : W64) : (s.setS x c v).leases = s.leases := rfl
@[simp] theorem State.setS_invals (x : Ctx) (c : Nat) (v : W64) : (s.setS x c v).invals = s.invals := rfl
@[simp] theorem State.setS_crews (x : Ctx) (c : Nat) (v : W64) : (s.setS x c v).crews = s.crews := rfl
@[simp] theorem State.setS_cores (x : Ctx) (c : Nat) (v : W64) : (s.setS x c v).cores = s.cores := rfl
@[simp] theorem State.setS_mem (x : Ctx) (c : Nat) (v : W64) : (s.setS x c v).mem = s.mem := rfl
@[simp] theorem State.setS_absent (x : Ctx) (c : Nat) (v : W64) : (s.setS x c v).absent = s.absent := rfl
@[simp] theorem State.setS_poison (x : Ctx) (c : Nat) (v : W64) : (s.setS x c v).poison = s.poison := rfl
@[simp] theorem State.setS_memOps (x : Ctx) (c : Nat) (v : W64) : (s.setS x c v).memOps = s.memOps := rfl
@[simp] theorem State.setS_batches (x : Ctx) (c : Nat) (v : W64) : (s.setS x c v).batches = s.batches := rfl
@[simp] theorem State.setS_ops (x : Ctx) (c : Nat) (v : W64) : (s.setS x c v).ops = s.ops := rfl
@[simp] theorem State.setS_carries (x : Ctx) (c : Nat) (v : W64) : (s.setS x c v).carries = s.carries := rfl
@[simp] theorem State.setS_remotes (x : Ctx) (c : Nat) (v : W64) : (s.setS x c v).remotes = s.remotes := rfl
@[simp] theorem State.setS_colls (x : Ctx) (c : Nat) (v : W64) : (s.setS x c v).colls = s.colls := rfl
@[simp] theorem State.setS_fabric (x : Ctx) (c : Nat) (v : W64) : (s.setS x c v).fabric = s.fabric := rfl
@[simp] theorem State.setS_revoked (x : Ctx) (c : Nat) (v : W64) : (s.setS x c v).revoked = s.revoked := rfl
@[simp] theorem State.setS_ownRevoked (x : Ctx) (c : Nat) (v : W64) : (s.setS x c v).ownRevoked = s.ownRevoked := rfl
@[simp] theorem State.setS_sxEntries (x : Ctx) (c : Nat) (v : W64) : (s.setS x c v).sxEntries = s.sxEntries := rfl
@[simp] theorem State.setS_sxProgs (x : Ctx) (c : Nat) (v : W64) : (s.setS x c v).sxProgs = s.sxProgs := rfl
@[simp] theorem State.setS_sxRuns (x : Ctx) (c : Nat) (v : W64) : (s.setS x c v).sxRuns = s.sxRuns := rfl
@[simp] theorem State.setS_halts (x : Ctx) (c : Nat) (v : W64) : (s.setS x c v).halts = s.halts := rfl
@[simp] theorem State.setS_inputs (x : Ctx) (c : Nat) (v : W64) : (s.setS x c v).inputs = s.inputs := rfl
@[simp] theorem State.setS_arriving (x : Ctx) (c : Nat) (v : W64) : (s.setS x c v).arriving = s.arriving := rfl
@[simp] theorem State.setS_trainFault (x : Ctx) (c : Nat) (v : W64) : (s.setS x c v).trainFault = s.trainFault := rfl
@[simp] theorem State.setS_cur (x : Ctx) (c : Nat) (v : W64) : (s.setS x c v).cur = s.cur := rfl
@[simp] theorem State.setS_tick (x : Ctx) (c : Nat) (v : W64) : (s.setS x c v).tick = s.tick := rfl
@[simp] theorem State.setS_draws (x : Ctx) (c : Nat) (v : W64) : (s.setS x c v).draws = s.draws := rfl
@[simp] theorem State.setS_nextId (x : Ctx) (c : Nat) (v : W64) : (s.setS x c v).nextId = s.nextId := rfl

/-! ## State.putBytes -/

@[simp] theorem State.putBytes_phase (a : Nat) (bs : List Byte) : (s.putBytes a bs).phase = s.phase := rfl
@[simp] theorem State.putBytes_failed (a : Nat) (bs : List Byte) : (s.putBytes a bs).failed = s.failed := rfl
@[simp] theorem State.putBytes_hbmRails (a : Nat) (bs : List Byte) : (s.putBytes a bs).hbmRails = s.hbmRails := rfl
@[simp] theorem State.putBytes_rails (a : Nat) (bs : List Byte) : (s.putBytes a bs).rails = s.rails := rfl
@[simp] theorem State.putBytes_resetHeld (a : Nat) (bs : List Byte) : (s.putBytes a bs).resetHeld = s.resetHeld := rfl
@[simp] theorem State.putBytes_link (a : Nat) (bs : List Byte) : (s.putBytes a bs).link = s.link := rfl
@[simp] theorem State.putBytes_flash (a : Nat) (bs : List Byte) : (s.putBytes a bs).flash = s.flash := rfl
@[simp] theorem State.putBytes_roms (a : Nat) (bs : List Byte) : (s.putBytes a bs).roms = s.roms := rfl
@[simp] theorem State.putBytes_dies (a : Nat) (bs : List Byte) : (s.putBytes a bs).dies = s.dies := rfl
@[simp] theorem State.putBytes_devtime (a : Nat) (bs : List Byte) : (s.putBytes a bs).devtime = s.devtime := rfl
@[simp] theorem State.putBytes_psRem (a : Nat) (bs : List Byte) : (s.putBytes a bs).psRem = s.psRem := rfl
@[simp] theorem State.putBytes_devRunning (a : Nat) (bs : List Byte) : (s.putBytes a bs).devRunning = s.devRunning := rfl
@[simp] theorem State.putBytes_attest (a : Nat) (bs : List Byte) : (s.putBytes a bs).attest = s.attest := rfl
@[simp] theorem State.putBytes_out (a : Nat) (bs : List Byte) : (s.putBytes a bs).out = s.out := rfl
@[simp] theorem State.putBytes_parts (a : Nat) (bs : List Byte) : (s.putBytes a bs).parts = s.parts := rfl
@[simp] theorem State.putBytes_segs (a : Nat) (bs : List Byte) : (s.putBytes a bs).segs = s.segs := rfl
@[simp] theorem State.putBytes_xviews (a : Nat) (bs : List Byte) : (s.putBytes a bs).xviews = s.xviews := rfl
@[simp] theorem State.putBytes_groups (a : Nat) (bs : List Byte) : (s.putBytes a bs).groups = s.groups := rfl
@[simp] theorem State.putBytes_leases (a : Nat) (bs : List Byte) : (s.putBytes a bs).leases = s.leases := rfl
@[simp] theorem State.putBytes_invals (a : Nat) (bs : List Byte) : (s.putBytes a bs).invals = s.invals := rfl
@[simp] theorem State.putBytes_crews (a : Nat) (bs : List Byte) : (s.putBytes a bs).crews = s.crews := rfl
@[simp] theorem State.putBytes_gangs (a : Nat) (bs : List Byte) : (s.putBytes a bs).gangs = s.gangs := rfl
@[simp] theorem State.putBytes_cores (a : Nat) (bs : List Byte) : (s.putBytes a bs).cores = s.cores := rfl
@[simp] theorem State.putBytes_absent (a : Nat) (bs : List Byte) : (s.putBytes a bs).absent = s.absent := rfl
@[simp] theorem State.putBytes_memOps (a : Nat) (bs : List Byte) : (s.putBytes a bs).memOps = s.memOps := rfl
@[simp] theorem State.putBytes_batches (a : Nat) (bs : List Byte) : (s.putBytes a bs).batches = s.batches := rfl
@[simp] theorem State.putBytes_ops (a : Nat) (bs : List Byte) : (s.putBytes a bs).ops = s.ops := rfl
@[simp] theorem State.putBytes_carries (a : Nat) (bs : List Byte) : (s.putBytes a bs).carries = s.carries := rfl
@[simp] theorem State.putBytes_remotes (a : Nat) (bs : List Byte) : (s.putBytes a bs).remotes = s.remotes := rfl
@[simp] theorem State.putBytes_colls (a : Nat) (bs : List Byte) : (s.putBytes a bs).colls = s.colls := rfl
@[simp] theorem State.putBytes_fabric (a : Nat) (bs : List Byte) : (s.putBytes a bs).fabric = s.fabric := rfl
@[simp] theorem State.putBytes_revoked (a : Nat) (bs : List Byte) : (s.putBytes a bs).revoked = s.revoked := rfl
@[simp] theorem State.putBytes_ownRevoked (a : Nat) (bs : List Byte) : (s.putBytes a bs).ownRevoked = s.ownRevoked := rfl
@[simp] theorem State.putBytes_sxEntries (a : Nat) (bs : List Byte) : (s.putBytes a bs).sxEntries = s.sxEntries := rfl
@[simp] theorem State.putBytes_sxProgs (a : Nat) (bs : List Byte) : (s.putBytes a bs).sxProgs = s.sxProgs := rfl
@[simp] theorem State.putBytes_sxRuns (a : Nat) (bs : List Byte) : (s.putBytes a bs).sxRuns = s.sxRuns := rfl
@[simp] theorem State.putBytes_halts (a : Nat) (bs : List Byte) : (s.putBytes a bs).halts = s.halts := rfl
@[simp] theorem State.putBytes_inputs (a : Nat) (bs : List Byte) : (s.putBytes a bs).inputs = s.inputs := rfl
@[simp] theorem State.putBytes_arriving (a : Nat) (bs : List Byte) : (s.putBytes a bs).arriving = s.arriving := rfl
@[simp] theorem State.putBytes_trainFault (a : Nat) (bs : List Byte) : (s.putBytes a bs).trainFault = s.trainFault := rfl
@[simp] theorem State.putBytes_cur (a : Nat) (bs : List Byte) : (s.putBytes a bs).cur = s.cur := rfl
@[simp] theorem State.putBytes_tick (a : Nat) (bs : List Byte) : (s.putBytes a bs).tick = s.tick := rfl
@[simp] theorem State.putBytes_draws (a : Nat) (bs : List Byte) : (s.putBytes a bs).draws = s.draws := rfl
@[simp] theorem State.putBytes_nextId (a : Nat) (bs : List Byte) : (s.putBytes a bs).nextId = s.nextId := rfl

/-! ## State.send -/

@[simp] theorem State.send_phase (m : OutMsg) : (s.send m).phase = s.phase := rfl
@[simp] theorem State.send_failed (m : OutMsg) : (s.send m).failed = s.failed := rfl
@[simp] theorem State.send_hbmRails (m : OutMsg) : (s.send m).hbmRails = s.hbmRails := rfl
@[simp] theorem State.send_rails (m : OutMsg) : (s.send m).rails = s.rails := rfl
@[simp] theorem State.send_resetHeld (m : OutMsg) : (s.send m).resetHeld = s.resetHeld := rfl
@[simp] theorem State.send_flash (m : OutMsg) : (s.send m).flash = s.flash := rfl
@[simp] theorem State.send_roms (m : OutMsg) : (s.send m).roms = s.roms := rfl
@[simp] theorem State.send_dies (m : OutMsg) : (s.send m).dies = s.dies := rfl
@[simp] theorem State.send_devtime (m : OutMsg) : (s.send m).devtime = s.devtime := rfl
@[simp] theorem State.send_psRem (m : OutMsg) : (s.send m).psRem = s.psRem := rfl
@[simp] theorem State.send_devRunning (m : OutMsg) : (s.send m).devRunning = s.devRunning := rfl
@[simp] theorem State.send_attest (m : OutMsg) : (s.send m).attest = s.attest := rfl
@[simp] theorem State.send_parts (m : OutMsg) : (s.send m).parts = s.parts := rfl
@[simp] theorem State.send_segs (m : OutMsg) : (s.send m).segs = s.segs := rfl
@[simp] theorem State.send_xviews (m : OutMsg) : (s.send m).xviews = s.xviews := rfl
@[simp] theorem State.send_groups (m : OutMsg) : (s.send m).groups = s.groups := rfl
@[simp] theorem State.send_leases (m : OutMsg) : (s.send m).leases = s.leases := rfl
@[simp] theorem State.send_invals (m : OutMsg) : (s.send m).invals = s.invals := rfl
@[simp] theorem State.send_crews (m : OutMsg) : (s.send m).crews = s.crews := rfl
@[simp] theorem State.send_gangs (m : OutMsg) : (s.send m).gangs = s.gangs := rfl
@[simp] theorem State.send_cores (m : OutMsg) : (s.send m).cores = s.cores := rfl
@[simp] theorem State.send_mem (m : OutMsg) : (s.send m).mem = s.mem := rfl
@[simp] theorem State.send_absent (m : OutMsg) : (s.send m).absent = s.absent := rfl
@[simp] theorem State.send_poison (m : OutMsg) : (s.send m).poison = s.poison := rfl
@[simp] theorem State.send_memOps (m : OutMsg) : (s.send m).memOps = s.memOps := rfl
@[simp] theorem State.send_batches (m : OutMsg) : (s.send m).batches = s.batches := rfl
@[simp] theorem State.send_ops (m : OutMsg) : (s.send m).ops = s.ops := rfl
@[simp] theorem State.send_carries (m : OutMsg) : (s.send m).carries = s.carries := rfl
@[simp] theorem State.send_remotes (m : OutMsg) : (s.send m).remotes = s.remotes := rfl
@[simp] theorem State.send_colls (m : OutMsg) : (s.send m).colls = s.colls := rfl
@[simp] theorem State.send_fabric (m : OutMsg) : (s.send m).fabric = s.fabric := rfl
@[simp] theorem State.send_revoked (m : OutMsg) : (s.send m).revoked = s.revoked := rfl
@[simp] theorem State.send_ownRevoked (m : OutMsg) : (s.send m).ownRevoked = s.ownRevoked := rfl
@[simp] theorem State.send_sxEntries (m : OutMsg) : (s.send m).sxEntries = s.sxEntries := rfl
@[simp] theorem State.send_sxProgs (m : OutMsg) : (s.send m).sxProgs = s.sxProgs := rfl
@[simp] theorem State.send_sxRuns (m : OutMsg) : (s.send m).sxRuns = s.sxRuns := rfl
@[simp] theorem State.send_halts (m : OutMsg) : (s.send m).halts = s.halts := rfl
@[simp] theorem State.send_inputs (m : OutMsg) : (s.send m).inputs = s.inputs := rfl
@[simp] theorem State.send_arriving (m : OutMsg) : (s.send m).arriving = s.arriving := rfl
@[simp] theorem State.send_trainFault (m : OutMsg) : (s.send m).trainFault = s.trainFault := rfl
@[simp] theorem State.send_cur (m : OutMsg) : (s.send m).cur = s.cur := rfl
@[simp] theorem State.send_tick (m : OutMsg) : (s.send m).tick = s.tick := rfl
@[simp] theorem State.send_draws (m : OutMsg) : (s.send m).draws = s.draws := rfl
@[simp] theorem State.send_nextId (m : OutMsg) : (s.send m).nextId = s.nextId := rfl

/-! ## State.notice -/

@[simp] theorem State.notice_phase (k p d e : Nat) (l : W64) (bs : List Byte) : (s.notice k p d e l bs).phase = s.phase := rfl
@[simp] theorem State.notice_failed (k p d e : Nat) (l : W64) (bs : List Byte) : (s.notice k p d e l bs).failed = s.failed := rfl
@[simp] theorem State.notice_hbmRails (k p d e : Nat) (l : W64) (bs : List Byte) : (s.notice k p d e l bs).hbmRails = s.hbmRails := rfl
@[simp] theorem State.notice_rails (k p d e : Nat) (l : W64) (bs : List Byte) : (s.notice k p d e l bs).rails = s.rails := rfl
@[simp] theorem State.notice_resetHeld (k p d e : Nat) (l : W64) (bs : List Byte) : (s.notice k p d e l bs).resetHeld = s.resetHeld := rfl
@[simp] theorem State.notice_flash (k p d e : Nat) (l : W64) (bs : List Byte) : (s.notice k p d e l bs).flash = s.flash := rfl
@[simp] theorem State.notice_roms (k p d e : Nat) (l : W64) (bs : List Byte) : (s.notice k p d e l bs).roms = s.roms := rfl
@[simp] theorem State.notice_dies (k p d e : Nat) (l : W64) (bs : List Byte) : (s.notice k p d e l bs).dies = s.dies := rfl
@[simp] theorem State.notice_devtime (k p d e : Nat) (l : W64) (bs : List Byte) : (s.notice k p d e l bs).devtime = s.devtime := rfl
@[simp] theorem State.notice_psRem (k p d e : Nat) (l : W64) (bs : List Byte) : (s.notice k p d e l bs).psRem = s.psRem := rfl
@[simp] theorem State.notice_devRunning (k p d e : Nat) (l : W64) (bs : List Byte) : (s.notice k p d e l bs).devRunning = s.devRunning := rfl
@[simp] theorem State.notice_attest (k p d e : Nat) (l : W64) (bs : List Byte) : (s.notice k p d e l bs).attest = s.attest := rfl
@[simp] theorem State.notice_parts (k p d e : Nat) (l : W64) (bs : List Byte) : (s.notice k p d e l bs).parts = s.parts := rfl
@[simp] theorem State.notice_segs (k p d e : Nat) (l : W64) (bs : List Byte) : (s.notice k p d e l bs).segs = s.segs := rfl
@[simp] theorem State.notice_xviews (k p d e : Nat) (l : W64) (bs : List Byte) : (s.notice k p d e l bs).xviews = s.xviews := rfl
@[simp] theorem State.notice_groups (k p d e : Nat) (l : W64) (bs : List Byte) : (s.notice k p d e l bs).groups = s.groups := rfl
@[simp] theorem State.notice_leases (k p d e : Nat) (l : W64) (bs : List Byte) : (s.notice k p d e l bs).leases = s.leases := rfl
@[simp] theorem State.notice_invals (k p d e : Nat) (l : W64) (bs : List Byte) : (s.notice k p d e l bs).invals = s.invals := rfl
@[simp] theorem State.notice_crews (k p d e : Nat) (l : W64) (bs : List Byte) : (s.notice k p d e l bs).crews = s.crews := rfl
@[simp] theorem State.notice_gangs (k p d e : Nat) (l : W64) (bs : List Byte) : (s.notice k p d e l bs).gangs = s.gangs := rfl
@[simp] theorem State.notice_cores (k p d e : Nat) (l : W64) (bs : List Byte) : (s.notice k p d e l bs).cores = s.cores := rfl
@[simp] theorem State.notice_mem (k p d e : Nat) (l : W64) (bs : List Byte) : (s.notice k p d e l bs).mem = s.mem := rfl
@[simp] theorem State.notice_absent (k p d e : Nat) (l : W64) (bs : List Byte) : (s.notice k p d e l bs).absent = s.absent := rfl
@[simp] theorem State.notice_poison (k p d e : Nat) (l : W64) (bs : List Byte) : (s.notice k p d e l bs).poison = s.poison := rfl
@[simp] theorem State.notice_memOps (k p d e : Nat) (l : W64) (bs : List Byte) : (s.notice k p d e l bs).memOps = s.memOps := rfl
@[simp] theorem State.notice_batches (k p d e : Nat) (l : W64) (bs : List Byte) : (s.notice k p d e l bs).batches = s.batches := rfl
@[simp] theorem State.notice_ops (k p d e : Nat) (l : W64) (bs : List Byte) : (s.notice k p d e l bs).ops = s.ops := rfl
@[simp] theorem State.notice_carries (k p d e : Nat) (l : W64) (bs : List Byte) : (s.notice k p d e l bs).carries = s.carries := rfl
@[simp] theorem State.notice_remotes (k p d e : Nat) (l : W64) (bs : List Byte) : (s.notice k p d e l bs).remotes = s.remotes := rfl
@[simp] theorem State.notice_colls (k p d e : Nat) (l : W64) (bs : List Byte) : (s.notice k p d e l bs).colls = s.colls := rfl
@[simp] theorem State.notice_fabric (k p d e : Nat) (l : W64) (bs : List Byte) : (s.notice k p d e l bs).fabric = s.fabric := rfl
@[simp] theorem State.notice_revoked (k p d e : Nat) (l : W64) (bs : List Byte) : (s.notice k p d e l bs).revoked = s.revoked := rfl
@[simp] theorem State.notice_ownRevoked (k p d e : Nat) (l : W64) (bs : List Byte) : (s.notice k p d e l bs).ownRevoked = s.ownRevoked := rfl
@[simp] theorem State.notice_sxEntries (k p d e : Nat) (l : W64) (bs : List Byte) : (s.notice k p d e l bs).sxEntries = s.sxEntries := rfl
@[simp] theorem State.notice_sxProgs (k p d e : Nat) (l : W64) (bs : List Byte) : (s.notice k p d e l bs).sxProgs = s.sxProgs := rfl
@[simp] theorem State.notice_sxRuns (k p d e : Nat) (l : W64) (bs : List Byte) : (s.notice k p d e l bs).sxRuns = s.sxRuns := rfl
@[simp] theorem State.notice_halts (k p d e : Nat) (l : W64) (bs : List Byte) : (s.notice k p d e l bs).halts = s.halts := rfl
@[simp] theorem State.notice_inputs (k p d e : Nat) (l : W64) (bs : List Byte) : (s.notice k p d e l bs).inputs = s.inputs := rfl
@[simp] theorem State.notice_arriving (k p d e : Nat) (l : W64) (bs : List Byte) : (s.notice k p d e l bs).arriving = s.arriving := rfl
@[simp] theorem State.notice_trainFault (k p d e : Nat) (l : W64) (bs : List Byte) : (s.notice k p d e l bs).trainFault = s.trainFault := rfl
@[simp] theorem State.notice_cur (k p d e : Nat) (l : W64) (bs : List Byte) : (s.notice k p d e l bs).cur = s.cur := rfl
@[simp] theorem State.notice_tick (k p d e : Nat) (l : W64) (bs : List Byte) : (s.notice k p d e l bs).tick = s.tick := rfl
@[simp] theorem State.notice_draws (k p d e : Nat) (l : W64) (bs : List Byte) : (s.notice k p d e l bs).draws = s.draws := rfl
@[simp] theorem State.notice_nextId (k p d e : Nat) (l : W64) (bs : List Byte) : (s.notice k p d e l bs).nextId = s.nextId := rfl

/-! ## State.received -/

@[simp] theorem State.received_phase (n : Nat) : (s.received n).phase = s.phase := rfl
@[simp] theorem State.received_failed (n : Nat) : (s.received n).failed = s.failed := rfl
@[simp] theorem State.received_hbmRails (n : Nat) : (s.received n).hbmRails = s.hbmRails := rfl
@[simp] theorem State.received_rails (n : Nat) : (s.received n).rails = s.rails := rfl
@[simp] theorem State.received_resetHeld (n : Nat) : (s.received n).resetHeld = s.resetHeld := rfl
@[simp] theorem State.received_flash (n : Nat) : (s.received n).flash = s.flash := rfl
@[simp] theorem State.received_roms (n : Nat) : (s.received n).roms = s.roms := rfl
@[simp] theorem State.received_dies (n : Nat) : (s.received n).dies = s.dies := rfl
@[simp] theorem State.received_devtime (n : Nat) : (s.received n).devtime = s.devtime := rfl
@[simp] theorem State.received_psRem (n : Nat) : (s.received n).psRem = s.psRem := rfl
@[simp] theorem State.received_devRunning (n : Nat) : (s.received n).devRunning = s.devRunning := rfl
@[simp] theorem State.received_attest (n : Nat) : (s.received n).attest = s.attest := rfl
@[simp] theorem State.received_out (n : Nat) : (s.received n).out = s.out := rfl
@[simp] theorem State.received_parts (n : Nat) : (s.received n).parts = s.parts := rfl
@[simp] theorem State.received_segs (n : Nat) : (s.received n).segs = s.segs := rfl
@[simp] theorem State.received_xviews (n : Nat) : (s.received n).xviews = s.xviews := rfl
@[simp] theorem State.received_groups (n : Nat) : (s.received n).groups = s.groups := rfl
@[simp] theorem State.received_leases (n : Nat) : (s.received n).leases = s.leases := rfl
@[simp] theorem State.received_invals (n : Nat) : (s.received n).invals = s.invals := rfl
@[simp] theorem State.received_crews (n : Nat) : (s.received n).crews = s.crews := rfl
@[simp] theorem State.received_gangs (n : Nat) : (s.received n).gangs = s.gangs := rfl
@[simp] theorem State.received_cores (n : Nat) : (s.received n).cores = s.cores := rfl
@[simp] theorem State.received_mem (n : Nat) : (s.received n).mem = s.mem := rfl
@[simp] theorem State.received_absent (n : Nat) : (s.received n).absent = s.absent := rfl
@[simp] theorem State.received_poison (n : Nat) : (s.received n).poison = s.poison := rfl
@[simp] theorem State.received_memOps (n : Nat) : (s.received n).memOps = s.memOps := rfl
@[simp] theorem State.received_batches (n : Nat) : (s.received n).batches = s.batches := rfl
@[simp] theorem State.received_ops (n : Nat) : (s.received n).ops = s.ops := rfl
@[simp] theorem State.received_carries (n : Nat) : (s.received n).carries = s.carries := rfl
@[simp] theorem State.received_remotes (n : Nat) : (s.received n).remotes = s.remotes := rfl
@[simp] theorem State.received_colls (n : Nat) : (s.received n).colls = s.colls := rfl
@[simp] theorem State.received_fabric (n : Nat) : (s.received n).fabric = s.fabric := rfl
@[simp] theorem State.received_revoked (n : Nat) : (s.received n).revoked = s.revoked := rfl
@[simp] theorem State.received_ownRevoked (n : Nat) : (s.received n).ownRevoked = s.ownRevoked := rfl
@[simp] theorem State.received_sxEntries (n : Nat) : (s.received n).sxEntries = s.sxEntries := rfl
@[simp] theorem State.received_sxProgs (n : Nat) : (s.received n).sxProgs = s.sxProgs := rfl
@[simp] theorem State.received_sxRuns (n : Nat) : (s.received n).sxRuns = s.sxRuns := rfl
@[simp] theorem State.received_halts (n : Nat) : (s.received n).halts = s.halts := rfl
@[simp] theorem State.received_inputs (n : Nat) : (s.received n).inputs = s.inputs := rfl
@[simp] theorem State.received_arriving (n : Nat) : (s.received n).arriving = s.arriving := rfl
@[simp] theorem State.received_trainFault (n : Nat) : (s.received n).trainFault = s.trainFault := rfl
@[simp] theorem State.received_cur (n : Nat) : (s.received n).cur = s.cur := rfl
@[simp] theorem State.received_tick (n : Nat) : (s.received n).tick = s.tick := rfl
@[simp] theorem State.received_draws (n : Nat) : (s.received n).draws = s.draws := rfl
@[simp] theorem State.received_nextId (n : Nat) : (s.received n).nextId = s.nextId := rfl

/-! ## State.dropMemOp -/

@[simp] theorem State.dropMemOp_phase (i : Nat) : (s.dropMemOp i).phase = s.phase := rfl
@[simp] theorem State.dropMemOp_failed (i : Nat) : (s.dropMemOp i).failed = s.failed := rfl
@[simp] theorem State.dropMemOp_hbmRails (i : Nat) : (s.dropMemOp i).hbmRails = s.hbmRails := rfl
@[simp] theorem State.dropMemOp_rails (i : Nat) : (s.dropMemOp i).rails = s.rails := rfl
@[simp] theorem State.dropMemOp_resetHeld (i : Nat) : (s.dropMemOp i).resetHeld = s.resetHeld := rfl
@[simp] theorem State.dropMemOp_link (i : Nat) : (s.dropMemOp i).link = s.link := rfl
@[simp] theorem State.dropMemOp_flash (i : Nat) : (s.dropMemOp i).flash = s.flash := rfl
@[simp] theorem State.dropMemOp_roms (i : Nat) : (s.dropMemOp i).roms = s.roms := rfl
@[simp] theorem State.dropMemOp_dies (i : Nat) : (s.dropMemOp i).dies = s.dies := rfl
@[simp] theorem State.dropMemOp_devtime (i : Nat) : (s.dropMemOp i).devtime = s.devtime := rfl
@[simp] theorem State.dropMemOp_psRem (i : Nat) : (s.dropMemOp i).psRem = s.psRem := rfl
@[simp] theorem State.dropMemOp_devRunning (i : Nat) : (s.dropMemOp i).devRunning = s.devRunning := rfl
@[simp] theorem State.dropMemOp_attest (i : Nat) : (s.dropMemOp i).attest = s.attest := rfl
@[simp] theorem State.dropMemOp_out (i : Nat) : (s.dropMemOp i).out = s.out := rfl
@[simp] theorem State.dropMemOp_parts (i : Nat) : (s.dropMemOp i).parts = s.parts := rfl
@[simp] theorem State.dropMemOp_segs (i : Nat) : (s.dropMemOp i).segs = s.segs := rfl
@[simp] theorem State.dropMemOp_xviews (i : Nat) : (s.dropMemOp i).xviews = s.xviews := rfl
@[simp] theorem State.dropMemOp_groups (i : Nat) : (s.dropMemOp i).groups = s.groups := rfl
@[simp] theorem State.dropMemOp_leases (i : Nat) : (s.dropMemOp i).leases = s.leases := rfl
@[simp] theorem State.dropMemOp_invals (i : Nat) : (s.dropMemOp i).invals = s.invals := rfl
@[simp] theorem State.dropMemOp_crews (i : Nat) : (s.dropMemOp i).crews = s.crews := rfl
@[simp] theorem State.dropMemOp_gangs (i : Nat) : (s.dropMemOp i).gangs = s.gangs := rfl
@[simp] theorem State.dropMemOp_cores (i : Nat) : (s.dropMemOp i).cores = s.cores := rfl
@[simp] theorem State.dropMemOp_mem (i : Nat) : (s.dropMemOp i).mem = s.mem := rfl
@[simp] theorem State.dropMemOp_absent (i : Nat) : (s.dropMemOp i).absent = s.absent := rfl
@[simp] theorem State.dropMemOp_poison (i : Nat) : (s.dropMemOp i).poison = s.poison := rfl
@[simp] theorem State.dropMemOp_batches (i : Nat) : (s.dropMemOp i).batches = s.batches := rfl
@[simp] theorem State.dropMemOp_ops (i : Nat) : (s.dropMemOp i).ops = s.ops := rfl
@[simp] theorem State.dropMemOp_carries (i : Nat) : (s.dropMemOp i).carries = s.carries := rfl
@[simp] theorem State.dropMemOp_remotes (i : Nat) : (s.dropMemOp i).remotes = s.remotes := rfl
@[simp] theorem State.dropMemOp_colls (i : Nat) : (s.dropMemOp i).colls = s.colls := rfl
@[simp] theorem State.dropMemOp_fabric (i : Nat) : (s.dropMemOp i).fabric = s.fabric := rfl
@[simp] theorem State.dropMemOp_revoked (i : Nat) : (s.dropMemOp i).revoked = s.revoked := rfl
@[simp] theorem State.dropMemOp_ownRevoked (i : Nat) : (s.dropMemOp i).ownRevoked = s.ownRevoked := rfl
@[simp] theorem State.dropMemOp_sxEntries (i : Nat) : (s.dropMemOp i).sxEntries = s.sxEntries := rfl
@[simp] theorem State.dropMemOp_sxProgs (i : Nat) : (s.dropMemOp i).sxProgs = s.sxProgs := rfl
@[simp] theorem State.dropMemOp_sxRuns (i : Nat) : (s.dropMemOp i).sxRuns = s.sxRuns := rfl
@[simp] theorem State.dropMemOp_halts (i : Nat) : (s.dropMemOp i).halts = s.halts := rfl
@[simp] theorem State.dropMemOp_inputs (i : Nat) : (s.dropMemOp i).inputs = s.inputs := rfl
@[simp] theorem State.dropMemOp_arriving (i : Nat) : (s.dropMemOp i).arriving = s.arriving := rfl
@[simp] theorem State.dropMemOp_trainFault (i : Nat) : (s.dropMemOp i).trainFault = s.trainFault := rfl
@[simp] theorem State.dropMemOp_cur (i : Nat) : (s.dropMemOp i).cur = s.cur := rfl
@[simp] theorem State.dropMemOp_tick (i : Nat) : (s.dropMemOp i).tick = s.tick := rfl
@[simp] theorem State.dropMemOp_draws (i : Nat) : (s.dropMemOp i).draws = s.draws := rfl
@[simp] theorem State.dropMemOp_nextId (i : Nat) : (s.dropMemOp i).nextId = s.nextId := rfl

/-! ## State.modMemOp -/

@[simp] theorem State.modMemOp_phase (i : Nat) (f : MemOp → MemOp) : (s.modMemOp i f).phase = s.phase := rfl
@[simp] theorem State.modMemOp_failed (i : Nat) (f : MemOp → MemOp) : (s.modMemOp i f).failed = s.failed := rfl
@[simp] theorem State.modMemOp_hbmRails (i : Nat) (f : MemOp → MemOp) : (s.modMemOp i f).hbmRails = s.hbmRails := rfl
@[simp] theorem State.modMemOp_rails (i : Nat) (f : MemOp → MemOp) : (s.modMemOp i f).rails = s.rails := rfl
@[simp] theorem State.modMemOp_resetHeld (i : Nat) (f : MemOp → MemOp) : (s.modMemOp i f).resetHeld = s.resetHeld := rfl
@[simp] theorem State.modMemOp_link (i : Nat) (f : MemOp → MemOp) : (s.modMemOp i f).link = s.link := rfl
@[simp] theorem State.modMemOp_flash (i : Nat) (f : MemOp → MemOp) : (s.modMemOp i f).flash = s.flash := rfl
@[simp] theorem State.modMemOp_roms (i : Nat) (f : MemOp → MemOp) : (s.modMemOp i f).roms = s.roms := rfl
@[simp] theorem State.modMemOp_dies (i : Nat) (f : MemOp → MemOp) : (s.modMemOp i f).dies = s.dies := rfl
@[simp] theorem State.modMemOp_devtime (i : Nat) (f : MemOp → MemOp) : (s.modMemOp i f).devtime = s.devtime := rfl
@[simp] theorem State.modMemOp_psRem (i : Nat) (f : MemOp → MemOp) : (s.modMemOp i f).psRem = s.psRem := rfl
@[simp] theorem State.modMemOp_devRunning (i : Nat) (f : MemOp → MemOp) : (s.modMemOp i f).devRunning = s.devRunning := rfl
@[simp] theorem State.modMemOp_attest (i : Nat) (f : MemOp → MemOp) : (s.modMemOp i f).attest = s.attest := rfl
@[simp] theorem State.modMemOp_out (i : Nat) (f : MemOp → MemOp) : (s.modMemOp i f).out = s.out := rfl
@[simp] theorem State.modMemOp_parts (i : Nat) (f : MemOp → MemOp) : (s.modMemOp i f).parts = s.parts := rfl
@[simp] theorem State.modMemOp_segs (i : Nat) (f : MemOp → MemOp) : (s.modMemOp i f).segs = s.segs := rfl
@[simp] theorem State.modMemOp_xviews (i : Nat) (f : MemOp → MemOp) : (s.modMemOp i f).xviews = s.xviews := rfl
@[simp] theorem State.modMemOp_groups (i : Nat) (f : MemOp → MemOp) : (s.modMemOp i f).groups = s.groups := rfl
@[simp] theorem State.modMemOp_leases (i : Nat) (f : MemOp → MemOp) : (s.modMemOp i f).leases = s.leases := rfl
@[simp] theorem State.modMemOp_invals (i : Nat) (f : MemOp → MemOp) : (s.modMemOp i f).invals = s.invals := rfl
@[simp] theorem State.modMemOp_crews (i : Nat) (f : MemOp → MemOp) : (s.modMemOp i f).crews = s.crews := rfl
@[simp] theorem State.modMemOp_gangs (i : Nat) (f : MemOp → MemOp) : (s.modMemOp i f).gangs = s.gangs := rfl
@[simp] theorem State.modMemOp_cores (i : Nat) (f : MemOp → MemOp) : (s.modMemOp i f).cores = s.cores := rfl
@[simp] theorem State.modMemOp_mem (i : Nat) (f : MemOp → MemOp) : (s.modMemOp i f).mem = s.mem := rfl
@[simp] theorem State.modMemOp_absent (i : Nat) (f : MemOp → MemOp) : (s.modMemOp i f).absent = s.absent := rfl
@[simp] theorem State.modMemOp_poison (i : Nat) (f : MemOp → MemOp) : (s.modMemOp i f).poison = s.poison := rfl
@[simp] theorem State.modMemOp_batches (i : Nat) (f : MemOp → MemOp) : (s.modMemOp i f).batches = s.batches := rfl
@[simp] theorem State.modMemOp_ops (i : Nat) (f : MemOp → MemOp) : (s.modMemOp i f).ops = s.ops := rfl
@[simp] theorem State.modMemOp_carries (i : Nat) (f : MemOp → MemOp) : (s.modMemOp i f).carries = s.carries := rfl
@[simp] theorem State.modMemOp_remotes (i : Nat) (f : MemOp → MemOp) : (s.modMemOp i f).remotes = s.remotes := rfl
@[simp] theorem State.modMemOp_colls (i : Nat) (f : MemOp → MemOp) : (s.modMemOp i f).colls = s.colls := rfl
@[simp] theorem State.modMemOp_fabric (i : Nat) (f : MemOp → MemOp) : (s.modMemOp i f).fabric = s.fabric := rfl
@[simp] theorem State.modMemOp_revoked (i : Nat) (f : MemOp → MemOp) : (s.modMemOp i f).revoked = s.revoked := rfl
@[simp] theorem State.modMemOp_ownRevoked (i : Nat) (f : MemOp → MemOp) : (s.modMemOp i f).ownRevoked = s.ownRevoked := rfl
@[simp] theorem State.modMemOp_sxEntries (i : Nat) (f : MemOp → MemOp) : (s.modMemOp i f).sxEntries = s.sxEntries := rfl
@[simp] theorem State.modMemOp_sxProgs (i : Nat) (f : MemOp → MemOp) : (s.modMemOp i f).sxProgs = s.sxProgs := rfl
@[simp] theorem State.modMemOp_sxRuns (i : Nat) (f : MemOp → MemOp) : (s.modMemOp i f).sxRuns = s.sxRuns := rfl
@[simp] theorem State.modMemOp_halts (i : Nat) (f : MemOp → MemOp) : (s.modMemOp i f).halts = s.halts := rfl
@[simp] theorem State.modMemOp_inputs (i : Nat) (f : MemOp → MemOp) : (s.modMemOp i f).inputs = s.inputs := rfl
@[simp] theorem State.modMemOp_arriving (i : Nat) (f : MemOp → MemOp) : (s.modMemOp i f).arriving = s.arriving := rfl
@[simp] theorem State.modMemOp_trainFault (i : Nat) (f : MemOp → MemOp) : (s.modMemOp i f).trainFault = s.trainFault := rfl
@[simp] theorem State.modMemOp_cur (i : Nat) (f : MemOp → MemOp) : (s.modMemOp i f).cur = s.cur := rfl
@[simp] theorem State.modMemOp_tick (i : Nat) (f : MemOp → MemOp) : (s.modMemOp i f).tick = s.tick := rfl
@[simp] theorem State.modMemOp_draws (i : Nat) (f : MemOp → MemOp) : (s.modMemOp i f).draws = s.draws := rfl
@[simp] theorem State.modMemOp_nextId (i : Nat) (f : MemOp → MemOp) : (s.modMemOp i f).nextId = s.nextId := rfl

/-! ## State.modCore -/

@[simp] theorem State.modCore_phase (d c : Nat) (f : Core → Core) : (s.modCore d c f).phase = s.phase := by
  unfold State.modCore; split <;> rfl
@[simp] theorem State.modCore_failed (d c : Nat) (f : Core → Core) : (s.modCore d c f).failed = s.failed := by
  unfold State.modCore; split <;> rfl
@[simp] theorem State.modCore_hbmRails (d c : Nat) (f : Core → Core) : (s.modCore d c f).hbmRails = s.hbmRails := by
  unfold State.modCore; split <;> rfl
@[simp] theorem State.modCore_rails (d c : Nat) (f : Core → Core) : (s.modCore d c f).rails = s.rails := by
  unfold State.modCore; split <;> rfl
@[simp] theorem State.modCore_resetHeld (d c : Nat) (f : Core → Core) : (s.modCore d c f).resetHeld = s.resetHeld := by
  unfold State.modCore; split <;> rfl
@[simp] theorem State.modCore_link (d c : Nat) (f : Core → Core) : (s.modCore d c f).link = s.link := by
  unfold State.modCore; split <;> rfl
@[simp] theorem State.modCore_flash (d c : Nat) (f : Core → Core) : (s.modCore d c f).flash = s.flash := by
  unfold State.modCore; split <;> rfl
@[simp] theorem State.modCore_roms (d c : Nat) (f : Core → Core) : (s.modCore d c f).roms = s.roms := by
  unfold State.modCore; split <;> rfl
@[simp] theorem State.modCore_dies (d c : Nat) (f : Core → Core) : (s.modCore d c f).dies = s.dies := by
  unfold State.modCore; split <;> rfl
@[simp] theorem State.modCore_devtime (d c : Nat) (f : Core → Core) : (s.modCore d c f).devtime = s.devtime := by
  unfold State.modCore; split <;> rfl
@[simp] theorem State.modCore_psRem (d c : Nat) (f : Core → Core) : (s.modCore d c f).psRem = s.psRem := by
  unfold State.modCore; split <;> rfl
@[simp] theorem State.modCore_devRunning (d c : Nat) (f : Core → Core) : (s.modCore d c f).devRunning = s.devRunning := by
  unfold State.modCore; split <;> rfl
@[simp] theorem State.modCore_attest (d c : Nat) (f : Core → Core) : (s.modCore d c f).attest = s.attest := by
  unfold State.modCore; split <;> rfl
@[simp] theorem State.modCore_out (d c : Nat) (f : Core → Core) : (s.modCore d c f).out = s.out := by
  unfold State.modCore; split <;> rfl
@[simp] theorem State.modCore_parts (d c : Nat) (f : Core → Core) : (s.modCore d c f).parts = s.parts := by
  unfold State.modCore; split <;> rfl
@[simp] theorem State.modCore_segs (d c : Nat) (f : Core → Core) : (s.modCore d c f).segs = s.segs := by
  unfold State.modCore; split <;> rfl
@[simp] theorem State.modCore_xviews (d c : Nat) (f : Core → Core) : (s.modCore d c f).xviews = s.xviews := by
  unfold State.modCore; split <;> rfl
@[simp] theorem State.modCore_groups (d c : Nat) (f : Core → Core) : (s.modCore d c f).groups = s.groups := by
  unfold State.modCore; split <;> rfl
@[simp] theorem State.modCore_leases (d c : Nat) (f : Core → Core) : (s.modCore d c f).leases = s.leases := by
  unfold State.modCore; split <;> rfl
@[simp] theorem State.modCore_invals (d c : Nat) (f : Core → Core) : (s.modCore d c f).invals = s.invals := by
  unfold State.modCore; split <;> rfl
@[simp] theorem State.modCore_crews (d c : Nat) (f : Core → Core) : (s.modCore d c f).crews = s.crews := by
  unfold State.modCore; split <;> rfl
@[simp] theorem State.modCore_gangs (d c : Nat) (f : Core → Core) : (s.modCore d c f).gangs = s.gangs := by
  unfold State.modCore; split <;> rfl
@[simp] theorem State.modCore_mem (d c : Nat) (f : Core → Core) : (s.modCore d c f).mem = s.mem := by
  unfold State.modCore; split <;> rfl
@[simp] theorem State.modCore_absent (d c : Nat) (f : Core → Core) : (s.modCore d c f).absent = s.absent := by
  unfold State.modCore; split <;> rfl
@[simp] theorem State.modCore_poison (d c : Nat) (f : Core → Core) : (s.modCore d c f).poison = s.poison := by
  unfold State.modCore; split <;> rfl
@[simp] theorem State.modCore_memOps (d c : Nat) (f : Core → Core) : (s.modCore d c f).memOps = s.memOps := by
  unfold State.modCore; split <;> rfl
@[simp] theorem State.modCore_batches (d c : Nat) (f : Core → Core) : (s.modCore d c f).batches = s.batches := by
  unfold State.modCore; split <;> rfl
@[simp] theorem State.modCore_ops (d c : Nat) (f : Core → Core) : (s.modCore d c f).ops = s.ops := by
  unfold State.modCore; split <;> rfl
@[simp] theorem State.modCore_carries (d c : Nat) (f : Core → Core) : (s.modCore d c f).carries = s.carries := by
  unfold State.modCore; split <;> rfl
@[simp] theorem State.modCore_remotes (d c : Nat) (f : Core → Core) : (s.modCore d c f).remotes = s.remotes := by
  unfold State.modCore; split <;> rfl
@[simp] theorem State.modCore_colls (d c : Nat) (f : Core → Core) : (s.modCore d c f).colls = s.colls := by
  unfold State.modCore; split <;> rfl
@[simp] theorem State.modCore_fabric (d c : Nat) (f : Core → Core) : (s.modCore d c f).fabric = s.fabric := by
  unfold State.modCore; split <;> rfl
@[simp] theorem State.modCore_revoked (d c : Nat) (f : Core → Core) : (s.modCore d c f).revoked = s.revoked := by
  unfold State.modCore; split <;> rfl
@[simp] theorem State.modCore_ownRevoked (d c : Nat) (f : Core → Core) : (s.modCore d c f).ownRevoked = s.ownRevoked := by
  unfold State.modCore; split <;> rfl
@[simp] theorem State.modCore_sxEntries (d c : Nat) (f : Core → Core) : (s.modCore d c f).sxEntries = s.sxEntries := by
  unfold State.modCore; split <;> rfl
@[simp] theorem State.modCore_sxProgs (d c : Nat) (f : Core → Core) : (s.modCore d c f).sxProgs = s.sxProgs := by
  unfold State.modCore; split <;> rfl
@[simp] theorem State.modCore_sxRuns (d c : Nat) (f : Core → Core) : (s.modCore d c f).sxRuns = s.sxRuns := by
  unfold State.modCore; split <;> rfl
@[simp] theorem State.modCore_halts (d c : Nat) (f : Core → Core) : (s.modCore d c f).halts = s.halts := by
  unfold State.modCore; split <;> rfl
@[simp] theorem State.modCore_inputs (d c : Nat) (f : Core → Core) : (s.modCore d c f).inputs = s.inputs := by
  unfold State.modCore; split <;> rfl
@[simp] theorem State.modCore_arriving (d c : Nat) (f : Core → Core) : (s.modCore d c f).arriving = s.arriving := by
  unfold State.modCore; split <;> rfl
@[simp] theorem State.modCore_trainFault (d c : Nat) (f : Core → Core) : (s.modCore d c f).trainFault = s.trainFault := by
  unfold State.modCore; split <;> rfl
@[simp] theorem State.modCore_cur (d c : Nat) (f : Core → Core) : (s.modCore d c f).cur = s.cur := by
  unfold State.modCore; split <;> rfl
@[simp] theorem State.modCore_tick (d c : Nat) (f : Core → Core) : (s.modCore d c f).tick = s.tick := by
  unfold State.modCore; split <;> rfl
@[simp] theorem State.modCore_draws (d c : Nat) (f : Core → Core) : (s.modCore d c f).draws = s.draws := by
  unfold State.modCore; split <;> rfl
@[simp] theorem State.modCore_nextId (d c : Nat) (f : Core → Core) : (s.modCore d c f).nextId = s.nextId := by
  unfold State.modCore; split <;> rfl

/-! ## State.perfWith -/

@[simp] theorem State.perfWith_phase (g : Gang) (e r n : Nat) : (s.perfWith g e r n).phase = s.phase := by
  simp only [State.perfWith]; split <;> simp
@[simp] theorem State.perfWith_failed (g : Gang) (e r n : Nat) : (s.perfWith g e r n).failed = s.failed := by
  simp only [State.perfWith]; split <;> simp
@[simp] theorem State.perfWith_hbmRails (g : Gang) (e r n : Nat) : (s.perfWith g e r n).hbmRails = s.hbmRails := by
  simp only [State.perfWith]; split <;> simp
@[simp] theorem State.perfWith_rails (g : Gang) (e r n : Nat) : (s.perfWith g e r n).rails = s.rails := by
  simp only [State.perfWith]; split <;> simp
@[simp] theorem State.perfWith_resetHeld (g : Gang) (e r n : Nat) : (s.perfWith g e r n).resetHeld = s.resetHeld := by
  simp only [State.perfWith]; split <;> simp
@[simp] theorem State.perfWith_link (g : Gang) (e r n : Nat) : (s.perfWith g e r n).link = s.link := by
  simp only [State.perfWith]; split <;> simp
@[simp] theorem State.perfWith_flash (g : Gang) (e r n : Nat) : (s.perfWith g e r n).flash = s.flash := by
  simp only [State.perfWith]; split <;> simp
@[simp] theorem State.perfWith_roms (g : Gang) (e r n : Nat) : (s.perfWith g e r n).roms = s.roms := by
  simp only [State.perfWith]; split <;> simp
@[simp] theorem State.perfWith_dies (g : Gang) (e r n : Nat) : (s.perfWith g e r n).dies = s.dies := by
  simp only [State.perfWith]; split <;> simp
@[simp] theorem State.perfWith_devtime (g : Gang) (e r n : Nat) : (s.perfWith g e r n).devtime = s.devtime := by
  simp only [State.perfWith]; split <;> simp
@[simp] theorem State.perfWith_psRem (g : Gang) (e r n : Nat) : (s.perfWith g e r n).psRem = s.psRem := by
  simp only [State.perfWith]; split <;> simp
@[simp] theorem State.perfWith_devRunning (g : Gang) (e r n : Nat) : (s.perfWith g e r n).devRunning = s.devRunning := by
  simp only [State.perfWith]; split <;> simp
@[simp] theorem State.perfWith_attest (g : Gang) (e r n : Nat) : (s.perfWith g e r n).attest = s.attest := by
  simp only [State.perfWith]; split <;> simp
@[simp] theorem State.perfWith_out (g : Gang) (e r n : Nat) : (s.perfWith g e r n).out = s.out := by
  simp only [State.perfWith]; split <;> simp
@[simp] theorem State.perfWith_parts (g : Gang) (e r n : Nat) : (s.perfWith g e r n).parts = s.parts := by
  simp only [State.perfWith]; split <;> simp
@[simp] theorem State.perfWith_segs (g : Gang) (e r n : Nat) : (s.perfWith g e r n).segs = s.segs := by
  simp only [State.perfWith]; split <;> simp
@[simp] theorem State.perfWith_xviews (g : Gang) (e r n : Nat) : (s.perfWith g e r n).xviews = s.xviews := by
  simp only [State.perfWith]; split <;> simp
@[simp] theorem State.perfWith_groups (g : Gang) (e r n : Nat) : (s.perfWith g e r n).groups = s.groups := by
  simp only [State.perfWith]; split <;> simp
@[simp] theorem State.perfWith_leases (g : Gang) (e r n : Nat) : (s.perfWith g e r n).leases = s.leases := by
  simp only [State.perfWith]; split <;> simp
@[simp] theorem State.perfWith_invals (g : Gang) (e r n : Nat) : (s.perfWith g e r n).invals = s.invals := by
  simp only [State.perfWith]; split <;> simp
@[simp] theorem State.perfWith_crews (g : Gang) (e r n : Nat) : (s.perfWith g e r n).crews = s.crews := by
  simp only [State.perfWith]; split <;> simp
@[simp] theorem State.perfWith_gangs (g : Gang) (e r n : Nat) : (s.perfWith g e r n).gangs = s.gangs := by
  simp only [State.perfWith]; split <;> simp
@[simp] theorem State.perfWith_mem (g : Gang) (e r n : Nat) : (s.perfWith g e r n).mem = s.mem := by
  simp only [State.perfWith]; split <;> simp
@[simp] theorem State.perfWith_absent (g : Gang) (e r n : Nat) : (s.perfWith g e r n).absent = s.absent := by
  simp only [State.perfWith]; split <;> simp
@[simp] theorem State.perfWith_poison (g : Gang) (e r n : Nat) : (s.perfWith g e r n).poison = s.poison := by
  simp only [State.perfWith]; split <;> simp
@[simp] theorem State.perfWith_memOps (g : Gang) (e r n : Nat) : (s.perfWith g e r n).memOps = s.memOps := by
  simp only [State.perfWith]; split <;> simp
@[simp] theorem State.perfWith_batches (g : Gang) (e r n : Nat) : (s.perfWith g e r n).batches = s.batches := by
  simp only [State.perfWith]; split <;> simp
@[simp] theorem State.perfWith_ops (g : Gang) (e r n : Nat) : (s.perfWith g e r n).ops = s.ops := by
  simp only [State.perfWith]; split <;> simp
@[simp] theorem State.perfWith_carries (g : Gang) (e r n : Nat) : (s.perfWith g e r n).carries = s.carries := by
  simp only [State.perfWith]; split <;> simp
@[simp] theorem State.perfWith_remotes (g : Gang) (e r n : Nat) : (s.perfWith g e r n).remotes = s.remotes := by
  simp only [State.perfWith]; split <;> simp
@[simp] theorem State.perfWith_colls (g : Gang) (e r n : Nat) : (s.perfWith g e r n).colls = s.colls := by
  simp only [State.perfWith]; split <;> simp
@[simp] theorem State.perfWith_fabric (g : Gang) (e r n : Nat) : (s.perfWith g e r n).fabric = s.fabric := by
  simp only [State.perfWith]; split <;> simp
@[simp] theorem State.perfWith_revoked (g : Gang) (e r n : Nat) : (s.perfWith g e r n).revoked = s.revoked := by
  simp only [State.perfWith]; split <;> simp
@[simp] theorem State.perfWith_ownRevoked (g : Gang) (e r n : Nat) : (s.perfWith g e r n).ownRevoked = s.ownRevoked := by
  simp only [State.perfWith]; split <;> simp
@[simp] theorem State.perfWith_sxEntries (g : Gang) (e r n : Nat) : (s.perfWith g e r n).sxEntries = s.sxEntries := by
  simp only [State.perfWith]; split <;> simp
@[simp] theorem State.perfWith_sxProgs (g : Gang) (e r n : Nat) : (s.perfWith g e r n).sxProgs = s.sxProgs := by
  simp only [State.perfWith]; split <;> simp
@[simp] theorem State.perfWith_sxRuns (g : Gang) (e r n : Nat) : (s.perfWith g e r n).sxRuns = s.sxRuns := by
  simp only [State.perfWith]; split <;> simp
@[simp] theorem State.perfWith_halts (g : Gang) (e r n : Nat) : (s.perfWith g e r n).halts = s.halts := by
  simp only [State.perfWith]; split <;> simp
@[simp] theorem State.perfWith_inputs (g : Gang) (e r n : Nat) : (s.perfWith g e r n).inputs = s.inputs := by
  simp only [State.perfWith]; split <;> simp
@[simp] theorem State.perfWith_arriving (g : Gang) (e r n : Nat) : (s.perfWith g e r n).arriving = s.arriving := by
  simp only [State.perfWith]; split <;> simp
@[simp] theorem State.perfWith_trainFault (g : Gang) (e r n : Nat) : (s.perfWith g e r n).trainFault = s.trainFault := by
  simp only [State.perfWith]; split <;> simp
@[simp] theorem State.perfWith_cur (g : Gang) (e r n : Nat) : (s.perfWith g e r n).cur = s.cur := by
  simp only [State.perfWith]; split <;> simp
@[simp] theorem State.perfWith_tick (g : Gang) (e r n : Nat) : (s.perfWith g e r n).tick = s.tick := by
  simp only [State.perfWith]; split <;> simp
@[simp] theorem State.perfWith_draws (g : Gang) (e r n : Nat) : (s.perfWith g e r n).draws = s.draws := by
  simp only [State.perfWith]; split <;> simp
@[simp] theorem State.perfWith_nextId (g : Gang) (e r n : Nat) : (s.perfWith g e r n).nextId = s.nextId := by
  simp only [State.perfWith]; split <;> simp

/-! ## State.perf -/

@[simp] theorem State.perf_phase (g : Gang) (e n : Nat) : (s.perf g e n).phase = s.phase := by
  simp [State.perf]
@[simp] theorem State.perf_failed (g : Gang) (e n : Nat) : (s.perf g e n).failed = s.failed := by
  simp [State.perf]
@[simp] theorem State.perf_hbmRails (g : Gang) (e n : Nat) : (s.perf g e n).hbmRails = s.hbmRails := by
  simp [State.perf]
@[simp] theorem State.perf_rails (g : Gang) (e n : Nat) : (s.perf g e n).rails = s.rails := by
  simp [State.perf]
@[simp] theorem State.perf_resetHeld (g : Gang) (e n : Nat) : (s.perf g e n).resetHeld = s.resetHeld := by
  simp [State.perf]
@[simp] theorem State.perf_link (g : Gang) (e n : Nat) : (s.perf g e n).link = s.link := by
  simp [State.perf]
@[simp] theorem State.perf_flash (g : Gang) (e n : Nat) : (s.perf g e n).flash = s.flash := by
  simp [State.perf]
@[simp] theorem State.perf_roms (g : Gang) (e n : Nat) : (s.perf g e n).roms = s.roms := by
  simp [State.perf]
@[simp] theorem State.perf_dies (g : Gang) (e n : Nat) : (s.perf g e n).dies = s.dies := by
  simp [State.perf]
@[simp] theorem State.perf_devtime (g : Gang) (e n : Nat) : (s.perf g e n).devtime = s.devtime := by
  simp [State.perf]
@[simp] theorem State.perf_psRem (g : Gang) (e n : Nat) : (s.perf g e n).psRem = s.psRem := by
  simp [State.perf]
@[simp] theorem State.perf_devRunning (g : Gang) (e n : Nat) : (s.perf g e n).devRunning = s.devRunning := by
  simp [State.perf]
@[simp] theorem State.perf_attest (g : Gang) (e n : Nat) : (s.perf g e n).attest = s.attest := by
  simp [State.perf]
@[simp] theorem State.perf_out (g : Gang) (e n : Nat) : (s.perf g e n).out = s.out := by
  simp [State.perf]
@[simp] theorem State.perf_parts (g : Gang) (e n : Nat) : (s.perf g e n).parts = s.parts := by
  simp [State.perf]
@[simp] theorem State.perf_segs (g : Gang) (e n : Nat) : (s.perf g e n).segs = s.segs := by
  simp [State.perf]
@[simp] theorem State.perf_xviews (g : Gang) (e n : Nat) : (s.perf g e n).xviews = s.xviews := by
  simp [State.perf]
@[simp] theorem State.perf_groups (g : Gang) (e n : Nat) : (s.perf g e n).groups = s.groups := by
  simp [State.perf]
@[simp] theorem State.perf_leases (g : Gang) (e n : Nat) : (s.perf g e n).leases = s.leases := by
  simp [State.perf]
@[simp] theorem State.perf_invals (g : Gang) (e n : Nat) : (s.perf g e n).invals = s.invals := by
  simp [State.perf]
@[simp] theorem State.perf_crews (g : Gang) (e n : Nat) : (s.perf g e n).crews = s.crews := by
  simp [State.perf]
@[simp] theorem State.perf_gangs (g : Gang) (e n : Nat) : (s.perf g e n).gangs = s.gangs := by
  simp [State.perf]
@[simp] theorem State.perf_mem (g : Gang) (e n : Nat) : (s.perf g e n).mem = s.mem := by
  simp [State.perf]
@[simp] theorem State.perf_absent (g : Gang) (e n : Nat) : (s.perf g e n).absent = s.absent := by
  simp [State.perf]
@[simp] theorem State.perf_poison (g : Gang) (e n : Nat) : (s.perf g e n).poison = s.poison := by
  simp [State.perf]
@[simp] theorem State.perf_memOps (g : Gang) (e n : Nat) : (s.perf g e n).memOps = s.memOps := by
  simp [State.perf]
@[simp] theorem State.perf_batches (g : Gang) (e n : Nat) : (s.perf g e n).batches = s.batches := by
  simp [State.perf]
@[simp] theorem State.perf_ops (g : Gang) (e n : Nat) : (s.perf g e n).ops = s.ops := by
  simp [State.perf]
@[simp] theorem State.perf_carries (g : Gang) (e n : Nat) : (s.perf g e n).carries = s.carries := by
  simp [State.perf]
@[simp] theorem State.perf_remotes (g : Gang) (e n : Nat) : (s.perf g e n).remotes = s.remotes := by
  simp [State.perf]
@[simp] theorem State.perf_colls (g : Gang) (e n : Nat) : (s.perf g e n).colls = s.colls := by
  simp [State.perf]
@[simp] theorem State.perf_fabric (g : Gang) (e n : Nat) : (s.perf g e n).fabric = s.fabric := by
  simp [State.perf]
@[simp] theorem State.perf_revoked (g : Gang) (e n : Nat) : (s.perf g e n).revoked = s.revoked := by
  simp [State.perf]
@[simp] theorem State.perf_ownRevoked (g : Gang) (e n : Nat) : (s.perf g e n).ownRevoked = s.ownRevoked := by
  simp [State.perf]
@[simp] theorem State.perf_sxEntries (g : Gang) (e n : Nat) : (s.perf g e n).sxEntries = s.sxEntries := by
  simp [State.perf]
@[simp] theorem State.perf_sxProgs (g : Gang) (e n : Nat) : (s.perf g e n).sxProgs = s.sxProgs := by
  simp [State.perf]
@[simp] theorem State.perf_sxRuns (g : Gang) (e n : Nat) : (s.perf g e n).sxRuns = s.sxRuns := by
  simp [State.perf]
@[simp] theorem State.perf_halts (g : Gang) (e n : Nat) : (s.perf g e n).halts = s.halts := by
  simp [State.perf]
@[simp] theorem State.perf_inputs (g : Gang) (e n : Nat) : (s.perf g e n).inputs = s.inputs := by
  simp [State.perf]
@[simp] theorem State.perf_arriving (g : Gang) (e n : Nat) : (s.perf g e n).arriving = s.arriving := by
  simp [State.perf]
@[simp] theorem State.perf_trainFault (g : Gang) (e n : Nat) : (s.perf g e n).trainFault = s.trainFault := by
  simp [State.perf]
@[simp] theorem State.perf_cur (g : Gang) (e n : Nat) : (s.perf g e n).cur = s.cur := by
  simp [State.perf]
@[simp] theorem State.perf_tick (g : Gang) (e n : Nat) : (s.perf g e n).tick = s.tick := by
  simp [State.perf]
@[simp] theorem State.perf_draws (g : Gang) (e n : Nat) : (s.perf g e n).draws = s.draws := by
  simp [State.perf]
@[simp] theorem State.perf_nextId (g : Gang) (e n : Nat) : (s.perf g e n).nextId = s.nextId := by
  simp [State.perf]

/-! ## State.countIssue -/

@[simp] theorem State.countIssue_phase (x : Ctx) (p l : Nat) : (s.countIssue x p l).phase = s.phase := by
  simp only [State.countIssue]; split <;> simp
@[simp] theorem State.countIssue_failed (x : Ctx) (p l : Nat) : (s.countIssue x p l).failed = s.failed := by
  simp only [State.countIssue]; split <;> simp
@[simp] theorem State.countIssue_hbmRails (x : Ctx) (p l : Nat) : (s.countIssue x p l).hbmRails = s.hbmRails := by
  simp only [State.countIssue]; split <;> simp
@[simp] theorem State.countIssue_rails (x : Ctx) (p l : Nat) : (s.countIssue x p l).rails = s.rails := by
  simp only [State.countIssue]; split <;> simp
@[simp] theorem State.countIssue_resetHeld (x : Ctx) (p l : Nat) : (s.countIssue x p l).resetHeld = s.resetHeld := by
  simp only [State.countIssue]; split <;> simp
@[simp] theorem State.countIssue_link (x : Ctx) (p l : Nat) : (s.countIssue x p l).link = s.link := by
  simp only [State.countIssue]; split <;> simp
@[simp] theorem State.countIssue_flash (x : Ctx) (p l : Nat) : (s.countIssue x p l).flash = s.flash := by
  simp only [State.countIssue]; split <;> simp
@[simp] theorem State.countIssue_roms (x : Ctx) (p l : Nat) : (s.countIssue x p l).roms = s.roms := by
  simp only [State.countIssue]; split <;> simp
@[simp] theorem State.countIssue_dies (x : Ctx) (p l : Nat) : (s.countIssue x p l).dies = s.dies := by
  simp only [State.countIssue]; split <;> simp
@[simp] theorem State.countIssue_devtime (x : Ctx) (p l : Nat) : (s.countIssue x p l).devtime = s.devtime := by
  simp only [State.countIssue]; split <;> simp
@[simp] theorem State.countIssue_psRem (x : Ctx) (p l : Nat) : (s.countIssue x p l).psRem = s.psRem := by
  simp only [State.countIssue]; split <;> simp
@[simp] theorem State.countIssue_devRunning (x : Ctx) (p l : Nat) : (s.countIssue x p l).devRunning = s.devRunning := by
  simp only [State.countIssue]; split <;> simp
@[simp] theorem State.countIssue_attest (x : Ctx) (p l : Nat) : (s.countIssue x p l).attest = s.attest := by
  simp only [State.countIssue]; split <;> simp
@[simp] theorem State.countIssue_out (x : Ctx) (p l : Nat) : (s.countIssue x p l).out = s.out := by
  simp only [State.countIssue]; split <;> simp
@[simp] theorem State.countIssue_parts (x : Ctx) (p l : Nat) : (s.countIssue x p l).parts = s.parts := by
  simp only [State.countIssue]; split <;> simp
@[simp] theorem State.countIssue_segs (x : Ctx) (p l : Nat) : (s.countIssue x p l).segs = s.segs := by
  simp only [State.countIssue]; split <;> simp
@[simp] theorem State.countIssue_xviews (x : Ctx) (p l : Nat) : (s.countIssue x p l).xviews = s.xviews := by
  simp only [State.countIssue]; split <;> simp
@[simp] theorem State.countIssue_groups (x : Ctx) (p l : Nat) : (s.countIssue x p l).groups = s.groups := by
  simp only [State.countIssue]; split <;> simp
@[simp] theorem State.countIssue_leases (x : Ctx) (p l : Nat) : (s.countIssue x p l).leases = s.leases := by
  simp only [State.countIssue]; split <;> simp
@[simp] theorem State.countIssue_invals (x : Ctx) (p l : Nat) : (s.countIssue x p l).invals = s.invals := by
  simp only [State.countIssue]; split <;> simp
@[simp] theorem State.countIssue_crews (x : Ctx) (p l : Nat) : (s.countIssue x p l).crews = s.crews := by
  simp only [State.countIssue]; split <;> simp
@[simp] theorem State.countIssue_gangs (x : Ctx) (p l : Nat) : (s.countIssue x p l).gangs = s.gangs := by
  simp only [State.countIssue]; split <;> simp
@[simp] theorem State.countIssue_mem (x : Ctx) (p l : Nat) : (s.countIssue x p l).mem = s.mem := by
  simp only [State.countIssue]; split <;> simp
@[simp] theorem State.countIssue_absent (x : Ctx) (p l : Nat) : (s.countIssue x p l).absent = s.absent := by
  simp only [State.countIssue]; split <;> simp
@[simp] theorem State.countIssue_poison (x : Ctx) (p l : Nat) : (s.countIssue x p l).poison = s.poison := by
  simp only [State.countIssue]; split <;> simp
@[simp] theorem State.countIssue_memOps (x : Ctx) (p l : Nat) : (s.countIssue x p l).memOps = s.memOps := by
  simp only [State.countIssue]; split <;> simp
@[simp] theorem State.countIssue_batches (x : Ctx) (p l : Nat) : (s.countIssue x p l).batches = s.batches := by
  simp only [State.countIssue]; split <;> simp
@[simp] theorem State.countIssue_ops (x : Ctx) (p l : Nat) : (s.countIssue x p l).ops = s.ops := by
  simp only [State.countIssue]; split <;> simp
@[simp] theorem State.countIssue_carries (x : Ctx) (p l : Nat) : (s.countIssue x p l).carries = s.carries := by
  simp only [State.countIssue]; split <;> simp
@[simp] theorem State.countIssue_remotes (x : Ctx) (p l : Nat) : (s.countIssue x p l).remotes = s.remotes := by
  simp only [State.countIssue]; split <;> simp
@[simp] theorem State.countIssue_colls (x : Ctx) (p l : Nat) : (s.countIssue x p l).colls = s.colls := by
  simp only [State.countIssue]; split <;> simp
@[simp] theorem State.countIssue_fabric (x : Ctx) (p l : Nat) : (s.countIssue x p l).fabric = s.fabric := by
  simp only [State.countIssue]; split <;> simp
@[simp] theorem State.countIssue_revoked (x : Ctx) (p l : Nat) : (s.countIssue x p l).revoked = s.revoked := by
  simp only [State.countIssue]; split <;> simp
@[simp] theorem State.countIssue_ownRevoked (x : Ctx) (p l : Nat) : (s.countIssue x p l).ownRevoked = s.ownRevoked := by
  simp only [State.countIssue]; split <;> simp
@[simp] theorem State.countIssue_sxEntries (x : Ctx) (p l : Nat) : (s.countIssue x p l).sxEntries = s.sxEntries := by
  simp only [State.countIssue]; split <;> simp
@[simp] theorem State.countIssue_sxProgs (x : Ctx) (p l : Nat) : (s.countIssue x p l).sxProgs = s.sxProgs := by
  simp only [State.countIssue]; split <;> simp
@[simp] theorem State.countIssue_sxRuns (x : Ctx) (p l : Nat) : (s.countIssue x p l).sxRuns = s.sxRuns := by
  simp only [State.countIssue]; split <;> simp
@[simp] theorem State.countIssue_halts (x : Ctx) (p l : Nat) : (s.countIssue x p l).halts = s.halts := by
  simp only [State.countIssue]; split <;> simp
@[simp] theorem State.countIssue_inputs (x : Ctx) (p l : Nat) : (s.countIssue x p l).inputs = s.inputs := by
  simp only [State.countIssue]; split <;> simp
@[simp] theorem State.countIssue_arriving (x : Ctx) (p l : Nat) : (s.countIssue x p l).arriving = s.arriving := by
  simp only [State.countIssue]; split <;> simp
@[simp] theorem State.countIssue_trainFault (x : Ctx) (p l : Nat) : (s.countIssue x p l).trainFault = s.trainFault := by
  simp only [State.countIssue]; split <;> simp
@[simp] theorem State.countIssue_cur (x : Ctx) (p l : Nat) : (s.countIssue x p l).cur = s.cur := by
  simp only [State.countIssue]; split <;> simp
@[simp] theorem State.countIssue_tick (x : Ctx) (p l : Nat) : (s.countIssue x p l).tick = s.tick := by
  simp only [State.countIssue]; split <;> simp
@[simp] theorem State.countIssue_draws (x : Ctx) (p l : Nat) : (s.countIssue x p l).draws = s.draws := by
  simp only [State.countIssue]; split <;> simp
@[simp] theorem State.countIssue_nextId (x : Ctx) (p l : Nat) : (s.countIssue x p l).nextId = s.nextId := by
  simp only [State.countIssue]; split <;> simp

end Sys2Proof.Machine
end

