-- ==== Sys2Proof/Laws/Issue.lean ====
section
/-!
SUPPORT. Laws of issuing: counting touches nothing but the counters, and what a uniform instruction, a control instruction
and a pass leave behind when nothing else acts.
-/

namespace Sys2Proof.Machine

/-! ## States but for their counts -/

@[simp] theorem State.uncounted_modBundle (s : State) (g b : Nat) (f : Bundle → Bundle) :
    (s.modBundle g b f).uncounted = s.uncounted.modBundle g b f := rfl

@[simp] theorem State.uncounted_setS (s : State) (x : Ctx) (c : Nat) (v : W64) :
    (s.setS x c v).uncounted = s.uncounted.setS x c v := rfl

@[simp] theorem State.uncounted_setPair (s : State) (x : Ctx) (c v : Nat) :
    (s.setPair x c v).uncounted = s.uncounted.setPair x c v := rfl

/-- A core that is not listed holds nothing. -/
theorem State.core_of_not_any {s : State} {d c : Nat} (h : ¬ s.cores.any (fun k => k.die == d && k.core == c) = true) :
    s.core d c = Core.blank d c := by
  unfold State.core
  rw [List.find?_eq_none.2]
  · rfl
  · intro k hk hc
    exact h (List.any_eq_true.2 ⟨k, hk, hc⟩)

/-- A change of a listed core's counts alone changes no state but the counts. -/
theorem State.uncounted_modCore {s : State} {d c : Nat} {f : Core → Core} (h : s.cores.any (fun k => k.die == d && k.core == c) = true)
    (hf : ∀ k, { f k with counters := [], banked := [] } = { k with counters := [], banked := [] }) :
    (s.modCore d c f).uncounted = s.uncounted := by
  unfold State.modCore
  rw [if_pos h]
  simp only [State.uncounted, List.map_map]
  congr 1
  apply List.map_congr_left
  intro k _
  dsimp only [Function.comp]
  split
  · exact hf k
  · rfl

/-- A count that is taken is taken on a listed core. -/
theorem State.perfWith_lists {s : State} {g : Gang} {ev r n : Nat} (h : s.perfWith g ev r n ≠ s) :
    s.cores.any (fun k => k.die == g.die && k.core == g.core) = true := by
  by_contra hn
  apply h
  unfold State.perfWith
  rw [State.core_of_not_any hn]
  simp [Core.blank, bit]

/-- Counting changes no state but the counters. -/
@[simp] theorem State.uncounted_perfWith (s : State) (g : Gang) (ev r n : Nat) :
    (s.perfWith g ev r n).uncounted = s.uncounted := by
  by_cases h : s.perfWith g ev r n = s
  · rw [h]
  · have hl := State.perfWith_lists h
    unfold State.perfWith
    dsimp only
    split
    · rfl
    · exact State.uncounted_modCore hl (fun _ => rfl)

/-- Counting lists no core and drops none. -/
theorem State.perfWith_cores (s : State) (g : Gang) (ev r n d c : Nat) :
    (s.perfWith g ev r n).cores.any (fun k => k.die == d && k.core == c) = s.cores.any (fun k => k.die == d && k.core == c) := by
  by_cases h : s.perfWith g ev r n = s
  · rw [h]
  · have hl := State.perfWith_lists h
    unfold State.perfWith
    dsimp only
    split
    · rfl
    · unfold State.modCore
      rw [if_pos hl]
      simp only [List.any_map]
      congr 1
      funext k
      dsimp only [Function.comp]
      split <;> rfl

@[simp] theorem State.uncounted_perf (s : State) (g : Gang) (ev n : Nat) : (s.perf g ev n).uncounted = s.uncounted :=
  State.uncounted_perfWith s g ev 0 n

@[simp] theorem State.uncounted_countIssue (s : State) (x : Ctx) (p l : Nat) :
    (s.countIssue x p l).uncounted = s.uncounted := by
  unfold State.countIssue
  split <;> simp

@[simp] theorem State.uncounted_countPass (s : State) (x : Ctx) (l : Nat) :
    (s.countPass x l).uncounted = s.uncounted := State.uncounted_countIssue s x 1 l

/-- Counting the cycles of a bank conflict changes no state but the counts (R174). -/
@[simp] theorem State.uncounted_countBank (s : State) (x : Ctx) (i : Instr) : (s.countBank x i).uncounted = s.uncounted := by
  unfold State.countBank
  split
  · rename_i h
    simp only [Bool.and_eq_true] at h
    have hl : (s.perfWith x.g 3 3 1).cores.any (fun c => c.die == x.g.die && c.core == x.g.core) = true := by
      rw [State.perfWith_cores]; exact h.2
    rw [← State.uncounted_perfWith s x.g 3 3 1]
    exact State.uncounted_modCore hl (fun _ => rfl)
  · rfl

/-! ## Bundles changed -/

theorem modNth_modNth {α : Type} (xs : List α) (i : Nat) (f g : α → α) :
    modNth (modNth xs i f) i g = modNth xs i (fun a => g (f a)) := by
  induction xs generalizing i with
  | nil => rfl
  | cons a xs ih => cases i with
    | zero => rfl
    | succ i => simp [modNth, ih]

theorem modNth_id {α : Type} (xs : List α) (i : Nat) : modNth xs i (fun a => a) = xs := by
  induction xs generalizing i with
  | nil => rfl
  | cons a xs ih => cases i with
    | zero => rfl
    | succ i => simp [modNth, ih]

/-- Two changes of a bundle are one. -/
theorem State.modBundle_modBundle (s : State) (g b : Nat) (f f' : Bundle → Bundle) :
    (s.modBundle g b f).modBundle g b f' = s.modBundle g b (fun x => f' (f x)) := by
  simp only [State.modBundle, State.modGang, List.map_map]
  congr 1
  apply List.map_congr_left
  intro k _
  by_cases h : k.gid = g
  · subst h; simp [modNth_modNth]
  · simp [h]

theorem State.modBundle_id (s : State) (g b : Nat) : s.modBundle g b (fun x => x) = s := by
  have h : ∀ k : Gang, (if (k.gid == g) = true then { k with bundles := modNth k.bundles b (fun x => x) } else k) = k := by
    intro k; split
    · rw [modNth_id]
    · rfl
  simp only [State.modBundle, State.modGang, h, List.map_id']

/-- A change that the bundle of the issuing sub-bundle does not see is none. -/
theorem Bundle.modSub_modSub (b : Bundle) (k : Nat) (f g : Sub → Sub) :
    (b.modSub k f).modSub k g = b.modSub k (fun q => g (f q)) := by
  simp [Bundle.modSub, modNth_modNth]

/-! ## Charging -/

/-- Charging an issue is one change of the bundle. -/
theorem State.charge_eq (s : State) (x : Ctx) : s.charge x = s.modBundle x.c.gid x.c.bundle (x.counted s) := by
  unfold State.charge
  split
  · rename_i h
    rw [show x.counted s = fun b => b from funext fun b => by simp [Ctx.counted, h], State.modBundle_id]
  · rename_i h
    show s.modBundle _ _ _ = _
    congr 1
    funext b
    cases hc : x.c.first <;> simp [Ctx.counted, h, hc, Bundle.charge, ofBool]

/-- Charging depends on the dies alone. -/
theorem Ctx.counted_congr {x : Ctx} {s t : State} (h : (s.die x.g.die).cycles = (t.die x.g.die).cycles) : x.counted s = x.counted t := by
  funext b
  simp [Ctx.counted, h]

@[simp] theorem Ctx.counted_countIssue (x : Ctx) (s : State) (y : Ctx) (p l : Nat) : x.counted (s.countIssue y p l) = x.counted s :=
  Ctx.counted_congr (by simp [State.die])

@[simp] theorem Ctx.counted_modBundle (x : Ctx) (s : State) (g b : Nat) (f : Bundle → Bundle) : x.counted (s.modBundle g b f) = x.counted s :=
  Ctx.counted_congr rfl

/-- Two states of one tick and one core clock leave a bundle alike. -/
theorem Ctx.after_congr {x : Ctx} {s t : State} (h : (s.die x.g.die).cycles = (t.die x.g.die).cycles) (hk : s.tick = t.tick) :
    x.afterUniform s = x.afterUniform t ∧ x.afterMove s = x.afterMove t ∧ x.afterWait s = x.afterWait t ∧ x.afterPass s = x.afterPass t := by
  have hc := Ctx.counted_congr h
  refine ⟨?_, ?_, ?_, ?_⟩ <;> funext <;>
    simp [Ctx.afterUniform, Ctx.afterMove, Ctx.afterWait, Ctx.afterPass, Ctx.movedOn, hc, hk]

/-! ## Ends of instructions -/

/-- Whether a gang's crew has ended depends on the gang's crew and the crews alone. -/
theorem State.ending_congr {s t : State} {gid : Nat} (hc : s.crews = t.crews)
    (hg : (s.gang gid).map (·.crew) = (t.gang gid).map (·.crew)) : s.ending gid = t.ending gid := by
  unfold State.ending State.crew
  rw [hc]
  cases h1 : s.gang gid <;> cases h2 : t.gang gid <;> simp_all

/-- A change of bundles leaves every gang in its crew. -/
@[simp] theorem State.ending_modBundle (s : State) (g b : Nat) (f : Bundle → Bundle) (gid : Nat) :
    (s.modBundle g b f).ending gid = s.ending gid := by
  refine State.ending_congr rfl ?_
  simp only [State.gang, State.modBundle, State.modGang, List.find?_map, Option.map_map, Function.comp_def]
  have h : (fun (k : Gang) => (if (k.gid == g) = true then { k with bundles := modNth k.bundles b f } else k).gid == gid) =
      (fun k => k.gid == gid) := by
    funext k; split <;> rfl
  rw [h]
  congr 1
  funext k; split <;> rfl

@[simp] theorem State.ending_countIssue (s : State) (x : Ctx) (p l gid : Nat) : (s.countIssue x p l).ending gid = s.ending gid :=
  State.ending_congr (by simp) (by simp [State.gang])

@[simp] theorem State.ending_setS (s : State) (x : Ctx) (c : Nat) (v : W64) (gid : Nat) : (s.setS x c v).ending gid = s.ending gid :=
  State.ending_modBundle ..

@[simp] theorem State.ending_completeSub (s : State) (x : Ctx) (gid : Nat) : (s.completeSub x).ending gid = s.ending gid :=
  State.ending_modBundle ..

/-- Nothing is due at the end of an instruction of a crew that has not ended. -/
theorem State.dueEnd_alive {s : State} {gid : Nat} (h : s.ending gid = false) : s.dueEnd gid = s := by
  unfold State.ending at h
  unfold State.dueEnd
  cases hg : s.gang gid with
  | none => rfl
  | some g => cases hc : s.crew g.crew with
    | none => simp [hc]
    | some c => simp_all

/-- With no halt pending, of a crew that has not ended, nothing falls due. -/
theorem State.dueHalts_calm {s : State} (h : s.halts = []) {g : Nat} (ha : s.ending g = false) (b : Nat) : s.dueHalts g b = s := by
  simp [State.dueHalts, State.dueEnd_alive ha, h]

/-- The end of an instruction of a sub-bundle that is not stepped. -/
theorem State.endStep_free {x : Ctx} (h : x.q.stepping = false) (s : State) : s.endStep x = s := by
  simp [State.endStep, h]

@[simp] theorem State.completeSub_halts (s : State) (x : Ctx) : (s.completeSub x).halts = s.halts := rfl

/-- A uniform instruction that completes where it stands. -/
theorem State.finishUniform_done {x : Ctx} {s0 s : State} (hf : x.q.stepping = false) (hc : s.halts = [])
    (ha : s.ending x.c.gid = false) (control : Bool) (len : Nat) :
    (s0.finishUniform x control len (.done s)).uncounted =
      s.uncounted.modBundle x.c.gid x.c.bundle (x.afterUniform s len control) := by
  simp only [State.finishUniform, State.endStep_free hf, State.charge_eq]
  rw [State.dueHalts_calm]
  · cases control <;> simp only [State.completeSub] <;> simp [State.modBundle_modBundle] <;>
      refine congrArg _ (funext fun b => ?_) <;> simp [Ctx.afterUniform, Ctx.movedOn, Ctx.latched]
  · cases control <;> simp [hc]
  · cases control <;> simp [ha]

/-- A control instruction that has set its slices' offsets. -/
theorem State.finishUniform_moved {x : Ctx} {s0 s : State} (hf : x.q.stepping = false) (hc : s.halts = [])
    (ha : s.ending x.c.gid = false) (len : Nat) :
    (s0.finishUniform x true len (.moved s)).uncounted =
      s.uncounted.modBundle x.c.gid x.c.bundle (x.afterMove s) := by
  simp only [State.finishUniform, State.endStep_free hf, State.charge_eq]
  rw [State.dueHalts_calm]
  · simp only [State.completeSub]
    simp [State.modBundle_modBundle]
    refine congrArg _ (funext fun b => ?_)
    simp [Ctx.afterMove, Ctx.latched]
  · simp [hc]
  · simp [ha]

/-- A uniform instruction that waits. -/
theorem State.finishUniform_wait {x : Ctx} {s0 s : State} (hk : s.tick = s0.tick) (control : Bool) (len : Nat) (w : Wait) :
    (s0.finishUniform x control len (.wait w s)).uncounted =
      s.uncounted.modBundle x.c.gid x.c.bundle (x.afterWait s w) := by
  simp only [State.finishUniform, State.charge_eq]
  simp [State.modBundle_modBundle]
  refine congrArg _ (funext fun b => ?_)
  simp [Ctx.afterWait, hk]

/-- The end of a pass. -/
theorem State.finishPass_uncounted {x : Ctx} {s : State} (hf : x.q.stepping = false) (hc : s.halts = [])
    (ha : s.ending x.c.gid = false) (len : Nat) :
    (s.finishPass x len).uncounted = s.uncounted.modBundle x.c.gid x.c.bundle (x.afterPass s len) := by
  simp only [State.finishPass, State.charge_eq]
  cases hr : x.c.rest with
  | nil =>
    simp only [State.endStep_free hf]
    rw [State.dueHalts_calm]
    · simp only [State.completeSub]
      simp [State.modBundle_modBundle]
      refine congrArg _ (funext fun b => ?_)
      simp [Ctx.afterPass, Ctx.movedOn, hr]
    · simp [hc]
    · simp [ha]
  | cons p ps =>
    simp [State.modBundle_modBundle]
    refine congrArg _ (funext fun b => ?_)
    simp [Ctx.afterPass, hr]

/-! ## Instructions that pass their checks -/

/-- A uniform or control instruction that no check stops: what its effect leaves. -/
theorem runUniform_next {s : State} {x : Ctx} {control : Bool} {len : Nat} {form : Ctx → Form} {w : XWord}
    {extra : Ctx → Option FaultInfo} {eff : Ctx → State → Eff} (h : s.ctx = some x)
    (hf : { form x with uniform := true, result := false }.check x.g.kernel.v x.g.kernel.atlas w = none)
    (he : extra x = none) (hd : x.inTime) :
    runUniform control len form w extra eff s = .next (s.finishUniform x control len (eff x s)) := by
  simp only [Ctx.inTime] at hd
  simp only [runUniform, runUniformWith, h, hf, he, hd, firstFault]
  cases eff x s <;> rfl

/-- A uniform or control instruction that no check stops and that waits before its issue. -/
theorem runUniform_hold {s : State} {x : Ctx} {control : Bool} {len : Nat} {form : Ctx → Form} {w : XWord}
    {extra : Ctx → Option FaultInfo} {eff : Ctx → State → Eff} {r : Nat} (h : s.ctx = some x)
    (hf : { form x with uniform := true, result := false }.check x.g.kernel.v x.g.kernel.atlas w = none)
    (he : extra x = none) (hr : eff x s = .hold r) :
    runUniform control len form w extra eff s = .next (s.hold x r) := by
  simp [runUniform, runUniformWith, h, hf, he, hr, firstFault]

/-- What a sub-bundle that may not issue yet leaves of its bundle. -/
theorem State.hold_eq (s : State) (x : Ctx) (r : Nat) : s.hold x r = s.modBundle x.c.gid x.c.bundle (x.afterHold s r) := rfl

/-- A scalar instruction that no check stops: its result in its destination, and nothing else but the bundle's progress. -/
theorem runScalar_next {s : State} {x : Ctx} {len : Nat} {form : Form} {w : XWord} {f : Ctx → State → W64} (h : s.Issues x)
    (hf : { form with uniform := true, result := false }.check x.g.kernel.v x.g.kernel.atlas w = none) (hd : x.inTime) :
    ∃ t, runScalar len form w f s = .next t ∧ t.uncounted = s.uncounted.modBundle x.c.gid x.c.bundle
      (fun b => x.afterUniform s len false (b.writeS w.d9.toNat (f x s))) := by
  refine ⟨_, runUniform_next h.ctx hf rfl hd, ?_⟩
  rw [State.finishUniform_done h.free (by simpa using h.calm) (by simpa using h.alive),
    (Ctx.after_congr (s := s.setS x w.d9.toNat (f x s)) (t := s) rfl rfl).1]
  simp [State.setS, State.modBundle_modBundle]

/-- With no entry armed an event is not observed. -/
theorem State.observe_unwatched {s : State} (h : s.watching = false) (v : WatchEvent) (w : Option Nat) : s.observe v w = s := by
  have hs : s.sxEntries = [] := by
    simp only [State.watching, Bool.or_eq_false_iff] at h; simpa using h.1
  have hc : s.cores.any (fun c => c.watch.any (fun e => e.armed)) = false := by
    simp only [State.watching, Bool.or_eq_false_iff] at h; exact h.2
  have ha : ∀ g, s.anyArmed g = false := by
    intro g
    simp only [State.anyArmed, hs, List.any_nil, Bool.or_false]
    by_cases hn : s.cores.any (fun k => k.die == g.die && k.core == g.core) = true
    · simp only [State.core]
      cases hf : s.cores.find? (fun k => k.die == g.die && k.core == g.core) with
      | none => simp [Core.blank]
      | some k =>
        have := List.mem_of_find?_eq_some hf
        simp only [List.any_eq_false] at hc
        simpa using hc k this
    · rw [State.core_of_not_any hn]; simp [Core.blank]
  unfold State.observe
  split
  · simp [ha, hs]
  · rfl

/-! ## Statements from meanings -/

/-- An instruction whose meaning is a uniform one that is done completes with its effect. -/
theorem completes_of {i : Instr} {control : Bool} {len : Nat} {form : Form} {w : XWord} {ok : Ctx → State → Prop}
    {eff : Ctx → State → State} {f : Ctx → State → Bundle → Bundle} {extra : Ctx → Option FaultInfo} {act : Ctx → State → Eff}
    (he : ∀ s, exec i s = runUniform control len (fun _ => form) w extra act s)
    (hx : ∀ s x, s.Issues x → ok x s → extra x = none)
    (ha : ∀ s x, s.Issues x → ok x s → act x s = .done ((eff x s).modBundle x.c.gid x.c.bundle (f x s)))
    (hh : ∀ s x, (eff x s).halts = s.halts ∧ (eff x s).tick = s.tick ∧ ((eff x s).die x.g.die).cycles = (s.die x.g.die).cycles ∧
      (eff x s).ending x.c.gid = s.ending x.c.gid) :
    Completes i control len form w ok eff f := by
  intro s x h hd hp ho
  refine ⟨_, (he s).trans (runUniform_next h.ctx hp (hx s x h ho) hd), ?_⟩
  have hk := hh s x
  rw [ha s x h ho, State.finishUniform_done h.free (by simpa [State.modBundle, State.modGang, hk.1] using h.calm)
    (by simpa [hk.2.2.2] using h.alive)]
  simp only [State.uncounted_modBundle, State.modBundle_modBundle]
  rw [(Ctx.after_congr (s := (eff x s).modBundle x.c.gid x.c.bundle (f x s)) (t := s) hk.2.2.1 hk.2.1).1]

/-- An instruction whose meaning is a control instruction that moves. -/
theorem moves_of {i : Instr} {len : Nat} {form : Form} {w : XWord} {ok : Ctx → Prop} {f : Ctx → Bundle → Bundle}
    {extra : Ctx → Option FaultInfo} {act : Ctx → State → Eff}
    (he : ∀ s, exec i s = runUniform true len (fun _ => form) w extra act s) (hx : ∀ x, ok x → extra x = none)
    (ha : ∀ s x, s.Issues x → ok x → act x s = .moved (s.modBundle x.c.gid x.c.bundle (f x))) : Moves i form w ok f := by
  intro s x h hd hp ho
  refine ⟨_, (he s).trans (runUniform_next h.ctx hp (hx x ho) hd), ?_⟩
  rw [ha s x h ho, State.finishUniform_moved h.free (by exact h.calm) (by simpa using h.alive)]
  rw [(Ctx.after_congr (s := s.modBundle x.c.gid x.c.bundle (f x)) (t := s) rfl rfl).2.1]
  simp only [State.uncounted_modBundle, State.modBundle_modBundle]

/-- An instruction whose meaning is a uniform one that waits. -/
theorem waits_of {i : Instr} {control : Bool} {len : Nat} {form : Form} {w : XWord} {ok : Ctx → State → Prop}
    {eff : Ctx → State → State} {why : Ctx → State → Wait} {extra : Ctx → Option FaultInfo} {act : Ctx → State → Eff}
    (he : ∀ s, exec i s = runUniform control len (fun _ => form) w extra act s)
    (hx : ∀ s x, s.Issues x → ok x s → extra x = none)
    (ha : ∀ s x, s.Issues x → ok x s → act x s = .wait (why x s) (eff x s))
    (hh : ∀ s x, (eff x s).tick = s.tick ∧ ((eff x s).die x.g.die).cycles = (s.die x.g.die).cycles) : Waits i form w ok eff why := by
  intro s x h hd hp ho
  refine ⟨_, (he s).trans (runUniform_next h.ctx hp (hx s x h ho) hd), ?_⟩
  rw [ha s x h ho, State.finishUniform_wait (hh s x).1, (Ctx.after_congr (hh s x).2 (hh s x).1).2.2.1]

/-- An instruction whose meaning is a uniform one that may not issue yet. -/
theorem holds_of {i : Instr} {control : Bool} {len : Nat} {form : Form} {w : XWord} {ok : Ctx → State → Prop}
    {reason : Ctx → State → Nat} {extra : Ctx → Option FaultInfo} {act : Ctx → State → Eff}
    (he : ∀ s, exec i s = runUniform control len (fun _ => form) w extra act s) (hx : ∀ s x, ok x s → extra x = none)
    (ha : ∀ s x, ok x s → act x s = .hold (reason x s)) : Holds i form w ok reason := by
  intro s x h hp ho
  exact (he s).trans (runUniform_hold h hp (hx s x ho) (ha s x ho))

end Sys2Proof.Machine
end

