-- ==== Sys2Proof/Laws/Lane.lean ====
section
/-!
SUPPORT. Laws of per-lane instructions: when a word passes the checks of R44, and what a pass leaves of its bundle.
-/

namespace Sys2Proof.Machine

/-! ## The checks of R44 -/

@[simp] theorem failIf_eq_none {c : Bool} {f : FaultInfo} : failIf c f = none ↔ c = false := by
  cases c <;> simp [failIf]

/-- A list of checks raises nothing exactly when none of them does. -/
theorem firstFault_eq_none {cs : List (Option FaultInfo)} : firstFault cs = none ↔ ∀ c ∈ cs, c = none := by
  induction cs with
  | nil => simp [firstFault]
  | cons c cs ih => cases c <;> simp [firstFault, ih]

/-- What the checks of a form require of the word beside FN and the reserved bits. -/
def Form.rest (f : Form) (v atlas : Nat) (w : XWord) : Prop := { f with fnOk := true, resOk := true }.check v atlas w = none

/-- The checks of a form pass exactly when FN, the reserved bits and the rest do. -/
theorem Form.check_none {f : Form} {v atlas : Nat} {w : XWord} :
    f.check v atlas w = none ↔ f.fnOk = true ∧ f.resOk = true ∧ f.rest v atlas w := by
  obtain ⟨d, a, b, c, fnOk, resOk, operandOk, litOk, uniform, result, group⟩ := f
  cases fnOk <;> cases resOk <;> simp [Form.rest, Form.check, firstFault_eq_none]

/-- A form that asks no more of FN and of the reserved bits lets every word pass that passes a form like it. -/
theorem Form.check_mono {f f' : Form} {v atlas : Nat} {w : XWord} (h : f.check v atlas w = none)
    (he : { f with fnOk := true, resOk := true } = { f' with fnOk := true, resOk := true })
    (hf : f.fnOk = true → f.resOk = true → f'.fnOk = true ∧ f'.resOk = true) : f'.check v atlas w = none := by
  rw [Form.check_none] at h ⊢
  obtain ⟨h1, h2, h3⟩ := h
  refine ⟨(hf h1 h2).1, (hf h1 h2).2, ?_⟩
  simpa [Form.rest, he] using h3

/-! ## Passes -/

/-- A pass that no check stops. -/
theorem runLane_next {i : Instr} {len : Nat} {extra : Ctx → Option FaultInfo} {eff : Ctx → List Nat → State → State}
    {s : State} {x : Ctx} (h : s.ctx = some x) (hf : laneFieldCheck x.g.kernel i = none) (he : extra x = none)
    (hl : x.latchCheck x.c.plane i = none) (hd : x.inTime) :
    runLane i len extra eff s = .next ((eff x (x.lanesIn x.c.plane (guardOf i))
      ((s.countPass x (x.lanesIn x.c.plane (guardOf i)).length).countBank x i)).finishPass x len) := by
  simp only [Ctx.inTime] at hd
  simp [runLane, h, hf, he, hl, hd, firstFault]

/-- The lanes that execute are lanes of the bundle. -/
theorem Ctx.lanesIn_lt {x : Ctx} {p : Nat} {g : Nat × Bool} {l : Nat} (h : l ∈ x.lanesIn p g) : ∃ y, x.b.lanes[l]? = some y := by
  simp only [Ctx.lanesIn, List.mem_filter] at h
  cases hy : x.b.lanes[l]? with
  | none => simp [hy] at h
  | some y => exact ⟨y, rfl⟩

/-- Counting leaves what is watched. -/
theorem State.watching_uncounted (s : State) : s.uncounted.watching = s.watching := by
  simp [State.watching, State.uncounted, List.any_map, Function.comp_def]

@[simp] theorem State.watching_countPass (s : State) (x : Ctx) (n : Nat) : (s.countPass x n).watching = s.watching := by
  rw [← State.watching_uncounted, State.uncounted_countPass, State.watching_uncounted]

@[simp] theorem State.halts_countPass (s : State) (x : Ctx) (n : Nat) : (s.countPass x n).halts = s.halts := by
  simp [State.countPass]

@[simp] theorem State.tick_countPass (s : State) (x : Ctx) (n : Nat) : (s.countPass x n).tick = s.tick := by
  simp [State.countPass]

/-- Counting the cycles of a bank conflict leaves what an issue depends on (R174). -/
@[simp] theorem State.watching_countBank (s : State) (x : Ctx) (i : Instr) : (s.countBank x i).watching = s.watching := by
  rw [← State.watching_uncounted, State.uncounted_countBank, State.watching_uncounted]

@[simp] theorem State.halts_countBank (s : State) (x : Ctx) (i : Instr) : (s.countBank x i).halts = s.halts :=
  show (s.countBank x i).uncounted.halts = s.uncounted.halts by rw [State.uncounted_countBank]

@[simp] theorem State.tick_countBank (s : State) (x : Ctx) (i : Instr) : (s.countBank x i).tick = s.tick :=
  show (s.countBank x i).uncounted.tick = s.uncounted.tick by rw [State.uncounted_countBank]

@[simp] theorem State.dies_countBank (s : State) (x : Ctx) (i : Instr) : (s.countBank x i).dies = s.dies :=
  show (s.countBank x i).uncounted.dies = s.uncounted.dies by rw [State.uncounted_countBank]

@[simp] theorem State.ending_countBank (s : State) (x : Ctx) (i : Instr) (gid : Nat) : (s.countBank x i).ending gid = s.ending gid :=
  show (s.countBank x i).uncounted.ending gid = s.uncounted.ending gid by rw [State.uncounted_countBank]

@[simp] theorem State.ending_countPass (s : State) (x : Ctx) (n gid : Nat) : (s.countPass x n).ending gid = s.ending gid :=
  State.ending_countIssue ..

/-- A result delivered lane by lane. -/
theorem Bundle.foldl_modLane {α : Type} (ls : List Nat) (r : Nat → α) (f : α → Lane → Lane) (b : Bundle) :
    (ls.map (fun l => (l, r l))).foldl (fun b q => b.modLane q.1 (f q.2)) b = b.eachLane ls (fun l y => f (r l) y) := by
  simp only [Bundle.eachLane, List.foldl_map]

/-- The lanes of a list that exist, with a value each. -/
theorem Ctx.filterMap_lanes {α : Type} {x : Ctx} {ls : List Nat} (h : ∀ l ∈ ls, ∃ y, x.b.lanes[l]? = some y)
    (d : α) (f : Nat → Lane → α) :
    ls.filterMap (fun l => (x.b.lanes[l]?).map (fun y => (l, f l y))) = ls.map (fun l => (l, x.ofLane d l (f l))) := by
  induction ls with
  | nil => rfl
  | cons l ls ih =>
    obtain ⟨y, hy⟩ := h l (by simp)
    rw [List.filterMap_cons, ih (fun k hk => h k (by simp [hk]))]
    simp [hy, Ctx.ofLane]

/-- Events that no entry watches change nothing. -/
theorem State.foldl_observe_unwatched {α : Type} {s : State} (h : s.watching = false) (xs : List α) (v : α → WatchEvent)
    (w : Option Nat) : xs.foldl (fun s r => s.observe (v r) w) s = s := by
  induction xs with
  | nil => rfl
  | cons a xs ih => rw [List.foldl_cons, State.observe_unwatched h, ih]

/-- A result delivered to the executing lanes, when nothing is watched. -/
theorem State.deliverPass_eq {s : State} {x : Ctx} {w : XWord} {ls : List Nat} {f : Nat → Lane → LaneResult}
    (hw : s.watching = false) (hl : ∀ l ∈ ls, ∃ y, x.b.lanes[l]? = some y) :
    s.deliverPass x w ls f = s.modBundle x.c.gid x.c.bundle (fun b =>
      b.eachLane ls (fun l y => y.deliver w (x.ofLane 0 l (fun y0 => (f l y0).1)))) := by
  simp only [State.deliverPass]
  rw [State.foldl_observe_unwatched (by simpa [State.watching] using hw)]
  congr 1
  funext b
  rw [Ctx.filterMap_lanes hl (0, 0) f, Bundle.foldl_modLane ls (fun l => x.ofLane (0, 0) l (f l)) (fun r y => y.deliver w r.1)]
  congr 1
  funext l y
  congr 1
  simp only [Ctx.ofLane]
  split <;> rfl

/-- A per-lane instruction that no check stops and whose effect is a change of the bundle. -/
theorem runLane_passes {i : Instr} {len : Nat} {eff : Ctx → List Nat → State → State} {s : State} {x : Ctx}
    {f : List Nat → Bundle → Bundle} (h : s.Issues x) (hw : s.watching = false)
    (hf : laneFieldCheck x.g.kernel i = none) (hl : x.latchCheck x.c.plane i = none) (hd : x.inTime)
    (he : ∀ t : State, t.watching = false → ∀ ls, (∀ l ∈ ls, ∃ y, x.b.lanes[l]? = some y) →
      eff x ls t = t.modBundle x.c.gid x.c.bundle (f ls)) :
    ∃ t, runLane i len noExtra eff s = .next t ∧ t.uncounted = s.uncounted.modBundle x.c.gid x.c.bundle
      (fun b => x.afterPass s len (f (x.lanesIn x.c.plane (guardOf i)) b)) := by
  refine ⟨_, runLane_next h.ctx hf rfl hl hd, ?_⟩
  rw [he _ (by simpa using hw) _ (fun l hl => Ctx.lanesIn_lt hl)]
  rw [State.finishPass_uncounted h.free (by simpa using h.calm) (by simpa using h.alive),
    (Ctx.after_congr (t := s) (by simp [State.die, State.countPass]) (by simp [State.countPass])).2.2.2]
  simp [State.modBundle_modBundle]

/-- An instruction whose result depends on its own lane's operands, from its meaning: what it has to satisfy to give a value. -/
theorem LaneGives_of_runCompute {i : Instr} {len : Nat} {form : Ctx → Form} {w w' : XWord}
    {f : W32 → W32 → W32 → LaneResult} {value : Ctx → List Nat → Nat → Lane → W32}
    (he : ∀ s, exec i s = runCompute i w' len f s) (hw : w'.d9 = w.d9 ∧ w'.nwb = w.nwb)
    (hg : guardOf i = (w.pred.toNat, w.pn == 1))
    (hc : ∀ x : Ctx, (form x).check x.g.kernel.v x.g.kernel.atlas w = none → laneFieldCheck x.g.kernel i = none)
    (hv : ∀ (x : Ctx) ls l y, (form x).check x.g.kernel.v x.g.kernel.atlas w = none →
      (f (argA w' l y) (argB w' l y) (argC w' l y)).1 = value x ls l y) : LaneGives i len form w value := by
  intro s x h hn hd hf hl
  rw [he]
  have := runLane_passes (i := i) (len := len) (eff := fun x ls s => s.deliverPass x w' ls (fun l y =>
    f (argA w' l y) (argB w' l y) (argC w' l y))) (f := fun ls b => b.eachLane ls (fun l y => y.deliver w (x.ofLane 0 l (value x ls l))))
    h hn (hc x hf) hl hd (by
      intro t ht ls hls
      rw [State.deliverPass_eq ht hls]
      simp only [Lane.deliver, hw.1, hw.2, fun l y => hv x ls l y hf])
  rwa [hg] at this

end Sys2Proof.Machine
end

