-- ==== Sys2Proof/Laws/Memory.lean ====
section
/-!
SUPPORT. Memory: reading after writing, and the canonical form that every memory operation keeps.
-/

namespace Sys2Proof.Machine

/-! ## One byte -/

theorem memRead_memWrite (m : List Host.Cell) (a c : Nat) (b : Byte) (h : Memory.wf m = true) :
    memRead (memWrite m a b) c = if c = a then b else memRead m c := by
  have low : ∀ (m : List Host.Cell) (a : Nat) (lo : Nat), memWfFrom (some lo) m = true → a ≤ lo → memRead m a = blankByte := by
    intro m
    induction m with
    | nil => intros; rfl
    | cons d ds ih =>
      intro a lo hw hl
      simp only [memWfFrom, Bool.and_eq_true, decide_eq_true_eq] at hw
      obtain ⟨⟨h1, _⟩, h3⟩ := hw
      have : d.1 ≠ a := by omega
      simp only [memRead, this, if_false]
      exact ih a d.1 h3 (by omega)
  have main : ∀ (m : List Host.Cell) (lo : Option Nat), memWfFrom lo m = true →
      memRead (memWrite m a b) c = if c = a then b else memRead m c := by
    intro m
    induction m with
    | nil =>
      intro lo _
      by_cases hb : b = blankByte <;> by_cases hc : c = a <;> simp [memWrite, memRead, hb, hc]
      intro h; exact absurd h.symm hc
    | cons d ds ih =>
      intro lo hw
      simp only [memWfFrom, Bool.and_eq_true] at hw
      obtain ⟨⟨_, _⟩, h3⟩ := hw
      simp only [memWrite]
      split
      · rename_i hlt
        by_cases hb : b = blankByte
        · simp only [hb, if_true]
          by_cases hc : c = a
          · have : d.1 ≠ c := by omega
            simp only [hc, if_true]
            simp only [memRead]
            have : d.1 ≠ a := by omega
            simp only [this, if_false]
            exact low ds a d.1 h3 (by omega)
          · simp [hc]
        · simp only [hb, if_false]
          by_cases hc : c = a
          · simp [memRead, hc]
          · have : a ≠ c := fun h => hc h.symm
            simp [memRead, hc, this]
      · rename_i hnlt
        by_cases he : a = d.1
        · simp only [he, if_true]
          by_cases hb : b = blankByte
          · simp only [hb, if_true]
            by_cases hc : c = d.1
            · simp only [hc, if_true]; exact low ds d.1 d.1 h3 (by omega)
            · have : d.1 ≠ c := fun h => hc h.symm
              simp [memRead, hc, this]
          · simp only [hb, if_false]
            by_cases hc : c = d.1
            · simp [memRead, hc]
            · have : d.1 ≠ c := fun h => hc h.symm
              simp [memRead, hc, this]
        · simp only [he, if_false]
          simp only [memRead]
          by_cases hd : d.1 = c
          · have : c ≠ a := by omega
            simp [hd, this]
          · simp only [hd, if_false]; exact ih (some d.1) h3
  exact main m none h

theorem memWfFrom_memWrite (a : Nat) (b : Byte) : ∀ (m : List Host.Cell) (lo : Option Nat), memWfFrom lo m = true →
    (∀ x, lo = some x → x < a) → memWfFrom lo (memWrite m a b) = true := by
  intro m
  induction m with
  | nil =>
    intro lo _ hlo
    by_cases hb : b = blankByte
    · simp [memWrite, hb, memWfFrom]
    · cases lo with
      | none => simp [memWrite, hb, memWfFrom]
      | some x => simp [memWrite, hb, memWfFrom, hlo x rfl]
  | cons d ds ih =>
    intro lo hw hlo
    have hw' := hw
    simp only [memWfFrom, Bool.and_eq_true, decide_eq_true_eq] at hw
    obtain ⟨⟨h1, h2⟩, h3⟩ := hw
    have weaken : ∀ (es : List Host.Cell) (p q : Nat), memWfFrom (some q) es = true → p ≤ q → memWfFrom (some p) es = true := by
      intro es p q hq hpq
      cases es with
      | nil => rfl
      | cons e es =>
        simp only [memWfFrom, Bool.and_eq_true, decide_eq_true_eq] at hq ⊢
        exact ⟨⟨by omega, hq.1.2⟩, hq.2⟩
    simp only [memWrite]
    split
    · rename_i hlt
      by_cases hb : b = blankByte
      · simpa [hb] using hw'
      · simp only [hb, if_false]
        have tail : memWfFrom (some a) (d :: ds) = true := by simp [memWfFrom, hlt, h2, h3]
        cases lo with
        | none => rw [memWfFrom, tail]; simp [hb]
        | some x => rw [memWfFrom, tail]; simp [hb, hlo x rfl]
    · rename_i hnlt
      by_cases he : a = d.1
      · subst he
        by_cases hb : b = blankByte
        · simp only [if_true, hb]
          cases lo with
          | none =>
            cases ds with
            | nil => rfl
            | cons e es =>
              simp only [memWfFrom, Bool.and_eq_true, decide_eq_true_eq] at h3 ⊢
              exact ⟨⟨trivial, h3.1.2⟩, h3.2⟩
          | some x => exact weaken ds x d.1 h3 (by have := hlo x rfl; omega)
        · simp only [if_true, hb, if_false]
          cases lo with
          | none => simp [memWfFrom, hb, h3]
          | some x => simp [memWfFrom, hb, h3, hlo x rfl]
      · simp only [he, if_false]
        have := ih (some d.1) h3 (by intro x hx; injection hx with hx; omega)
        cases lo with
        | none => simp [memWfFrom, h2, this]
        | some x => simp only [memWfFrom, this]; simp at h1; simp [h1, h2]

/-- A write keeps the canonical form. -/
theorem memWrite_wf {m : List Host.Cell} (h : Memory.wf m = true) (a : Nat) (b : Byte) : Memory.wf (memWrite m a b) = true :=
  memWfFrom_memWrite a b m none h (by simp)

/-! ## Runs of bytes -/

theorem writeBytes_wf : ∀ (bs : List Byte) {m : List Host.Cell} (_ : Memory.wf m = true) (a : Nat), Memory.wf (writeBytes m a bs) = true
  | [], _, h, _ => h
  | b :: bs, _, h, a => writeBytes_wf bs (memWrite_wf h a b) (a + 1)

/-- A byte after a run of bytes has been written: the byte written there, or what it was. -/
theorem memRead_writeBytes : ∀ (bs : List Byte) {m : List Host.Cell} (_ : Memory.wf m = true) (a c : Nat),
    memRead (writeBytes m a bs) c = if a ≤ c ∧ c < a + bs.length then bs.getD (c - a) 0 else memRead m c
  | [], m, _, a, c => by
    rw [if_neg (by simp only [List.length_nil]; omega)]; rfl
  | b :: bs, m, h, a, c => by
    rw [writeBytes, memRead_writeBytes bs (memWrite_wf h a b), memRead_memWrite m a c b h]
    by_cases hc : c = a
    · subst hc
      rw [if_neg (by omega), if_pos rfl, if_pos (by simp)]; simp
    · by_cases h1 : a ≤ c ∧ c < a + (b :: bs).length
      · have h3 : c - a = (c - (a + 1)) + 1 := by omega
        rw [if_pos h1, if_pos (by simp at h1; omega), h3]; simp
      · rw [if_neg h1, if_neg hc, if_neg (by simp at h1; omega)]

theorem readBytes_length (m : List Host.Cell) : ∀ (n a : Nat), (readBytes m a n).length = n
  | 0, _ => rfl
  | n + 1, a => by simp [readBytes, readBytes_length m n]

theorem readBytes_getD (m : List Host.Cell) : ∀ (n a i : Nat), i < n → (readBytes m a n).getD i 0 = memRead m (a + i)
  | 0, _, i, h => absurd h (Nat.not_lt_zero i)
  | n + 1, a, 0, _ => by simp [readBytes]
  | n + 1, a, i + 1, h => by
    have := readBytes_getD m n (a + 1) i (by omega)
    simp only [readBytes, List.getD_cons_succ, this]
    congr 1; omega

/-- Reading back what was written. -/
theorem readBytes_writeBytes_same {m : List Host.Cell} (h : Memory.wf m = true) (a : Nat) (bs : List Byte) :
    readBytes (writeBytes m a bs) a bs.length = bs := by
  apply List.ext_getElem
  · simp [readBytes_length]
  · intro i h1 h2
    have e := readBytes_getD (writeBytes m a bs) bs.length a i h2
    rw [memRead_writeBytes bs h] at e
    have c : a ≤ a + i ∧ a + i < a + bs.length := by omega
    simp only [c, and_self, if_true] at e
    have l : (readBytes (writeBytes m a bs) a bs.length).getD i 0 = (readBytes (writeBytes m a bs) a bs.length)[i] := by
      simp [List.getD_eq_getElem?_getD, List.getElem?_eq_getElem h1]
    rw [← l, e]
    simp [List.getD_eq_getElem?_getD, List.getElem?_eq_getElem h2]

/-- A write elsewhere leaves a byte as it was. -/
theorem memRead_writeBytes_other {m : List Host.Cell} (h : Memory.wf m = true) {a c : Nat} {bs : List Byte}
    (hc : ¬ (a ≤ c ∧ c < a + bs.length)) : memRead (writeBytes m a bs) c = memRead m c := by
  rw [memRead_writeBytes bs h]; simp [hc]

/-! ## The state's memory operations -/

theorem State.putBytes_wf {s : State} (h : Memory.wf s.mem = true) (a : Nat) (bs : List Byte) : Memory.wf (s.putBytes a bs).mem = true :=
  writeBytes_wf bs h a

@[simp] theorem State.dropLines_mem (s : State) (d : Nat) (p : Nat → Bool) (ls : List Nat) : (s.dropLines d p ls).mem = s.mem := rfl

@[simp] theorem State.invalidate_mem (s : State) (d : Nat) (e : Option (Nat × Nat)) (ls : List Nat) : (s.invalidate d e ls).mem = s.mem := by
  simp only [State.invalidate]; split <;> rfl

@[simp] theorem State.writeHome_mem (s : State) (e : Option (Nat × Nat)) (a : Nat) (bs : List Byte) :
    (s.writeHome e a bs).mem = writeBytes s.mem a bs := by simp [State.writeHome, State.putBytes]

theorem State.writeHome_wf {s : State} (h : Memory.wf s.mem = true) (e : Option (Nat × Nat)) (a : Nat) (bs : List Byte) :
    Memory.wf (s.writeHome e a bs).mem = true := by simpa using writeBytes_wf bs h a

theorem State.writeRuns_wf (e : Option (Nat × Nat)) : ∀ (rs : List (Nat × Nat)) (bs : List Byte) {s : State} (_ : Memory.wf s.mem = true),
    Memory.wf (s.writeRuns e rs bs).mem = true
  | [], _, _, h => h
  | r :: rs, bs, _, h => State.writeRuns_wf e rs (bs.drop r.2) (State.writeHome_wf h e r.1 (bs.take r.2))

/-- Dropping the cells of a range keeps the canonical form. -/
theorem memWfFrom_filter (p : Host.Cell → Bool) : ∀ (m : List Host.Cell) (lo : Option Nat), memWfFrom lo m = true →
    memWfFrom lo (m.filter p) = true := by
  intro m
  induction m with
  | nil => intro lo h; exact h
  | cons d ds ih =>
    intro lo h
    have weaken : ∀ (es : List Host.Cell) (q : Nat), memWfFrom (some q) es = true → (∀ x, lo = some x → x < q) → memWfFrom lo es = true := by
      intro es q hq hl
      cases es with
      | nil => rfl
      | cons e es =>
        simp only [memWfFrom, Bool.and_eq_true, decide_eq_true_eq] at hq ⊢
        refine ⟨⟨?_, hq.1.2⟩, hq.2⟩
        cases lo with
        | none => rfl
        | some x => have := hl x rfl; simp; omega
    simp only [memWfFrom, Bool.and_eq_true, decide_eq_true_eq] at h
    obtain ⟨⟨h1, h2⟩, h3⟩ := h
    by_cases hp : p d = true
    · rw [List.filter_cons_of_pos hp]
      simp only [memWfFrom, ih (some d.1) h3, Bool.and_true, Bool.and_eq_true, decide_eq_true_eq]
      exact ⟨h1, h2⟩
    · rw [List.filter_cons_of_neg hp]
      refine weaken _ d.1 (ih (some d.1) h3) ?_
      intro x hx; subst hx; simpa using h1

theorem State.clearPad_wf {s : State} (h : Memory.wf s.mem = true) (a n : Nat) : Memory.wf (s.clearPad a n).mem = true :=
  memWfFrom_filter _ s.mem none h

/-- The module right after reset has a memory in canonical form. -/
theorem reset_mem_wf : Memory.wf State.reset.mem = true := rfl

end Sys2Proof.Machine
end

