-- ==== Sys2Proof/Laws/PerInstr.lean ====
section
/-!
SUPPORT. The family RoundTrip: for each constructor, the words the encoder writes for a well-formed instruction decode to
it and leave the words after them. A row that is an event or a message has no words.
-/

namespace Sys2Proof.Laws

set_option Elab.async false
set_option linter.unusedSimpArgs false

/-- What the family says of an instruction. -/
def RoundTrip.Statement (i : Instr) : Prop :=
  wellFormed i = true → encode i ≠ [] → ∀ rest, decodeWords (encode i ++ rest) = .ok (i, rest)

/-- The decoder on a format S word. -/
theorem decode_s (op : Nat) (w : SWord) (rest : List W32) (ho : op < 128) :
    decodeWords ([Encode.sWord 0 op w] ++ rest) = (Decode.decodeS op (Encode.sWord 0 op w)).map (fun i => (i, rest)) := by
  simp [decodeWords, sWord_len 0 op w (by omega) ho, sWord_op 0 op w (by omega) ho]

/-- The decoder on a format SL instruction. -/
theorem decode_sl (op : Nat) (w : SWord) (lit : W64) (rest : List W32) (ho : op < 128) :
    decodeWords ((Encode.sWord 2 op w :: Encode.litWords lit) ++ rest) = (Decode.decodeSl op w lit).map (fun i => (i, rest)) := by
  obtain ⟨lo, hi, e, hl⟩ := lit_eq lit
  simp [decodeWords, e, hl, sWord_len 2 op w (by omega) ho, sWord_op 2 op w (by omega) ho, sWord_fields 2 op w (by omega) ho]

/-- The decoder on a format XL instruction. -/
theorem decode_xl (op : Nat) (w : XWord) (lit : W64) (rest : List W32) (ho : op < 128) :
    decodeWords ((Encode.xWords 3 op w ++ Encode.litWords lit) ++ rest) = (Decode.decodeXl op w lit).map (fun i => (i, rest)) := by
  obtain ⟨lo, hi, e, hl⟩ := lit_eq lit
  obtain ⟨w0, w1, e', h1, h2, h3⟩ := xWords_eq 3 op w (by omega) ho
  simp [decodeWords, e, e', hl, h1, h2, h3]

/-- What the decoder makes of a format X word outside bra and PAIR. -/
def decodeXWord (op : Nat) (w : XWord) : Except Reject Instr :=
  if op < 0x10 then Decode.decodeXControl op w
  else if op < 0x30 then Decode.decodeXScalar op w
  else if op < 0x50 then Decode.decodeXInt op w
  else if op < 0x68 then Decode.decodeXFloat op w
  else if op < 0x74 then Decode.decodeXMem op w
  else if op = 0x74 then Decode.decodeCpy w
  else if op = 0x75 then Decode.decodeMma w
  else Decode.decodeXSys op w

/-- The decoder on a format X instruction. -/
theorem decode_x (op : Nat) (w : XWord) (rest : List W32) (ho : op < 128) (h1 : op ≠ 1) (h127 : op ≠ 127) :
    decodeWords (Encode.xWords 1 op w ++ rest) = (decodeXWord op w).map (fun i => (i, rest)) := by
  obtain ⟨w0, w1, e, hl, hop, hf⟩ := xWords_eq 1 op w (by omega) ho
  simp [decodeWords, e, hl, hop, hf, Decode.decodeX, decodeXWord, h1, h127]

theorem RoundTrip.bra (w : BraWord) : RoundTrip.Statement (.bra w) := by
  intro _ _ rest
  obtain ⟨w0, e, hl, hop, hf⟩ := braWords_eq w
  simp [encode, e, decodeWords, hl, hop, Decode.decodeX, hf, Except.map]

theorem RoundTrip.brx (w : XWord) : RoundTrip.Statement (.brx w) := by
  intro _ _ rest
  rw [encode, decode_x 0x02 w rest (by omega) (by omega) (by omega)]
  simp [decodeXWord, Decode.decodeXControl, Except.map]

theorem RoundTrip.bru (w : XWord) : RoundTrip.Statement (.bru w) := by
  intro _ _ rest
  rw [encode, decode_x 0x0E w rest (by omega) (by omega) (by omega)]
  simp [decodeXWord, Decode.decodeXControl, Except.map]

theorem RoundTrip.call (w : XWord) : RoundTrip.Statement (.call w) := by
  intro hw _ rest
  rw [encode, decode_x 0x03 w rest (by omega) (by omega) (by omega)]
  simp only [wellFormed, beq_iff_eq, bne_iff_ne, Bool.and_eq_true, Bool.or_eq_true] at hw
  simp [decodeXWord, Decode.decodeXControl, Except.map, hw]

theorem RoundTrip.callIndirect (w : XWord) : RoundTrip.Statement (.callIndirect w) := by
  intro hw _ rest
  rw [encode, decode_x 0x03 w rest (by omega) (by omega) (by omega)]
  simp only [wellFormed, beq_iff_eq, bne_iff_ne, Bool.and_eq_true, Bool.or_eq_true] at hw
  simp [decodeXWord, Decode.decodeXControl, Except.map, hw]

theorem RoundTrip.planeSet (w : XWord) : RoundTrip.Statement (.planeSet w) := by
  intro hw _ rest
  rw [encode, decode_x 0x07 w rest (by omega) (by omega) (by omega)]
  simp only [wellFormed, beq_iff_eq, bne_iff_ne, Bool.and_eq_true, Bool.or_eq_true] at hw
  simp [decodeXWord, Decode.decodeXControl, Except.map, hw]

theorem RoundTrip.planeMov (w : XWord) : RoundTrip.Statement (.planeMov w) := by
  intro hw _ rest
  rw [encode, decode_x 0x07 w rest (by omega) (by omega) (by omega)]
  simp only [wellFormed, beq_iff_eq, bne_iff_ne, Bool.and_eq_true, Bool.or_eq_true] at hw
  simp [decodeXWord, Decode.decodeXControl, Except.map, hw]

theorem RoundTrip.planeGet (w : XWord) : RoundTrip.Statement (.planeGet w) := by
  intro hw _ rest
  rw [encode, decode_x 0x07 w rest (by omega) (by omega) (by omega)]
  simp only [wellFormed, beq_iff_eq, bne_iff_ne, Bool.and_eq_true, Bool.or_eq_true] at hw
  simp [decodeXWord, Decode.decodeXControl, Except.map, hw]

theorem RoundTrip.planeBal (w : XWord) : RoundTrip.Statement (.planeBal w) := by
  intro hw _ rest
  rw [encode, decode_x 0x07 w rest (by omega) (by omega) (by omega)]
  simp only [wellFormed, beq_iff_eq, bne_iff_ne, Bool.and_eq_true, Bool.or_eq_true] at hw
  simp [decodeXWord, Decode.decodeXControl, Except.map, hw]

theorem RoundTrip.yield (w : XWord) : RoundTrip.Statement (.yield w) := by
  intro _ _ rest
  rw [encode, decode_x 0x08 w rest (by omega) (by omega) (by omega)]
  simp [decodeXWord, Decode.decodeXControl, Except.map]

theorem RoundTrip.trap (w : TrapWord) : RoundTrip.Statement (.trap w) := by
  intro _ _ rest
  obtain ⟨hl, hop, hf⟩ := trapWord_eq w
  simp [encode, decodeWords, hl, hop, Decode.decodeS, hf, Except.map]

theorem RoundTrip.barInit (w : XWord) : RoundTrip.Statement (.barInit w) := by
  intro hw _ rest
  rw [encode, decode_x 0x0B w rest (by omega) (by omega) (by omega)]
  simp only [wellFormed, beq_iff_eq, bne_iff_ne, Bool.and_eq_true, Bool.or_eq_true] at hw
  simp [decodeXWord, Decode.decodeXControl, Except.map, hw]

theorem RoundTrip.barArrive (w : XWord) : RoundTrip.Statement (.barArrive w) := by
  intro hw _ rest
  rw [encode, decode_x 0x0B w rest (by omega) (by omega) (by omega)]
  simp only [wellFormed, beq_iff_eq, bne_iff_ne, Bool.and_eq_true, Bool.or_eq_true] at hw
  simp [decodeXWord, Decode.decodeXControl, Except.map, hw]

theorem RoundTrip.barWait (w : XWord) : RoundTrip.Statement (.barWait w) := by
  intro hw _ rest
  rw [encode, decode_x 0x0B w rest (by omega) (by omega) (by omega)]
  simp only [wellFormed, beq_iff_eq, bne_iff_ne, Bool.and_eq_true, Bool.or_eq_true] at hw
  simp [decodeXWord, Decode.decodeXControl, Except.map, hw]

theorem RoundTrip.barMeet (w : XWord) : RoundTrip.Statement (.barMeet w) := by
  intro hw _ rest
  rw [encode, decode_x 0x0B w rest (by omega) (by omega) (by omega)]
  simp only [wellFormed, beq_iff_eq, bne_iff_ne, Bool.and_eq_true, Bool.or_eq_true] at hw
  simp [decodeXWord, Decode.decodeXControl, Except.map, hw]

theorem RoundTrip.barArriveRemote (w : XWord) : RoundTrip.Statement (.barArriveRemote w) := by
  intro hw _ rest
  rw [encode, decode_x 0x0B w rest (by omega) (by omega) (by omega)]
  simp only [wellFormed, beq_iff_eq, bne_iff_ne, Bool.and_eq_true, Bool.or_eq_true] at hw
  simp [decodeXWord, Decode.decodeXControl, Except.map, hw]

theorem RoundTrip.barRed (w : XWord) : RoundTrip.Statement (.barRed w) := by
  intro hw _ rest
  rw [encode, decode_x 0x0B w rest (by omega) (by omega) (by omega)]
  simp only [wellFormed, beq_iff_eq, bne_iff_ne, Bool.and_eq_true, Bool.or_eq_true] at hw
  simp [decodeXWord, Decode.decodeXControl, Except.map, hw]

theorem RoundTrip.barQuery (w : XWord) : RoundTrip.Statement (.barQuery w) := by
  intro hw _ rest
  rw [encode, decode_x 0x0B w rest (by omega) (by omega) (by omega)]
  simp only [wellFormed, beq_iff_eq, bne_iff_ne, Bool.and_eq_true, Bool.or_eq_true] at hw
  simp [decodeXWord, Decode.decodeXControl, Except.map, hw]

theorem RoundTrip.waitTok (w : XWord) : RoundTrip.Statement (.waitTok w) := by
  intro hw _ rest
  rw [encode, decode_x 0x0C w rest (by omega) (by omega) (by omega)]
  simp only [wellFormed, beq_iff_eq, bne_iff_ne, Bool.and_eq_true, Bool.or_eq_true] at hw
  simp [decodeXWord, Decode.decodeXControl, Except.map, hw]

theorem RoundTrip.waitTl (w : XWord) : RoundTrip.Statement (.waitTl w) := by
  intro hw _ rest
  rw [encode, decode_x 0x0C w rest (by omega) (by omega) (by omega)]
  simp only [wellFormed, beq_iff_eq, bne_iff_ne, Bool.and_eq_true, Bool.or_eq_true] at hw
  simp [decodeXWord, Decode.decodeXControl, Except.map, hw]

theorem RoundTrip.fence (w : FenceWord) : RoundTrip.Statement (.fence w) := by
  intro hw _ rest
  obtain ⟨hl, hop, hf⟩ := fenceWord_eq w
  simp only [wellFormed, beq_iff_eq] at hw
  simp [encode, decodeWords, hl, hop, Decode.decodeS, hf, Except.map, hw]

theorem RoundTrip.fenceAlias (w : FenceWord) : RoundTrip.Statement (.fenceAlias w) := by
  intro hw _ rest
  obtain ⟨hl, hop, hf⟩ := fenceWord_eq w
  simp only [wellFormed, beq_iff_eq] at hw
  simp [encode, decodeWords, hl, hop, Decode.decodeS, hf, Except.map, hw]

theorem RoundTrip.grpJoin (w : XWord) : RoundTrip.Statement (.grpJoin w) := by
  intro hw _ rest
  rw [encode, decode_x 0x0F w rest (by omega) (by omega) (by omega)]
  simp only [wellFormed, beq_iff_eq, bne_iff_ne, Bool.and_eq_true, Bool.or_eq_true] at hw
  simp [decodeXWord, Decode.decodeXControl, Except.map, hw]

theorem RoundTrip.grpLeave (w : XWord) : RoundTrip.Statement (.grpLeave w) := by
  intro hw _ rest
  rw [encode, decode_x 0x0F w rest (by omega) (by omega) (by omega)]
  simp only [wellFormed, beq_iff_eq, bne_iff_ne, Bool.and_eq_true, Bool.or_eq_true] at hw
  simp [decodeXWord, Decode.decodeXControl, Except.map, hw]

theorem RoundTrip.grpQuery (w : XWord) : RoundTrip.Statement (.grpQuery w) := by
  intro hw _ rest
  rw [encode, decode_x 0x0F w rest (by omega) (by omega) (by omega)]
  simp only [wellFormed, beq_iff_eq, bne_iff_ne, Bool.and_eq_true, Bool.or_eq_true] at hw
  simp [decodeXWord, Decode.decodeXControl, Except.map, hw]

theorem RoundTrip.grpPublish (w : XWord) : RoundTrip.Statement (.grpPublish w) := by
  intro hw _ rest
  rw [encode, decode_x 0x0F w rest (by omega) (by omega) (by omega)]
  simp only [wellFormed, beq_iff_eq, bne_iff_ne, Bool.and_eq_true, Bool.or_eq_true] at hw
  simp [decodeXWord, Decode.decodeXControl, Except.map, hw]

theorem RoundTrip.saddSForm (w : SWord) : RoundTrip.Statement (.saddSForm w) := by
  intro _ _ rest
  rw [encode, decode_s 0x10 w rest (by omega)]
  simp [Decode.decodeS, sWord_fields 0 0x10 w (by omega) (by omega), Except.map]

theorem RoundTrip.saddSlForm (w : SWord) (lit : W64) : RoundTrip.Statement (.saddSlForm w lit) := by
  intro _ _ rest
  rw [encode, decode_sl 0x10 w lit rest (by omega)]
  simp [Decode.decodeSl, Except.map]

theorem RoundTrip.saddXForm (w : XWord) : RoundTrip.Statement (.saddXForm w) := by
  intro _ _ rest
  rw [encode, decode_x 0x10 w rest (by omega) (by omega) (by omega)]
  simp [decodeXWord, Decode.decodeXScalar, Except.map]

theorem RoundTrip.ssubSForm (w : SWord) : RoundTrip.Statement (.ssubSForm w) := by
  intro _ _ rest
  rw [encode, decode_s 0x11 w rest (by omega)]
  simp [Decode.decodeS, sWord_fields 0 0x11 w (by omega) (by omega), Except.map]

theorem RoundTrip.ssubSlForm (w : SWord) (lit : W64) : RoundTrip.Statement (.ssubSlForm w lit) := by
  intro _ _ rest
  rw [encode, decode_sl 0x11 w lit rest (by omega)]
  simp [Decode.decodeSl, Except.map]

theorem RoundTrip.ssubXForm (w : XWord) : RoundTrip.Statement (.ssubXForm w) := by
  intro _ _ rest
  rw [encode, decode_x 0x11 w rest (by omega) (by omega) (by omega)]
  simp [decodeXWord, Decode.decodeXScalar, Except.map]

theorem RoundTrip.smulSForm (w : SWord) : RoundTrip.Statement (.smulSForm w) := by
  intro _ _ rest
  rw [encode, decode_s 0x12 w rest (by omega)]
  simp [Decode.decodeS, sWord_fields 0 0x12 w (by omega) (by omega), Except.map]

theorem RoundTrip.smulSlForm (w : SWord) (lit : W64) : RoundTrip.Statement (.smulSlForm w lit) := by
  intro _ _ rest
  rw [encode, decode_sl 0x12 w lit rest (by omega)]
  simp [Decode.decodeSl, Except.map]

theorem RoundTrip.smulXForm (w : XWord) : RoundTrip.Statement (.smulXForm w) := by
  intro _ _ rest
  rw [encode, decode_x 0x12 w rest (by omega) (by omega) (by omega)]
  simp [decodeXWord, Decode.decodeXScalar, Except.map]

theorem RoundTrip.smulhSForm (w : SWord) : RoundTrip.Statement (.smulhSForm w) := by
  intro _ _ rest
  rw [encode, decode_s 0x13 w rest (by omega)]
  simp [Decode.decodeS, sWord_fields 0 0x13 w (by omega) (by omega), Except.map]

theorem RoundTrip.smulhSlForm (w : SWord) (lit : W64) : RoundTrip.Statement (.smulhSlForm w lit) := by
  intro _ _ rest
  rw [encode, decode_sl 0x13 w lit rest (by omega)]
  simp [Decode.decodeSl, Except.map]

theorem RoundTrip.smulhXForm (w : XWord) : RoundTrip.Statement (.smulhXForm w) := by
  intro hw _ rest
  rw [encode, decode_x 0x13 w rest (by omega) (by omega) (by omega)]
  simp only [wellFormed, beq_iff_eq, bne_iff_ne, Bool.and_eq_true, Bool.or_eq_true] at hw
  simp [decodeXWord, Decode.decodeXScalar, Except.map, hw]

theorem RoundTrip.smulhZ (w : XWord) : RoundTrip.Statement (.smulhZ w) := by
  intro hw _ rest
  rw [encode, decode_x 0x13 w rest (by omega) (by omega) (by omega)]
  simp only [wellFormed, beq_iff_eq, bne_iff_ne, Bool.and_eq_true, Bool.or_eq_true] at hw
  simp [decodeXWord, Decode.decodeXScalar, Except.map, hw]

theorem RoundTrip.sdivS (w : XWord) : RoundTrip.Statement (.sdivS w) := by
  intro hw _ rest
  rw [encode, decode_x 0x14 w rest (by omega) (by omega) (by omega)]
  simp only [wellFormed, beq_iff_eq, bne_iff_ne, Bool.and_eq_true, Bool.or_eq_true] at hw
  simp [decodeXWord, Decode.decodeXScalar, Except.map, hw]

theorem RoundTrip.sdivZ (w : XWord) : RoundTrip.Statement (.sdivZ w) := by
  intro hw _ rest
  rw [encode, decode_x 0x14 w rest (by omega) (by omega) (by omega)]
  simp only [wellFormed, beq_iff_eq, bne_iff_ne, Bool.and_eq_true, Bool.or_eq_true] at hw
  simp [decodeXWord, Decode.decodeXScalar, Except.map, hw]

theorem RoundTrip.sremS (w : XWord) : RoundTrip.Statement (.sremS w) := by
  intro hw _ rest
  rw [encode, decode_x 0x14 w rest (by omega) (by omega) (by omega)]
  simp only [wellFormed, beq_iff_eq, bne_iff_ne, Bool.and_eq_true, Bool.or_eq_true] at hw
  simp [decodeXWord, Decode.decodeXScalar, Except.map, hw]

theorem RoundTrip.sremZ (w : XWord) : RoundTrip.Statement (.sremZ w) := by
  intro hw _ rest
  rw [encode, decode_x 0x14 w rest (by omega) (by omega) (by omega)]
  simp only [wellFormed, beq_iff_eq, bne_iff_ne, Bool.and_eq_true, Bool.or_eq_true] at hw
  simp [decodeXWord, Decode.decodeXScalar, Except.map, hw]

theorem RoundTrip.sandSForm (w : SWord) : RoundTrip.Statement (.sandSForm w) := by
  intro _ _ rest
  rw [encode, decode_s 0x15 w rest (by omega)]
  simp [Decode.decodeS, sWord_fields 0 0x15 w (by omega) (by omega), Except.map]

theorem RoundTrip.sandSlForm (w : SWord) (lit : W64) : RoundTrip.Statement (.sandSlForm w lit) := by
  intro _ _ rest
  rw [encode, decode_sl 0x15 w lit rest (by omega)]
  simp [Decode.decodeSl, Except.map]

theorem RoundTrip.sandXForm (w : XWord) : RoundTrip.Statement (.sandXForm w) := by
  intro _ _ rest
  rw [encode, decode_x 0x15 w rest (by omega) (by omega) (by omega)]
  simp [decodeXWord, Decode.decodeXScalar, Except.map]

theorem RoundTrip.sorSForm (w : SWord) : RoundTrip.Statement (.sorSForm w) := by
  intro _ _ rest
  rw [encode, decode_s 0x16 w rest (by omega)]
  simp [Decode.decodeS, sWord_fields 0 0x16 w (by omega) (by omega), Except.map]

theorem RoundTrip.sorSlForm (w : SWord) (lit : W64) : RoundTrip.Statement (.sorSlForm w lit) := by
  intro _ _ rest
  rw [encode, decode_sl 0x16 w lit rest (by omega)]
  simp [Decode.decodeSl, Except.map]

theorem RoundTrip.sorXForm (w : XWord) : RoundTrip.Statement (.sorXForm w) := by
  intro _ _ rest
  rw [encode, decode_x 0x16 w rest (by omega) (by omega) (by omega)]
  simp [decodeXWord, Decode.decodeXScalar, Except.map]

theorem RoundTrip.sxorSForm (w : SWord) : RoundTrip.Statement (.sxorSForm w) := by
  intro _ _ rest
  rw [encode, decode_s 0x17 w rest (by omega)]
  simp [Decode.decodeS, sWord_fields 0 0x17 w (by omega) (by omega), Except.map]

theorem RoundTrip.sxorSlForm (w : SWord) (lit : W64) : RoundTrip.Statement (.sxorSlForm w lit) := by
  intro _ _ rest
  rw [encode, decode_sl 0x17 w lit rest (by omega)]
  simp [Decode.decodeSl, Except.map]

theorem RoundTrip.sxorXForm (w : XWord) : RoundTrip.Statement (.sxorXForm w) := by
  intro _ _ rest
  rw [encode, decode_x 0x17 w rest (by omega) (by omega) (by omega)]
  simp [decodeXWord, Decode.decodeXScalar, Except.map]

theorem RoundTrip.sshlSForm (w : SWord) : RoundTrip.Statement (.sshlSForm w) := by
  intro _ _ rest
  rw [encode, decode_s 0x18 w rest (by omega)]
  simp [Decode.decodeS, sWord_fields 0 0x18 w (by omega) (by omega), Except.map]

theorem RoundTrip.sshlSlForm (w : SWord) (lit : W64) : RoundTrip.Statement (.sshlSlForm w lit) := by
  intro _ _ rest
  rw [encode, decode_sl 0x18 w lit rest (by omega)]
  simp [Decode.decodeSl, Except.map]

theorem RoundTrip.sshlXForm (w : XWord) : RoundTrip.Statement (.sshlXForm w) := by
  intro _ _ rest
  rw [encode, decode_x 0x18 w rest (by omega) (by omega) (by omega)]
  simp [decodeXWord, Decode.decodeXScalar, Except.map]

theorem RoundTrip.sshrSForm (w : SWord) : RoundTrip.Statement (.sshrSForm w) := by
  intro _ _ rest
  rw [encode, decode_s 0x19 w rest (by omega)]
  simp [Decode.decodeS, sWord_fields 0 0x19 w (by omega) (by omega), Except.map]

theorem RoundTrip.sshrSlForm (w : SWord) (lit : W64) : RoundTrip.Statement (.sshrSlForm w lit) := by
  intro _ _ rest
  rw [encode, decode_sl 0x19 w lit rest (by omega)]
  simp [Decode.decodeSl, Except.map]

theorem RoundTrip.sshrXForm (w : XWord) : RoundTrip.Statement (.sshrXForm w) := by
  intro _ _ rest
  rw [encode, decode_x 0x19 w rest (by omega) (by omega) (by omega)]
  simp [decodeXWord, Decode.decodeXScalar, Except.map]

theorem RoundTrip.ssraSForm (w : SWord) : RoundTrip.Statement (.ssraSForm w) := by
  intro _ _ rest
  rw [encode, decode_s 0x1A w rest (by omega)]
  simp [Decode.decodeS, sWord_fields 0 0x1A w (by omega) (by omega), Except.map]

theorem RoundTrip.ssraSlForm (w : SWord) (lit : W64) : RoundTrip.Statement (.ssraSlForm w lit) := by
  intro _ _ rest
  rw [encode, decode_sl 0x1A w lit rest (by omega)]
  simp [Decode.decodeSl, Except.map]

theorem RoundTrip.ssraXForm (w : XWord) : RoundTrip.Statement (.ssraXForm w) := by
  intro _ _ rest
  rw [encode, decode_x 0x1A w rest (by omega) (by omega) (by omega)]
  simp [decodeXWord, Decode.decodeXScalar, Except.map]

theorem RoundTrip.sminS (w : XWord) : RoundTrip.Statement (.sminS w) := by
  intro hw _ rest
  rw [encode, decode_x 0x1B w rest (by omega) (by omega) (by omega)]
  simp only [wellFormed, beq_iff_eq, bne_iff_ne, Bool.and_eq_true, Bool.or_eq_true] at hw
  simp [decodeXWord, Decode.decodeXScalar, Except.map, hw]

theorem RoundTrip.sminZ (w : XWord) : RoundTrip.Statement (.sminZ w) := by
  intro hw _ rest
  rw [encode, decode_x 0x1B w rest (by omega) (by omega) (by omega)]
  simp only [wellFormed, beq_iff_eq, bne_iff_ne, Bool.and_eq_true, Bool.or_eq_true] at hw
  simp [decodeXWord, Decode.decodeXScalar, Except.map, hw]

theorem RoundTrip.smaxS (w : XWord) : RoundTrip.Statement (.smaxS w) := by
  intro hw _ rest
  rw [encode, decode_x 0x1B w rest (by omega) (by omega) (by omega)]
  simp only [wellFormed, beq_iff_eq, bne_iff_ne, Bool.and_eq_true, Bool.or_eq_true] at hw
  simp [decodeXWord, Decode.decodeXScalar, Except.map, hw]

theorem RoundTrip.smaxZ (w : XWord) : RoundTrip.Statement (.smaxZ w) := by
  intro hw _ rest
  rw [encode, decode_x 0x1B w rest (by omega) (by omega) (by omega)]
  simp only [wellFormed, beq_iff_eq, bne_iff_ne, Bool.and_eq_true, Bool.or_eq_true] at hw
  simp [decodeXWord, Decode.decodeXScalar, Except.map, hw]

theorem RoundTrip.scmp (w : XWord) : RoundTrip.Statement (.scmp w) := by
  intro _ _ rest
  rw [encode, decode_x 0x1C w rest (by omega) (by omega) (by omega)]
  simp [decodeXWord, Decode.decodeXScalar, Except.map]

theorem RoundTrip.ssel (w : XWord) : RoundTrip.Statement (.ssel w) := by
  intro _ _ rest
  rw [encode, decode_x 0x1D w rest (by omega) (by omega) (by omega)]
  simp [decodeXWord, Decode.decodeXScalar, Except.map]

theorem RoundTrip.sli (w : SWord) (lit : W64) : RoundTrip.Statement (.sli w lit) := by
  intro _ _ rest
  rw [encode, decode_sl 0x1E w lit rest (by omega)]
  simp [Decode.decodeSl, Except.map]

theorem RoundTrip.smov (w : SWord) : RoundTrip.Statement (.smov w) := by
  intro _ _ rest
  rw [encode, decode_s 0x1F w rest (by omega)]
  simp [Decode.decodeS, sWord_fields 0 0x1F w (by omega) (by omega), Except.map]

theorem RoundTrip.saddr (w : XWord) : RoundTrip.Statement (.saddr w) := by
  intro _ _ rest
  rw [encode, decode_x 0x20 w rest (by omega) (by omega) (by omega)]
  simp [decodeXWord, Decode.decodeXScalar, Except.map]

theorem RoundTrip.sbitPopc (w : XWord) : RoundTrip.Statement (.sbitPopc w) := by
  intro hw _ rest
  rw [encode, decode_x 0x21 w rest (by omega) (by omega) (by omega)]
  simp only [wellFormed, beq_iff_eq, bne_iff_ne, Bool.and_eq_true, Bool.or_eq_true] at hw
  simp [decodeXWord, Decode.decodeXScalar, Except.map, hw]

theorem RoundTrip.sbitClz (w : XWord) : RoundTrip.Statement (.sbitClz w) := by
  intro hw _ rest
  rw [encode, decode_x 0x21 w rest (by omega) (by omega) (by omega)]
  simp only [wellFormed, beq_iff_eq, bne_iff_ne, Bool.and_eq_true, Bool.or_eq_true] at hw
  simp [decodeXWord, Decode.decodeXScalar, Except.map, hw]

theorem RoundTrip.sbitCtz (w : XWord) : RoundTrip.Statement (.sbitCtz w) := by
  intro hw _ rest
  rw [encode, decode_x 0x21 w rest (by omega) (by omega) (by omega)]
  simp only [wellFormed, beq_iff_eq, bne_iff_ne, Bool.and_eq_true, Bool.or_eq_true] at hw
  simp [decodeXWord, Decode.decodeXScalar, Except.map, hw]

theorem RoundTrip.sbitBfx (w : XWord) : RoundTrip.Statement (.sbitBfx w) := by
  intro hw _ rest
  rw [encode, decode_x 0x21 w rest (by omega) (by omega) (by omega)]
  simp only [wellFormed, beq_iff_eq, bne_iff_ne, Bool.and_eq_true, Bool.or_eq_true] at hw
  simp [decodeXWord, Decode.decodeXScalar, Except.map, hw]

theorem RoundTrip.sbitBfi (w : XWord) : RoundTrip.Statement (.sbitBfi w) := by
  intro hw _ rest
  rw [encode, decode_x 0x21 w rest (by omega) (by omega) (by omega)]
  simp only [wellFormed, beq_iff_eq, bne_iff_ne, Bool.and_eq_true, Bool.or_eq_true] at hw
  simp [decodeXWord, Decode.decodeXScalar, Except.map, hw]

theorem RoundTrip.sbitBrev (w : XWord) : RoundTrip.Statement (.sbitBrev w) := by
  intro hw _ rest
  rw [encode, decode_x 0x21 w rest (by omega) (by omega) (by omega)]
  simp only [wellFormed, beq_iff_eq, bne_iff_ne, Bool.and_eq_true, Bool.or_eq_true] at hw
  simp [decodeXWord, Decode.decodeXScalar, Except.map, hw]

theorem RoundTrip.sbitBfxS (w : XWord) : RoundTrip.Statement (.sbitBfxS w) := by
  intro hw _ rest
  rw [encode, decode_x 0x21 w rest (by omega) (by omega) (by omega)]
  simp only [wellFormed, beq_iff_eq, bne_iff_ne, Bool.and_eq_true, Bool.or_eq_true] at hw
  simp [decodeXWord, Decode.decodeXScalar, Except.map, hw]

theorem RoundTrip.srd (w : XWord) : RoundTrip.Statement (.srd w) := by
  intro _ _ rest
  rw [encode, decode_x 0x22 w rest (by omega) (by omega) (by omega)]
  simp [decodeXWord, Decode.decodeXScalar, Except.map]

theorem RoundTrip.vget (w : XWord) : RoundTrip.Statement (.vget w) := by
  intro hw _ rest
  rw [encode, decode_x 0x23 w rest (by omega) (by omega) (by omega)]
  simp only [wellFormed, beq_iff_eq, bne_iff_ne, Bool.and_eq_true, Bool.or_eq_true] at hw
  simp [decodeXWord, Decode.decodeXScalar, Except.map, hw]

theorem RoundTrip.vgetS (w : XWord) : RoundTrip.Statement (.vgetS w) := by
  intro hw _ rest
  rw [encode, decode_x 0x23 w rest (by omega) (by omega) (by omega)]
  simp only [wellFormed, beq_iff_eq, bne_iff_ne, Bool.and_eq_true, Bool.or_eq_true] at hw
  simp [decodeXWord, Decode.decodeXScalar, Except.map, hw]

theorem RoundTrip.sld (w : XWord) : RoundTrip.Statement (.sld w) := by
  intro _ _ rest
  rw [encode, decode_x 0x24 w rest (by omega) (by omega) (by omega)]
  simp [decodeXWord, Decode.decodeXScalar, Except.map]

theorem RoundTrip.sst (w : XWord) : RoundTrip.Statement (.sst w) := by
  intro _ _ rest
  rw [encode, decode_x 0x25 w rest (by omega) (by omega) (by omega)]
  simp [decodeXWord, Decode.decodeXScalar, Except.map]

theorem RoundTrip.satom (w : XWord) : RoundTrip.Statement (.satom w) := by
  intro _ _ rest
  rw [encode, decode_x 0x26 w rest (by omega) (by omega) (by omega)]
  simp [decodeXWord, Decode.decodeXScalar, Except.map]

theorem RoundTrip.vaddSForm (w : SWord) : RoundTrip.Statement (.vaddSForm w) := by
  intro _ _ rest
  rw [encode, decode_s 0x30 w rest (by omega)]
  simp [Decode.decodeS, sWord_fields 0 0x30 w (by omega) (by omega), Except.map]

theorem RoundTrip.vaddXForm (w : XWord) : RoundTrip.Statement (.vaddXForm w) := by
  intro _ _ rest
  rw [encode, decode_x 0x30 w rest (by omega) (by omega) (by omega)]
  simp [decodeXWord, Decode.decodeXInt, Except.map]

theorem RoundTrip.vsubSForm (w : SWord) : RoundTrip.Statement (.vsubSForm w) := by
  intro _ _ rest
  rw [encode, decode_s 0x31 w rest (by omega)]
  simp [Decode.decodeS, sWord_fields 0 0x31 w (by omega) (by omega), Except.map]

theorem RoundTrip.vsubXForm (w : XWord) : RoundTrip.Statement (.vsubXForm w) := by
  intro _ _ rest
  rw [encode, decode_x 0x31 w rest (by omega) (by omega) (by omega)]
  simp [decodeXWord, Decode.decodeXInt, Except.map]

theorem RoundTrip.vmulSForm (w : SWord) : RoundTrip.Statement (.vmulSForm w) := by
  intro _ _ rest
  rw [encode, decode_s 0x32 w rest (by omega)]
  simp [Decode.decodeS, sWord_fields 0 0x32 w (by omega) (by omega), Except.map]

theorem RoundTrip.vmulXForm (w : XWord) : RoundTrip.Statement (.vmulXForm w) := by
  intro _ _ rest
  rw [encode, decode_x 0x32 w rest (by omega) (by omega) (by omega)]
  simp [decodeXWord, Decode.decodeXInt, Except.map]

theorem RoundTrip.vmulhSForm (w : SWord) : RoundTrip.Statement (.vmulhSForm w) := by
  intro _ _ rest
  rw [encode, decode_s 0x33 w rest (by omega)]
  simp [Decode.decodeS, sWord_fields 0 0x33 w (by omega) (by omega), Except.map]

theorem RoundTrip.vmulhXForm (w : XWord) : RoundTrip.Statement (.vmulhXForm w) := by
  intro _ _ rest
  rw [encode, decode_x 0x33 w rest (by omega) (by omega) (by omega)]
  simp [decodeXWord, Decode.decodeXInt, Except.map]

theorem RoundTrip.vmad (w : XWord) : RoundTrip.Statement (.vmad w) := by
  intro _ _ rest
  rw [encode, decode_x 0x34 w rest (by omega) (by omega) (by omega)]
  simp [decodeXWord, Decode.decodeXInt, Except.map]

theorem RoundTrip.vdot4 (w : XWord) : RoundTrip.Statement (.vdot4 w) := by
  intro _ _ rest
  rw [encode, decode_x 0x35 w rest (by omega) (by omega) (by omega)]
  simp [decodeXWord, Decode.decodeXInt, Except.map]

theorem RoundTrip.vandSForm (w : SWord) : RoundTrip.Statement (.vandSForm w) := by
  intro _ _ rest
  rw [encode, decode_s 0x36 w rest (by omega)]
  simp [Decode.decodeS, sWord_fields 0 0x36 w (by omega) (by omega), Except.map]

theorem RoundTrip.vandXForm (w : XWord) : RoundTrip.Statement (.vandXForm w) := by
  intro _ _ rest
  rw [encode, decode_x 0x36 w rest (by omega) (by omega) (by omega)]
  simp [decodeXWord, Decode.decodeXInt, Except.map]

theorem RoundTrip.vorSForm (w : SWord) : RoundTrip.Statement (.vorSForm w) := by
  intro _ _ rest
  rw [encode, decode_s 0x37 w rest (by omega)]
  simp [Decode.decodeS, sWord_fields 0 0x37 w (by omega) (by omega), Except.map]

theorem RoundTrip.vorXForm (w : XWord) : RoundTrip.Statement (.vorXForm w) := by
  intro _ _ rest
  rw [encode, decode_x 0x37 w rest (by omega) (by omega) (by omega)]
  simp [decodeXWord, Decode.decodeXInt, Except.map]

theorem RoundTrip.vxorSForm (w : SWord) : RoundTrip.Statement (.vxorSForm w) := by
  intro _ _ rest
  rw [encode, decode_s 0x38 w rest (by omega)]
  simp [Decode.decodeS, sWord_fields 0 0x38 w (by omega) (by omega), Except.map]

theorem RoundTrip.vxorXForm (w : XWord) : RoundTrip.Statement (.vxorXForm w) := by
  intro _ _ rest
  rw [encode, decode_x 0x38 w rest (by omega) (by omega) (by omega)]
  simp [decodeXWord, Decode.decodeXInt, Except.map]

theorem RoundTrip.vshlSForm (w : SWord) : RoundTrip.Statement (.vshlSForm w) := by
  intro _ _ rest
  rw [encode, decode_s 0x39 w rest (by omega)]
  simp [Decode.decodeS, sWord_fields 0 0x39 w (by omega) (by omega), Except.map]

theorem RoundTrip.vshlXForm (w : XWord) : RoundTrip.Statement (.vshlXForm w) := by
  intro _ _ rest
  rw [encode, decode_x 0x39 w rest (by omega) (by omega) (by omega)]
  simp [decodeXWord, Decode.decodeXInt, Except.map]

theorem RoundTrip.vshrSForm (w : SWord) : RoundTrip.Statement (.vshrSForm w) := by
  intro _ _ rest
  rw [encode, decode_s 0x3A w rest (by omega)]
  simp [Decode.decodeS, sWord_fields 0 0x3A w (by omega) (by omega), Except.map]

theorem RoundTrip.vshrXForm (w : XWord) : RoundTrip.Statement (.vshrXForm w) := by
  intro _ _ rest
  rw [encode, decode_x 0x3A w rest (by omega) (by omega) (by omega)]
  simp [decodeXWord, Decode.decodeXInt, Except.map]

theorem RoundTrip.vsraSForm (w : SWord) : RoundTrip.Statement (.vsraSForm w) := by
  intro _ _ rest
  rw [encode, decode_s 0x3B w rest (by omega)]
  simp [Decode.decodeS, sWord_fields 0 0x3B w (by omega) (by omega), Except.map]

theorem RoundTrip.vsraXForm (w : XWord) : RoundTrip.Statement (.vsraXForm w) := by
  intro _ _ rest
  rw [encode, decode_x 0x3B w rest (by omega) (by omega) (by omega)]
  simp [decodeXWord, Decode.decodeXInt, Except.map]

theorem RoundTrip.vmin (w : XWord) : RoundTrip.Statement (.vmin w) := by
  intro hw _ rest
  rw [encode, decode_x 0x3C w rest (by omega) (by omega) (by omega)]
  simp only [wellFormed, beq_iff_eq, bne_iff_ne, Bool.and_eq_true, Bool.or_eq_true] at hw
  simp [decodeXWord, Decode.decodeXInt, Except.map, hw]

theorem RoundTrip.vmax (w : XWord) : RoundTrip.Statement (.vmax w) := by
  intro hw _ rest
  rw [encode, decode_x 0x3C w rest (by omega) (by omega) (by omega)]
  simp only [wellFormed, beq_iff_eq, bne_iff_ne, Bool.and_eq_true, Bool.or_eq_true] at hw
  simp [decodeXWord, Decode.decodeXInt, Except.map, hw]

theorem RoundTrip.vabs (w : XWord) : RoundTrip.Statement (.vabs w) := by
  intro hw _ rest
  rw [encode, decode_x 0x3D w rest (by omega) (by omega) (by omega)]
  simp only [wellFormed, beq_iff_eq, bne_iff_ne, Bool.and_eq_true, Bool.or_eq_true] at hw
  simp [decodeXWord, Decode.decodeXInt, Except.map, hw]

theorem RoundTrip.vneg (w : XWord) : RoundTrip.Statement (.vneg w) := by
  intro hw _ rest
  rw [encode, decode_x 0x3D w rest (by omega) (by omega) (by omega)]
  simp only [wellFormed, beq_iff_eq, bne_iff_ne, Bool.and_eq_true, Bool.or_eq_true] at hw
  simp [decodeXWord, Decode.decodeXInt, Except.map, hw]

theorem RoundTrip.vsel (w : XWord) : RoundTrip.Statement (.vsel w) := by
  intro _ _ rest
  rw [encode, decode_x 0x3E w rest (by omega) (by omega) (by omega)]
  simp [decodeXWord, Decode.decodeXInt, Except.map]

theorem RoundTrip.vcmp (w : XWord) : RoundTrip.Statement (.vcmp w) := by
  intro _ _ rest
  rw [encode, decode_x 0x3F w rest (by omega) (by omega) (by omega)]
  simp [decodeXWord, Decode.decodeXInt, Except.map]

theorem RoundTrip.vmovSForm (w : SWord) : RoundTrip.Statement (.vmovSForm w) := by
  intro _ _ rest
  rw [encode, decode_s 0x40 w rest (by omega)]
  simp [Decode.decodeS, sWord_fields 0 0x40 w (by omega) (by omega), Except.map]

theorem RoundTrip.vmovSlForm (w : SWord) (lit : W64) : RoundTrip.Statement (.vmovSlForm w lit) := by
  intro _ _ rest
  rw [encode, decode_sl 0x40 w lit rest (by omega)]
  simp [Decode.decodeSl, Except.map]

theorem RoundTrip.vmovXForm (w : XWord) : RoundTrip.Statement (.vmovXForm w) := by
  intro _ _ rest
  rw [encode, decode_x 0x40 w rest (by omega) (by omega) (by omega)]
  simp [decodeXWord, Decode.decodeXInt, Except.map]

theorem RoundTrip.vfsh (w : XWord) : RoundTrip.Statement (.vfsh w) := by
  intro _ _ rest
  rw [encode, decode_x 0x41 w rest (by omega) (by omega) (by omega)]
  simp [decodeXWord, Decode.decodeXInt, Except.map]

theorem RoundTrip.vbitPopc (w : XWord) : RoundTrip.Statement (.vbitPopc w) := by
  intro hw _ rest
  rw [encode, decode_x 0x42 w rest (by omega) (by omega) (by omega)]
  simp only [wellFormed, beq_iff_eq, bne_iff_ne, Bool.and_eq_true, Bool.or_eq_true] at hw
  simp [decodeXWord, Decode.decodeXInt, Except.map, hw]

theorem RoundTrip.vbitClz (w : XWord) : RoundTrip.Statement (.vbitClz w) := by
  intro hw _ rest
  rw [encode, decode_x 0x42 w rest (by omega) (by omega) (by omega)]
  simp only [wellFormed, beq_iff_eq, bne_iff_ne, Bool.and_eq_true, Bool.or_eq_true] at hw
  simp [decodeXWord, Decode.decodeXInt, Except.map, hw]

theorem RoundTrip.vbitCtz (w : XWord) : RoundTrip.Statement (.vbitCtz w) := by
  intro hw _ rest
  rw [encode, decode_x 0x42 w rest (by omega) (by omega) (by omega)]
  simp only [wellFormed, beq_iff_eq, bne_iff_ne, Bool.and_eq_true, Bool.or_eq_true] at hw
  simp [decodeXWord, Decode.decodeXInt, Except.map, hw]

theorem RoundTrip.vbitBrev (w : XWord) : RoundTrip.Statement (.vbitBrev w) := by
  intro hw _ rest
  rw [encode, decode_x 0x42 w rest (by omega) (by omega) (by omega)]
  simp only [wellFormed, beq_iff_eq, bne_iff_ne, Bool.and_eq_true, Bool.or_eq_true] at hw
  simp [decodeXWord, Decode.decodeXInt, Except.map, hw]

theorem RoundTrip.vbitBfx (w : XWord) : RoundTrip.Statement (.vbitBfx w) := by
  intro hw _ rest
  rw [encode, decode_x 0x42 w rest (by omega) (by omega) (by omega)]
  simp only [wellFormed, beq_iff_eq, bne_iff_ne, Bool.and_eq_true, Bool.or_eq_true] at hw
  obtain hw | hw := hw <;> simp [decodeXWord, Decode.decodeXInt, Except.map, hw]

theorem RoundTrip.vbitBfi (w : XWord) : RoundTrip.Statement (.vbitBfi w) := by
  intro hw _ rest
  rw [encode, decode_x 0x42 w rest (by omega) (by omega) (by omega)]
  simp only [wellFormed, beq_iff_eq, bne_iff_ne, Bool.and_eq_true, Bool.or_eq_true] at hw
  simp [decodeXWord, Decode.decodeXInt, Except.map, hw]

theorem RoundTrip.vrsh (w : XWord) : RoundTrip.Statement (.vrsh w) := by
  intro _ _ rest
  rw [encode, decode_x 0x43 w rest (by omega) (by omega) (by omega)]
  simp [decodeXWord, Decode.decodeXInt, Except.map]

theorem RoundTrip.vpack (w : XWord) : RoundTrip.Statement (.vpack w) := by
  intro _ _ rest
  rw [encode, decode_x 0x44 w rest (by omega) (by omega) (by omega)]
  simp [decodeXWord, Decode.decodeXInt, Except.map]

theorem RoundTrip.vunpk (w : XWord) : RoundTrip.Statement (.vunpk w) := by
  intro _ _ rest
  rw [encode, decode_x 0x45 w rest (by omega) (by omega) (by omega)]
  simp [decodeXWord, Decode.decodeXInt, Except.map]

theorem RoundTrip.vshfl (w : XWord) : RoundTrip.Statement (.vshfl w) := by
  intro _ _ rest
  rw [encode, decode_x 0x46 w rest (by omega) (by omega) (by omega)]
  simp [decodeXWord, Decode.decodeXInt, Except.map]

theorem RoundTrip.vred (w : XWord) : RoundTrip.Statement (.vred w) := by
  intro _ _ rest
  rw [encode, decode_x 0x47 w rest (by omega) (by omega) (by omega)]
  simp [decodeXWord, Decode.decodeXInt, Except.map]

theorem RoundTrip.vscn (w : XWord) : RoundTrip.Statement (.vscn w) := by
  intro _ _ rest
  rw [encode, decode_x 0x48 w rest (by omega) (by omega) (by omega)]
  simp [decodeXWord, Decode.decodeXInt, Except.map]

theorem RoundTrip.vbal (w : XWord) : RoundTrip.Statement (.vbal w) := by
  intro _ _ rest
  rw [encode, decode_x 0x49 w rest (by omega) (by omega) (by omega)]
  simp [decodeXWord, Decode.decodeXInt, Except.map]

theorem RoundTrip.plog (w : XWord) : RoundTrip.Statement (.plog w) := by
  intro _ _ rest
  rw [encode, decode_x 0x4A w rest (by omega) (by omega) (by omega)]
  simp [decodeXWord, Decode.decodeXInt, Except.map]

theorem RoundTrip.vprm (w : XWord) : RoundTrip.Statement (.vprm w) := by
  intro _ _ rest
  rw [encode, decode_x 0x4B w rest (by omega) (by omega) (by omega)]
  simp [decodeXWord, Decode.decodeXInt, Except.map]

theorem RoundTrip.vlut (w : XWord) : RoundTrip.Statement (.vlut w) := by
  intro hw _ rest
  rw [encode, decode_x 0x4C w rest (by omega) (by omega) (by omega)]
  simp only [wellFormed, beq_iff_eq, bne_iff_ne, Bool.and_eq_true, Bool.or_eq_true] at hw
  simp [decodeXWord, Decode.decodeXInt, Except.map, hw]

theorem RoundTrip.vlutHi (w : XWord) : RoundTrip.Statement (.vlutHi w) := by
  intro hw _ rest
  rw [encode, decode_x 0x4C w rest (by omega) (by omega) (by omega)]
  simp only [wellFormed, beq_iff_eq, bne_iff_ne, Bool.and_eq_true, Bool.or_eq_true] at hw
  simp [decodeXWord, Decode.decodeXInt, Except.map, hw]

theorem RoundTrip.vlutP2 (w : XWord) : RoundTrip.Statement (.vlutP2 w) := by
  intro hw _ rest
  rw [encode, decode_x 0x4C w rest (by omega) (by omega) (by omega)]
  simp only [wellFormed, beq_iff_eq, bne_iff_ne, Bool.and_eq_true, Bool.or_eq_true] at hw
  simp [decodeXWord, Decode.decodeXInt, Except.map, hw]

theorem RoundTrip.pair (w : PairWord) : RoundTrip.Statement (.pair w) := by
  intro _ _ rest
  obtain ⟨w0, w1, w2, e, hl, hop, hf⟩ := pairWords_eq w
  simp [encode, e, decodeWords, hl, hop, Decode.decodeX, hf, Except.map]

theorem RoundTrip.faddSForm (w : SWord) : RoundTrip.Statement (.faddSForm w) := by
  intro _ _ rest
  rw [encode, decode_s 0x50 w rest (by omega)]
  simp [Decode.decodeS, sWord_fields 0 0x50 w (by omega) (by omega), Except.map]

theorem RoundTrip.faddXForm (w : XWord) : RoundTrip.Statement (.faddXForm w) := by
  intro _ _ rest
  rw [encode, decode_x 0x50 w rest (by omega) (by omega) (by omega)]
  simp [decodeXWord, Decode.decodeXFloat, Except.map]

theorem RoundTrip.fsubSForm (w : SWord) : RoundTrip.Statement (.fsubSForm w) := by
  intro _ _ rest
  rw [encode, decode_s 0x51 w rest (by omega)]
  simp [Decode.decodeS, sWord_fields 0 0x51 w (by omega) (by omega), Except.map]

theorem RoundTrip.fsubXForm (w : XWord) : RoundTrip.Statement (.fsubXForm w) := by
  intro _ _ rest
  rw [encode, decode_x 0x51 w rest (by omega) (by omega) (by omega)]
  simp [decodeXWord, Decode.decodeXFloat, Except.map]

theorem RoundTrip.fmulSForm (w : SWord) : RoundTrip.Statement (.fmulSForm w) := by
  intro _ _ rest
  rw [encode, decode_s 0x52 w rest (by omega)]
  simp [Decode.decodeS, sWord_fields 0 0x52 w (by omega) (by omega), Except.map]

theorem RoundTrip.fmulXForm (w : XWord) : RoundTrip.Statement (.fmulXForm w) := by
  intro _ _ rest
  rw [encode, decode_x 0x52 w rest (by omega) (by omega) (by omega)]
  simp [decodeXWord, Decode.decodeXFloat, Except.map]

theorem RoundTrip.ffmaSForm (w : SWord) : RoundTrip.Statement (.ffmaSForm w) := by
  intro _ _ rest
  rw [encode, decode_s 0x53 w rest (by omega)]
  simp [Decode.decodeS, sWord_fields 0 0x53 w (by omega) (by omega), Except.map]

theorem RoundTrip.ffmaXForm (w : XWord) : RoundTrip.Statement (.ffmaXForm w) := by
  intro _ _ rest
  rw [encode, decode_x 0x53 w rest (by omega) (by omega) (by omega)]
  simp [decodeXWord, Decode.decodeXFloat, Except.map]

theorem RoundTrip.fmin (w : XWord) : RoundTrip.Statement (.fmin w) := by
  intro hw _ rest
  rw [encode, decode_x 0x54 w rest (by omega) (by omega) (by omega)]
  simp only [wellFormed, beq_iff_eq, bne_iff_ne, Bool.and_eq_true, Bool.or_eq_true] at hw
  simp [decodeXWord, Decode.decodeXFloat, Except.map, hw]

theorem RoundTrip.fmax (w : XWord) : RoundTrip.Statement (.fmax w) := by
  intro hw _ rest
  rw [encode, decode_x 0x54 w rest (by omega) (by omega) (by omega)]
  simp only [wellFormed, beq_iff_eq, bne_iff_ne, Bool.and_eq_true, Bool.or_eq_true] at hw
  simp [decodeXWord, Decode.decodeXFloat, Except.map, hw]

theorem RoundTrip.fminn (w : XWord) : RoundTrip.Statement (.fminn w) := by
  intro hw _ rest
  rw [encode, decode_x 0x54 w rest (by omega) (by omega) (by omega)]
  simp only [wellFormed, beq_iff_eq, bne_iff_ne, Bool.and_eq_true, Bool.or_eq_true] at hw
  simp [decodeXWord, Decode.decodeXFloat, Except.map, hw]

theorem RoundTrip.fmaxn (w : XWord) : RoundTrip.Statement (.fmaxn w) := by
  intro hw _ rest
  rw [encode, decode_x 0x54 w rest (by omega) (by omega) (by omega)]
  simp only [wellFormed, beq_iff_eq, bne_iff_ne, Bool.and_eq_true, Bool.or_eq_true] at hw
  simp [decodeXWord, Decode.decodeXFloat, Except.map, hw]

theorem RoundTrip.fneg (w : XWord) : RoundTrip.Statement (.fneg w) := by
  intro hw _ rest
  rw [encode, decode_x 0x55 w rest (by omega) (by omega) (by omega)]
  simp only [wellFormed, beq_iff_eq, bne_iff_ne, Bool.and_eq_true, Bool.or_eq_true] at hw
  simp [decodeXWord, Decode.decodeXFloat, Except.map, hw]

theorem RoundTrip.fabs (w : XWord) : RoundTrip.Statement (.fabs w) := by
  intro hw _ rest
  rw [encode, decode_x 0x55 w rest (by omega) (by omega) (by omega)]
  simp only [wellFormed, beq_iff_eq, bne_iff_ne, Bool.and_eq_true, Bool.or_eq_true] at hw
  simp [decodeXWord, Decode.decodeXFloat, Except.map, hw]

theorem RoundTrip.fcpys (w : XWord) : RoundTrip.Statement (.fcpys w) := by
  intro hw _ rest
  rw [encode, decode_x 0x55 w rest (by omega) (by omega) (by omega)]
  simp only [wellFormed, beq_iff_eq, bne_iff_ne, Bool.and_eq_true, Bool.or_eq_true] at hw
  simp [decodeXWord, Decode.decodeXFloat, Except.map, hw]

theorem RoundTrip.fcmp (w : XWord) : RoundTrip.Statement (.fcmp w) := by
  intro _ _ rest
  rw [encode, decode_x 0x56 w rest (by omega) (by omega) (by omega)]
  simp [decodeXWord, Decode.decodeXFloat, Except.map]

theorem RoundTrip.fcvt (w : XWord) : RoundTrip.Statement (.fcvt w) := by
  intro _ _ rest
  rw [encode, decode_x 0x57 w rest (by omega) (by omega) (by omega)]
  simp [decodeXWord, Decode.decodeXFloat, Except.map]

theorem RoundTrip.frcpSForm (w : SWord) : RoundTrip.Statement (.frcpSForm w) := by
  intro _ _ rest
  rw [encode, decode_s 0x58 w rest (by omega)]
  simp [Decode.decodeS, sWord_fields 0 0x58 w (by omega) (by omega), Except.map]

theorem RoundTrip.frcpXForm (w : XWord) : RoundTrip.Statement (.frcpXForm w) := by
  intro _ _ rest
  rw [encode, decode_x 0x58 w rest (by omega) (by omega) (by omega)]
  simp [decodeXWord, Decode.decodeXFloat, Except.map]

theorem RoundTrip.frsqSForm (w : SWord) : RoundTrip.Statement (.frsqSForm w) := by
  intro _ _ rest
  rw [encode, decode_s 0x59 w rest (by omega)]
  simp [Decode.decodeS, sWord_fields 0 0x59 w (by omega) (by omega), Except.map]

theorem RoundTrip.frsqXForm (w : XWord) : RoundTrip.Statement (.frsqXForm w) := by
  intro _ _ rest
  rw [encode, decode_x 0x59 w rest (by omega) (by omega) (by omega)]
  simp [decodeXWord, Decode.decodeXFloat, Except.map]

theorem RoundTrip.fsqrtSForm (w : SWord) : RoundTrip.Statement (.fsqrtSForm w) := by
  intro _ _ rest
  rw [encode, decode_s 0x5A w rest (by omega)]
  simp [Decode.decodeS, sWord_fields 0 0x5A w (by omega) (by omega), Except.map]

theorem RoundTrip.fsqrtXForm (w : XWord) : RoundTrip.Statement (.fsqrtXForm w) := by
  intro _ _ rest
  rw [encode, decode_x 0x5A w rest (by omega) (by omega) (by omega)]
  simp [decodeXWord, Decode.decodeXFloat, Except.map]

theorem RoundTrip.fexp2SForm (w : SWord) : RoundTrip.Statement (.fexp2SForm w) := by
  intro _ _ rest
  rw [encode, decode_s 0x5B w rest (by omega)]
  simp [Decode.decodeS, sWord_fields 0 0x5B w (by omega) (by omega), Except.map]

theorem RoundTrip.fexp2XForm (w : XWord) : RoundTrip.Statement (.fexp2XForm w) := by
  intro _ _ rest
  rw [encode, decode_x 0x5B w rest (by omega) (by omega) (by omega)]
  simp [decodeXWord, Decode.decodeXFloat, Except.map]

theorem RoundTrip.flog2SForm (w : SWord) : RoundTrip.Statement (.flog2SForm w) := by
  intro _ _ rest
  rw [encode, decode_s 0x5C w rest (by omega)]
  simp [Decode.decodeS, sWord_fields 0 0x5C w (by omega) (by omega), Except.map]

theorem RoundTrip.flog2XForm (w : XWord) : RoundTrip.Statement (.flog2XForm w) := by
  intro _ _ rest
  rw [encode, decode_x 0x5C w rest (by omega) (by omega) (by omega)]
  simp [decodeXWord, Decode.decodeXFloat, Except.map]

theorem RoundTrip.fsinSForm (w : SWord) : RoundTrip.Statement (.fsinSForm w) := by
  intro _ _ rest
  rw [encode, decode_s 0x5D w rest (by omega)]
  simp [Decode.decodeS, sWord_fields 0 0x5D w (by omega) (by omega), Except.map]

theorem RoundTrip.fsinXForm (w : XWord) : RoundTrip.Statement (.fsinXForm w) := by
  intro _ _ rest
  rw [encode, decode_x 0x5D w rest (by omega) (by omega) (by omega)]
  simp [decodeXWord, Decode.decodeXFloat, Except.map]

theorem RoundTrip.fcosSForm (w : SWord) : RoundTrip.Statement (.fcosSForm w) := by
  intro _ _ rest
  rw [encode, decode_s 0x5E w rest (by omega)]
  simp [Decode.decodeS, sWord_fields 0 0x5E w (by omega) (by omega), Except.map]

theorem RoundTrip.fcosXForm (w : XWord) : RoundTrip.Statement (.fcosXForm w) := by
  intro _ _ rest
  rw [encode, decode_x 0x5E w rest (by omega) (by omega) (by omega)]
  simp [decodeXWord, Decode.decodeXFloat, Except.map]

theorem RoundTrip.ftanhSForm (w : SWord) : RoundTrip.Statement (.ftanhSForm w) := by
  intro _ _ rest
  rw [encode, decode_s 0x5F w rest (by omega)]
  simp [Decode.decodeS, sWord_fields 0 0x5F w (by omega) (by omega), Except.map]

theorem RoundTrip.ftanhXForm (w : XWord) : RoundTrip.Statement (.ftanhXForm w) := by
  intro _ _ rest
  rw [encode, decode_x 0x5F w rest (by omega) (by omega) (by omega)]
  simp [decodeXWord, Decode.decodeXFloat, Except.map]

theorem RoundTrip.fcls (w : XWord) : RoundTrip.Statement (.fcls w) := by
  intro _ _ rest
  rw [encode, decode_x 0x60 w rest (by omega) (by omega) (by omega)]
  simp [decodeXWord, Decode.decodeXFloat, Except.map]

theorem RoundTrip.fscl (w : XWord) : RoundTrip.Statement (.fscl w) := by
  intro _ _ rest
  rw [encode, decode_x 0x61 w rest (by omega) (by omega) (by omega)]
  simp [decodeXWord, Decode.decodeXFloat, Except.map]

theorem RoundTrip.fdot2 (w : XWord) : RoundTrip.Statement (.fdot2 w) := by
  intro _ _ rest
  rw [encode, decode_x 0x62 w rest (by omega) (by omega) (by omega)]
  simp [decodeXWord, Decode.decodeXFloat, Except.map]

theorem RoundTrip.frnd (w : XWord) : RoundTrip.Statement (.frnd w) := by
  intro _ _ rest
  rw [encode, decode_x 0x63 w rest (by omega) (by omega) (by omega)]
  simp [decodeXWord, Decode.decodeXFloat, Except.map]

theorem RoundTrip.bfpq (w : XWord) : RoundTrip.Statement (.bfpq w) := by
  intro _ _ rest
  rw [encode, decode_x 0x64 w rest (by omega) (by omega) (by omega)]
  simp [decodeXWord, Decode.decodeXFloat, Except.map]

theorem RoundTrip.bfpd (w : XWord) : RoundTrip.Statement (.bfpd w) := by
  intro _ _ rest
  rw [encode, decode_x 0x65 w rest (by omega) (by omega) (by omega)]
  simp [decodeXWord, Decode.decodeXFloat, Except.map]

theorem RoundTrip.ld (w : XWord) : RoundTrip.Statement (.ld w) := by
  intro _ _ rest
  rw [encode, decode_x 0x68 w rest (by omega) (by omega) (by omega)]
  simp [decodeXWord, Decode.decodeXMem, Except.map]

theorem RoundTrip.st (w : XWord) : RoundTrip.Statement (.st w) := by
  intro _ _ rest
  rw [encode, decode_x 0x69 w rest (by omega) (by omega) (by omega)]
  simp [decodeXWord, Decode.decodeXMem, Except.map]

theorem RoundTrip.lds (w : XWord) : RoundTrip.Statement (.lds w) := by
  intro _ _ rest
  rw [encode, decode_x 0x6A w rest (by omega) (by omega) (by omega)]
  simp [decodeXWord, Decode.decodeXMem, Except.map]

theorem RoundTrip.sts (w : XWord) : RoundTrip.Statement (.sts w) := by
  intro _ _ rest
  rw [encode, decode_x 0x6B w rest (by omega) (by omega) (by omega)]
  simp [decodeXWord, Decode.decodeXMem, Except.map]

theorem RoundTrip.atom (w : XWord) : RoundTrip.Statement (.atom w) := by
  intro _ _ rest
  rw [encode, decode_x 0x6C w rest (by omega) (by omega) (by omega)]
  simp [decodeXWord, Decode.decodeXMem, Except.map]

theorem RoundTrip.presClr (w : XWord) : RoundTrip.Statement (.presClr w) := by
  intro hw _ rest
  rw [encode, decode_x 0x72 w rest (by omega) (by omega) (by omega)]
  simp only [wellFormed, beq_iff_eq, bne_iff_ne, Bool.and_eq_true, Bool.or_eq_true] at hw
  simp [decodeXWord, Decode.decodeXMem, Except.map, hw]

theorem RoundTrip.presSet (w : XWord) : RoundTrip.Statement (.presSet w) := by
  intro hw _ rest
  rw [encode, decode_x 0x72 w rest (by omega) (by omega) (by omega)]
  simp only [wellFormed, beq_iff_eq, bne_iff_ne, Bool.and_eq_true, Bool.or_eq_true] at hw
  simp [decodeXWord, Decode.decodeXMem, Except.map, hw]

theorem RoundTrip.presTest (w : XWord) : RoundTrip.Statement (.presTest w) := by
  intro hw _ rest
  rw [encode, decode_x 0x72 w rest (by omega) (by omega) (by omega)]
  simp only [wellFormed, beq_iff_eq, bne_iff_ne, Bool.and_eq_true, Bool.or_eq_true] at hw
  simp [decodeXWord, Decode.decodeXMem, Except.map, hw]

theorem RoundTrip.tlocEnt (w : XWord) : RoundTrip.Statement (.tlocEnt w) := by
  intro hw _ rest
  rw [encode, decode_x 0x6D w rest (by omega) (by omega) (by omega)]
  simp only [wellFormed, beq_iff_eq, bne_iff_ne, Bool.and_eq_true, Bool.or_eq_true] at hw
  simp [decodeXWord, Decode.decodeXMem, Except.map, hw]

theorem RoundTrip.tloc (w : XWord) : RoundTrip.Statement (.tloc w) := by
  intro hw _ rest
  rw [encode, decode_x 0x6D w rest (by omega) (by omega) (by omega)]
  simp only [wellFormed, beq_iff_eq, bne_iff_ne, Bool.and_eq_true, Bool.or_eq_true] at hw
  simp [decodeXWord, Decode.decodeXMem, Except.map, hw]

theorem RoundTrip.tbind (w : XWord) : RoundTrip.Statement (.tbind w) := by
  intro hw _ rest
  rw [encode, decode_x 0x71 w rest (by omega) (by omega) (by omega)]
  simp only [wellFormed, beq_iff_eq, bne_iff_ne, Bool.and_eq_true, Bool.or_eq_true] at hw
  simp [decodeXWord, Decode.decodeXMem, Except.map, hw]

theorem RoundTrip.tbindClr (w : XWord) : RoundTrip.Statement (.tbindClr w) := by
  intro hw _ rest
  rw [encode, decode_x 0x71 w rest (by omega) (by omega) (by omega)]
  simp only [wellFormed, beq_iff_eq, bne_iff_ne, Bool.and_eq_true, Bool.or_eq_true] at hw
  simp [decodeXWord, Decode.decodeXMem, Except.map, hw]

theorem RoundTrip.texp (w : XWord) : RoundTrip.Statement (.texp w) := by
  intro _ _ rest
  rw [encode, decode_x 0x6E w rest (by omega) (by omega) (by omega)]
  simp [decodeXWord, Decode.decodeXMem, Except.map]

theorem RoundTrip.tenc (w : XWord) : RoundTrip.Statement (.tenc w) := by
  intro _ _ rest
  rw [encode, decode_x 0x6F w rest (by omega) (by omega) (by omega)]
  simp [decodeXWord, Decode.decodeXMem, Except.map]

theorem RoundTrip.ctld (w : XWord) : RoundTrip.Statement (.ctld w) := by
  intro hw _ rest
  rw [encode, decode_x 0x70 w rest (by omega) (by omega) (by omega)]
  simp only [wellFormed, beq_iff_eq, bne_iff_ne, Bool.and_eq_true, Bool.or_eq_true] at hw
  simp [decodeXWord, Decode.decodeXMem, Except.map, hw]

theorem RoundTrip.ctldSpm (w : XWord) : RoundTrip.Statement (.ctldSpm w) := by
  intro hw _ rest
  rw [encode, decode_x 0x70 w rest (by omega) (by omega) (by omega)]
  simp only [wellFormed, beq_iff_eq, bne_iff_ne, Bool.and_eq_true, Bool.or_eq_true] at hw
  simp [decodeXWord, Decode.decodeXMem, Except.map, hw]

theorem RoundTrip.ctst (w : XWord) : RoundTrip.Statement (.ctst w) := by
  intro _ _ rest
  rw [encode, decode_x 0x73 w rest (by omega) (by omega) (by omega)]
  simp [decodeXWord, Decode.decodeXMem, Except.map]

theorem RoundTrip.cpyLinG2s (w : XWord) : RoundTrip.Statement (.cpyLinG2s w) := by
  intro hw _ rest
  rw [encode, decode_x 0x74 w rest (by omega) (by omega) (by omega)]
  simp only [wellFormed, beq_iff_eq, bne_iff_ne, Bool.and_eq_true, Bool.or_eq_true] at hw
  simp [decodeXWord, Decode.decodeCpy, Except.map, hw]

theorem RoundTrip.cpyLinS2g (w : XWord) : RoundTrip.Statement (.cpyLinS2g w) := by
  intro hw _ rest
  rw [encode, decode_x 0x74 w rest (by omega) (by omega) (by omega)]
  simp only [wellFormed, beq_iff_eq, bne_iff_ne, Bool.and_eq_true, Bool.or_eq_true] at hw
  simp [decodeXWord, Decode.decodeCpy, Except.map, hw]

theorem RoundTrip.cpyLinG2g (w : XWord) : RoundTrip.Statement (.cpyLinG2g w) := by
  intro hw _ rest
  rw [encode, decode_x 0x74 w rest (by omega) (by omega) (by omega)]
  simp only [wellFormed, beq_iff_eq, bne_iff_ne, Bool.and_eq_true, Bool.or_eq_true] at hw
  simp [decodeXWord, Decode.decodeCpy, Except.map, hw]

theorem RoundTrip.cpyTileG2s (w : XWord) : RoundTrip.Statement (.cpyTileG2s w) := by
  intro hw _ rest
  rw [encode, decode_x 0x74 w rest (by omega) (by omega) (by omega)]
  simp only [wellFormed, beq_iff_eq, bne_iff_ne, Bool.and_eq_true, Bool.or_eq_true] at hw
  simp [decodeXWord, Decode.decodeCpy, Except.map, hw]

theorem RoundTrip.cpyTileG2sCh (w : XWord) (lit : W64) : RoundTrip.Statement (.cpyTileG2sCh w lit) := by
  intro hw _ rest
  rw [encode, decode_xl 0x74 w lit rest (by omega)]
  simp only [wellFormed, beq_iff_eq, Bool.and_eq_true] at hw
  simp [Decode.decodeXl, Except.map, hw]

theorem RoundTrip.cpyRowsG2s (w : XWord) : RoundTrip.Statement (.cpyRowsG2s w) := by
  intro hw _ rest
  rw [encode, decode_x 0x74 w rest (by omega) (by omega) (by omega)]
  simp only [wellFormed, beq_iff_eq, bne_iff_ne, Bool.and_eq_true, Bool.or_eq_true] at hw
  simp [decodeXWord, Decode.decodeCpy, Except.map, hw]

theorem RoundTrip.cpyMcastG2s (w : XWord) : RoundTrip.Statement (.cpyMcastG2s w) := by
  intro hw _ rest
  rw [encode, decode_x 0x74 w rest (by omega) (by omega) (by omega)]
  simp only [wellFormed, beq_iff_eq, bne_iff_ne, Bool.and_eq_true, Bool.or_eq_true] at hw
  simp [decodeXWord, Decode.decodeCpy, Except.map, hw]

theorem RoundTrip.cpyMcastS2s (w : XWord) : RoundTrip.Statement (.cpyMcastS2s w) := by
  intro hw _ rest
  rw [encode, decode_x 0x74 w rest (by omega) (by omega) (by omega)]
  simp only [wellFormed, beq_iff_eq, bne_iff_ne, Bool.and_eq_true, Bool.or_eq_true] at hw
  simp [decodeXWord, Decode.decodeCpy, Except.map, hw]

theorem RoundTrip.cpyFill (w : XWord) : RoundTrip.Statement (.cpyFill w) := by
  intro hw _ rest
  rw [encode, decode_x 0x74 w rest (by omega) (by omega) (by omega)]
  simp only [wellFormed, beq_iff_eq, bne_iff_ne, Bool.and_eq_true, Bool.or_eq_true] at hw
  simp [decodeXWord, Decode.decodeCpy, Except.map, hw]

theorem RoundTrip.mma (w : XWord) : RoundTrip.Statement (.mma w) := by
  intro hw _ rest
  rw [encode, decode_x 0x75 w rest (by omega) (by omega) (by omega)]
  simp only [wellFormed, beq_iff_eq, bne_iff_ne, Bool.and_eq_true, Bool.or_eq_true] at hw
  simp [decodeXWord, Decode.decodeMma, Except.map, hw]

theorem RoundTrip.mmaCrew (w : XWord) (lit : W64) : RoundTrip.Statement (.mmaCrew w lit) := by
  intro hw _ rest
  rw [encode, decode_xl 0x75 w lit rest (by omega)]
  simp only [wellFormed, beq_iff_eq, Bool.and_eq_true] at hw
  simp [Decode.decodeXl, Except.map, hw]

theorem RoundTrip.mmaSp (w : XWord) : RoundTrip.Statement (.mmaSp w) := by
  intro hw _ rest
  rw [encode, decode_x 0x75 w rest (by omega) (by omega) (by omega)]
  simp only [wellFormed, beq_iff_eq, bne_iff_ne, Bool.and_eq_true, Bool.or_eq_true] at hw
  simp [decodeXWord, Decode.decodeMma, Except.map, hw]

theorem RoundTrip.bload (w : XWord) : RoundTrip.Statement (.bload w) := by
  intro hw _ rest
  rw [encode, decode_x 0x75 w rest (by omega) (by omega) (by omega)]
  simp only [wellFormed, beq_iff_eq, bne_iff_ne, Bool.and_eq_true, Bool.or_eq_true] at hw
  simp [decodeXWord, Decode.decodeMma, Except.map, hw]

theorem RoundTrip.accWin (w : XWord) : RoundTrip.Statement (.accWin w) := by
  intro hw _ rest
  rw [encode, decode_x 0x76 w rest (by omega) (by omega) (by omega)]
  simp only [wellFormed, beq_iff_eq, bne_iff_ne, Bool.and_eq_true, Bool.or_eq_true] at hw
  simp [decodeXWord, Decode.decodeXSys, Except.map, hw]

theorem RoundTrip.accLd (w : XWord) : RoundTrip.Statement (.accLd w) := by
  intro hw _ rest
  rw [encode, decode_x 0x76 w rest (by omega) (by omega) (by omega)]
  simp only [wellFormed, beq_iff_eq, bne_iff_ne, Bool.and_eq_true, Bool.or_eq_true] at hw
  simp [decodeXWord, Decode.decodeXSys, Except.map, hw]

theorem RoundTrip.accSt (w : XWord) : RoundTrip.Statement (.accSt w) := by
  intro hw _ rest
  rw [encode, decode_x 0x76 w rest (by omega) (by omega) (by omega)]
  simp only [wellFormed, beq_iff_eq, bne_iff_ne, Bool.and_eq_true, Bool.or_eq_true] at hw
  simp [decodeXWord, Decode.decodeXSys, Except.map, hw]

theorem RoundTrip.accZero (w : XWord) : RoundTrip.Statement (.accZero w) := by
  intro hw _ rest
  rw [encode, decode_x 0x76 w rest (by omega) (by omega) (by omega)]
  simp only [wellFormed, beq_iff_eq, bne_iff_ne, Bool.and_eq_true, Bool.or_eq_true] at hw
  simp [decodeXWord, Decode.decodeXSys, Except.map, hw]

theorem RoundTrip.accOut (w : XWord) : RoundTrip.Statement (.accOut w) := by
  intro hw _ rest
  rw [encode, decode_x 0x76 w rest (by omega) (by omega) (by omega)]
  simp only [wellFormed, beq_iff_eq, bne_iff_ne, Bool.and_eq_true, Bool.or_eq_true] at hw
  simp [decodeXWord, Decode.decodeXSys, Except.map, hw]

theorem RoundTrip.scanOpdef (w : XWord) : RoundTrip.Statement (.scanOpdef w) := by
  intro hw _ rest
  rw [encode, decode_x 0x77 w rest (by omega) (by omega) (by omega)]
  simp only [wellFormed, beq_iff_eq, bne_iff_ne, Bool.and_eq_true, Bool.or_eq_true] at hw
  simp [decodeXWord, Decode.decodeXSys, Except.map, hw]

theorem RoundTrip.scanBegin (w : XWord) : RoundTrip.Statement (.scanBegin w) := by
  intro hw _ rest
  rw [encode, decode_x 0x77 w rest (by omega) (by omega) (by omega)]
  simp only [wellFormed, beq_iff_eq, bne_iff_ne, Bool.and_eq_true, Bool.or_eq_true] at hw
  simp [decodeXWord, Decode.decodeXSys, Except.map, hw]

theorem RoundTrip.scanTile (w : XWord) : RoundTrip.Statement (.scanTile w) := by
  intro hw _ rest
  rw [encode, decode_x 0x77 w rest (by omega) (by omega) (by omega)]
  simp only [wellFormed, beq_iff_eq, bne_iff_ne, Bool.and_eq_true, Bool.or_eq_true] at hw
  simp [decodeXWord, Decode.decodeXSys, Except.map, hw]

theorem RoundTrip.scanPub (w : XWord) : RoundTrip.Statement (.scanPub w) := by
  intro hw _ rest
  rw [encode, decode_x 0x77 w rest (by omega) (by omega) (by omega)]
  simp only [wellFormed, beq_iff_eq, bne_iff_ne, Bool.and_eq_true, Bool.or_eq_true] at hw
  simp [decodeXWord, Decode.decodeXSys, Except.map, hw]

theorem RoundTrip.scanCarry (w : XWord) : RoundTrip.Statement (.scanCarry w) := by
  intro hw _ rest
  rw [encode, decode_x 0x77 w rest (by omega) (by omega) (by omega)]
  simp only [wellFormed, beq_iff_eq, bne_iff_ne, Bool.and_eq_true, Bool.or_eq_true] at hw
  simp [decodeXWord, Decode.decodeXSys, Except.map, hw]

theorem RoundTrip.scanFix (w : XWord) : RoundTrip.Statement (.scanFix w) := by
  intro hw _ rest
  rw [encode, decode_x 0x77 w rest (by omega) (by omega) (by omega)]
  simp only [wellFormed, beq_iff_eq, bne_iff_ne, Bool.and_eq_true, Bool.or_eq_true] at hw
  simp [decodeXWord, Decode.decodeXSys, Except.map, hw]

theorem RoundTrip.scanEnd (w : XWord) : RoundTrip.Statement (.scanEnd w) := by
  intro hw _ rest
  rw [encode, decode_x 0x77 w rest (by omega) (by omega) (by omega)]
  simp only [wellFormed, beq_iff_eq, bne_iff_ne, Bool.and_eq_true, Bool.or_eq_true] at hw
  simp [decodeXWord, Decode.decodeXSys, Except.map, hw]

theorem RoundTrip.spawn (w : XWord) : RoundTrip.Statement (.spawn w) := by
  intro hw _ rest
  rw [encode, decode_x 0x78 w rest (by omega) (by omega) (by omega)]
  simp only [wellFormed, beq_iff_eq, bne_iff_ne, Bool.and_eq_true, Bool.or_eq_true] at hw
  simp [decodeXWord, Decode.decodeXSys, Except.map, hw]

theorem RoundTrip.launchInstruction (w : XWord) : RoundTrip.Statement (.launchInstruction w) := by
  intro hw _ rest
  rw [encode, decode_x 0x78 w rest (by omega) (by omega) (by omega)]
  simp only [wellFormed, beq_iff_eq, bne_iff_ne, Bool.and_eq_true, Bool.or_eq_true] at hw
  simp [decodeXWord, Decode.decodeXSys, Except.map, hw]

theorem RoundTrip.jcInit (w : XWord) : RoundTrip.Statement (.jcInit w) := by
  intro hw _ rest
  rw [encode, decode_x 0x78 w rest (by omega) (by omega) (by omega)]
  simp only [wellFormed, beq_iff_eq, bne_iff_ne, Bool.and_eq_true, Bool.or_eq_true] at hw
  simp [decodeXWord, Decode.decodeXSys, Except.map, hw]

theorem RoundTrip.jcAdd (w : XWord) : RoundTrip.Statement (.jcAdd w) := by
  intro hw _ rest
  rw [encode, decode_x 0x78 w rest (by omega) (by omega) (by omega)]
  simp only [wellFormed, beq_iff_eq, bne_iff_ne, Bool.and_eq_true, Bool.or_eq_true] at hw
  simp [decodeXWord, Decode.decodeXSys, Except.map, hw]

theorem RoundTrip.collRed (w : XWord) : RoundTrip.Statement (.collRed w) := by
  intro hw _ rest
  rw [encode, decode_x 0x79 w rest (by omega) (by omega) (by omega)]
  simp only [wellFormed, beq_iff_eq, bne_iff_ne, Bool.and_eq_true, Bool.or_eq_true] at hw
  simp [decodeXWord, Decode.decodeXSys, Except.map, hw]

theorem RoundTrip.collAr (w : XWord) : RoundTrip.Statement (.collAr w) := by
  intro hw _ rest
  rw [encode, decode_x 0x79 w rest (by omega) (by omega) (by omega)]
  simp only [wellFormed, beq_iff_eq, bne_iff_ne, Bool.and_eq_true, Bool.or_eq_true] at hw
  simp [decodeXWord, Decode.decodeXSys, Except.map, hw]

theorem RoundTrip.collBc (w : XWord) : RoundTrip.Statement (.collBc w) := by
  intro hw _ rest
  rw [encode, decode_x 0x79 w rest (by omega) (by omega) (by omega)]
  simp only [wellFormed, beq_iff_eq, bne_iff_ne, Bool.and_eq_true, Bool.or_eq_true] at hw
  simp [decodeXWord, Decode.decodeXSys, Except.map, hw]

theorem RoundTrip.dbgHread (w : XWord) : RoundTrip.Statement (.dbgHread w) := by
  intro hw _ rest
  rw [encode, decode_x 0x7A w rest (by omega) (by omega) (by omega)]
  simp only [wellFormed, beq_iff_eq, bne_iff_ne, Bool.and_eq_true, Bool.or_eq_true] at hw
  simp [decodeXWord, Decode.decodeXSys, Except.map, hw]

theorem RoundTrip.dbgHwrite (w : XWord) : RoundTrip.Statement (.dbgHwrite w) := by
  intro hw _ rest
  rw [encode, decode_x 0x7A w rest (by omega) (by omega) (by omega)]
  simp only [wellFormed, beq_iff_eq, bne_iff_ne, Bool.and_eq_true, Bool.or_eq_true] at hw
  simp [decodeXWord, Decode.decodeXSys, Except.map, hw]

theorem RoundTrip.dbgHstep (w : XWord) : RoundTrip.Statement (.dbgHstep w) := by
  intro hw _ rest
  rw [encode, decode_x 0x7A w rest (by omega) (by omega) (by omega)]
  simp only [wellFormed, beq_iff_eq, bne_iff_ne, Bool.and_eq_true, Bool.or_eq_true] at hw
  simp [decodeXWord, Decode.decodeXSys, Except.map, hw]

theorem RoundTrip.dbgHresume (w : XWord) : RoundTrip.Statement (.dbgHresume w) := by
  intro hw _ rest
  rw [encode, decode_x 0x7A w rest (by omega) (by omega) (by omega)]
  simp only [wellFormed, beq_iff_eq, bne_iff_ne, Bool.and_eq_true, Bool.or_eq_true] at hw
  simp [decodeXWord, Decode.decodeXSys, Except.map, hw]

theorem RoundTrip.dbgHstat (w : XWord) : RoundTrip.Statement (.dbgHstat w) := by
  intro hw _ rest
  rw [encode, decode_x 0x7A w rest (by omega) (by omega) (by omega)]
  simp only [wellFormed, beq_iff_eq, bne_iff_ne, Bool.and_eq_true, Bool.or_eq_true] at hw
  simp [decodeXWord, Decode.decodeXSys, Except.map, hw]

theorem RoundTrip.dbgHalt (w : XWord) : RoundTrip.Statement (.dbgHalt w) := by
  intro hw _ rest
  rw [encode, decode_x 0x7A w rest (by omega) (by omega) (by omega)]
  simp only [wellFormed, beq_iff_eq, bne_iff_ne, Bool.and_eq_true, Bool.or_eq_true] at hw
  simp [decodeXWord, Decode.decodeXSys, Except.map, hw]

theorem RoundTrip.watchSet (w : XWord) : RoundTrip.Statement (.watchSet w) := by
  intro hw _ rest
  rw [encode, decode_x 0x7B w rest (by omega) (by omega) (by omega)]
  simp only [wellFormed, beq_iff_eq, bne_iff_ne, Bool.and_eq_true, Bool.or_eq_true] at hw
  simp [decodeXWord, Decode.decodeXSys, Except.map, hw]

theorem RoundTrip.watchClr (w : XWord) : RoundTrip.Statement (.watchClr w) := by
  intro hw _ rest
  rw [encode, decode_x 0x7B w rest (by omega) (by omega) (by omega)]
  simp only [wellFormed, beq_iff_eq, bne_iff_ne, Bool.and_eq_true, Bool.or_eq_true] at hw
  simp [decodeXWord, Decode.decodeXSys, Except.map, hw]

theorem RoundTrip.watchGet (w : XWord) : RoundTrip.Statement (.watchGet w) := by
  intro hw _ rest
  rw [encode, decode_x 0x7B w rest (by omega) (by omega) (by omega)]
  simp only [wellFormed, beq_iff_eq, bne_iff_ne, Bool.and_eq_true, Bool.or_eq_true] at hw
  simp [decodeXWord, Decode.decodeXSys, Except.map, hw]

theorem RoundTrip.watchArm (w : XWord) : RoundTrip.Statement (.watchArm w) := by
  intro hw _ rest
  rw [encode, decode_x 0x7B w rest (by omega) (by omega) (by omega)]
  simp only [wellFormed, beq_iff_eq, bne_iff_ne, Bool.and_eq_true, Bool.or_eq_true] at hw
  simp [decodeXWord, Decode.decodeXSys, Except.map, hw]

theorem RoundTrip.perfRd (w : XWord) : RoundTrip.Statement (.perfRd w) := by
  intro hw _ rest
  rw [encode, decode_x 0x7C w rest (by omega) (by omega) (by omega)]
  simp only [wellFormed, beq_iff_eq, bne_iff_ne, Bool.and_eq_true, Bool.or_eq_true] at hw
  simp [decodeXWord, Decode.decodeXSys, Except.map, hw]

theorem RoundTrip.perfSel (w : XWord) : RoundTrip.Statement (.perfSel w) := by
  intro hw _ rest
  rw [encode, decode_x 0x7C w rest (by omega) (by omega) (by omega)]
  simp only [wellFormed, beq_iff_eq, bne_iff_ne, Bool.and_eq_true, Bool.or_eq_true] at hw
  simp [decodeXWord, Decode.decodeXSys, Except.map, hw]

theorem RoundTrip.perfSamp (w : XWord) : RoundTrip.Statement (.perfSamp w) := by
  intro hw _ rest
  rw [encode, decode_x 0x7C w rest (by omega) (by omega) (by omega)]
  simp only [wellFormed, beq_iff_eq, bne_iff_ne, Bool.and_eq_true, Bool.or_eq_true] at hw
  simp [decodeXWord, Decode.decodeXSys, Except.map, hw]

theorem RoundTrip.csrRd (w : XWord) : RoundTrip.Statement (.csrRd w) := by
  intro hw _ rest
  rw [encode, decode_x 0x7D w rest (by omega) (by omega) (by omega)]
  simp only [wellFormed, beq_iff_eq, bne_iff_ne, Bool.and_eq_true, Bool.or_eq_true] at hw
  simp [decodeXWord, Decode.decodeXSys, Except.map, hw]

theorem RoundTrip.csrWrFaultact (w : XWord) : RoundTrip.Statement (.csrWrFaultact w) := by
  intro hw _ rest
  rw [encode, decode_x 0x7D w rest (by omega) (by omega) (by omega)]
  simp only [wellFormed, beq_iff_eq, bne_iff_ne, Bool.and_eq_true, Bool.or_eq_true] at hw
  simp [decodeXWord, Decode.decodeXSys, Except.map, hw]

theorem RoundTrip.csrWrCecnt (w : XWord) : RoundTrip.Statement (.csrWrCecnt w) := by
  intro hw _ rest
  rw [encode, decode_x 0x7D w rest (by omega) (by omega) (by omega)]
  simp only [wellFormed, beq_iff_eq, bne_iff_ne, Bool.and_eq_true, Bool.or_eq_true] at hw
  simp [decodeXWord, Decode.decodeXSys, Except.map, hw]

theorem RoundTrip.csrWrUecnt (w : XWord) : RoundTrip.Statement (.csrWrUecnt w) := by
  intro hw _ rest
  rw [encode, decode_x 0x7D w rest (by omega) (by omega) (by omega)]
  simp only [wellFormed, beq_iff_eq, bne_iff_ne, Bool.and_eq_true, Bool.or_eq_true] at hw
  simp [decodeXWord, Decode.decodeXSys, Except.map, hw]

theorem RoundTrip.csrWrStopreq (w : XWord) : RoundTrip.Statement (.csrWrStopreq w) := by
  intro hw _ rest
  rw [encode, decode_x 0x7D w rest (by omega) (by omega) (by omega)]
  simp only [wellFormed, beq_iff_eq, bne_iff_ne, Bool.and_eq_true, Bool.or_eq_true] at hw
  simp [decodeXWord, Decode.decodeXSys, Except.map, hw]

theorem RoundTrip.csrWr (w : XWord) : RoundTrip.Statement (.csrWr w) := by
  intro hw _ rest
  rw [encode, decode_x 0x7D w rest (by omega) (by omega) (by omega)]
  simp only [wellFormed, beq_iff_eq, bne_iff_ne, Bool.and_eq_true, Bool.or_eq_true] at hw
  simp [decodeXWord, Decode.decodeXSys, Except.map, hw]

theorem RoundTrip.nop : RoundTrip.Statement (.nop) := by
  intro _ _ rest
  rfl

theorem RoundTrip.ret : RoundTrip.Statement (.ret) := by
  intro _ _ rest
  rfl

theorem RoundTrip.join : RoundTrip.Statement (.join) := by
  intro _ _ rest
  rfl

theorem RoundTrip.regang : RoundTrip.Statement (.regang) := by
  intro _ _ rest
  rfl

theorem RoundTrip.exit : RoundTrip.Statement (.exit) := by
  intro _ _ rest
  rfl

theorem RoundTrip.powerRailEnable : RoundTrip.Statement .powerRailEnable := by
  intro _ h; exact absurd rfl h

theorem RoundTrip.moduleReset (asserted : Bool) : RoundTrip.Statement (.moduleReset asserted) := by
  intro _ h; exact absurd rfl h

theorem RoundTrip.powerDown : RoundTrip.Statement (.powerDown) := by
  intro _ h; exact absurd rfl h

theorem RoundTrip.tikelTraining (passed : List LinkSetting) : RoundTrip.Statement (.tikelTraining passed) := by
  intro _ h; exact absurd rfl h

theorem RoundTrip.trainingRetry : RoundTrip.Statement (.trainingRetry) := by
  intro _ h; exact absurd rfl h

theorem RoundTrip.ack (lsn : BitVec 16) (av : Bool) : RoundTrip.Statement (.ack lsn av) := by
  intro _ h; exact absurd rfl h

theorem RoundTrip.ackOnlyTimer : RoundTrip.Statement (.ackOnlyTimer) := by
  intro _ h; exact absurd rfl h

theorem RoundTrip.resendTimeout : RoundTrip.Statement (.resendTimeout) := by
  intro _ h; exact absurd rfl h

theorem RoundTrip.unlistedMessage (kind : Byte) (m : MsgId) : RoundTrip.Statement (.unlistedMessage kind m) := by
  intro _ h; exact absurd rfl h

theorem RoundTrip.firmware (m : MsgId) (img : FwImage) : RoundTrip.Statement (.firmware m img) := by
  intro _ h; exact absurd rfl h

theorem RoundTrip.attestReq (m : MsgId) (nonce : List Byte) : RoundTrip.Statement (.attestReq m nonce) := by
  intro _ h; exact absurd rfl h

theorem RoundTrip.attestReport : RoundTrip.Statement (.attestReport) := by
  intro _ h; exact absurd rfl h

theorem RoundTrip.devtimeStart (offs : List Int) : RoundTrip.Statement (.devtimeStart offs) := by
  intro _ h; exact absurd rfl h

theorem RoundTrip.devtimeCheck (die : Nat) (off : Int) : RoundTrip.Statement (.devtimeCheck die off) := by
  intro _ h; exact absurd rfl h

theorem RoundTrip.memoryAndFabric : RoundTrip.Statement .memoryAndFabric := by
  intro _ h; exact absurd rfl h

theorem RoundTrip.thermalLimit (die : Nat) : RoundTrip.Statement (.thermalLimit die) := by
  intro _ h; exact absurd rfl h

theorem RoundTrip.overtempShutdown (die : Nat) : RoundTrip.Statement (.overtempShutdown die) := by
  intro _ h; exact absurd rfl h

theorem RoundTrip.partset (m : MsgId) (body : Option PartSet) : RoundTrip.Statement (.partset m body) := by
  intro _ h; exact absurd rfl h

theorem RoundTrip.compass (m : MsgId) (body : Option CompassSet) : RoundTrip.Statement (.compass m body) := by
  intro _ h; exact absurd rfl h

theorem RoundTrip.partattr (m : MsgId) (body : Option PartFlag) : RoundTrip.Statement (.partattr m body) := by
  intro _ h; exact absurd rfl h

theorem RoundTrip.partreset (m : MsgId) (part : Option Nat) : RoundTrip.Statement (.partreset m part) := by
  intro _ h; exact absurd rfl h

theorem RoundTrip.resetDone (die part : Nat) : RoundTrip.Statement (.resetDone die part) := by
  intro _ h; exact absurd rfl h

theorem RoundTrip.resetTimeout (die part : Nat) : RoundTrip.Statement (.resetTimeout die part) := by
  intro _ h; exact absurd rfl h

theorem RoundTrip.ringset (m : MsgId) (part die : Nat) (va : W64) (entries : Nat) : RoundTrip.Statement (.ringset m part die va entries) := by
  intro _ h; exact absurd rfl h

theorem RoundTrip.memread (m : MsgId) (a : MemSpan) : RoundTrip.Statement (.memread m a) := by
  intro _ h; exact absurd rfl h

theorem RoundTrip.memwrite (m : MsgId) (a : MemSpan) (bytes : List Byte) : RoundTrip.Statement (.memwrite m a bytes) := by
  intro _ h; exact absurd rfl h

theorem RoundTrip.launch (m : MsgId) (packet : List Byte) : RoundTrip.Statement (.launch m packet) := by
  intro _ h; exact absurd rfl h

theorem RoundTrip.resideOk (m : MsgId) (of : MsgId) : RoundTrip.Statement (.resideOk m of) := by
  intro _ h; exact absurd rfl h

theorem RoundTrip.resideFail (m : MsgId) (of : MsgId) : RoundTrip.Statement (.resideFail m of) := by
  intro _ h; exact absurd rfl h

theorem RoundTrip.resideTimeout (die lkey : Nat) : RoundTrip.Statement (.resideTimeout die lkey) := by
  intro _ h; exact absurd rfl h

theorem RoundTrip.leaseReady (die lkey : Nat) : RoundTrip.Statement (.leaseReady die lkey) := by
  intro _ h; exact absurd rfl h

theorem RoundTrip.leaseFail (die lkey : Nat) : RoundTrip.Statement (.leaseFail die lkey) := by
  intro _ h; exact absurd rfl h

theorem RoundTrip.crewPlace (die : Nat) : RoundTrip.Statement (.crewPlace die) := by
  intro _ h; exact absurd rfl h

theorem RoundTrip.backfillTimeout (die : Nat) : RoundTrip.Statement (.backfillTimeout die) := by
  intro _ h; exact absurd rfl h

theorem RoundTrip.late (die arrival : Nat) : RoundTrip.Statement (.late die arrival) := by
  intro _ h; exact absurd rfl h

theorem RoundTrip.pinseg (m : MsgId) (b : PinSet) : RoundTrip.Statement (.pinseg m b) := by
  intro _ h; exact absurd rfl h

theorem RoundTrip.pinfree (m : MsgId) (part seg : Nat) : RoundTrip.Statement (.pinfree m part seg) := by
  intro _ h; exact absurd rfl h

theorem RoundTrip.invalidate (m : MsgId) (part : Nat) (va : W64) (pages : Nat) : RoundTrip.Statement (.invalidate m part va pages) := by
  intro _ h; exact absurd rfl h

theorem RoundTrip.invalAck (die core inv : Nat) : RoundTrip.Statement (.invalAck die core inv) := by
  intro _ h; exact absurd rfl h

theorem RoundTrip.homeAgentRequest (op lane : Nat) : RoundTrip.Statement (.homeAgentRequest op lane) := by
  intro _ h; exact absurd rfl h

theorem RoundTrip.pageWalkComplete (op lane : Nat) : RoundTrip.Statement (.pageWalkComplete op lane) := by
  intro _ h; exact absurd rfl h

theorem RoundTrip.sliceAccess (op lane : Nat) : RoundTrip.Statement (.sliceAccess op lane) := by
  intro _ h; exact absurd rfl h

theorem RoundTrip.invalBatch (die src : Nat) : RoundTrip.Statement (.invalBatch die src) := by
  intro _ h; exact absurd rfl h

theorem RoundTrip.loadDataReturn (op : Nat) : RoundTrip.Statement (.loadDataReturn op) := by
  intro _ h; exact absurd rfl h

theorem RoundTrip.crewScratchpadAccess (op : Nat) : RoundTrip.Statement (.crewScratchpadAccess op) := by
  intro _ h; exact absurd rfl h

theorem RoundTrip.xvreg (m : MsgId) (part die xid : Nat) (desc : W64) (tabs : List W64) : RoundTrip.Statement (.xvreg m part die xid desc tabs) := by
  intro _ h; exact absurd rfl h

theorem RoundTrip.xvfree (m : MsgId) (part die xid : Nat) : RoundTrip.Statement (.xvfree m part die xid) := by
  intro _ h; exact absurd rfl h

theorem RoundTrip.expandedViewRead (op lane : Nat) : RoundTrip.Statement (.expandedViewRead op lane) := by
  intro _ h; exact absurd rfl h

theorem RoundTrip.collreg (m : MsgId) (part : Nat) (gid : W32) (ends idxs : List Nat) : RoundTrip.Statement (.collreg m part gid ends idxs) := by
  intro _ h; exact absurd rfl h

theorem RoundTrip.fabricFrame (f : FabricFrame) : RoundTrip.Statement (.fabricFrame f) := by
  intro _ h; exact absurd rfl h

theorem RoundTrip.preempt (m : MsgId) (part die : Nat) (lid : W64) : RoundTrip.Statement (.preempt m part die lid) := by
  intro _ h; exact absurd rfl h

theorem RoundTrip.wswitch (m : MsgId) (part die : Nat) : RoundTrip.Statement (.wswitch m part die) := by
  intro _ h; exact absurd rfl h

theorem RoundTrip.wresume (m : MsgId) (part die : Nat) : RoundTrip.Statement (.wresume m part die) := by
  intro _ h; exact absurd rfl h

theorem RoundTrip.stopSave (crew : Nat) : RoundTrip.Statement (.stopSave crew) := by
  intro _ h; exact absurd rfl h

theorem RoundTrip.dump (m : MsgId) (part die : Nat) (lid : W64) (idx : Nat) : RoundTrip.Statement (.dump m part die lid idx) := by
  intro _ h; exact absurd rfl h

theorem RoundTrip.dumpDone (crew : Nat) : RoundTrip.Statement (.dumpDone crew) := by
  intro _ h; exact absurd rfl h

theorem RoundTrip.dumpRelease (m : MsgId) (crew : Nat) (resume : Bool) : RoundTrip.Statement (.dumpRelease m crew resume) := by
  intro _ h; exact absurd rfl h

theorem RoundTrip.sxentry (m : MsgId) (part die e : Nat) (words : List W64) : RoundTrip.Statement (.sxentry m part die e words) := by
  intro _ h; exact absurd rfl h

theorem RoundTrip.sxprog (m : MsgId) (part die n : Nat) (words : List W32) : RoundTrip.Statement (.sxprog m part die n words) := by
  intro _ h; exact absurd rfl h

theorem RoundTrip.attach (m : MsgId) (body : Option PartFlag) : RoundTrip.Statement (.attach m body) := by
  intro _ h; exact absurd rfl h

theorem RoundTrip.debug (m : MsgId) (part die : Nat) (d : DbgCmd) : RoundTrip.Statement (.debug m part die d) := by
  intro _ h; exact absurd rfl h

theorem RoundTrip.perfset (m : MsgId) (part die : Nat) (mask : BitVec 16) : RoundTrip.Statement (.perfset m part die mask) := by
  intro _ h; exact absurd rfl h

theorem RoundTrip.sampring (m : MsgId) (part die : Nat) (va : W64) (entries : Nat) : RoundTrip.Statement (.sampring m part die va entries) := by
  intro _ h; exact absurd rfl h

theorem RoundTrip.pcSample (gid : Nat) : RoundTrip.Statement (.pcSample gid) := by
  intro _ h; exact absurd rfl h

theorem RoundTrip.waitTick (gid b : Nat) : RoundTrip.Statement (.waitTick gid b) := by
  intro _ h; exact absurd rfl h

theorem RoundTrip.copyChunk (op : Nat) : RoundTrip.Statement (.copyChunk op) := by
  intro _ h; exact absurd rfl h

theorem RoundTrip.matrixKStep (op : Nat) : RoundTrip.Statement (.matrixKStep op) := by
  intro _ h; exact absurd rfl h

theorem RoundTrip.bloadSlotSwitch (op : Nat) : RoundTrip.Statement (.bloadSlotSwitch op) := by
  intro _ h; exact absurd rfl h

theorem RoundTrip.decoderResume (gid b sub : Nat) : RoundTrip.Statement (.decoderResume gid b sub) := by
  intro _ h; exact absurd rfl h

theorem RoundTrip.texpDecodeDone (gid b sub : Nat) : RoundTrip.Statement (.texpDecodeDone gid b sub) := by
  intro _ h; exact absurd rfl h

theorem RoundTrip.tencPublish (gid b sub : Nat) : RoundTrip.Statement (.tencPublish gid b sub) := by
  intro _ h; exact absurd rfl h

theorem RoundTrip.ctldFill (gid b sub : Nat) : RoundTrip.Statement (.ctldFill gid b sub) := by
  intro _ h; exact absurd rfl h

theorem RoundTrip.scanTilePerform (op : Nat) : RoundTrip.Statement (.scanTilePerform op) := by
  intro _ h; exact absurd rfl h

theorem RoundTrip.carryOutFormed (gid : Nat) : RoundTrip.Statement (.carryOutFormed gid) := by
  intro _ h; exact absurd rfl h

theorem RoundTrip.scanFixPerform (op : Nat) : RoundTrip.Statement (.scanFixPerform op) := by
  intro _ h; exact absurd rfl h

theorem RoundTrip.carryArrive (carry : Nat) : RoundTrip.Statement (.carryArrive carry) := by
  intro _ h; exact absurd rfl h

theorem RoundTrip.remoteArrival (arr : Nat) : RoundTrip.Statement (.remoteArrival arr) := by
  intro _ h; exact absurd rfl h

theorem RoundTrip.collComplete (op : Nat) : RoundTrip.Statement (.collComplete op) := by
  intro _ h; exact absurd rfl h

theorem RoundTrip.collTimeout (op : Nat) : RoundTrip.Statement (.collTimeout op) := by
  intro _ h; exact absurd rfl h

theorem RoundTrip.sextantProgramRun (run : Nat) : RoundTrip.Statement (.sextantProgramRun run) := by
  intro _ h; exact absurd rfl h

theorem RoundTrip.haltTakesEffect (halt : Nat) : RoundTrip.Statement (.haltTakesEffect halt) := by
  intro _ h; exact absurd rfl h

theorem RoundTrip.softErrorCorrected (die core part : Nat) : RoundTrip.Statement (.softErrorCorrected die core part) := by
  intro _ h; exact absurd rfl h

theorem RoundTrip.deviceStructureError (die part : Nat) (refetched : Bool) : RoundTrip.Statement (.deviceStructureError die part refetched) := by
  intro _ h; exact absurd rfl h

theorem RoundTrip.gangRetire (gid : Nat) : RoundTrip.Statement (.gangRetire gid) := by
  intro _ h; exact absurd rfl h

theorem RoundTrip.crewRetire (crew : Nat) : RoundTrip.Statement (.crewRetire crew) := by
  intro _ h; exact absurd rfl h

theorem RoundTrip.frameCrcFail : RoundTrip.Statement .frameCrcFail := by
  intro _ h; exact absurd rfl h

theorem RoundTrip.instructionCacheFill (gid b sub : Nat) : RoundTrip.Statement (.instructionCacheFill gid b sub) := by
  intro _ h; exact absurd rfl h

theorem RoundTrip.leaseShareReport (src die lkey : Nat) : RoundTrip.Statement (.leaseShareReport src die lkey) := by
  intro _ h; exact absurd rfl h

end Sys2Proof.Laws
end

