-- ==== Sys2Proof/Laws/Scalar.lean ====
section
/-!
SUPPORT. Laws of the scalar functions: the model's helpers agree with the arithmetic of 64-bit values that the statements
use (R176–R178).
-/

namespace Sys2Proof.Machine

/-- The signed high half. -/
theorem mulHigh_signed (a b : W64) : mulHigh false a b = highHalf (a.signExtend 128) (b.signExtend 128) := by
  have h : a.signExtend 128 * b.signExtend 128 = BitVec.ofInt 128 (a.toInt * b.toInt) := by
    apply BitVec.eq_of_toInt_eq
    rw [BitVec.toInt_mul, BitVec.toInt_ofInt, BitVec.toInt_signExtend_of_le (by decide), BitVec.toInt_signExtend_of_le (by decide)]
  simp only [highHalf, h, mulHigh]
  apply BitVec.eq_of_toNat_eq
  simp only [BitVec.extractLsb'_toNat, BitVec.toNat_ofInt, Bool.false_eq_true, if_false, Nat.shiftRight_eq_div_pow]
  generalize a.toInt * b.toInt = p
  omega

/-- The unsigned high half. -/
theorem mulHigh_unsigned (a b : W64) : mulHigh true a b = highHalf (a.setWidth 128) (b.setWidth 128) := by
  apply BitVec.eq_of_toNat_eq
  simp [mulHigh, highHalf, BitVec.extractLsb'_toNat]
  have := a.isLt; have := b.isLt
  have h : a.toNat * b.toNat < 2^128 := by nlinarith
  rw [Nat.mod_eq_of_lt (a := a.toNat * b.toNat) (by omega)]

/-- sshl is the shift of 64-bit values. -/
theorem shiftL64_eq (a b : W64) : shiftL64 a b = a <<< b := by
  simp only [shiftL64]
  split
  · rename_i h
    apply BitVec.eq_of_getLsbD_eq; intro i hi
    simp; omega
  · rfl

/-- sshr is the logical shift of 64-bit values. -/
theorem shiftR64_eq (a b : W64) : shiftR64 a b = a >>> b := by
  simp only [shiftR64]
  split
  · rename_i h
    apply BitVec.eq_of_getLsbD_eq; intro i hi
    simp; apply BitVec.getLsbD_of_ge; omega
  · rfl

/-- ssra is the arithmetic shift of 64-bit values. -/
theorem shiftRA64_eq (a b : W64) : shiftRA64 a b = a.sshiftRight' b := by
  simp only [shiftRA64, BitVec.sshiftRight']
  by_cases h : b.toNat ≤ 63
  · rw [Nat.min_eq_left h]
  · apply BitVec.eq_of_getLsbD_eq; intro i hi
    rw [Nat.min_eq_right (by omega)]
    simp only [BitVec.getLsbD_sshiftRight]
    rw [if_neg (show ¬ b.toNat + i < 64 by omega)]
    split
    · have : i = 0 := by omega
      subst this; simp [BitVec.msb_eq_getLsbD_last]
    · rfl

/-- The signed quotient. -/
theorem divS64_eq (a b : W64) : divS64 a b = if b = 0 then BitVec.allOnes 64 else a.sdiv b := by
  simp only [divS64]; split
  · rfl
  · rw [← BitVec.toInt_inj]
    simp [BitVec.toInt_sdiv]

/-- The unsigned quotient. -/
theorem divU64_eq (a b : W64) : divU64 a b = if b = 0 then BitVec.allOnes 64 else a / b := by
  simp only [divU64]; split <;> rfl

/-- The signed remainder. -/
theorem remS64_eq (a b : W64) : remS64 a b = if b = 0 then a else a.srem b := by
  simp only [remS64]; split
  · rfl
  · rw [← BitVec.toInt_inj, BitVec.toInt_srem, BitVec.toInt_ofInt, ← BitVec.toInt_srem]
    exact BitVec.toInt_bmod_cancel _

/-- The signed minimum. -/
theorem minS64_eq (a b : W64) : minS64 a b = if a.toInt ≤ b.toInt then a else b := by
  simp only [minS64, BitVec.slt, decide_eq_true_eq]
  by_cases h1 : a.toInt < b.toInt
  · simp [h1, le_of_lt h1]
  · by_cases h2 : a.toInt ≤ b.toInt
    · simp [h1, h2]; exact (BitVec.eq_of_toInt_eq (by omega)).symm
    · simp [h1, h2]

/-- The unsigned minimum. -/
theorem minU64_eq (a b : W64) : minU64 a b = if a.toNat ≤ b.toNat then a else b := by
  simp only [minU64, BitVec.ult, decide_eq_true_eq]
  by_cases h1 : a.toNat < b.toNat
  · simp [h1, le_of_lt h1]
  · by_cases h2 : a.toNat ≤ b.toNat
    · simp [h1, h2]; exact (BitVec.eq_of_toNat_eq (by omega)).symm
    · simp [h1, h2]

/-- The signed maximum. -/
theorem maxS64_eq (a b : W64) : maxS64 a b = if a.toInt ≤ b.toInt then b else a := by
  simp only [maxS64, BitVec.slt, decide_eq_true_eq]
  by_cases h1 : a.toInt < b.toInt
  · simp [h1, le_of_lt h1]
  · by_cases h2 : a.toInt ≤ b.toInt
    · simp [h1, h2]; exact (BitVec.eq_of_toInt_eq (by omega))
    · simp [h1, h2]

/-- The unsigned maximum. -/
theorem maxU64_eq (a b : W64) : maxU64 a b = if a.toNat ≤ b.toNat then b else a := by
  simp only [maxU64, BitVec.ult, decide_eq_true_eq]
  by_cases h1 : a.toNat < b.toNat
  · simp [h1, le_of_lt h1]
  · by_cases h2 : a.toNat ≤ b.toNat
    · simp [h1, h2]; exact (BitVec.eq_of_toNat_eq (by omega))
    · simp [h1, h2]

end Sys2Proof.Machine
end

