-- ==== Sys2Proof/Laws/Values.lean ====
section
/-!
SUPPORT. Laws of results: the model's element-wise helpers agree with the arithmetic that the statements use (R56, R57, R183).
-/

namespace Sys2Proof.Machine

theorem bits_lt (x lo n : Nat) : bits x lo n < 2 ^ n := Nat.mod_lt _ (by positivity)

/-- Horner's rule for the elements of a lane value. -/
theorem foldr_elems (n k : Nat) (e : Nat → Nat) :
    ((List.range k).map e).foldr (fun x acc => acc <<< n + x % 2 ^ n) 0 =
      ((List.range k).map (fun i => e i % 2 ^ n * 2 ^ (n * i))).sum := by
  induction k generalizing e with
  | zero => rfl
  | succ k ih =>
    rw [List.range_succ_eq_map]
    simp only [List.map_cons, List.map_map, List.foldr_cons, List.sum_cons, Function.comp_def]
    rw [ih (fun i => e (i + 1)), Nat.shiftLeft_eq, ← List.sum_map_mul_right]
    simp only [Nat.succ_eq_add_one, Nat.mul_zero, pow_zero, Nat.mul_one]
    rw [Nat.add_comm]
    congr 2
    apply List.map_congr_left
    intro i _
    ring

/-- A lane value from its elements is the sum of the elements at their places. -/
theorem ofElems_eq {n : Nat} (e : Nat → Nat) :
    ofElems n ((List.range (32 / n)).map e) =
      BitVec.ofNat 32 ((List.range (32 / n)).map (fun i => e i % 2 ^ n * 2 ^ (n * i))).sum := by
  simp only [ofElems]
  rw [← foldr_elems, List.take_of_length_le (by simp), List.foldl_reverse]

/-- An element-wise result, from results that agree modulo 2^n on elements. -/
theorem mapElems_eq {n : Nat} {f : Nat → Nat → Nat → Nat × Exc} {g : Nat → Nat → Nat → Nat}
    (h : ∀ x y z, x < 2 ^ n → y < 2 ^ n → z < 2 ^ n → (f x y z).1 % 2 ^ n = g x y z % 2 ^ n) (a b c : W32) :
    (mapElems n f a b c).1 = byElement n g a b c := by
  simp only [mapElems, List.map_map, Function.comp_def, byElement]
  rw [ofElems_eq]
  congr 2
  apply List.map_congr_left
  intro i _
  rw [h _ _ _ (bits_lt _ _ _) (bits_lt _ _ _) (bits_lt _ _ _)]

/-- The element width that TY names. -/
theorem tyBits_eq (w : XWord) (h : w.fn.toNat % 4 ≠ 3) :
    tyBits (wTy w) = elementBits w ∧ (elementBits w = 8 ∨ elementBits w = 16 ∨ elementBits w = 32) := by
  have : w.fn.toNat % 4 < 4 := Nat.mod_lt _ (by decide)
  simp only [wTy, bits, tyBits, elementBits, Nat.shiftRight_zero, beq_iff_eq]
  norm_num
  split_ifs <;> simp <;> omega

/-- The number an element stands for. -/
theorem intVal_eq {n : Nat} (hn : n = 8 ∨ n = 16 ∨ n = 32) (z : Bool) {x : Nat} (h : x < 2 ^ n) : intVal n z x = number n z x := by
  obtain rfl | rfl | rfl := hn <;> simp only [intVal, number, toSigned, Int.bmod] <;> cases z <;> simp <;> norm_num at h ⊢ <;> omega

/-- An exact result in n bits. -/
theorem deliverInt_eq {n : Nat} (hn : n = 8 ∨ n = 16 ∨ n = 32) (z sat : Bool) (v : Int) :
    (deliverInt n z sat v).1 = inBits n z sat v := by
  obtain rfl | rfl | rfl := hn <;> cases z <;> cases sat <;>
    simp only [deliverInt, inBits, clampInt, intRange, ofInt] <;> norm_num <;>
    (try (split_ifs <;> norm_num <;> omega))

theorem inBits_lt {n : Nat} (z sat : Bool) (v : Int) : inBits n z sat v < 2 ^ n := by
  simp only [inBits]
  have := Int.emod_lt_of_pos (if sat = true then max (if z = true then 0 else -(2 : Int) ^ (n - 1))
    (min (if z = true then (2 : Int) ^ n - 1 else 2 ^ (n - 1) - 1) v) else v) (show (0 : Int) < 2 ^ n by positivity)
  have h2 : (0 : Int) ≤ (if sat = true then max (if z = true then 0 else -(2 : Int) ^ (n - 1))
    (min (if z = true then (2 : Int) ^ n - 1 else 2 ^ (n - 1) - 1) v) else v) % 2 ^ n := Int.emod_nonneg _ (by positivity)
  zify
  rw [Int.toNat_of_nonneg h2]
  exact this

theorem wZ_eq (w : XWord) : wZ w = unsignedType w := by
  simp only [wZ, bit, unsignedType, BitVec.getLsbD, Nat.testBit, Nat.shiftRight_eq_div_pow]
  rcases Nat.mod_two_eq_zero_or_one (w.fn.toNat / 2 ^ 2) with h | h <;> simp [Nat.one_and_eq_mod_two]

theorem wSat_eq (w : XWord) : wSat w = saturates w := by
  simp only [wSat, bit, saturates, BitVec.getLsbD, Nat.testBit, Nat.shiftRight_eq_div_pow]
  rcases Nat.mod_two_eq_zero_or_one (w.m6.toNat / 2 ^ 3) with h | h <;> simp [Nat.one_and_eq_mod_two]

end Sys2Proof.Machine
end

