-- ==== Sys2Proof/Tests/Slice0.lean ====
section
/-!
SUPPORT. Tests: every check of WellFormed refuses a term, words decode to the instructions that they stand for, a few steps, and
for each statement of Obligations.lean a state and operands that meet its hypotheses.
-/

namespace Sys2Proof.Tests
open Sys2Proof Sys2Proof.Machine

set_option maxRecDepth 16000

/-! ## Small states -/

/-- The kernel of the small states: one plane of 16 lanes with 16 registers, two barriers, two Atlas slots and four rows. -/
def kernel : Kernel := { probeKernel with v := 16, barriers := 2, atlas := 2, accRows := 4 }

/-- A gang of that kernel as it is placed on core 0 of CD0. -/
def gang : Gang := State.reset.startGang ⟨probeRecord, 0, kernel, none, [0], []⟩ 0 0 0 0 0

/-- A module that has been brought up, with the link trained and one resident gang whose sub-bundle issues. -/
def small : State :=
  { State.reset with
    phase := 8, hbmRails := true, rails := true, resetHeld := false, link := { State.reset.link with trained := some ⟨0, 0, 4, 100⟩ }
    parts := setNth State.reset.parts 0 (some probePartition), leases := [probeLease], crews := [probeCrew], gangs := [gang]
    dies := modNth State.reset.dies 0 (fun (d : Die) => { d with store := [probeRecord] })
    cores := [{ Core.blank 0 0 with icache := [(0, 514), (0, 515)] }]
    cur := some ⟨0, 0, 0, 0, [], true, [], (Bundle.start kernel 0).lanes, (Bundle.start kernel 0).s⟩, nextId := 1 }

/-- The small state with its gang changed. -/
def withGang (f : Gang → Gang) : State := small.modGang 0 f

/-- The small state with its bundle changed. -/
def withBundle (f : Bundle → Bundle) : State := small.modBundle 0 0 f

/-- A state with scalars of the small gang's bundle set. -/
def State.scalars (s : State) (ss : List (Nat × W64)) : State :=
  s.modBundle 0 0 (fun b => { b with s := ss.foldl (fun l p => setNth l p.1 p.2) b.s })

/-- The small state with scalars set. -/
def withS (ss : List (Nat × W64)) : State := State.scalars small ss

/-- The small state in the instruction at an offset of its code. -/
def withOffset (off : Nat) : State :=
  withBundle (fun b => { b with slices := b.slices.map (fun sl => if sl.own = 0 then sl else { sl with offset := off }) })

/-! ## The hypotheses of the statements -/

/-- The context of a state that issues. -/
def at_ (s : State) : Ctx := s.ctx.getD ⟨⟨0, 0, 0, 0, [], true, [], [], []⟩, gang, Bundle.start kernel 0, Sub.free⟩

/-- A state whose sub-bundle issues. -/
def goes (s : State) : Bool := s.ctx.isSome && s.halts.isEmpty && !(at_ s).q.stepping && !s.ending (at_ s).c.gid

theorem issues {s : State} (h : goes s = true) : s.Issues (at_ s) := by
  simp only [goes, Bool.and_eq_true, List.isEmpty_iff, Bool.not_eq_true'] at h
  obtain ⟨⟨⟨a, b⟩, c⟩, d⟩ := h
  obtain ⟨x, hx⟩ := Option.isSome_iff_exists.1 a
  exact ⟨by simp [at_, hx], b, c, d⟩

/-- A sub-bundle issues a word in time and the word passes the checks of a form. -/
def ready (s : State) (form : Form) (w : XWord) : Bool :=
  goes s && (watchdogIssue (at_ s)).isNone &&
    ({ form with uniform := true, result := false }.check (at_ s).g.kernel.v (at_ s).g.kernel.atlas w).isNone

/-- Some state meets the hypotheses of a statement on a uniform instruction. -/
def Met (form : Form) (w : XWord) (ok : Ctx → State → Prop) : Prop :=
  ∃ (s : State) (x : Ctx), s.Issues x ∧ x.inTime ∧ x.passesForm form w ∧ ok x s

theorem met {form : Form} {w : XWord} {ok : Ctx → State → Prop} (s : State) (h : ready s form w = true) (k : ok (at_ s) s) :
    Met form w ok := by
  simp only [ready, Bool.and_eq_true, Option.isNone_iff_eq_none] at h
  exact ⟨s, at_ s, issues h.1.1, h.1.2, h.2, k⟩

/-- Some state meets the hypotheses of a statement on an instruction that may not issue yet (R167). -/
def MetHold (form : Form) (w : XWord) (ok : Ctx → State → Prop) : Prop :=
  ∃ (s : State) (x : Ctx), s.ctx = some x ∧ x.passesForm form w ∧ ok x s

theorem metHold {form : Form} {w : XWord} {ok : Ctx → State → Prop} (s : State) (h : ready s form w = true) (k : ok (at_ s) s) :
    MetHold form w ok := by
  simp only [ready, Bool.and_eq_true, Option.isNone_iff_eq_none] at h
  exact ⟨s, at_ s, (issues h.1.1).ctx, h.2, k⟩

/-- The hypotheses of a statement on a word that raises a fault (R363): the yield deadline does not matter. -/
def MetRaise (form : Form) (w : XWord) (ok : Ctx → Prop) : Prop :=
  ∃ (s : State) (x : Ctx), s.Issues x ∧ x.passesForm form w ∧ ok x

theorem metRaise {form : Form} {w : XWord} {ok : Ctx → Prop} (s : State) (h : ready s form w = true) (k : ok (at_ s)) :
    MetRaise form w ok := by
  simp only [ready, Bool.and_eq_true, Option.isNone_iff_eq_none] at h
  exact ⟨s, at_ s, issues h.1.1, h.2, k⟩

/-- Some state meets the hypotheses of a statement on a pass of a per-lane instruction. -/
def MetPass (i : Instr) (form : Ctx → Form) (w : XWord) : Prop :=
  ∃ (s : State) (x : Ctx), s.Issues x ∧ s.watching = false ∧ x.inTime ∧
    (form x).check x.g.kernel.v x.g.kernel.atlas w = none ∧ x.latchCheck x.c.plane i = none

/-- A pass of the small state passes its checks. -/
def passes (i : Instr) (form : Ctx → Form) (w : XWord) : Bool :=
  goes small && !small.watching && (watchdogIssue (at_ small)).isNone &&
    ((form (at_ small)).check (at_ small).g.kernel.v (at_ small).g.kernel.atlas w).isNone &&
    ((at_ small).latchCheck (at_ small).c.plane i).isNone

theorem metPass {i : Instr} {form : Ctx → Form} {w : XWord} (h : passes i form w = true) : MetPass i form w := by
  simp only [passes, Bool.and_eq_true, Option.isNone_iff_eq_none, Bool.not_eq_true'] at h
  obtain ⟨⟨⟨⟨a, b⟩, c⟩, d⟩, e⟩ := h
  exact ⟨small, at_ small, issues a, b, c, d, e⟩

/-- The hypotheses of a statement on a message (R9, R12). -/
def MetMessage (n : Nat) (ok : State → Prop) : Prop := ∃ s : State, s.linkUp = true ∧ 8 ≤ s.phase ∧ ok (s.received n)

/-- A value that is there. -/
theorem some_of {α : Type} {o : Option α} (d : α) (h : o.isSome = true) : o = some (o.getD d) := by
  cases o with
  | none => cases h
  | some a => rfl

/-- The crew of the small state with a second gang, of rank 1 on core 1. -/
def duo : State :=
  { small with
    gangs := [{ gang with group := 3 }, { gang with gid := 1, core := 1, rank := 1, group := 3 }]
    crews := [{ probeCrew with gangs := [some 0, some 1] }] }

/-- The small state with a lease over the page at 0x10000 of CD0, which the page tables map to physical address 0x100000. -/
def mapped : State :=
  { small with
    mem := [(0, 1), (2, 16), (0x10000, 1), (0x10002, 32), (0x20008, 15), (0x2000B, 1)]
    leases := [{ probeLease with ranges := [(0x10000, 0x10000)] }] }

/-- A memory operation of the small state's bundle with one request: its kind, its space and the request. -/
def access (kind space : Nat) (r : LaneReq) : MemOp :=
  { id := 7, gid := 0, bundle := 0, sub := 0, plane := 0, offset := 0, kind := kind, uniform := false, attr := 0, aop := 0, dest := 1,
    nwb := false, len := 12, space := space, rank := 1, lanes := [r], seq := 0, held := false, gate := [], fences := 0 }

/-- A request of lane 0 for four bytes at an address. -/
def request (va : W64) (status : Nat) : LaneReq :=
  { lane := 0, va := va, size := 4, status := status, predicted := none, replay := false, loc := 0, slice := 0, data := [], cmp := [], err := [],
    clock := [], line := [], noFill := false }

/-- The mapped state with a memory operation. -/
def during (o : MemOp) : State := { mapped with memOps := [o] }

/-- An instruction passes the checks of a per-lane access. -/
def accesses (s : State) (i : Instr) : Bool :=
  goes s && !s.watching && (watchdogIssue (at_ s)).isNone && (laneFieldCheck (at_ s).g.kernel i).isNone &&
    ((at_ s).latchCheck (at_ s).c.plane i).isNone && (s.memPrecheck (at_ s) i).isNone &&
    ((at_ s).planeAccesses (at_ s).c.words).all (fun a => (s.orderWait (at_ s) a.1).isNone) &&
    !s.meetsRest (at_ s) ((at_ s).planeAccesses (at_ s).c.words) && !s.vlutWaits (at_ s).c.gid (at_ s).c.words

theorem accesses_of {s : State} {i : Instr} {m : MemInfo} (h : accesses s i = true) : s.Accesses (at_ s) i m := by
  simp only [accesses, Bool.and_eq_true, Option.isNone_iff_eq_none, Bool.not_eq_true', List.all_eq_true] at h
  obtain ⟨⟨⟨⟨⟨⟨⟨⟨a, b⟩, c⟩, d⟩, e⟩, f⟩, g⟩, k⟩, l⟩ := h
  exact ⟨issues a, b, c, d, e, fun _ => f, fun _ => g, fun _ => k, fun _ => l⟩

/-! ## Witnesses: the coded data path, presence and the engines -/

/-- The 64 bytes of a descriptor of one tile: its index at an address, and the word of its kind and shape (R72). -/
def descBytes (ibase word : Nat) : List Byte := leBytes 64 (ibase + 2 ^ 128 + 2 ^ 144 + word * 2 ^ 160)

/-- A PLAIN tensor of one INT8 tile of 16 rows (R72, R79), and an EXPC tensor of one BF16 tile to which rows are appended (R83). -/
def plainDesc : List Byte := descBytes 0x10200 0x7FF910
def appendDesc : List Byte := descBytes 0x10210 0x7FF903

/-- The mapped state with both tensors in memory: the descriptor of the first at 0x10100, the index entries of both (R74), and
their streams at 0x10400, 1,028 bytes of zeros under a header, and 0x10A00, a header alone. -/
def tens : State :=
  let s := mapped.putBytes 0x100100 plainDesc
  let s := s.putBytes 0x100200 ([0, 4, 1, 0, 0, 0, 0, 0, 4, 4, 0, 0, 0x21, 0, 1, 0] ++ [0, 10, 1, 0, 0, 0, 0, 0, 4, 0, 0, 0, 8, 0, 3, 0])
  let s := s.putBytes 0x100400 [0x10, 0, 0x40, 0]
  let s := s.putBytes 0x100A00 [3, 0, 0x40, 0]
  s.modGang 0 (fun g => (g.bind 0 (some ⟨0x10100, plainDesc⟩)).bind 1 (some ⟨0x10140, appendDesc⟩))

/-- The state with both tensors and scalars set. -/
def tensS (ss : List (Nat × W64)) : State := State.scalars tens ss

/-- The hypotheses of a statement on a look-up (R262). -/
def MetLook (i : XWord → Instr) : Prop :=
  ∃ (w : XWord) (s : State) (x : Ctx), s.Issues x ∧ s.watching = false ∧ x.inTime ∧ laneFieldCheck x.g.kernel (i w) = none ∧
    x.latchCheck x.c.plane (i w) = none ∧ (x.c.first = true → s.passGate x false x.c.words = none) ∧ (x.c.first = true → s.slotCheck x (i w) = none) ∧
    x.lanesIn x.c.plane (w.pred.toNat, w.pn == 1) ≠ []

/-- The bytes of a read that succeeds. -/
def gotBytes : Got → Option (List Byte)
  | .bytes bs _ => some bs
  | _ => none

theorem got_of {s : State} {x : Ctx} {va n : Nat} {bs : List Byte} (h : gotBytes (s.acquireRead x va n) = some bs) :
    s.acquireRead x va n = .bytes bs (s.tookRange x.g va n) := by
  revert h
  unfold State.acquireRead
  split
  · simp [gotBytes]
  · split
    · simp [gotBytes]
    · split <;> simp [gotBytes]

/-- The state with a codebook of two entries in slot 1 (R86). -/
def booked : State := small.modGang 0 (fun g => { g with atlas := setNth g.atlas 1 (slotOf [0x11, 1, 1, 2, 3, 4]) })

theorem metLook (i : XWord → Instr) (w : XWord)
    (h : (goes booked && !booked.watching && (watchdogIssue (at_ booked)).isNone && (laneFieldCheck (at_ booked).g.kernel (i w)).isNone &&
      ((at_ booked).latchCheck (at_ booked).c.plane (i w)).isNone && (booked.passGate (at_ booked) false (at_ booked).c.words).isNone &&
      (booked.slotCheck (at_ booked) (i w)).isNone && ((at_ booked).lanesIn (at_ booked).c.plane (w.pred.toNat, w.pn == 1)) != []) = true) :
    MetLook i := by
  simp only [Bool.and_eq_true, Option.isNone_iff_eq_none, Bool.not_eq_true', bne_iff_ne] at h
  obtain ⟨⟨⟨⟨⟨⟨⟨a, b⟩, c⟩, d⟩, e⟩, f⟩, g⟩, k⟩ := h
  exact ⟨w, booked, at_ booked, issues a, b, c, d, e, fun _ => f, fun _ => g, k⟩

theorem witness_HandlesAndLookups :
    (∃ (w : XWord) (bs : List Byte), Met (opForm .handle .scalar .unused .unused true (w.m6 = 0 && w.nwb = 0)) w (fun x s =>
      s.watching = false ∧ (x.s w.a9.toNat + w.imm.signExtend 64).toNat % 64 = 0 ∧
        s.acquireRead x (x.s w.a9.toNat + w.imm.signExtend 64).toNat 64 =
          .bytes bs (s.tookRange x.g (x.s w.a9.toNat + w.imm.signExtend 64).toNat 64) ∧ descOk bs x.g.kernel.atlas = true)) ∧
    (∃ w : XWord, Met (opForm .handle .unused .unused .unused true (w.m6 = 0 && w.nwb = 0 && w.imm = 0)) w (fun _ _ => True)) ∧
    (∃ (w : XWord) (h : Handle), Met (opForm .scalar .handle .scalar .scalar true (w.m6 = 0 && w.nwb = 0 && w.imm = 0)) w (fun x _ =>
      x.tileOf w.a9.toNat h (x.sn w.b9.toNat) (x.sn w.c9.toNat))) ∧
    (∃ (w : XWord) (h : Handle) (bs : List Byte), Met (opForm .pair .handle .scalar .scalar true (w.m6 = 0 && w.nwb = 0 && w.imm = 0)) w
      (fun x s => x.tileOf w.a9.toNat h (x.sn w.b9.toNat) (x.sn w.c9.toNat) ∧
        s.acquireRead x ((descOf h.desc).entryVa (x.sn w.b9.toNat) (x.sn w.c9.toNat)) 16 =
          .bytes bs (s.tookRange x.g ((descOf h.desc).entryVa (x.sn w.b9.toNat) (x.sn w.c9.toNat)) 16))) ∧
    (∃ w : XWord, Met (opForm .scalar .slot .unused .unused true (w.m6 = 0 && w.nwb = 0 && w.imm = 0)) w (fun x s =>
      x.g.damaged 1 w.a9.toNat = none ∧ s.slotFilling x.c.gid w.a9.toNat = false)) ∧
    MetLook .vlut ∧ MetLook .vlutHi ∧ MetLook .vlutP2 :=
  ⟨⟨⟨0, 0, 0, 15, 3, 268, 268, 0, 0, 0xFFFFFFC0⟩, plainDesc, met (tensS [(3, 0x10140)]) (by decide) ⟨by decide, by decide, got_of (by decide), by decide⟩⟩,
   ⟨⟨0, 0, 0, 15, 268, 268, 268, 0, 0, 0⟩, met tens (by decide) trivial⟩,
   ⟨⟨0, 0, 0, 2, 0, 4, 5, 0, 0, 0⟩, ⟨0x10100, plainDesc⟩, met tens (by decide) (by unfold Ctx.tileOf; decide)⟩,
   ⟨⟨0, 0, 0, 2, 0, 4, 5, 0, 0, 0⟩, ⟨0x10100, plainDesc⟩, [0, 4, 1, 0, 0, 0, 0, 0, 4, 4, 0, 0, 0x21, 0, 1, 0],
      met tens (by decide) ⟨by unfold Ctx.tileOf; decide, got_of (by decide)⟩⟩,
   ⟨⟨0, 0, 0, 2, 1, 268, 268, 0, 0, 0⟩, met small (by decide) (by decide)⟩,
   metLook _ ⟨0, 0, 0, 12, 9, 1, 268, 0, 0, 0⟩ (by decide), metLook _ ⟨0, 0, 0, 12, 9, 1, 268, 1, 0, 0⟩ (by decide),
   metLook _ ⟨0, 0, 0, 12, 9, 1, 268, 2, 0, 0⟩ (by decide)⟩

/-- The next state that an outcome gives. -/
def next (r : Host.Outcome State Fault Refusal) : State :=
  match r with
  | .next t => t
  | _ => small

/-- The state after an instruction. -/
def after (i : Instr) (s : State) : State := next (exec i s)

/-- The operation of the decoders or the encoder for which the sub-bundle waits. -/
def dec (s : State) (engs : List Nat) : EngOp × Ctx := (s.decOf 0 0 0 engs).getD ((at_ small).newOp 0 0 0 [] [] [], at_ small)

theorem dec_of {s : State} {engs : List Nat} (h : (s.decOf 0 0 0 engs).isSome = true) : s.decOf 0 0 0 engs = some ((dec s engs).1, (dec s engs).2) :=
  some_of _ h

theorem witness_DecodersStart :
    (∀ r ∈ [(0, 0x200, 0x400), (4, 0x208, 4)], ∃ (w : XWord) (h : Handle), w.fn.toNat = r.1 ∧ w.imm.toNat = r.2.1 ∧ Met
      { opForm .dst .handle .scalar .scalar
        (w.fn.toNat < 8 && w.fn.toNat % 4 != 3 && 1 ≤ w.imm.toNat / 64 % 128 && w.imm.toNat / 64 % 128 ≤ 64)
        (w.m6 = 0 && w.nwb = 0 && w.imm.toNat < 2 ^ 13) with operandOk := w.d9.toNat < 256 } w
      (fun x s =>
        x.g.damaged 4 w.a9.toNat = none ∧ x.g.handle w.a9.toNat = some h ∧
        w.imm.toNat % 64 + w.imm.toNat / 64 % 128 ≤ (descOf h.desc).rows ∧
        w.d9.toNat + (w.imm.toNat / 64 % 128 * 64 / (if w.fn.toNat % 4 = 0 then 2 else 1) + x.g.kernel.width - 1)
          / x.g.kernel.width ≤ x.g.kernel.v ∧
        (if w.fn.getLsbD 2 then x.sn w.b9.toNat % 4 = 0 ∧ x.sn w.c9.toNat % 4 = 0 ∧ 4 ≤ x.sn w.c9.toNat ∧
            x.g.inOneRegion (x.sn w.b9.toNat) (x.sn w.c9.toNat) = true
          else x.sn w.b9.toNat < (descOf h.desc).trows ∧ x.sn w.c9.toNat < (descOf h.desc).tcols) ∧
        x.g.damagedSlots (descOf h.desc) = none ∧ (∀ n ∈ (descOf h.desc).slots, s.slotFilling x.c.gid n = false) ∧
        (w.fn.getLsbD 2 = true → ((tablesFor (descOf h.desc) (fun i => x.g.atlas[i]?)).toOption.isSome = true)) ∧
        s.accessesPending x.c.gid x.c.bundle = false ∧ x.fenceWaits = false)) ∧
    (∀ fn < 2, ∃ (w : XWord) (h : Handle), w.fn.toNat = fn ∧ Met
      (opForm .scalar .handle .scalar .scalar (w.fn.toNat < 2 && (w.fn = 1 || w.m6.toNat % 8 ≤ 3))
        ((w.fn != 1 || w.m6 = 0) && !w.m6.getLsbD 5 && w.nwb = 0 && w.imm.toNat < 256)) w
      (fun x _ => w.imm.toNat + 64 / x.g.kernel.width ≤ x.g.kernel.v ∧ x.g.damaged 4 w.a9.toNat = none ∧
        x.g.handle w.a9.toNat = some h)) ∧
    (∃ (w : XWord) (bs : List Byte), Met (opForm .slot .scalar .unused .unused true (w.m6 = 0 && w.nwb = 0)) w (fun x s =>
      (x.s w.a9.toNat + w.imm.signExtend 64).toNat % 2 = 0 ∧
      (s.readGang x.g 1 (x.s w.a9.toNat + w.imm.signExtend 64).toNat 2).toOption = some bs ∧ s.slotFilling x.c.gid w.d9.toNat = false ∧
      s.accessesPending x.c.gid x.c.bundle = false ∧ x.fenceWaits = false)) ∧
    (∃ w : XWord, Met (opForm .slot .scalar .unused .unused true (w.m6 = 0 && w.nwb = 0)) w (fun x s =>
      (x.s w.a9.toNat + w.imm.signExtend 64).toNat % 2 = 0 ∧
      x.g.inView (x.s w.a9.toNat + w.imm.signExtend 64).toNat 2 = true ∧ s.slotFilling x.c.gid w.d9.toNat = false ∧
      s.acquirePending x.c.gid x.c.bundle = false ∧ x.fenceWaits = false)) := by
  refine ⟨?_, ?_, ⟨⟨0, 0, 0, 1, 3, 268, 268, 0, 0, 0⟩, [0, 0], met (tensS [(3, 0x1FFFE)]) (by decide) (by decide)⟩,
    ⟨⟨0, 0, 0, 1, 3, 268, 268, 1, 0, 0⟩, met (tensS [(3, 0x3FFE)]) (by decide) (by decide)⟩⟩
  · intro r hr
    simp only [List.mem_cons, List.mem_nil_iff, or_false] at hr
    obtain rfl | rfl := hr
    · exact ⟨⟨0, 0, 0, 0, 0, 4, 5, 0, 0, 0x200⟩, ⟨0x10100, plainDesc⟩, rfl, rfl, met tens (by decide) (by decide)⟩
    · exact ⟨⟨0, 0, 0, 0, 0, 4, 5, 4, 0, 0x208⟩, ⟨0x10100, plainDesc⟩, rfl, rfl, met (tensS [(4, 0x3FFC), (5, 4)]) (by decide) (by decide)⟩
  · intro fn hfn
    match fn, hfn with
    | 0, _ => exact ⟨⟨0, 0, 0, 2, 1, 4, 5, 0, 0x1B, 12⟩, ⟨0x10140, appendDesc⟩, rfl, met tens (by decide) (by decide)⟩
    | 1, _ => exact ⟨⟨0, 0, 0, 2, 1, 4, 5, 1, 0, 0⟩, ⟨0x10140, appendDesc⟩, rfl, met tens (by decide) (by decide)⟩

/-- States in which the sub-bundle waits for a texp of the first tensor, a ctld of zeros and a tenc of the second. -/
def inTexp : State := after (.texp ⟨0, 0, 0, 0, 0, 4, 5, 0, 0, 0x200⟩) tens
def inCtld : State := after (.ctld ⟨0, 0, 0, 1, 3, 268, 268, 0, 0, 0⟩) (tensS [(3, 0x11000)])
def inTenc : State := after (.tenc ⟨0, 0, 0, 2, 1, 4, 5, 1, 0, 0⟩) tens
/-- Those states with the bytes there. -/
def texpHas : State := next (execDecoderResume 0 0 0 inTexp)
def ctldHas : State := next (execDecoderResume 0 0 0 inCtld)
def tencHas : State := next (execDecoderResume 0 0 0 inTenc)

theorem decoding_of {s : State} {eng : Nat}
    (h : ((s.decOf 0 0 0 [eng]).isSome && s.halts.isEmpty && !s.ending 0 && !s.watching && !(dec s [eng]).2.q.stepping) = true) :
    s.Decoding 0 0 0 eng (dec s [eng]).1 (dec s [eng]).2 := by
  simp only [Bool.and_eq_true, Bool.not_eq_true', List.isEmpty_iff] at h
  exact ⟨dec_of h.1.1.1.1, h.1.1.1.2, h.1.1.2, h.1.2, h.2⟩

/-- A result that is there. -/
theorem ok_of {ε α : Type} {r : Except ε α} (h : r.toOption.isSome = true) : ∃ a, r = .ok a := by
  cases r with
  | error e => cases h
  | ok a => exact ⟨a, rfl⟩

theorem witness_DecodersEnd :
    (∃ (s : State) (gid b sub : Nat) (o : EngOp) (x : Ctx), s.decOf gid b sub [5, 6, 7] = some (o, x) ∧ o.state = 0 ∧ o.eng = 5 ∧
      s.settled x.g.die = true ∧ s.unitBusy x.g o = false ∧ s.portBusy x.g o = false ∧ (o.par 2).testBit 2 = false) ∧
    (∃ (s : State) (gid b sub : Nat) (o : EngOp) (x : Ctx) (bs : List Byte), s.decOf gid b sub [5, 6, 7] = some (o, x) ∧
      o.state = 0 ∧ o.eng = 7 ∧ s.settled x.g.die = true ∧ s.decReady x.g o = true ∧ s.ctldObject x o = .ok bs) ∧
    (∃ (s : State) (gid b sub : Nat) (o : EngOp) (x : Ctx) (xs : List Elem), s.Decoding gid b sub 5 o x ∧ o.state = 1 ∧
      s.unitBusy x.g o = false ∧ s.portBusy x.g o = false ∧ s.settled x.g.die = true ∧ s.texpElems x o = .ok xs) ∧
    (∃ (s s' : State) (gid b sub : Nat) (o : EngOp) (x : Ctx) (n : Nat), s.Decoding gid b sub 6 o x ∧ o.state = 1 ∧
      s.settled x.g.die = true ∧ s.tencAppend x o (entryOf (o.desc.drop 64)) = .ok (n, s') ∧ s'.halts = [] ∧ s'.ending gid = false) ∧
    (∃ (s : State) (gid b sub : Nat) (o : EngOp) (x : Ctx), s.Decoding gid b sub 7 o x ∧ o.state = 1 ∧
      s.slotRead gid o.id o.number = false) := by
  refine ⟨⟨inTexp, 0, 0, 0, _, _, dec_of (by decide), by decide, by decide, by decide, by decide, by decide, by decide⟩, ?_, ?_, ?_,
    ⟨ctldHas, 0, 0, 0, _, _, decoding_of (by decide), by decide, by decide⟩⟩
  · obtain ⟨bs, h⟩ := ok_of (r := inCtld.ctldObject (dec inCtld [5, 6, 7]).2 (dec inCtld [5, 6, 7]).1) (by decide)
    exact ⟨inCtld, 0, 0, 0, _, _, bs, dec_of (by decide), by decide, by decide, by decide, by decide, h⟩
  · obtain ⟨xs, h⟩ := ok_of (r := texpHas.texpElems (dec texpHas [5]).2 (dec texpHas [5]).1) (by decide)
    exact ⟨texpHas, 0, 0, 0, _, _, xs, decoding_of (by decide), by decide, by decide, by decide, by decide, h⟩
  · obtain ⟨⟨n, s'⟩, h⟩ := ok_of (r := tencHas.tencAppend (dec tencHas [6]).2 (dec tencHas [6]).1
      (entryOf ((dec tencHas [6]).1.desc.drop 64))) (by decide)
    have k : (tencHas.tencAppend (dec tencHas [6]).2 (dec tencHas [6]).1 (entryOf ((dec tencHas [6]).1.desc.drop 64))).toOption.map
      (fun p => p.2.halts.isEmpty && !p.2.ending 0) = some true := by decide
    rw [h] at k
    exact ⟨tencHas, s', 0, 0, 0, _, _, n, decoding_of (by decide), by decide, by decide, h, by simpa [Except.toOption] using k⟩

theorem request_of {s : State} {o : MemOp} (r : LaneReq) (g : Gang) (h : s.memOps = [o]) (hr : o.lanes = [r]) (hg : s.gang o.gid = some g)
    (h0 : o.space = 0) (hh : o.held = false) : s.Request o r g := by
  refine ⟨?_, ?_, hg, h0, hh⟩
  · simp [State.memOp, h]
  · simp [hr]

/-! ## Witnesses: the expanded view, presence, copies and matrices -/

/-- The expanded view of the tensor of rows to append, registered under XID 5 of CD0, and its first and its last byte. -/
def viewed : State := { tens with xviews := [⟨0, 0, 5, appendDesc, 0x10140, []⟩] }
def viewVa (off : Nat) : Nat := 2 ^ 53 + 5 * 2 ^ 40 + off

/-- A read of that view in progress, of four bytes at an offset. -/
def viewReq (off : Nat) : LaneReq := request (BitVec.ofNat 64 (viewVa off)) 0
def viewOp (off : Nat) : MemOp := access 0 0 (viewReq off)
def viewRead (off : Nat) : State := { viewed with memOps := [viewOp off] }
def viewGang (off : Nat) : Gang := ((viewRead off).gang 0).getD gang

theorem view_request (off : Nat) (h : ((viewRead off).gang 0).isSome = true) : (viewRead off).Request (viewOp off) (viewReq off) (viewGang off) :=
  request_of _ _ rfl rfl (some_of gang h) rfl rfl

theorem error_of {ε α : Type} {r : Except ε α} (h : r.toOption.isNone = true) : ∃ f, r = .error f := by
  cases r with
  | error e => exact ⟨e, rfl⟩
  | ok a => cases h

theorem witness_ExpandedView :
    (∃ (part die xid : Nat) (desc : W64) (tabs : List W64) (v : XView), MetMessage 1 (fun s => s.makeView part die xid desc tabs = some v)) ∧
    (∃ part die xid : Nat, MetMessage 1 (fun s => ∃ v ∈ s.xviews, v.part = part ∧ v.die = die ∧ v.xid = xid)) ∧
    (∃ (s : State) (o : MemOp) (r : LaneReq) (g : Gang) (bs : List Byte), s.Request o r g ∧ r.status = 0 ∧ vaIsXv r.va.toNat = true ∧
      o.kind = 0 ∧ s.mayPerform o r = true ∧ (s.carryClock g.die (vaDie r.va.toNat)).xvRead g.part r.va.toNat r.size = .ok bs) ∧
    (∃ (s : State) (o : MemOp) (r : LaneReq) (g : Gang) (f : FaultInfo), s.Request o r g ∧ r.status = 0 ∧ vaIsXv r.va.toNat = true ∧
      o.kind = 0 ∧ s.mayPerform o r = true ∧ (s.carryClock g.die (vaDie r.va.toNat)).xvRead g.part r.va.toNat r.size = .error f) := by
  refine ⟨⟨0, 0, 0xFFF, 0x10100, [], ((tens.received 1).makeView 0 0 0xFFF 0x10100 []).getD ⟨0, 0, 0, [], 0, []⟩, tens, by decide, by decide,
      some_of _ (by decide)⟩, ⟨0, 0, 5, viewed, by decide, by decide, by decide⟩, ?_, ?_⟩
  · obtain ⟨bs, h⟩ := ok_of (r := ((viewRead 2044).carryClock (viewGang 2044).die (vaDie (viewReq 2044).va.toNat)).xvRead (viewGang 2044).part (viewReq 2044).va.toNat (viewReq 2044).size) (by decide)
    exact ⟨viewRead 2044, viewOp 2044, viewReq 2044, viewGang 2044, bs, view_request _ (by decide), rfl, by decide, rfl, by decide, h⟩
  · obtain ⟨f, h⟩ := error_of (r := ((viewRead 2048).carryClock (viewGang 2048).die (vaDie (viewReq 2048).va.toNat)).xvRead (viewGang 2048).part (viewReq 2048).va.toNat (viewReq 2048).size) (by decide)
    exact ⟨viewRead 2048, viewOp 2048, viewReq 2048, viewGang 2048, f, view_request _ (by decide), rfl, by decide, rfl, by decide, h⟩

/-- The mapped state with a store of its bundle under way, and with scalars set. -/
def busy : State := during (access 1 0 (request 0x1FFFC 2))
def busyS (ss : List (Nat × W64)) : State := State.scalars busy ss

/-- The condition on the range of a presence instruction (R237). -/
def presOk (x : Ctx) (w : XWord) : Prop :=
  (x.s w.a9.toNat + w.imm.signExtend 64).toNat % 128 = 0 ∧
    (x.sn w.b9.toNat = 0 ∨ x.g.inOneRegion (x.s w.a9.toNat + w.imm.signExtend 64).toNat (128 * x.sn w.b9.toNat) = true)

theorem witness_Presence :
    (∃ w : XWord, w.fn = 0 ∧ Met (presForm w) w (fun x _ => presOk x w)) ∧
    (∀ q : Bool, ∃ w : XWord, w.fn = 1 ∧ Met (presForm w) w (fun x s => presOk x w ∧ (q = true → s.quiet x) ∧ (q = false → x.sn w.b9.toNat = 0))) ∧
    (∃ w : XWord, w.fn = 1 ∧ MetHold (presForm w) w (fun x s => presOk x w ∧ x.sn w.b9.toNat ≠ 0 ∧ ¬ s.quiet x)) ∧
    (∃ w : XWord, w.fn = 2 ∧ Met (presForm w) w (fun x _ => presOk x w)) :=
  ⟨⟨⟨0, 0, 0, 268, 3, 4, 268, 0, 0, 0xFFFFFF80⟩, rfl, met (withS [(3, 0x80), (4, 0x80)]) (by decide) (by unfold presOk; decide)⟩,
   fun q => match q with
     | true => ⟨⟨0, 0, 0, 268, 3, 4, 268, 1, 0, 0x3F80⟩, rfl, met (withS [(4, 1)]) (by decide) (by unfold presOk State.quiet; decide)⟩
     | false => ⟨⟨0, 0, 0, 268, 3, 4, 268, 1, 0, 0x4000⟩, rfl, met (busyS []) (by decide) (by unfold presOk State.quiet; decide)⟩,
   ⟨⟨0, 0, 0, 268, 3, 4, 268, 1, 0, 0x3F80⟩, rfl, metHold (busyS [(4, 1)]) (by decide) (by unfold presOk State.quiet; decide)⟩,
   ⟨⟨0, 0, 0, 2, 3, 4, 268, 2, 0, 0x4000⟩, rfl, met small (by decide) (by unfold presOk; decide)⟩⟩

/-- The hypotheses of a statement on a copy instruction (R268, R272). -/
def MetCopy (i : XWord → Instr) (fn : Nat) : Prop :=
  ∃ (w : XWord) (s : State) (x : Ctx), s.Issues x ∧ x.inTime ∧ x.passesForm (cpyForm fn false w true true x) w ∧
    s.copyFault x (x.copyOp s fn w (encode (i w))) = none ∧ s.copyWaits x (x.copyOp s fn w (encode (i w))) = false

/-- A copy instruction of a state passes its checks. -/
def copies (i : XWord → Instr) (fn : Nat) (w : XWord) (s : State) : Bool :=
  goes s && (watchdogIssue (at_ s)).isNone &&
    ({ cpyForm fn false w true true (at_ s) with uniform := true, result := false }.check (at_ s).g.kernel.v (at_ s).g.kernel.atlas w).isNone &&
    (s.copyFault (at_ s) ((at_ s).copyOp s fn w (encode (i w)))).isNone && !s.copyWaits (at_ s) ((at_ s).copyOp s fn w (encode (i w)))

theorem metCopy {i : XWord → Instr} {fn : Nat} (w : XWord) (s : State) (h : copies i fn w s = true) : MetCopy i fn := by
  simp only [copies, Bool.and_eq_true, Option.isNone_iff_eq_none, Bool.not_eq_true'] at h
  obtain ⟨⟨⟨⟨a, b⟩, c⟩, d⟩, e⟩ := h
  exact ⟨w, s, at_ s, issues a, b, c, d, e⟩

/-- The mapped state with two gangs, and with scalars set. -/
def duoMapped : State := { duo with mem := mapped.mem, leases := mapped.leases }
def duoS (ss : List (Nat × W64)) : State := State.scalars duoMapped ss

/-- A tensor of one tile of 16 rows of 8 bits and one of a tile of 64 rows with none appended yet, both of matrix kinds (R279), with
index entries at 0x10220 and 0x10230 and streams at 0x12000 and 0x14000. -/
def aDesc : List Byte := descBytes 0x10220 0x7FF908
def bDesc : List Byte := descBytes 0x10230 0x7FF803

/-- The state with both, bound to handles 0 and 1; the window of bundle 0 is rows 0 to 3 (R288). -/
def mats : State :=
  let s := mapped.putBytes 0x100220 ([0, 0x20, 1, 0, 0, 0, 0, 0, 4, 4, 0, 0, 0x21, 0, 1, 0] ++ [0, 0x40, 1, 0, 0, 0, 0, 0, 4, 0, 0, 0, 8, 0, 3, 0])
  let s := s.putBytes 0x102000 [8, 0, 0x40, 0]
  let s := s.putBytes 0x104000 [3, 0, 0, 1]
  (s.modGang 0 (fun g => (g.bind 0 (some ⟨0x10100, aDesc⟩)).bind 1 (some ⟨0x10140, bDesc⟩))).modBundle 0 0 (fun b => { b with awl := 4 })

/-- The state of a copy just issued, and its operation. -/
def copying (i : Instr) (ss : List (Nat × W64)) : State := after i (State.scalars mapped ss)
def firstOp (s : State) : EngOp := (s.ops.head?).getD ((at_ small).newOp 0 0 0 [] [] [])

/-- The hypotheses of a statement on the engine's operation of a state. -/
def steps (s : State) : Bool :=
  (s.op (firstOp s).id == some (firstOp s)) && (s.stepper (firstOp s)).isSome && !s.watching
def stepGang (s : State) : Gang := (s.stepper (firstOp s)).getD gang

theorem copying_of {s : State} (h : (steps s && (firstOp s).eng == 1 && s.priorDone (firstOp s) && (firstOp s).state == 0 && s.poison.isEmpty &&
    (firstOp s).ahead.isEmpty && decide ((firstOp s).pos < (firstOp s).total)) = true) : s.Copying (firstOp s) (stepGang s) := by
  simp only [steps, Bool.and_eq_true, beq_iff_eq, Bool.not_eq_true', List.isEmpty_iff, decide_eq_true_eq] at h
  obtain ⟨⟨⟨⟨⟨⟨⟨⟨a, b⟩, c⟩, d⟩, e⟩, f⟩, g⟩, l⟩, k⟩ := h
  exact ⟨a, some_of gang b, d, e, Or.inl f, c, g, l, k⟩

/-- What a bload, an mma and the others of a state need to issue (R280, R281). -/
def MetMatrix (fn : Nat) (w : XWord) (mask : W64) : Prop :=
  ∃ (s : State) (x : Ctx), s.Issues x ∧ x.inTime ∧
    x.passesForm (opForm .scalar .handle .scalar (if w.m6.getLsbD 1 then .unused else .scalar) true
      (w.nwb = 0 && mxZero fn w.m6.toNat w.imm.toNat)) w ∧ x.g.kernel.accRows ≠ 0 ∧
    s.matrixFault x fn w.imm.toNat w.a9.toNat (if w.m6.getLsbD 1 then some (x.sn w.b9.toNat) else none) (x.sn w.b9.toNat)
      (x.sn w.c9.toNat) mask.toNat = none ∧
    (∀ h, x.g.handle w.a9.toNat = some h → ∀ n ∈ (descOf h.desc).slots, s.slotFilling x.c.gid n = false)

def matrices (fn : Nat) (w : XWord) (mask : W64) (s : State) : Bool :=
  let x := at_ s
  goes s && (watchdogIssue x).isNone &&
    ({ opForm .scalar .handle .scalar (if w.m6.getLsbD 1 then .unused else .scalar) true (w.nwb = 0 && mxZero fn w.m6.toNat w.imm.toNat) with
      uniform := true, result := false }.check x.g.kernel.v x.g.kernel.atlas w).isNone && x.g.kernel.accRows != 0 &&
    (s.matrixFault x fn w.imm.toNat w.a9.toNat (if w.m6.getLsbD 1 then some (x.sn w.b9.toNat) else none) (x.sn w.b9.toNat)
      (x.sn w.c9.toNat) mask.toNat).isNone &&
    ((x.g.handle w.a9.toNat).map (fun h => (descOf h.desc).slots.all (fun n => !s.slotFilling x.c.gid n))).getD false

theorem metMatrix {fn : Nat} {w : XWord} {mask : W64} (s : State) (h : matrices fn w mask s = true) : MetMatrix fn w mask := by
  simp only [matrices, Bool.and_eq_true, Option.isNone_iff_eq_none, bne_iff_ne] at h
  obtain ⟨⟨⟨⟨⟨a, b⟩, c⟩, d⟩, e⟩, f⟩ := h
  refine ⟨s, at_ s, issues a, b, c, d, e, ?_⟩
  intro q hq n hn
  simp only [hq, Option.map_some, Option.getD_some, List.all_eq_true, Bool.not_eq_true'] at f
  exact f n hn

theorem witness_CopiesIssue :
    MetCopy .cpyLinG2s 0 ∧ MetCopy .cpyLinS2g 1 ∧ MetCopy .cpyLinG2g 2 ∧ MetCopy .cpyTileG2s 3 ∧
    MetCopy .cpyRowsG2s 4 ∧ MetCopy .cpyMcastG2s 5 ∧ MetCopy .cpyMcastS2s 6 ∧ MetCopy .cpyFill 7 ∧
    (∃ (w : XWord) (lit : W64) (s : State) (x : Ctx), s.Issues x ∧ x.inTime ∧
      x.passesForm (cpyForm 3 true w (chainFnOk lit) (chainLitOk lit) x) w ∧ x.g.kernel.accRows ≠ 0 ∧
      s.copyFault x (x.copyOp s 3 w (encode (.cpyTileG2sCh w lit))) = none ∧
      s.chainFault x w lit ((x.copyOp s 3 w (encode (.cpyTileG2sCh w lit))).par 1) = none ∧
      s.copyWaits x (x.copyOp s 3 w (encode (.cpyTileG2sCh w lit))) = false ∧
      (∀ h, x.g.handle (bits w.imm.toNat 12 4) = some h → ∀ n ∈ (descOf h.desc).slots, s.slotFilling x.c.gid n = false)) :=
  ⟨metCopy ⟨0, 0, 0, 2, 3, 4, 5, 0, 0, 0⟩ (State.scalars mapped [(3, 0x3FF0), (4, 0x1FFF0), (5, 16)]) (by decide),
   metCopy ⟨0, 0, 0, 2, 3, 4, 5, 1, 0, 0xF00⟩ (State.scalars mapped [(3, 0x1FFF0), (4, 0x3FF0), (5, 16)]) (by decide),
   metCopy ⟨0, 0, 0, 2, 3, 4, 5, 2, 0, 6⟩ (State.scalars mapped [(3, 0x1FFF0), (4, 0x10000), (5, 16)]) (by decide),
   metCopy ⟨0, 0, 0, 2, 8, 4, 6, 3, 0, 0⟩ (tensS [(8, 0), (4, 0), (5, 0), (6, 0x408)]) (by decide),
   metCopy ⟨0, 0, 0, 2, 3, 4, 6, 4, 0, 0⟩ (State.scalars mapped [(3, 0x3FF0), (4, 0x10000), (6, 0x200000008), (7, 0x800000010)]) (by decide),
   metCopy ⟨0, 0, 0, 2, 3, 4, 6, 5, 0, 0x1000⟩ (duoS [(3, 0x3FF0), (4, 0x10000), (6, 16), (7, 3)]) (by decide),
   metCopy ⟨0, 0, 0, 2, 3, 4, 6, 6, 0, 0⟩ (duoS [(3, 0x3FF0), (4, 0), (6, 16), (7, 2)]) (by decide),
   metCopy ⟨0, 0, 0, 2, 3, 4, 5, 7, 0, 0⟩ (withS [(3, 0x3FF0), (4, 0xFFFFFFFF), (5, 16)]) (by decide),
   ⟨⟨0, 0, 0, 2, 8, 4, 6, 3, 1, 0x1000⟩, 0x300000000, State.scalars mats [(8, 0), (4, 0), (5, 0), (6, 0x2000)], at_ _, issues (by decide),
      by unfold Ctx.inTime; decide, by unfold Ctx.passesForm; decide, by decide, by decide, by decide, by decide, by decide⟩⟩

theorem witness_CopiesMove :
    (∃ (s : State) (o : EngOp) (g : Gang) (rs : List (Nat × Nat)), s.Copying o g ∧ o.fn = 0 ∧
      s.copyReadFault g (o.chunkSrc, o.chunkEnd o.pos - o.pos) = none ∧ vaIsXv o.chunkSrc = false ∧
      cutXv (o.chunkSrc, s.readEnd g o (o.chunkEnd o.pos) - o.pos) = [(o.chunkSrc, s.readEnd g o (o.chunkEnd o.pos) - o.pos)] ∧
      s.runs g.part 0 o.chunkSrc (s.readEnd g o (o.chunkEnd o.pos) - o.pos) = some rs) ∧
    (∃ (s : State) (o : EngOp) (g : Gang) (rs : List (Nat × Nat)), s.Copying o g ∧ o.fn = 1 ∧
      s.chunkFault g o o.pos (o.chunkEnd o.pos) = none ∧ s.runs g.part 1 o.chunkDst (s.chunkStop g o - o.pos) = some rs) ∧
    (∃ (s : State) (o : EngOp) (g : Gang), s.Copying o g ∧ o.fn = 7 ∧ o.cw.testBit 12 = false) :=
  ⟨⟨copying (.cpyLinG2s ⟨0, 0, 0, 2, 3, 4, 5, 0, 0, 0⟩) [(3, 0x3000), (4, 0x1F000), (5, 0x1000)], _, _, [(0x10F000, 0x1000)],
      copying_of (by decide), by decide, by decide, by decide, by decide, by decide⟩,
   ⟨copying (.cpyLinS2g ⟨0, 0, 0, 2, 3, 4, 5, 1, 0, 0⟩) [(3, 0x1FFF0), (4, 0x3FF0), (5, 16)], _, _, [(0x10FFF0, 16)],
      copying_of (by decide), by decide, by decide, by decide⟩,
   ⟨copying (.cpyFill ⟨0, 0, 0, 2, 3, 4, 5, 7, 0, 0⟩) [(3, 0x3FFC), (4, 5), (5, 4)], _, _, copying_of (by decide), by decide, by decide⟩⟩

/-- The state with a block sparse tensor bound to handle 2 (R82), and the two-gang state with the A tensor bound. -/
def sparse : State := mats.modGang 0 (fun g => g.bind 2 (some ⟨0x10180, descBytes 0x10240 0x7FF925⟩))
def duoMats : State :=
  (duo.modGang 0 (fun g => g.bind 0 (some ⟨0x10100, aDesc⟩))).modBundle 0 0 (fun b => { b with awl := 4 })
def rows : State := withBundle (fun b => { b with awl := 4 })
def rowsS (ss : List (Nat × W64)) : State := State.scalars rows ss

/-- States with an mma and a bload just issued. -/
def inMma : State := after (.mma ⟨0, 0, 0, 2, 0, 4, 5, 0, 0, 0x3FC00⟩) mats
def inBload : State := after (.bload ⟨0, 0, 0, 2, 1, 4, 5, 3, 0, 0xFC00⟩) mats

/-- The elements of a tile that is read whole. -/
def gotAll : TileGot → Option (List Elem × List MxRead)
  | .got xs none st => some (xs, st)
  | _ => none

theorem gotAll_of {r : TileGot} (h : (gotAll r).isSome = true) : ∃ xs st, r = .got xs none st := by
  cases r with
  | wait => cases h
  | got xs f st => cases f with
    | none => exact ⟨xs, st, rfl⟩
    | some f => cases h

theorem whole_of {α β γ : Type} {r : Option (α × Option β × γ)} (h : (r.map (fun p => p.2.1.isNone)).getD false = true) :
    ∃ a c, r = some (a, none, c) := by
  obtain _ | ⟨a, _ | b, c⟩ := r
  · cases h
  · exact ⟨a, c, rfl⟩
  · cases h

theorem witness_Matrix :
    (∃ w, MetMatrix 0 w 0) ∧ (∃ w lit, MetMatrix 1 w lit) ∧ (∃ w, MetMatrix 2 w 0) ∧ (∃ w, MetMatrix 3 w 0) ∧
    (∃ (s : State) (o : EngOp) (g : Gang) (rows : List (List FVal)) (st : List MxRead), s.op o.id = some o ∧
      s.stepper o = some g ∧ o.arrayUse = true ∧ o.fn = 0 ∧ o.pos < mxNk o.w2 ∧ s.mayMultiply o = true ∧ s.texpFirst g o = false ∧ s.settled g.die = true ∧
      s.mxDamage o o.pos = none ∧ s.watching = false ∧ s.aAll g o (descOf (o.desc.take 64)).rows (mxM o.w2) (mxNk o.w2) [o.pos]
        ((mxM o.w2 + (descOf (o.desc.take 64)).rows - 1) / (descOf (o.desc.take 64)).rows) 0 = some (rows, none, st)) ∧
    (∃ (s : State) (o : EngOp) (g : Gang) (xs : List Elem) (st : List MxRead), s.op o.id = some o ∧
      s.stepper o = some g ∧ o.eng = 2 ∧ o.fn = 3 ∧ s.mayFill o (mxSlot o.w2 + o.pos2) = true ∧ s.settled g.die = true ∧
      s.watching = false ∧ o.pos2 < mxNk o.w2 ∧ s.mxTile g o o.pos2 0 1 = .got xs none st ∧ mxSlot o.w2 + o.pos2 < g.bBack.length) := by
  refine ⟨⟨_, metMatrix mats (w := ⟨0, 0, 0, 2, 0, 4, 5, 0, 1, 0x3FC00⟩) (by decide)⟩,
    ⟨⟨0, 0, 0, 2, 0, 4, 5, 1, 0, 0x30000⟩, 3, metMatrix duoMats (by decide)⟩,
    ⟨_, metMatrix (State.scalars sparse [(4, 0x3FF0)]) (w := ⟨0, 0, 0, 2, 2, 4, 268, 2, 2, 0x3F800⟩) (by decide)⟩,
    ⟨_, metMatrix mats (w := ⟨0, 0, 0, 2, 1, 4, 5, 3, 0, 0xFC00⟩) (by decide)⟩, ?_, ?_⟩
  · obtain ⟨rows, st, h⟩ := whole_of (r := inMma.aAll (stepGang inMma) (firstOp inMma) (descOf ((firstOp inMma).desc.take 64)).rows
      (mxM (firstOp inMma).w2) (mxNk (firstOp inMma).w2) [(firstOp inMma).pos] ((mxM (firstOp inMma).w2 +
        (descOf ((firstOp inMma).desc.take 64)).rows - 1) / (descOf ((firstOp inMma).desc.take 64)).rows) 0) (by decide)
    exact ⟨inMma, firstOp inMma, stepGang inMma, rows, st, by decide, some_of gang (by decide), by decide, by decide, by decide, by decide,
      by decide, by decide, by decide, by decide, h⟩
  · obtain ⟨xs, st, h⟩ := gotAll_of (r := inBload.mxTile (stepGang inBload) (firstOp inBload) (firstOp inBload).pos2 0 1) (by decide)
    exact ⟨inBload, firstOp inBload, stepGang inBload, xs, st, by decide, some_of gang (by decide), by decide, by decide,
      by decide, by decide, by decide, by decide, h, by decide⟩

theorem witness_Accumulators :
    (∃ w : XWord, Met (opForm .unused .scalar .scalar .scalar true (w.m6 = 0 && w.imm = 0 && w.nwb = 0)) w (fun x _ =>
      x.g.kernel.accRows ≠ 0 ∧ x.c.bundle = 0 ∧ x.sn w.a9.toNat < x.g.bundles.length ∧
        x.sn w.b9.toNat ≤ x.sn w.c9.toNat ∧ x.sn w.c9.toNat ≤ x.g.kernel.accRows)) ∧
    (∃ w : XWord, Met { opForm .dst .scalar .unused .unused true (w.m6 = 0 && w.nwb = 0 && w.imm.toNat < 2 ^ 14) with
        operandOk := w.d9.toNat < 256 } w (fun x s => s.rowsFree x (x.rowBase w) (w.imm.toNat / 1024 + 1) ∧
      x.g.damagedRows (x.rowBase w) (w.imm.toNat / 1024 + 1) = none ∧
      w.d9.toNat + (64 * (w.imm.toNat / 1024 + 1) + x.g.kernel.width - 1) / x.g.kernel.width ≤ x.g.kernel.v)) ∧
    (∃ w : XWord, Met { opForm .unused .scalar .vfield .unused true (w.m6 = 0 && w.nwb = 0 && w.imm.toNat < 2 ^ 14) with
        operandOk := w.b9.toNat < 256 } w (fun x s => s.rowsFree x (x.rowBase w) (w.imm.toNat / 1024 + 1) ∧
      w.b9.toNat + (64 * (w.imm.toNat / 1024 + 1) + x.g.kernel.width - 1) / x.g.kernel.width ≤ x.g.kernel.v)) ∧
    (∃ w : XWord, Met (opForm .unused .scalar .unused .unused true (w.m6 = 0 && w.nwb = 0 && w.imm.toNat < 2 ^ 20)) w (fun x s =>
      s.rowsFree x (x.rowBase w) (w.imm.toNat / 1024 + 1))) ∧
    (∀ fmt < 5, ∃ w : XWord, w.imm.toNat / 2 ^ 20 % 8 = fmt ∧
      Met (opForm .unused .scalar .scalar .scalar (w.imm.toNat / 2 ^ 20 % 8 < 5 && w.m6.toNat % 8 ≤ 3)
        (!w.m6.getLsbD 5 && w.nwb = 0 && w.imm.toNat < 2 ^ 23)) w (fun x s =>
      s.watching = false ∧ s.rowsFree x (x.rowBase w) (w.imm.toNat / 1024 % 1024 + 1) ∧
      x.g.damagedRows (x.rowBase w) (w.imm.toNat / 1024 % 1024 + 1) = none ∧ x.sn w.b9.toNat % 4 = 0 ∧ x.sn w.c9.toNat % 4 = 0 ∧
      x.g.outside ((List.range (w.imm.toNat / 1024 % 1024 + 1)).map (fun i => ((x.sn w.b9.toNat + i * x.sn w.c9.toNat) % 2 ^ 64,
        64 * fmtWidth (accFmt (w.imm.toNat / 2 ^ 20 % 8)) / 8))) = none ∧
      s.acquirePending x.c.gid x.c.bundle = false ∧ x.fenceWaits = false ∧
      s.meetsRest x [(⟨1, 1, 0, 64 * fmtWidth (accFmt (w.imm.toNat / 2 ^ 20 % 8)) / 8, 0, 0⟩, 0,
        (List.range (w.imm.toNat / 1024 % 1024 + 1)).map (fun i =>
          BitVec.ofNat 64 ((x.sn w.b9.toNat + i * x.sn w.c9.toNat) % 2 ^ 64)))] = false)) := by
  refine ⟨⟨⟨0, 0, 0, 268, 3, 4, 5, 0, 0, 0⟩, met (withS [(4, 4), (5, 4)]) (by decide) (by decide)⟩,
    ⟨⟨0, 0, 0, 0, 3, 268, 268, 0, 0, 0xC00⟩, met rows (by decide) (by unfold State.rowsFree; decide)⟩,
    ⟨⟨0, 0, 0, 268, 3, 12, 268, 0, 0, 3⟩, met rows (by decide) (by unfold State.rowsFree; decide)⟩,
    ⟨⟨0, 0, 0, 268, 3, 268, 268, 0, 0, 2⟩, met (rowsS [(3, 1)]) (by decide) (by unfold State.rowsFree; decide)⟩, ?_⟩
  intro fmt hf
  exact ⟨⟨0, 0, 0, 268, 3, 4, 5, 0, 0x1B, BitVec.ofNat 32 (fmt * 2 ^ 20 + 0xC00)⟩, by revert fmt; decide,
    met (rowsS [(4, 0x3F00), (5, 0)]) (by revert fmt; decide) (by unfold State.rowsFree; revert fmt; decide)⟩

/-! ## Witnesses: the scan engine -/

/-- A gang with an operator of one addition in slot 0 and a scan of it open over one channel, from its own rank to a rank (R299,
R300), with a carry-in. -/
def scanCtx (last : Nat) (carry : Option CarryBlock) : ScanCtx :=
  { ScanCtx.start with ops := [some [0, 0x2000], none, none, none], isOpen := true, epoch := 1, nch := 1, last := last, prog := [0, 0x2000],
                       g := [none], carryIn := carry }

/-- A carry block of one channel (R304). -/
def block (status : Nat) : CarryBlock := ⟨status, 1, 0, 0, if status = 0 then [0x3F800000] else []⟩

/-- The small state with a scan context. -/
def scanning (c : ScanCtx) : State := small.modGang 0 (fun g => { g with scan := c })

/-- States of scan operations just issued. -/
def inTile : State := after (.scanTile ⟨0, 0, 0, 2, 3, 4, 268, 2, 0, 63⟩) (State.scalars (scanning (scanCtx 0 none)) [(3, 0x3F00), (4, 0x3F00)])
def inFix (status : Nat) : State :=
  after (.scanFix ⟨0, 0, 0, 2, 3, 268, 268, 5, 0, 0⟩) (State.scalars (scanning (scanCtx 0 (some (block status)))) [(3, 0x3FFC)])
def inPub : State := after (.scanPub ⟨0, 0, 0, 2, 268, 268, 268, 3, 0, 0⟩) (scanning (scanCtx 0 (some (block 2))))

theorem scanning_of {s : State} {fn : Nat} (a : Nat) (h : (steps s && (firstOp s).eng == 3 && (firstOp s).fn == fn &&
    s.scanReady (firstOp s) (stepGang s) a (4 * (stepGang s).scan.nch * (firstOp s).scanT * progK (stepGang s).scan.prog)) = true) :
    s.Scanning (firstOp s) (stepGang s) fn a := by
  simp only [steps, Bool.and_eq_true, beq_iff_eq, Bool.not_eq_true'] at h
  obtain ⟨⟨⟨⟨⟨a, b⟩, c⟩, d⟩, e⟩, f⟩ := h
  exact ⟨a, some_of gang b, d, e, f, c⟩

theorem witness_ScanInstructions :
    (∃ w : XWord, Met (opForm .unused .scalar .unused .unused true (w.nwb = 0 && w.m6.toNat < 8)) w (fun x s =>
      let a := (x.s w.a9.toNat + w.imm.signExtend 64).toNat
      let n := 4 + 4 * progSteps (leNat (s.readView x.g a 4))
      w.m6.getLsbD 0 = true ∧ ¬ (x.g.scan.isOpen = true ∧ x.g.scan.opslot = w.m6.toNat / 2) ∧ a % 4 = 0 ∧
        x.g.inView a 4 = true ∧ s.viewPresent x.g a 4 = true ∧ x.g.inView a n = true ∧ s.viewPresent x.g a n = true ∧
        s.acquirePending x.c.gid x.c.bundle = false ∧ x.fenceWaits = false ∧
        s.poisonedRuns (x.g.viewRuns a n) = false ∧ progBad (wordsOfBytes (s.readView x.g a n)) = none)) ∧
    (∃ w : XWord, Met (opForm .scalar .scalar .unused .unused (w.imm.toNat / 2 ^ 20 % 4 ≠ 3) (w.m6 = 0 && w.nwb = 0 && w.imm.toNat < 2 ^ 22)) w
      (fun x s => beginFault w x = none ∧ w.imm.toNat / 2 ^ 20 % 4 = 0 ∧ w.imm.toNat / 2 ^ 14 % 64 < s.ranks x.g.crew)) ∧
    (∃ (s : State) (x : Ctx), s.ctx = some x ∧ x.g.rank = 0) ∧
    (∃ w : XWord, Met (opForm .scalar .scalar .scalar .unused true (w.m6 = 0 && w.nwb = 0 && w.imm.toNat < 64)) w (fun x s =>
      x.g.scan.isOpen = true ∧ x.g.scan.published = false ∧ s.scanFull x.g = false ∧
      x.scanRange (x.sn w.a9.toNat) (x.tileBytes (w.imm.toNat + 1)) ∧ x.scanRange (x.sn w.b9.toNat) (x.tileBytes (w.imm.toNat + 1)))) ∧
    (∃ w : XWord, Met (opForm .scalar .unused .unused .unused true (w.m6 = 0 && w.nwb = 0 && w.imm = 0)) w (fun x s =>
      x.g.scan.isOpen = true ∧ x.g.scan.published = false ∧ s.scanFull x.g = false)) ∧
    (∀ st < 4, ∃ (w : XWord) (c : CarryBlock), c.status = st ∧
      Met (opForm .scalar .scalar .unused .unused true (w.m6 = 0 && w.nwb = 0 && w.imm = 0)) w (fun x s =>
        s.watching = false ∧ x.g.scan.isOpen = true ∧ x.g.scan.carryIn = some c ∧ s.settled x.g.die = true ∧
        s.acquirePending x.c.gid x.c.bundle = false ∧ x.fenceWaits = false ∧ (w.a9 ≠ 268 → x.scanRange (x.sn w.a9.toNat) (4 * x.g.scan.nch * progK x.g.scan.prog)))) ∧
    (∃ w : XWord, Met (opForm .scalar .scalar .unused .unused true (w.m6 = 0 && w.nwb = 0 && w.imm = 0)) w (fun x s =>
      x.g.scan.isOpen = true ∧ (x.g.scan.carryIn = none ∨ s.settled x.g.die = false ∨
        s.acquirePending x.c.gid x.c.bundle = true ∨ x.fenceWaits = true) ∧
      (w.a9 ≠ 268 → x.scanRange (x.sn w.a9.toNat) (4 * x.g.scan.nch * progK x.g.scan.prog)))) ∧
    (∃ w : XWord, Met (opForm .scalar .scalar .unused .unused true (w.m6 = 0 && w.nwb = 0 && w.imm.toNat < 64)) w (fun x s =>
      x.g.scan.isOpen = true ∧ s.scanFull x.g = false ∧ x.scanRange (x.sn w.a9.toNat) (x.tileBytes (w.imm.toNat + 1)))) ∧
    (∀ sent : Bool, ∃ w : XWord, Met (opForm .unused .scalar .unused .unused true (w.m6 = 0 && w.nwb = 0 && w.imm = 0)) w (fun x s =>
      w.a9 = 268 ∧ x.g.scan.isOpen = true ∧ x.g.scan.published = true ∧ s.openOps x.c.gid 3 = [] ∧
      ∃ c, x.g.scan.carryOut = some c ∧ (x.g.scan.sent = true ∨ c.status = 1) ∧ x.g.scan.sent = sent)) := by
  refine ⟨⟨⟨0, 0, 0, 268, 3, 268, 268, 0, 7, 0xFFFFFFF8⟩, met (withS [(3, 0x4000)]) (by decide) (by decide)⟩,
    ⟨⟨0, 0, 0, 2, 268, 268, 268, 1, 0, 252⟩, met (scanning { scanCtx 0 none with isOpen := false }) (by decide) (by decide)⟩,
    ⟨small, at_ small, (issues (s := small) (by decide)).ctx, by decide⟩,
    ⟨⟨0, 0, 0, 2, 3, 4, 268, 2, 0, 63⟩, met (State.scalars (scanning (scanCtx 0 none)) [(3, 0x3F00), (4, 0)]) (by decide)
      (by unfold Ctx.scanRange; decide)⟩,
    ⟨⟨0, 0, 0, 2, 268, 268, 268, 3, 0, 0⟩, met (scanning (scanCtx 0 none)) (by decide) (by decide)⟩, ?_,
    ⟨⟨0, 0, 0, 2, 3, 268, 268, 4, 0, 0⟩, met (State.scalars (scanning (scanCtx 0 none)) [(3, 0x3FFC)]) (by decide)
      (by unfold Ctx.scanRange; decide)⟩,
    ⟨⟨0, 0, 0, 2, 3, 268, 268, 5, 0, 63⟩, met (State.scalars (scanning (scanCtx 0 none)) [(3, 0x3F00)]) (by decide)
      (by unfold Ctx.scanRange; decide)⟩, ?_⟩
  · intro st hst
    exact ⟨⟨0, 0, 0, 2, 3, 268, 268, 4, 0, 0⟩, block st, rfl, met (State.scalars (scanning (scanCtx 0 (some (block st)))) [(3, 0x3FFC)])
      (by revert st; decide) ⟨by revert st; decide, by revert st; decide, by revert st; decide, by revert st; decide, by revert st; decide, by revert st; decide,
        by unfold Ctx.scanRange; revert st; decide⟩⟩
  · intro sent
    exact ⟨⟨0, 0, 0, 268, 268, 268, 268, 6, 0, 0⟩, met (scanning { scanCtx 0 (some (block 2)) with
      published := true, carryOut := some (block 1), sent := sent }) (by revert sent; decide)
      ⟨rfl, by revert sent; decide, by revert sent; decide, by revert sent; decide, block 1, by revert sent; decide, by revert sent; decide, by revert sent; decide⟩⟩

theorem witness_ScanEngine :
    (∃ (s : State) (o : EngOp) (g : Gang), s.Scanning o g 2 (o.par 2)) ∧
    (∃ (s : State) (o : EngOp) (g : Gang) (c : CarryBlock), s.Scanning o g 5 (o.par 1) ∧ g.scan.carryIn = some c ∧ c.status = 0) ∧
    (∃ (s : State) (o : EngOp) (g : Gang) (c : CarryBlock), s.Scanning o g 5 (o.par 1) ∧ g.scan.carryIn = some c ∧ c.status ≠ 0) ∧
    (∃ (s : State) (gid : Nat) (g : Gang) (o : EngOp) (c : CarryBlock), s.gang gid = some g ∧ g.scan.carryOut = none ∧
      g.scan.outbox = [] ∧ g.scan.carryIn = some c ∧ s.firstScan gid = some o ∧ o.fn = 3 ∧ s.priorDone o = true ∧
      s.settled g.die = true ∧ s.stepper o = some g) ∧
    (∃ (s : State) (gid : Nat), s.canSend gid = true) ∧
    (∃ (s : State) (m : CarryMsg), s.carries.find? (fun q => q.id == m.id) = some m ∧ (∀ q ∈ s.carries, s.aheadOf q m = false)) ∧
    (∃ (c : ScanCtx) (b : CarryBlock), c.isOpen = true ∧ b.epoch = c.epoch ∧ c.carryIn = none ∧ b.first = c.first ∧ b.last = c.last ∧
      b.status = 0 ∧ b.data.length = c.nch * progK c.prog) ∧
    (∃ (c : ScanCtx) (b : CarryBlock), c.isOpen = true ∧ b.epoch = c.epoch ∧ c.carryIn = none ∧ b.first = c.first ∧ b.last = c.last ∧
      b.status ≠ 0) ∧
    (∃ (c : ScanCtx) (b : CarryBlock), c.isOpen = true ∧ b.epoch = c.epoch ∧ c.carryIn = none ∧ b.last ≠ c.last) ∧
    (∃ (c : ScanCtx) (b : CarryBlock), b.epoch < c.epoch) ∧ (∃ (c : ScanCtx) (b : CarryBlock), b.epoch = c.epoch ∧ c.isOpen = false) :=
  ⟨⟨inTile, _, _, scanning_of _ (by decide)⟩, ⟨inFix 0, _, _, block 0, scanning_of _ (by decide), by decide, by decide⟩,
   ⟨inFix 3, _, _, block 3, scanning_of _ (by decide), by decide, by decide⟩,
   ⟨inPub, 0, stepGang inPub, firstOp inPub, block 2, by decide, by decide, by decide, by decide, by decide, by decide, by decide, by decide,
      some_of gang (by decide)⟩,
   ⟨duo.modGang 0 (fun g => { g with scan := { scanCtx 1 (some (block 2)) with carryOut := some (block 0) } }), 0, by decide⟩,
   ⟨{ duo with carries := [⟨3, 0, 1, block 0⟩, ⟨4, 0, 1, block 0⟩] }, ⟨3, 0, 1, block 0⟩, by decide, by decide⟩,
   ⟨scanCtx 0 none, block 0, by decide, by decide, by decide, by decide, by decide, by decide, by decide⟩,
   ⟨scanCtx 0 none, block 3, by decide, by decide, by decide, by decide, by decide, by decide⟩,
   ⟨scanCtx 1 none, block 0, by decide, by decide, by decide, by decide⟩,
   ⟨scanCtx 0 none, { block 0 with epoch := 0 }, by decide⟩, ⟨{ scanCtx 0 none with isOpen := false }, block 0, by decide, by decide⟩⟩

/-! ## Witnesses: launches -/

/-- A packet of so many crews of the mapped kernel (R95), with the fields of a list of changes. -/
def packet (crews : Nat) (fs : List (Nat × Nat)) : List Byte :=
  leBytes 256 (((0, 0x4C504B31) :: (32, 1) :: (64, 0x10000) :: (128, crews) :: (320, 0x1000) :: fs).map (fun f => f.2 <<< f.1)).sum

/-- The mapped state with a partition whose ring on CD0 has two entries at 0x1F000, of which so many are in use. -/
def ringed (used : Nat) : State :=
  { mapped with parts := setNth mapped.parts 0 (some { probePartition with rings := setNth probePartition.rings 0 ⟨0x1F000, 2, 1, used, [], []⟩ }) }

/-- The partition of a state. -/
def partOf (s : State) : Partition := (s.part 0).getD probePartition

theorem witness_Launching :
    (∃ (r : Record) (d : Nat), r.mode = 0 ∧ r.wt.length = 8 ∧ sumOf r.wt ≠ 0 ∧ d < 8) ∧
    (∃ (p : List Byte) (n : Nat), MetMessage 1 (fun s => s.packetCheck p none = some n)) ∧
    (∃ (p : List Byte) (q : Partition), MetMessage 1 (fun s => s.packetCheck p none = none ∧ s.part (pkPart p) = some q)) ∧
    (∃ (s : State) (p : List Byte) (q : Partition) (d : Nat), s.part (pkPart p) = some q ∧ d < s.dies.length ∧ d < 8 ∧
      s.storeRoom q (pkPart p) d = true ∧ (q.ring d).count = 0 ∧ (s.shareOf p q d).2.2 ≠ 0) ∧
    (∃ (s : State) (d : Nat) (r : Record) (q : Partition), s.part (pkPart r.packet) = some q ∧ d < s.dies.length ∧
      s.storeRoom q (pkPart r.packet) d = true ∧ (q.ring d).count = 0) ∧
    (∃ (s : State) (d : Nat) (r : Record) (q : Partition), s.part (pkPart r.packet) = some q ∧ d < s.dies.length ∧
      ¬ (s.storeRoom q (pkPart r.packet) d = true ∧ (q.ring d).count = 0) ∧ (q.ring d).entries ≤ (q.ring d).count) ∧
    (∃ (s : State) (d : Nat) (r : Record) (q : Partition) (rs : List (Nat × Nat)), s.part (pkPart r.packet) = some q ∧ d < s.dies.length ∧
      ¬ (s.storeRoom q (pkPart r.packet) d = true ∧ (q.ring d).count = 0) ∧ (q.ring d).count < (q.ring d).entries ∧
      s.runs (pkPart r.packet) 1 ((q.ring d).entryVa (q.ring d).count) 512 = some rs) :=
  ⟨⟨{ probeRecord with wt := [0, 0, 0, 0, 0, 0, 0, 1] }, 7, rfl, rfl, by decide, by decide⟩,
   ⟨probePacket, 16, small, by decide, by decide, by decide⟩,
   ⟨packet 0xFFFFFF [], partOf (small.received 1), small, by decide, by decide, by decide, some_of _ (by decide)⟩,
   ⟨small, packet 8 [], partOf small, 7, some_of _ (by decide), by decide, by decide, by decide, by decide, by decide⟩,
   ⟨small, 7, probeRecord, partOf small, some_of _ (by decide), by decide, by decide, by decide⟩,
   ⟨ringed 2, 0, probeRecord, partOf (ringed 2), some_of _ (by decide), by decide, by decide, by decide⟩,
   ⟨ringed 1, 0, probeRecord, partOf (ringed 1), [(0x10F000, 512)], some_of _ (by decide), by decide, by decide, by decide, by decide⟩⟩

/-- The mapped state with a packet at 0x1FE00 and a join counter at 0x1FFF0 (R109). -/
def counted (count cont : Nat) : State := (mapped.putBytes 0x10FE00 (packet 0xFFFFFF [])).putBytes 0x10FFF0 (leBytes 8 count ++ leBytes 8 cont)

/-- What is there of an access to that counter. -/
def counterRuns : List (Nat × Nat) := [(0x10FFF0, 16)]

theorem jc_of {s : State} {die part va : Nat} {d : W64} (h : (s.jcApply die part va d).isSome = true) :
    ∃ t old, s.jcApply die part va d = some (t, old) := by
  obtain ⟨⟨t, old⟩, h⟩ := Option.isSome_iff_exists.1 h
  exact ⟨t, old, h⟩

theorem witness_LaunchInstructions :
    (∃ (w : XWord) (r : Record), Met (opForm .scalar .scalar .scalar .scalar true (w.m6 = 0 && w.nwb = 0 && w.imm = 0)) w (fun x s =>
      1 ≤ x.sn w.a9.toNat ∧ x.sn w.a9.toNat < 2 ^ 24 ∧ x.sn w.c9.toNat % 16 = 0 ∧
      s.quiet x ∧ s.taskOf x.g = some r ∧ s.pushable x.g.part = true)) ∧
    (∀ n : W64, n ∈ [0, 2 ^ 24] → ∃ w : XWord, Met (opForm .scalar .scalar .scalar .scalar true (w.m6 = 0 && w.nwb = 0 && w.imm = 0)) w
      (fun x _ => x.s w.a9.toNat = n ∧ (x.sn w.a9.toNat = 0 ∨ 2 ^ 24 ≤ x.sn w.a9.toNat))) ∧
    (∃ (p : List Byte) (n : Nat), p.length = 256 ∧ n < 2 ^ 24) ∧
    (∃ (w : XWord) (p : List Byte), Met (opForm .scalar .scalar .unused .unused true (w.m6 = 0 && w.nwb = 0)) w (fun x s =>
      s.watching = false ∧ (x.s w.a9.toNat + w.imm.signExtend 64).toNat % 64 = 0 ∧
      s.acquireRead x (x.s w.a9.toNat + w.imm.signExtend 64).toNat 256 =
        .bytes p (s.tookRange x.g (x.s w.a9.toNat + w.imm.signExtend 64).toNat 256) ∧ s.packetCheck p (some x.g.die) = none ∧
      pkPart p = x.g.part ∧ (∃ r, s.taskOf x.g = some r ∧ pkClass p ≤ pkClass r.packet) ∧ s.pushable x.g.part = true)) ∧
    (∃ (w : XWord) (p : List Byte), Met (opForm .scalar .scalar .unused .unused true (w.m6 = 0 && w.nwb = 0)) w (fun x s =>
      s.watching = false ∧ (x.s w.a9.toNat + w.imm.signExtend 64).toNat % 64 = 0 ∧
      s.acquireRead x (x.s w.a9.toNat + w.imm.signExtend 64).toNat 256 =
        .bytes p (s.tookRange x.g (x.s w.a9.toNat + w.imm.signExtend 64).toNat 256) ∧
      (s.packetCheck p (some x.g.die) ≠ none ∨ pkPart p ≠ x.g.part))) ∧
    (∃ (w : XWord) (rs : List (Nat × Nat)), Met (opForm .unused .scalar .scalar .scalar true (w.m6 = 0 && w.nwb = 0)) w (fun x s =>
      let va := (x.s w.a9.toNat + w.imm.signExtend 64).toNat
      s.watching = false ∧ va % 16 = 0 ∧ s.checkAccess x.g 1 va 16 = none ∧ s.runs x.g.part 1 va 16 = some rs ∧ s.quiet x)) ∧
    (∃ (w : XWord) (t : State) (old : W64) (rs : List (Nat × Nat)), Met (opForm .scalar .scalar .scalar .unused true (w.m6 = 0 && w.nwb = 0)) w
      (fun x s => let va := (x.s w.a9.toNat + w.imm.signExtend 64).toNat
        s.watching = false ∧ va % 16 = 0 ∧ s.checkAccess x.g 2 va 16 = none ∧ s.poison = [] ∧ s.runs x.g.part 2 va 16 = some rs ∧
          s.quiet x ∧ s.settled (vaDie va) = true ∧
          s.jcApply x.g.die x.g.part va (x.s w.b9.toNat) = some (t, old))) ∧
    (∀ q ∈ [(1, 64), (5, 64), (0, 0)], ∃ (s : State) (part va : Nat) (rs : List (Nat × Nat)), s.runs part 2 va 16 = some rs ∧
      leAt (s.readRuns rs) 0 8 = q.1 ∧ leAt (s.readRuns rs) 8 8 = q.2) := by
  refine ⟨⟨⟨0, 0, 0, 2, 3, 4, 5, 0, 0, 0⟩, probeRecord, met (withS [(3, 0xFFFFFF), (5, 0x10000)]) (by decide) (by unfold State.quiet; decide)⟩, ?_,
    ⟨packet 1 [], 0xFFFFFF, by decide, by decide⟩,
    ⟨⟨0, 0, 0, 2, 3, 268, 268, 1, 0, 0xFFFFFE00⟩, packet 0xFFFFFF [], met (State.scalars (counted 1 0) [(3, 0x20000)]) (by decide)
      ⟨by decide, by decide, got_of (by decide), by decide, by decide, ⟨probeRecord, by decide, by decide⟩, by decide⟩⟩,
    ⟨⟨0, 0, 0, 2, 3, 268, 268, 1, 0, 0⟩, probePacket, met (State.scalars mapped [(3, 0x10400)]) (by decide)
      ⟨by decide, by decide, got_of (by decide), by decide⟩⟩,
    ⟨⟨0, 0, 0, 268, 3, 4, 5, 4, 0, 0⟩, [(0x10FFF0, 16)], met (State.scalars mapped [(3, 0x1FFF0)]) (by decide) (by unfold State.quiet; decide)⟩, ?_, ?_⟩
  · intro n hn
    simp only [List.mem_cons, List.mem_nil_iff, or_false] at hn
    obtain rfl | rfl := hn
    · exact ⟨⟨0, 0, 0, 2, 3, 4, 5, 0, 0, 0⟩, met small (by decide) (by decide)⟩
    · exact ⟨⟨0, 0, 0, 2, 3, 4, 5, 0, 0, 0⟩, met (withS [(3, 2 ^ 24)]) (by decide) (by decide)⟩
  · obtain ⟨t, old, h⟩ := jc_of (s := State.scalars (counted 1 0) [(3, 0x1FFF0), (4, -1)]) (die := (at_ (State.scalars (counted 1 0) [(3, 0x1FFF0), (4, -1)])).g.die)
      (part := (at_ (State.scalars (counted 1 0) [(3, 0x1FFF0), (4, -1)])).g.part)
      (va := ((at_ (State.scalars (counted 1 0) [(3, 0x1FFF0), (4, -1)])).s 3 + (0 : W32).signExtend 64).toNat)
      (d := (at_ (State.scalars (counted 1 0) [(3, 0x1FFF0), (4, -1)])).s 4) (by decide)
    exact ⟨⟨0, 0, 0, 2, 3, 4, 268, 5, 0, 0⟩, t, old, counterRuns, met (State.scalars (counted 1 0) [(3, 0x1FFF0), (4, -1)]) (by decide)
      ⟨by decide, by decide, by decide, by decide, by decide, by unfold State.quiet; decide, by decide, h⟩⟩
  · intro q hq
    exact ⟨counted q.1 q.2, 0, 0x1FFF0, counterRuns, by revert q; decide, by revert q; decide, by revert q; decide⟩

/-- The mapped state with the image of a kernel of one bundle of 16 lanes and one instruction word (R22). -/
def imaged : State :=
  mapped.putBytes 0x100000 (leBytes 128 ([(0, 0x4D484B31), (32, 1), (48, 1), (64, 2), (139, 64), (192, 4), (256, 256), (400, 512)].map
    (fun (f : Nat × Nat) => f.2 <<< f.1)).sum)

/-- A lease as it is while the pages of its image are asked for (R121): a RESIDE of CD0, which message 5 carried, is open. -/
def asking (ranges : List (W64 × Nat)) (status : Nat) : Lease :=
  { probeLease with ranges := ranges, holds := List.replicate 8 0, records := List.replicate 8 0,
                    shares := ⟨status, [(5, 0x10000, 1)], some 0⟩ :: List.replicate 7 ⟨1, [], none⟩ }

/-- The mapped state with a lease in place of its own. -/
def leased (l : Lease) : State := { mapped with leases := [l] }

/-- A state one second on (R346). -/
def later (s : State) (ns : Nat) : State := s.modDie 0 (fun (d : Die) => { d with devOffset := d.devOffset + ns })

/-- The only partition of a state. -/
theorem only_part {s : State} (h : (List.range s.parts.length).all (fun n => n == 0 || (s.parts[n]?).join.isNone) = true) {n : Nat}
    {p : Partition} (hp : s.part n = some p) : n = 0 := by
  by_contra hn
  have lt : n < s.parts.length := by
    by_contra hl
    rw [State.part, List.getElem?_eq_none (by omega)] at hp
    cases hp
  have := List.all_eq_true.1 h n (List.mem_range.2 lt)
  rw [show (s.parts[n]?).join = some p from hp] at this
  simp [hn] at this

theorem witness_Residency :
    (∃ (of : MsgId) (l : Lease) (d : Nat) (run : W64 × Nat) (p : Partition), MetMessage 1 (fun s => s.resideOf of = some (l, d, run) ∧
      s.lease l.lkey = some l ∧ l.headed = true ∧ s.part l.part = some p ∧ s.missingPages p run.1.toNat run.2 = ([], false))) ∧
    (∃ (of : MsgId) (l : Lease) (d : Nat) (run : W64 × Nat), MetMessage 1 (fun s => s.resideOf of = some (l, d, run))) ∧
    (∃ (s : State) (die lkey t : Nat) (l : Lease) (h : LeaseShare), s.openShare lkey die = some (l, h) ∧ h.first = some t ∧
      t + 1000000000 ≤ s.devtimeOf die ∧ (s.shareMissing l die).1 ≠ 0) ∧
    (∃ (s : State) (die lkey : Nat) (l : Lease) (h : LeaseShare), s.openShare lkey die = some (l, h) ∧ h.resides = [] ∧
      (vaDie l.kva.toNat = die → l.headed = true) ∧ s.shareMissing l die = (0, false)) ∧
    (∃ (s : State) (d : Nat) (r : Record) (l : Lease), s.lease r.lkey = some l ∧ r.imageOk = false ∧ (∀ h ∈ l.holds, h = 1) ∧
      s.imageCheck l.part l.kva = none ∧ ∀ k, s.pinBad d r k = false) ∧
    (∃ (s : State) (r : Record) (l : Lease) (n : Nat), s.lease r.lkey = some l ∧ r.imageOk = false ∧ (∀ h ∈ l.holds, h = 1) ∧
      s.imageCheck l.part l.kva = some n) ∧
    (∃ (s : State) (die lkey : Nat) (l : Lease) (h : LeaseShare), s.lease lkey = some l ∧ die < 8 ∧ l.shares[die]? = some h ∧
      h.status = 2 ∧ l.holds.getD die 0 ≠ 2 ∧ (∀ n p d, s.part n = some p → some lkey ∈ (p.ring d).lkeys → n = l.part) ∧
      ∃ r ∈ (s.die 0).store, r.lkey = lkey) ∧
    (∃ (s : State) (src die lkey : Nat) (l : Lease), s.lease lkey = some l ∧ src < 8 ∧ die < 8 ∧ l.records.getD src 0 = 0 ∧
      (src, die) ∉ l.reported ∧ (∀ d < 8, (d, die) ∈ (src, die) :: l.reported) ∧ die < l.shares.length) := by
  refine ⟨⟨5, asking [] 0, 0, (0x10000, 1), partOf ((leased (asking [] 0)).received 1), leased (asking [] 0), by decide, by decide,
      by decide, by decide, rfl, some_of _ (by decide), by decide⟩,
    ⟨5, asking [] 0, 0, (0x10000, 1), leased (asking [] 0), by decide, by decide, by decide⟩,
    ⟨later (leased (asking [(0x20000, 0x10000)] 0)) 1000000000, 0, 0, 0, asking [(0x20000, 0x10000)] 0, _, rfl, rfl, by decide, by decide⟩,
    ⟨leased { asking [] 0 with shares := List.replicate 8 ⟨0, [], none⟩ }, 7, 0, _, _, rfl, by decide, by decide, by decide⟩,
    ⟨imaged, 7, { probeRecord with imageOk := false }, { probeLease with ranges := [(0x10000, 0x10000)] }, by decide, rfl, by decide,
      by decide, fun k => rfl⟩,
    ⟨mapped, { probeRecord with imageOk := false }, { probeLease with ranges := [(0x10000, 0x10000)] }, 1, by decide, rfl, by decide,
      by decide⟩,
    ⟨leased (asking [] 2), 0, 0, asking [] 2, ⟨2, [(5, 0x10000, 1)], some 0⟩, rfl, by decide, rfl, rfl, by decide,
      fun n p d hp _ => only_part (by decide) hp, by decide⟩,
    ⟨leased { asking [] 1 with reported := (List.range 7).map (fun d => (d, 7)) }, 7, 7, 0,
      { asking [] 1 with reported := (List.range 7).map (fun d => (d, 7)) }, rfl, by decide, by decide, by decide, by decide, by decide, by decide⟩⟩

/-- A record of one crew of the imaged kernel, which waits for its place (R102); and of a class with a deadline. -/
def waiting (fs : List (Nat × Nat)) : Record :=
  { probeRecord with packet := packet 1 fs, arrival := 5, next := 0, placedAny := false }

/-- The imaged state with a record in the store of CD0, and segments. -/
def stored (r : Record) (segs : List Segment) : State :=
  { imaged with dies := modNth imaged.dies 0 (fun (d : Die) => { d with store := [r], devOffset := 200000 }), segs := segs }

/-- A pinned segment of partition 0, on core 0 of CD0 (R131). -/
def segment (holder : Option Nat) : Segment := ⟨0, 0, 0, 0, 128, [0], holder, false⟩

/-- What a record of a state is offered as. -/
def offerOf (s : State) (r : Record) : Offer := (s.offer r).getD ⟨r, 0, kernel, none, [], []⟩

/-- The imaged state whose ring on CD0 holds a record with a deadline that has passed. -/
def lateRing : State :=
  let s := stored (waiting []) []
  { s with parts := setNth s.parts 0 (some { probePartition with rings := setNth probePartition.rings 0 ⟨0x1F000, 2, 1, 1, [some 0], []⟩ }) }.putBytes
    0x10F200 { waiting [(52, 2), (192, 199999)] with arrival := 6, wt := List.replicate 8 0 }.bytes

/-- Its record, as it is found. -/
def ringRecord_ : Nat × Record := ((lateRing.ringRecords 0).find? (fun p => p.2.arrival == 6)).getD (0, probeRecord)

/-- A record of the highest class pinned to a segment that another crew holds, so that it cannot be placed. -/
def refused : Record := waiting [(52, 2), (59, 1)]
def refusing : State := stored refused [segment (some 7)]

theorem witness_Placement :
    (∃ (s : State) (die c : Nat) (r : Record) (rest : List Record) (o : Offer) (cores : List Nat), die < 8 ∧ s.failed = false ∧
      s.placeOrder die = r :: rest ∧ s.offer r = some o ∧ o.saved = [] ∧ o.seg = none ∧ r.stoppedCrews = [] ∧
      s.chooseCores die o = some (c, cores)) ∧
    (∃ (s : State) (die : Nat) (r : Record) (rest : List Record), die < 8 ∧ s.failed = false ∧ s.placeOrder die = r :: rest ∧
      s.tryPlace die r = none ∧ (rest = [] ∨ s.waitedLong die r = true) ∧
      ((s.withoutCrews (s.leaving die)).planVictims die (r :: rest) ≠ [] ∨ r.waitSince = none)) ∧
    (∃ r : Record, pkClass r.packet < 2) ∧ (∃ (s : State) (die : Nat) (r : Record), 2 ≤ pkClass r.packet ∧ ∃ t, s.tryPlace die r = some t) ∧
    (∃ (s : State) (die : Nat) (r : Record) (o : Offer), 2 ≤ pkClass r.packet ∧ s.tryPlace die r = none ∧ s.offer r = some o) ∧
    (∃ (s : State) (die t : Nat) (r : Record) (rest : List Record), s.placeOrder die = r :: rest ∧ r.waitSince = some t ∧
      t + 100000 ≤ s.devtimeOf die ∧ (s.die die).backfillStop ≠ some r.arrival) ∧
    (∃ (s : State) (die arrival : Nat) (r : Record), s.record die arrival = some r ∧ pkDeadline r.packet ≠ 0 ∧
      pkDeadline r.packet < s.devtimeOf die ∧ r.placedAny = false ∧ r.lateSent = false) ∧
    (∃ (s : State) (die arrival part : Nat) (r : Record), s.record die arrival = none ∧
      (s.ringRecords die).find? (fun p => p.2.arrival == arrival) = some (part, r) ∧ pkDeadline r.packet ≠ 0 ∧
      pkDeadline r.packet < s.devtimeOf die ∧ r.placedAny = false ∧ r.lateSent = false) ∧
    (∃ b : PinSet, MetMessage 1 (fun s => (s.part b.part).isSome = true ∧ b.seg < 65536 ∧ b.die < 8 ∧ b.cluster < 2 ∧ 1 ≤ b.n ∧ b.n ≤ 64 ∧
      b.ps % 128 = 0 ∧ b.ps ≤ 0x40000 ∧ s.segment b.part b.seg = none ∧ (s.segs.filter (fun g => g.part == b.part)).length < 256 ∧
      b.n ≤ (s.roomyCores b.die b.cluster b.ps).length)) ∧
    (∃ (part seg : Nat) (g : Segment), MetMessage 1 (fun s => s.segment part seg = some g ∧ g.holder = none)) ∧
    (∃ (part seg h : Nat) (g : Segment), MetMessage 1 (fun s => s.segment part seg = some g ∧ g.holder = some h)) := by
  refine ⟨⟨stored (waiting []) [], 0, 1, waiting [], [], offerOf (stored (waiting []) []) (waiting []), [192], by decide, rfl, by decide,
      some_of _ (by decide), by decide, by decide, rfl, by decide⟩,
    ⟨stored (waiting [(59, 1)]) [segment (some 7)], 0, waiting [(59, 1)], [], by decide, rfl, by decide, ?_, Or.inl rfl, Or.inr rfl⟩,
    ⟨waiting [], by decide⟩, ⟨stored (waiting [(52, 2)]) [], 0, waiting [(52, 2)], by decide, ?_⟩,
    ⟨refusing, 0, refused, offerOf refusing refused, by decide, ?_, some_of _ (by decide)⟩,
    ⟨stored { waiting [] with waitSince := some 100000 } [], 0, 100000, { waiting [] with waitSince := some 100000 }, [], by decide,
      rfl, by decide, by decide⟩,
    ⟨stored (waiting [(52, 2), (192, 199999)]) [], 0, 5, waiting [(52, 2), (192, 199999)], by decide, by decide, by decide, rfl, rfl⟩,
    ⟨lateRing, 0, 6, ringRecord_.1, ringRecord_.2, by decide, some_of (0, probeRecord) (by decide), by decide, by decide, by decide, by decide⟩,
    ⟨⟨0, 0xFFFF, 7, 1, 64, 0x40000⟩, small, by decide, by decide, by decide⟩,
    ⟨0, 0, segment none, { small with segs := [segment none] }, by decide, by decide, by decide⟩,
    ⟨0, 0, 7, segment (some 7), { small with segs := [segment (some 7)] }, by decide, by decide, by decide⟩⟩
  · have h : ((stored (waiting [(59, 1)]) [segment (some 7)]).tryPlace 0 (waiting [(59, 1)])).isNone = true := by decide
    exact Option.isNone_iff_eq_none.1 h
  · have h : ((stored (waiting [(52, 2)]) []).tryPlace 0 (waiting [(52, 2)])).isSome = true := by decide
    exact Option.isSome_iff_exists.1 h
  · have h : (refusing.tryPlace 0 refused).isNone = true := by decide
    exact Option.isNone_iff_eq_none.1 h

/-- The mapped state whose gang has finished (R397), with the record of its crew. -/
def finished (r : Record) : State :=
  { (mapped.modGang 0 (fun g => { g with bundles := g.bundles.map (fun b => { b with killed := true }) })) with
    dies := modNth mapped.dies 0 (fun (d : Die) => { d with store := [r] }) }

/-- That state with the gang retired (R398). -/
def retired (r : Record) : State := (finished r).modGang 0 (fun g => { g with retired := true })

theorem witness_Retirement :
    (∃ (s : State) (g : Gang) (c : Crew), s.gang g.gid = some g ∧ s.crew g.crew = some c ∧ g.retired = false ∧
      (∀ b ∈ g.bundles, b.done = true) ∧ (∀ o ∈ s.ops, o.gid = g.gid → o.state = 4) ∧ s.carryReady g.gid = false ∧
      g.scan.owes = 0 ∧ (∀ o ∈ s.memOps, o.gid ≠ g.gid) ∧ s.reached g = false ∧ c.captured = false) ∧
    (∃ (s : State) (c : Crew) (r : Record), s.crew c.cid = some c ∧ s.crewDone c = true ∧ s.record c.die c.arrival = some r ∧
      pkJc r.packet = 0 ∧ c.seg = none ∧ 2 ≤ r.left) ∧
    (∃ (s : State) (c : Crew) (r : Record), s.crew c.cid = some c ∧ s.crewDone c = true ∧ s.record c.die c.arrival = some r ∧
      pkJc r.packet = 0 ∧ c.seg = none ∧ r.left = 1) ∧
    (∃ (s : State) (c : Crew) (r : Record) (t : State) (old : W64), s.crew c.cid = some c ∧ s.crewDone c = true ∧
      s.record c.die c.arrival = some r ∧ pkJc r.packet ≠ 0 ∧ 2 ≤ r.left ∧ s.settled (vaDie (pkJc r.packet)) = true ∧
      s.jcApply c.die c.part (pkJc r.packet) (-1) = some (t, old)) := by
  refine ⟨⟨finished probeRecord, ((finished probeRecord).gang 0).getD gang, probeCrew, some_of _ (by decide), by decide, by decide, by decide,
      by decide, by decide, by decide, by decide, by decide, by decide⟩,
    ⟨retired { probeRecord with left := 2 }, probeCrew, _, by decide, by decide, rfl, by decide, by decide, by decide⟩,
    ⟨retired probeRecord, probeCrew, _, by decide, by decide, rfl, by decide, by decide, by decide⟩, ?_⟩
  obtain ⟨t, old, h⟩ := jc_of (s := retired { probeRecord with packet := packet 1 [(256, 0x1FFF0)], left := 2 }) (die := probeCrew.die)
    (part := probeCrew.part) (va := pkJc (packet 1 [(256, 0x1FFF0)])) (d := -1) (by decide)
  exact ⟨_, probeCrew, { probeRecord with packet := packet 1 [(256, 0x1FFF0)], left := 2 }, t, old, by decide, by decide, by decide, by decide,
    by decide, by decide, h⟩

/-! ## Witnesses: collectives and debugging -/

/-- A collective descriptor of one element of FP32 and one participant, with its status record at 0x1F800 (R327). -/
def collBytes : List Byte := leBytes 64 (1 <<< 100 + 0x1F800 <<< 128 + 1 <<< 192)

/-- The mapped state with that descriptor at 0x1F000 and, maybe, its group. -/
def grouped (gs : List CollGroup) : State := { mapped.putBytes 0x10F000 collBytes with groups := gs }

/-- A group of one participant. -/
def aGroup : CollGroup := ⟨0, 0, [0], [0], []⟩

/-- The hypotheses of a statement on a collective (R328). -/
def MetColl (fn : Nat) : Prop :=
  ∃ (w : XWord) (bs : List Byte), Met (opForm .scalar .scalar .scalar .scalar true (w.m6 = 0 && w.nwb = 0 && w.imm = 0)) w (fun x s =>
    s.watching = false ∧ x.sn w.a9.toNat % 64 = 0 ∧ s.acquireRead x (x.sn w.a9.toNat) 64 =
        .bytes bs (s.tookRange x.g (x.sn w.a9.toNat) 64) ∧
      x.sn w.b9.toNat % collSize (collDesc fn bs).shape.sfmt = 0 ∧ x.sn w.c9.toNat % collSize (collDesc fn bs).shape.dfmt = 0 ∧
      collOk fn bs = true ∧ (s.tookRange x.g (x.sn w.a9.toNat) 64).collRanges x.g (collDesc fn bs) (x.sn w.b9.toNat) (x.sn w.c9.toNat) = none ∧
      ((s.openOps x.c.gid 4).filter (fun o => o.state != 4)).length < 8)

theorem metColl {fn : Nat} (w : XWord) (s : State)
    (h : ready s (opForm .scalar .scalar .scalar .scalar true (w.m6 = 0 && w.nwb = 0 && w.imm = 0)) w = true)
    (k : gotBytes (s.acquireRead (at_ s) ((at_ s).sn w.a9.toNat) 64) = some collBytes)
    (j : s.watching = false ∧ (at_ s).sn w.a9.toNat % 64 = 0 ∧
      (at_ s).sn w.b9.toNat % collSize (collDesc fn collBytes).shape.sfmt = 0 ∧
      (at_ s).sn w.c9.toNat % collSize (collDesc fn collBytes).shape.dfmt = 0 ∧ collOk fn collBytes = true ∧
      (s.tookRange (at_ s).g ((at_ s).sn w.a9.toNat) 64).collRanges (at_ s).g (collDesc fn collBytes) ((at_ s).sn w.b9.toNat) ((at_ s).sn w.c9.toNat) = none ∧
      ((s.openOps (at_ s).c.gid 4).filter (fun o => o.state != 4)).length < 8) : MetColl fn :=
  ⟨w, collBytes, met s h ⟨j.1, j.2.1, got_of k, j.2.2.1, j.2.2.2.1, j.2.2.2.2.1, j.2.2.2.2.2.1, j.2.2.2.2.2.2⟩⟩

/-- The state in which collectives issue: the descriptor's address, a source and a destination in scalars. -/
def collS (gs : List CollGroup) : State := State.scalars (grouped gs) [(3, 0x1F000), (4, 0x1FFFC), (5, 0x1FFFC)]

/-- Its state with an all-reduce issued, and with the contributions made. -/
def inColl (gs : List CollGroup) : State := after (.collAr ⟨0, 0, 0, 2, 3, 4, 5, 1, 0, 0⟩) (collS gs)
def contributed : State := (inColl [aGroup]).contributeAll (firstOp (inColl [aGroup]))
def decided : State := contributed.decideColl 0 0 0 1

/-- The bytes of its sum. -/
def outcomeOf (s : State) : Nat × Bool × Bool × Nat × List Byte := ((s.coll 0 0 1).outcome).getD (0, false, false, 0, [])

theorem collecting_of {s : State} (h : (s.collOp (firstOp s).id == some (firstOp s) && (s.collPeers (firstOp s)).isEmpty) = true) :
    s.Collecting (firstOp s) := by
  simp only [Bool.and_eq_true, beq_iff_eq, List.isEmpty_iff] at h
  exact ⟨h.1, h.2⟩

/-- A reduction's shape for two participants, and what both contributed. -/
def shape2 : CollShape := ⟨0, 1, 1, 0, 0, 3, 0, true, 1⟩
def coll2 : CollState := ⟨0, 5, 2, [(1, shape2, [wireZero], []), (0, shape2, [wireZero], [])], none, []⟩

/-- A state whose only collective has received two contributions of two shapes. -/
def received2 (a b : CollShape) : State := { small with colls := [{ coll2 with contribs := [(1, a, [wireZero], []), (0, b, [wireZero], [])] }] }

/-- The state of a contribution made whose root is not a gang of the module. -/
def rootAway : State := { later contributed 1000 with groups := [aGroup] }

theorem witness_Collectives :
    (∃ c d : CollState, c.contribs.Perm d.contribs) ∧ MetColl 0 ∧ MetColl 1 ∧ MetColl 2 ∧
    (∃ (part : Nat) (ends idxs : List Nat), MetMessage ((6 + 6 * ends.length + 255) / 256) (fun s =>
      (s.part part).isSome = true ∧ ends.length = idxs.length)) ∧
    (∃ (s : State) (f : FabricFrame) (p : Nat), 8 ≤ s.phase ∧ s.failed = false ∧ f.die < 8 ∧ f.port < 16 ∧ fromPeer f ∧
      f.src ∉ s.revoked ∧ f.key ∉ s.ownRevoked ∧ s.keyOwner f.key = some p ∧ (∃ c ∈ s.groups, c.gid = f.gid ∧ c.part = p) ∧
      s.ownFrame p f = false) ∧
    (∃ (s : State) (f : FabricFrame), 8 ≤ s.phase ∧ s.failed = false ∧ f.die < 8 ∧ f.port < 16 ∧ fromPeer f ∧ s.keyOwner f.key = none) ∧
    (∃ (s : State) (f : FabricFrame), 8 ≤ s.phase ∧ s.failed = false ∧ f.die < 8 ∧ f.port < 16 ∧ fromPeer f ∧ f.src ∈ s.revoked) ∧
    (∃ (s : State) (f : FabricFrame), 8 ≤ s.phase ∧ s.failed = false ∧ f.die < 8 ∧ f.port < 16 ∧ fromPeer f ∧ f.key ∈ s.ownRevoked) ∧
    (∃ (s : State) (f : FabricFrame) (p : Nat), 8 ≤ s.phase ∧ s.failed = false ∧ f.die < 8 ∧ f.port < 16 ∧ fromPeer f ∧
      s.keyOwner f.key = some p ∧ (∃ c ∈ s.groups, c.gid = f.gid) ∧ ∀ c ∈ s.groups, c.gid = f.gid → c.part ≠ p) ∧
    (∃ (s : State) (f : FabricFrame), 8 ≤ s.phase ∧ s.failed = false ∧ f.die < 8 ∧ f.port < 16 ∧ f.body = .revoked) ∧
    (∃ (s : State) (f : FabricFrame), 8 ≤ s.phase ∧ s.failed = false ∧ f.die < 8 ∧ f.port < 16 ∧ f.body = .keyRevoked) ∧
    (∃ (s : State) (o : EngOp) (r n : Nat) (ovf inx : Bool) (bs : List Byte), s.Collecting o ∧ o.pos ≠ 0 ∧ o.state = 1 ∧
      s.devtimeOf o.site.2.1 < o.time + 1000 * o.coll.tmo ∧ (s.coll o.site.1 o.coll.gid o.pos).outcome = some (r, ovf, inx, n, bs)) ∧
    (∃ (s : State) (o : EngOp), s.collOp o.id = some o ∧ o.pos = 0) ∧
    (∀ here : Bool, ∃ (s : State) (o : EngOp), s.Collecting o ∧ o.time + 1000 * o.coll.tmo ≤ s.devtimeOf o.site.2.1 ∧ s.rootHere o = here) ∧
    (∀ dfmt ∈ [0, 3, 9], ∃ (s : State) (part k : Nat) (gid : W32) (h : CollShape), h.dfmt = dfmt ∧ (s.coll part gid k).outcome = none ∧
      s.keyRevoked part = false ∧ s.goneParts (s.coll part gid k) = [] ∧ (∀ p ∈ (s.coll part gid k).contribs, p.2.1 = h) ∧
      ((s.coll part gid k).contribs.map (·.1)).Nodup ∧ h.root ∈ (s.coll part gid k).contribs.map (·.1) ∧
      (s.coll part gid k).contribs.length = h.npart + 1 ∧ h.fn ≠ 2 ∧
      (collGives h (((s.coll part gid k).sums h.nelem).getD 0 wireZero)).isSome = true) ∧
    (∃ (s : State) (part k : Nat) (gid : W32), (s.coll part gid k).outcome = none ∧ s.keyRevoked part = false ∧
      s.goneParts (s.coll part gid k) = [] ∧
      ∃ p ∈ (s.coll part gid k).contribs, ∃ q ∈ (s.coll part gid k).contribs, p.2.1 ≠ q.2.1) ∧
    (∃ (s : State) (o : EngOp) (bs : List Byte) (rs : List (Nat × Nat)), o.coll.writes = true ∧
      bs.length = o.coll.shape.nelem * collSize o.coll.shape.dfmt ∧ s.watching = false ∧ s.runs o.site.1 1 (o.par 4) bs.length = some rs) := by
  refine ⟨⟨coll2, { coll2 with contribs := [(0, shape2, [wireZero], []), (1, shape2, [wireZero], [])] }, .swap _ _ _⟩,
    metColl ⟨0, 0, 0, 2, 3, 4, 5, 0, 0, 0⟩ (collS []) (by decide) (by decide) (by decide),
    metColl ⟨0, 0, 0, 2, 3, 4, 5, 1, 0, 0⟩ (collS [aGroup]) (by decide) (by decide) (by decide),
    metColl ⟨0, 0, 0, 2, 3, 4, 5, 2, 0, 0⟩ (collS [aGroup]) (by decide) (by decide) (by decide),
    ⟨0, List.replicate 42 5, List.replicate 42 6, small, by decide, by decide, by decide⟩,
    ⟨grouped [aGroup], ⟨7, 15, 9, 1, 0, 1, .ended 0⟩, 0, by decide, rfl, by decide, by decide, ⟨nofun, nofun⟩, by decide, by decide, by decide,
      ⟨aGroup, by decide, rfl, rfl⟩, by decide⟩,
    ⟨grouped [aGroup], ⟨7, 15, 9, 2, 0, 1, .ended 0⟩, by decide, rfl, by decide, by decide, ⟨nofun, nofun⟩, by decide⟩,
    ⟨{ grouped [aGroup] with revoked := [9] }, ⟨7, 15, 9, 1, 0, 1, .ended 0⟩, by decide, rfl, by decide, by decide, ⟨nofun, nofun⟩, by decide⟩,
    ⟨{ grouped [aGroup] with ownRevoked := [1] }, ⟨7, 15, 9, 1, 0, 1, .ended 0⟩, by decide, rfl, by decide, by decide, ⟨nofun, nofun⟩, by decide⟩,
    ⟨grouped [{ aGroup with part := 1 }], ⟨7, 15, 9, 1, 0, 1, .ended 0⟩, 0, by decide, rfl, by decide, by decide, ⟨nofun, nofun⟩, by decide,
      ⟨_, List.mem_singleton.2 rfl, rfl⟩, by decide⟩,
    ⟨grouped [aGroup], ⟨7, 15, 9, 1, 0, 1, .revoked⟩, by decide, rfl, by decide, by decide, rfl⟩,
    ⟨grouped [aGroup], ⟨7, 15, 9, 1, 0, 1, .keyRevoked⟩, by decide, rfl, by decide, by decide, rfl⟩,
    ⟨decided, firstOp decided, 0, _, _, _, _, collecting_of (by decide), by decide, by decide, by decide, some_of (outcomeOf decided) (by decide)⟩,
    ⟨inColl [], firstOp (inColl []), by decide, by decide⟩,
    fun here => match here with
      | true => ⟨later contributed 1000, firstOp (later contributed 1000), collecting_of (by decide), by decide, by decide⟩
      | false => ⟨rootAway, firstOp rootAway, collecting_of (by decide), by decide, by decide⟩, ?_,
    ⟨received2 shape2 { shape2 with dfmt := 4 }, 0, 2, 5, by decide, by decide, by decide, by decide⟩,
    ⟨contributed, firstOp contributed, [1, 2, 3, 4], [(0x10FFFC, 4)], by decide, by decide, by decide, by decide⟩⟩
  intro dfmt hd
  exact ⟨received2 { shape2 with dfmt := dfmt } { shape2 with dfmt := dfmt }, 0, 2, 5, { shape2 with dfmt := dfmt }, rfl, by revert dfmt; decide,
    by revert dfmt; decide, by revert dfmt; decide, by revert dfmt; decide, by revert dfmt; decide, by revert dfmt; decide,
    by revert dfmt; decide, by revert dfmt; decide, by revert dfmt; decide⟩

/-- A state of two gangs whose partition is privileged and in a debug session; the second gang's bundle is changed. -/
def debug (f : Bundle → Bundle) : State :=
  { (duo.modBundle 1 0 f) with
    parts := setNth duo.parts 0 (some { probePartition with privileged := true, session := true }) }

/-- A bundle with its sub-bundles halted. -/
def halt (b : Bundle) : Bundle := { b with subs := b.subs.map (fun q => { q with halted := true }) }

/-- A bundle whose sub-bundles are in an instruction of several passes. -/
def midway (b : Bundle) : Bundle := { b with subs := b.subs.map (fun q => { q with pass := some ⟨[1], [], [], 0⟩ }) }

/-- A state whose sub-bundle waits at its dbg.halt for a halt that has taken effect with a status. -/
def waitingHalt (n : Nat) : State :=
  (debug id).modBundle 0 0 (fun b => { b with subs := b.subs.map (fun q => { q with wait := .halting 9 n, charged := true }) })

/-- The words that name the second gang's bundle, its lane 15, its last scalar and that lane's offset (R391, R392). -/
def nameGang : W64 := 1
def nameLane : W64 := 1 + 15 <<< 16 + 1 <<< 22
def debugS (f : Bundle → Bundle) (ss : List (Nat × W64)) : State := State.scalars (debug f) ss

/-- What a word names in such a state. -/
def target (s : State) (n : W64) : DbgTarget := (s.dbgTarget 0 0 n).getD ⟨gang, 0, Bundle.start kernel 0, none, false⟩

/-- The hypotheses of a statement on a debug instruction (R391). -/
def MetDbg (d b c : Kind) (w : XWord) (ok : Ctx → State → Prop) : Prop :=
  Met (opForm d .scalar b c true (w.m6 = 0 && w.nwb = 0 && w.imm = 0)) w (fun x s => s.isPrivileged x.g.part = true ∧ ok x s)

/-- The halt that dbg.halt asks for. -/
def haltOf (s : State) (n : W64) : PendingHalt := ((s.dbgHalt 0 0 n none).toOption).getD ⟨0, 0, none, 0, 0, 0, 0, [], none, 0, 0, none⟩

theorem ok_is {ε α : Type} {r : Except ε α} (d : α) (h : r.toOption.isSome = true) : r = .ok (r.toOption.getD d) := by
  cases r with
  | error e => cases h
  | ok a => rfl

theorem not_halting {q : Sub} (h : q.wait = .none) : ∀ i n, q.wait ≠ .halting i n := by
  intro i n k
  rw [h] at k
  cases k

/-- A pending halt of the second gang's bundle. -/
def pending : PendingHalt := ⟨9, 9, none, 1, 0, 0, 2, [], none, 0, 0, none⟩

theorem witness_Debugging :
    (∃ (w : XWord) (t : DbgTarget), MetDbg .pair .scalar .unused w (fun x s => s.targetOf x w = some t ∧ itemOk t (x.s w.b9.toNat) = true)) ∧
    (∃ (w : XWord) (t : DbgTarget), MetDbg .pair .scalar .unused w (fun x s => s.targetOf x w = some t ∧ itemOk t (x.s w.b9.toNat) = false)) ∧
    (∃ w : XWord, MetDbg .pair .scalar .unused w (fun x s => s.targetOf x w = none)) ∧
    (∃ (w : XWord) (t : DbgTarget) (n : Nat), MetDbg .scalar .scalar .scalar w (fun x s =>
      s.targetOf x w = some t ∧ itemOk t (x.s w.b9.toNat) = true ∧
      (x.sn w.b9.toNat) % 256 ∈ [0, 1, 3, 4, 5, 6, 8] ∧ n = x.sn w.b9.toNat / 256 % 256 ∧
      ¬ (x.sn w.b9.toNat % 256 = 4 ∧ n = 0) ∧ t.halted = true ∧ t.valueOk (x.sn w.b9.toNat % 256) (x.sn w.c9.toNat) = true)) ∧
    (∃ (w : XWord) (t : DbgTarget), MetDbg .scalar .scalar .scalar w (fun x s => s.targetOf x w = some t ∧ itemOk t (x.s w.b9.toNat) = true ∧
      x.sn w.b9.toNat % 256 ∈ [0, 1, 3, 5, 6, 8] ∧ t.halted = false)) ∧
    (∃ (w : XWord) (t : DbgTarget), MetDbg .scalar .unused .unused w (fun x s =>
      s.targetOf x w = some t ∧ t.lane = none ∧ (∀ b ∈ t.bundles, ∀ q ∈ b.liveSubs, q.stepping = false) ∧
      ∃ b ∈ t.bundles, ∃ q ∈ b.liveSubs, q.halted = true ∧ q.slices.any b.isDetached = false)) ∧
    (∃ (w : XWord) (t : DbgTarget), MetDbg .scalar .unused .unused w (fun x s =>
      s.targetOf x w = some t ∧ t.lane = none ∧ ∃ q ∈ t.subs, q.halted = true)) ∧
    (∃ (w : XWord) (t : DbgTarget) (l : Nat), MetDbg .scalar .unused .unused w (fun x s =>
      s.targetOf x w = some t ∧ t.lane = some l ∧ t.detached = false)) ∧
    (∃ (w : XWord) (t : DbgTarget), MetDbg .pair .unused .unused w (fun x s =>
      s.targetOf x w = some t ∧ t.subs ≠ [] ∧ ∀ q ∈ t.subs, q.halted = true ∧ q.stepping = false)) ∧
    (∃ (w : XWord) (h : PendingHalt), MetDbg .scalar .unused .unused w (fun x s =>
      (∀ i n, x.q.wait ≠ .halting i n) ∧ s.dbgHalt x.g.part x.g.die (x.s w.a9.toNat) none = .ok h ∧
      ∀ q ∈ s.haltTargets h, s.haltable q = true)) ∧
    (∃ (w : XWord) (h : PendingHalt), MetDbg .scalar .unused .unused w (fun x s =>
      (∀ i n, x.q.wait ≠ .halting i n) ∧ s.dbgHalt x.g.part x.g.die (x.s w.a9.toNat) none = .ok h ∧
      ∃ q ∈ s.haltTargets h, s.haltable q = false)) ∧
    (∀ n ∈ [0, 7], ∃ (w : XWord) (i : Nat), MetDbg .scalar .unused .unused w (fun x s =>
      x.q.wait = .halting i n ∧ ∀ h ∈ s.halts, h.id ≠ i)) ∧
    (∃ (s : State) (part die : Nat) (n : W64) (t : DbgTarget), s.dbgTarget part die n = some t ∧ t.lane = none ∧ t.whole = false ∧
      t.subs ≠ [] ∧ t.halted = false) ∧
    (∃ (s : State) (h : PendingHalt), s.halts.find? (fun y => y.id == h.id) = some h ∧ (∀ q ∈ s.haltTargets h, s.haltable q = true) ∧
      (∀ r ∈ s.sxRuns, r.ev ≠ h.ev)) ∧
    (∃ (s t : State) (h : PendingHalt) (g : Gang) (b : Bundle),
      t = { s with halts := s.halts.filter (fun y => y.id != h.id) }.answerHalt h 0 ∧ t.gang h.gid = some g ∧
      g.bundles[h.bundle]? = some b ∧ b.done = false ∧ h.level = 2 ∧ h.bound = 0) ∧
    (∃ (s : State) (x : Ctx), s.Issues x ∧ s.isPrivileged x.g.part = false) ∧
    (∃ b : PartFlag, MetMessage 1 (fun s => (s.part b.part).isSome = true ∧ b.value ≤ 1)) ∧
    (∃ part : Nat, MetMessage 1 (fun s => ∀ p, s.part part = some p → p.session = false)) ∧
    (∃ (part die : Nat) (d : DbgCmd) (p : Partition), MetMessage 1 (fun s =>
      s.part part = some p ∧ p.session = true ∧ d.op = 0 ∧ (s.dbgRead part die d.target d.item).1 = 0)) ∧
    (∃ (part : Nat) (d : DbgCmd) (p : Partition), MetMessage 1 (fun s => s.part part = some p ∧ p.session = true ∧ d.op = 1)) := by
  refine ⟨⟨⟨0, 0, 0, 2, 3, 4, 268, 0, 0, 0⟩, target (debug id) nameLane,
      met (debugS id [(3, nameLane), (4, 0xF00)]) (by decide) ⟨by decide, some_of _ (by decide), by decide⟩⟩,
    ⟨⟨0, 0, 0, 2, 3, 4, 268, 0, 0, 0⟩, target (debug id) nameLane,
      met (debugS id [(3, nameLane), (4, 0x1000)]) (by decide) ⟨by decide, some_of _ (by decide), by decide⟩⟩,
    ⟨⟨0, 0, 0, 2, 3, 4, 268, 0, 0, 0⟩, met (debugS id [(3, 2)]) (by decide) ⟨by decide, by decide⟩⟩,
    ⟨⟨0, 0, 0, 2, 3, 4, 5, 1, 0, 0⟩, target (debug halt) nameLane, 0,
      met (debugS halt [(3, nameLane), (4, 5), (5, 60)]) (by decide)
        ⟨by decide, some_of _ (by decide), by decide, by decide, by decide, by decide, by decide, by decide⟩⟩,
    ⟨⟨0, 0, 0, 2, 3, 4, 5, 1, 0, 0⟩, target (debug id) nameGang,
      met (debugS id [(3, nameGang), (4, 0x703)]) (by decide) ⟨by decide, some_of _ (by decide), by decide, by decide, by decide⟩⟩,
    ⟨⟨0, 0, 0, 2, 3, 268, 268, 2, 0, 0⟩, target (debug halt) nameGang,
      met (debugS halt [(3, nameGang)]) (by decide) ⟨by decide, some_of _ (by decide), by decide, by decide, by decide⟩⟩,
    ⟨⟨0, 0, 0, 2, 3, 268, 268, 3, 0, 0⟩, target (debug halt) nameGang,
      met (debugS halt [(3, nameGang)]) (by decide) ⟨by decide, some_of _ (by decide), by decide, by decide⟩⟩,
    ⟨⟨0, 0, 0, 2, 3, 268, 268, 2, 0, 0⟩, target (debug id) nameLane, 15,
      met (debugS id [(3, nameLane)]) (by decide) ⟨by decide, some_of _ (by decide), by decide, by decide⟩⟩,
    ⟨⟨0, 0, 0, 2, 3, 268, 268, 4, 0, 0⟩, target (debug halt) nameGang,
      met (debugS halt [(3, nameGang)]) (by decide) ⟨by decide, some_of _ (by decide), by decide, by decide⟩⟩,
    ⟨⟨0, 0, 0, 2, 3, 268, 268, 5, 0, 0⟩, haltOf (debug id) nameGang, met (debugS id [(3, nameGang)]) (by decide)
      ⟨by decide, not_halting (by decide), ok_is _ (by decide), by decide⟩⟩,
    ⟨⟨0, 0, 0, 2, 3, 268, 268, 5, 0, 0⟩, haltOf (debug midway) nameGang, met (debugS midway [(3, nameGang)]) (by decide)
      ⟨by decide, not_halting (by decide), ok_is _ (by decide), by decide⟩⟩,
    fun n hn => ⟨⟨0, 0, 0, 2, 3, 268, 268, 5, 0, 0⟩, 9, met (waitingHalt n) (by revert n; decide)
      ⟨by revert n; decide, by revert n; decide, by revert n; decide⟩⟩,
    ⟨debug id, 0, 0, nameGang, target (debug id) nameGang, some_of _ (by decide), by decide, by decide, by decide, by decide⟩,
    ⟨{ debug id with halts := [pending] }, pending, by decide, by decide, by decide⟩,
    ⟨debug id, _, pending, ((debug id).gang 1).getD gang, _, rfl, by decide, rfl, by decide, rfl, rfl⟩,
    ⟨small, at_ small, issues (by decide), by decide⟩, ⟨⟨0, 1⟩, small, by decide, by decide, by decide⟩,
    ⟨0, small, by decide, by decide, ?_⟩,
    ⟨0, 0, ⟨0, nameLane, 0xF00, 0⟩, partOf ((debug id).received 1), debug id, by decide, by decide, some_of _ (by decide), by decide, rfl, by decide⟩,
    ⟨0, ⟨1, nameLane, 0xF00, 0⟩, partOf ((debug id).received 1), debug id, by decide, by decide, some_of _ (by decide), by decide, rfl⟩⟩
  intro p hp
  have : (small.received 1).part 0 = some probePartition := by decide
  rw [this] at hp
  cases hp
  rfl

/-! ## Witnesses: bring-up, the link, partitions and the control node -/

/-- The module after its rails are up, and after reset is released (R8). -/
def powered : State := { State.reset with hbmRails := true, rails := true }
def released : State := { powered with resetHeld := false, phase := 1 }
/-- The module with its link trained, in a phase, CD0 with its firmware. -/
def linked (phase : Nat) : State :=
  { released with phase := phase, link := { State.reset.link with trained := some ⟨0, 0, 1, 25⟩ }
                  dies := modNth State.reset.dies 0 (fun (d : Die) => { d with fw := some ⟨[], 0, [], []⟩, clock := 101 }) }

theorem witness_BringUp :
    (∃ s : State, s.hbmRails = false ∧ s.rails = false) ∧ (∃ s : State, s.hbmRails = true ∧ s.rails = false) ∧ (∃ s : State, s.rails = true) ∧
    (∃ s : State, s.rails = true ∧ s.resetHeld = true) ∧ (∃ s : State, s.hbmRails = true) ∧
    (∃ (s : State) (passed : List LinkSetting), s.rails = true ∧ s.resetHeld = false ∧ s.failed = false ∧ s.link.trained = none ∧
      (∃ y ∈ passed, settingOk y = true)) ∧
    (∃ s : State, s.rails = true ∧ s.resetHeld = false ∧ s.failed = false ∧ s.link.trained = none) ∧
    (∃ (s : State) (f : FwImage), s.linkUp = true ∧ s.phase = 2 ∧ s.dies.length = 8 ∧
      ∃ d < 8, ¬ (sha256 f.key = s.roms.getD d [] ∧ ecdsaVerify f.key f.sig (sha256 (imageBytes f)) = true ∧ s.flash.minRecord ≤ f.version)) ∧
    (∃ (s : State) (n : List Byte), s.linkUp = true ∧ n.length = 32 ∧ s.attest.length < 4) ∧
    (∃ (s : State) (m : MsgId) (n : List Byte) (rest : List (MsgId × List Byte)) (f : FwImage), s.linkUp = true ∧ 5 ≤ s.phase ∧
      s.attest = (m, n) :: rest ∧ (s.die 0).fw = some f) ∧
    (∃ (s : State) (offs : List Int), s.linkUp = true ∧ s.phase = 5 ∧ s.failed = false ∧ offs.length = 8 ∧ offs.head? = some 0 ∧
      (∀ a ∈ offs, ∀ b ∈ offs, (a - b).natAbs ≤ 4)) ∧
    (∃ (s : State) (offs : List Int), s.linkUp = true ∧ s.phase = 5 ∧ s.failed = false ∧ offs.length = 8 ∧ offs.head? = some 0 ∧ ∃ a ∈ offs, 64 < a.natAbs) ∧
    (∀ off : Int, off ∈ [4, -5, 64, -65] → ∃ (s : State) (die : Nat), s.devRunning = true ∧ 1 ≤ die ∧ die < 8 ∧
      off = (s.die die).devOffset ∧ (s.die die).lastCheck + 1000000 ≤ s.devtimeOf die) ∧
    (∃ (d : Die) (r : Nat), d.slew = some r) ∧
    (∃ s : State, s.linkUp = true ∧ s.phase = 6 ∧ s.failed = false ∧ s.trainFault = none) ∧
    (∃ (s : State) (d r : Nat), s.linkUp = true ∧ s.phase = 6 ∧ s.failed = false ∧ s.trainFault = some (d, r)) ∧
    (∃ (s : State) (die : Nat), s.rails = true ∧ s.resetHeld = false ∧ die < 8 ∧ die < s.dies.length ∧ 100 < (s.die die).clock) ∧
    (∃ (s : State) (die : Nat), s.rails = true ∧ s.resetHeld = false ∧ die < 8 ∧ die < s.dies.length ∧ (s.die die).shutdown = false) :=
  ⟨⟨State.reset, rfl, rfl⟩, ⟨{ State.reset with hbmRails := true }, rfl, rfl⟩, ⟨powered, rfl⟩, ⟨powered, rfl, rfl⟩, ⟨powered, rfl⟩,
   ⟨released, [⟨0, 0, 3, 100⟩, ⟨0, 0, 1, 25⟩], rfl, rfl, rfl, rfl, ⟨0, 0, 1, 25⟩, by decide, by decide⟩, ⟨released, rfl, rfl, rfl, rfl⟩,
   ⟨{ linked 2 with flash := { State.reset.flash with minRecord := 1 } }, ⟨[], 0, [], []⟩, rfl, rfl, by decide, 7, by decide, fun h => by
      exact absurd h.2.2 (by decide)⟩,
   ⟨{ linked 5 with attest := List.replicate 3 (0, []) }, List.replicate 32 0, rfl, rfl, by decide⟩,
   ⟨{ linked 5 with attest := [(0, [])] }, _, _, _, _, rfl, by decide, rfl, rfl⟩,
   ⟨linked 5, [0, 2, -2, 0, 0, 0, 0, 1], rfl, rfl, rfl, rfl, rfl, by decide⟩,
   ⟨linked 5, [0, 2, -2, 0, 0, 0, 0, 65], rfl, rfl, rfl, rfl, rfl, 65, by decide, by decide⟩,
   fun off h => ⟨{ linked 8 with devRunning := true, devtime := 2000000, dies := (linked 8).dies.set 7 { Die.reset with devOffset := off } }, 7,
     rfl, by decide, by decide, by revert off; decide, by revert off; decide⟩,
   ⟨{ Die.reset with slew := some 999 }, 999, rfl⟩, ⟨linked 6, rfl, rfl, rfl, rfl⟩,
   ⟨{ linked 6 with trainFault := some (7, 1) }, 7, 1, rfl, rfl, rfl, rfl⟩,
   ⟨linked 8, 0, rfl, rfl, by decide, by decide, by decide⟩, ⟨linked 8, 7, rfl, rfl, by decide, by decide, by decide⟩⟩

/-- A frame with an LSN. -/
def frame (lsn : BitVec 16) : List Byte := TxFrame.bytes ⟨2, true, true, 0, []⟩ lsn none

/-- A state with frames sent and not acknowledged. -/
def unacked (n resends : Nat) : State :=
  { small with link := { small.link with unacked := (List.range n).map (fun i => frame (BitVec.ofNat 16 i)), resends := resends, ackOwed := true } }

theorem witness_LinkFrames :
    (∃ f : TxFrame, f.payload.length ≤ 256 ∧ f.kind < 256) ∧
    (∃ (part die detail time : Nat) (body : List Byte), part < 16 ∧ die < 8 ∧ detail < 65536 ∧ time < 2 ^ 64 ∧ body.length ≤ 104) ∧
    (∃ (s : State) (pre post : List (List Byte)) (f : List Byte) (lsn : BitVec 16), s.linkUp = true ∧
      s.link.unacked = pre ++ f :: post ∧ lsnOf f = lsn ∧ (∀ g ∈ pre, lsnOf g ≠ lsn) ∧ s.link.backlog = []) ∧
    (∃ s : State, s.linkUp = true) ∧ (∃ s : State, s.linkUp = true ∧ s.link.ackOwed = true) ∧
    (∀ n ∈ [15, 16], ∃ s : State, s.linkUp = true ∧ s.link.unacked ≠ [] ∧ s.link.resends = n) ∧
    (∀ n ∈ [2, 36, 38, 255], ∃ (s : State) (k : Byte), s.linkUp = true ∧ (37 < k.toNat ∨ k.toNat ∈ [2, 3, 4, 7, 12, 16, 33, 36]) ∧ k.toNat = n) ∧
    (∃ (s : State) (f : List Byte) (rest : List (List Byte)), s.linkUp = true ∧ s.arriving = f :: rest ∧ crcOk f = false) ∧
    (∃ (s : State) (f : List Byte) (rest : List (List Byte)), s.linkUp = true ∧ s.arriving = f :: rest ∧ crcOk f = true ∧ lsnOf f ≠ s.link.nextRx) ∧
    (∀ last : Bool, ∃ (s : State) (f : TxFrame) (rest : List (List Byte)), s.linkUp = true ∧ f.payload.length ≤ 256 ∧ f.kind < 256 ∧ f.kind ≠ 0 ∧
      s.arriving = f.bytes s.link.nextRx none :: rest ∧ f.last = last ∧ f.kind = 1 ∧
      ((if f.first then [] else s.link.rxBody) ++ f.payload).length ≤ 256) ∧
    (∃ s : State, s.linkUp = true ∧ s.phase < 8) ∧
    (∃ (l : Link) (k : Nat) (b : List Byte), l.trained.isSome = true ∧ l.backlog = [] ∧
      l.unacked.length + (framesOf k l.txMsg b).length = 1024) ∧
    (∃ l : Link, l.unacked.length ≤ 1024) :=
  ⟨⟨⟨255, true, false, 0, List.replicate 256 1⟩, by decide, by decide⟩, ⟨15, 7, 65535, 0, List.replicate 104 1, by decide⟩,
   ⟨unacked 4 0, [frame 0, frame 1], [frame 3], frame 2, 2, rfl, rfl, by decide, by decide, rfl⟩, ⟨small, rfl⟩, ⟨unacked 0 0, rfl, rfl⟩,
   fun n _ => ⟨unacked 1 n, rfl, by simp [unacked], rfl⟩,
   fun n h => ⟨small, BitVec.ofNat 8 n, rfl, by revert n; decide, by revert n; decide⟩, ⟨{ small with arriving := [frame 0 ++ [0]] }, frame 0 ++ [0], [], rfl, rfl, by decide⟩,
   ⟨{ small with link := { small.link with rxLast := some 0xFFFF }, arriving := [frame 1, frame 2] }, frame 1, [frame 2], rfl, rfl, by decide +kernel, by decide⟩,
   fun last => ⟨{ small with arriving := [TxFrame.bytes ⟨1, true, last, 9, List.replicate 256 0⟩ 0 none] }, ⟨1, true, last, 9, List.replicate 256 0⟩, [],
     rfl, by revert last; decide, by revert last; decide, by revert last; decide, rfl, rfl, rfl, by revert last; decide⟩, ⟨linked 7, rfl, by decide⟩,
   ⟨{ (unacked 0 0).link with unacked := List.replicate 1022 [] }, 2, List.replicate 257 0, rfl, rfl, by decide⟩, ⟨(unacked 1 0).link, by decide⟩⟩

/-- A PARTSET body (R408). -/
def setting (part quota : Nat) (key : BitVec 16) : PartSet := ⟨part, key, List.replicate 8 1, quota, 1, 16, List.replicate 8 0, 0x200000⟩

/-- The small state with a partition in reset on every die but some. -/
def resetting (done : List Nat) : State :=
  { small with parts := setNth small.parts 0 (some { probePartition with resetting := some 0, resetDone := done, resetMsgs := [3] }) }

theorem witness_Partitions :
    (∃ b : PartSet, MetMessage 1 (fun s => partSetOk b = true ∧ s.otherQuotas b.part + b.quota ≤ 7936 ∧ s.part b.part = none ∧
      ∀ p q, s.part p = some q → q.key ≠ b.key)) ∧
    (∃ (b : PartSet) (p : Partition), MetMessage 1 (fun s => partSetOk b = true ∧ s.otherQuotas b.part + b.quota ≤ 7936 ∧
      s.part b.part = some p ∧ p.key = b.key ∧ p.roots = b.roots ∧ p.vlog = b.vlog ∧
      ∀ n q, s.part n = some q → ∀ d < 8, (q.ring d).count = 0)) ∧
    (∃ b : PartSet, MetMessage 1 (fun _ => partSetOk b = false)) ∧
    (∃ b : PartSet, MetMessage 1 (fun s => partSetOk b = true ∧ 7936 < s.otherQuotas b.part + b.quota)) ∧
    (∃ b : CompassSet, MetMessage 1 (fun s => (s.part b.part).isSome = true ∧ b.weights.length = 8 ∧ ∀ w ∈ b.weights, w < 256)) ∧
    (∃ b : PartFlag, MetMessage 1 (fun s => (s.part b.part).isSome = true ∧ b.value ≤ 1 ∧ ∀ g ∈ s.gangs, g.part = b.part → g.retired = true)) ∧
    (∃ (b : PartFlag) (g : Gang), MetMessage 1 (fun s =>
      (s.part b.part).isSome = true ∧ b.value ≤ 1 ∧ g ∈ s.gangs ∧ g.part = b.part ∧ g.retired = false)) ∧
    (∀ n ∈ [0, 1, 65536], ∃ (part die k : Nat) (va : W64) (p : Partition), MetMessage 1 (fun s => part < 16 ∧ die < 8 ∧ va.toNat % 2 ^ 16 = 0 ∧
      (n = 0 ∨ k ≤ 16 ∧ n = 2 ^ k) ∧ s.part part = some p ∧ ∀ q ∈ (p.ring die).lkeys, q = none)) ∧
    (∃ part : Nat, MetMessage 1 (fun s => ∃ p, s.part part = some p ∧ p.resetting = none ∧ p.resetMsgs = [])) ∧
    (∃ (s : State) (die part t : Nat) (p : Partition), s.part part = some p ∧ p.resetting = some t ∧ die < 8 ∧ die < s.dies.length ∧
      die ∉ p.resetDone ∧ s.resettable part die = true ∧ p.resetDone.length = 7) ∧
    (∃ (s : State) (die part t : Nat) (p : Partition), s.part part = some p ∧ p.resetting = some t ∧ die < 8 ∧ die ∉ p.resetDone ∧
      die ∉ p.resetLate ∧ t + 1000000 ≤ s.devtime) ∧
    (∃ (s : State) (die core part : Nat), 8 ≤ s.phase ∧ die < 8 ∧ core < 384 ∧ (s.part part).isSome = true) := by
  refine ⟨⟨setting 15 7935 2, small, by decide, by decide, by decide, by decide, by decide, ?_⟩,
    ⟨setting 0 7936 1, partOf (small.received 1), small, by decide, by decide, by decide, by decide, some_of _ (by decide), by decide, by decide,
      by decide, ?_⟩,
    ⟨setting 16 1 2, small, by decide, by decide, by decide⟩, ⟨setting 15 7936 2, small, by decide, by decide, by decide, by decide⟩,
    ⟨⟨0, List.replicate 8 255⟩, small, by decide, by decide, by decide⟩,
    ⟨⟨0, 1⟩, small.modGang 0 (fun g => { g with retired := true }), by decide, by decide, by decide⟩,
    ⟨⟨0, 1⟩, gang, small, by decide, by decide, by decide, by decide, List.mem_singleton.2 rfl, by decide, by decide⟩, ?_,
    ⟨0, small, by decide, by decide, partOf (small.received 1), some_of _ (by decide), by decide, by decide⟩,
    ⟨resetting [0, 1, 2, 3, 4, 5, 6], 7, 0, 0, partOf (resetting [0, 1, 2, 3, 4, 5, 6]), some_of _ (by decide), by decide, by decide, by decide,
      by decide, by decide, by decide⟩,
    ⟨{ resetting [0] with devtime := 1000000 }, 7, 0, 0, partOf (resetting [0]), some_of _ (by decide), by decide, by decide, by decide, by decide, by decide⟩,
    ⟨small, 7, 383, 0, by decide, by decide, by decide, by decide⟩⟩
  · intro p q hq h
    have hs : (small.received 1).parts.all (fun r => r.all (fun q => q.key != 2)) = true := by decide
    have hm : some q ∈ (small.received 1).parts := by
      have : (small.received 1).parts[p]?.join = some q := hq
      cases hp : (small.received 1).parts[p]? with
      | none =>
        rw [hp] at this
        cases this
      | some r =>
        rw [hp] at this
        have e : r = some q := this
        exact List.mem_of_getElem? (by rw [hp, e])
    have := List.all_eq_true.1 hs _ hm
    simp only [Option.all_some, bne_iff_ne] at this
    exact this h
  · intro n q hq d hd
    have := only_part (by decide) hq
    subst this
    rw [show q = partOf (small.received 1) by
      have : (small.received 1).part 0 = some (partOf (small.received 1)) := some_of _ (by decide)
      rw [this] at hq
      cases hq
      rfl]
    revert d
    decide
  · intro n hn
    refine ⟨0, 7, if n = 1 then 0 else 16, 0xFFFF0000, partOf (small.received 1), small, by decide, by decide, by decide, by decide, by decide,
      by revert n; decide, some_of _ (by decide), by decide⟩

/-! ## Witnesses: the hypotheses of the statements on scalar instructions -/

theorem witness_ScalarArithmetic :
    (∃ w : SWord, Met (opForm .scalar .scalar .scalar .unused true (w.nwb = 0)) (scalarS true true w) (fun _ _ => True)) ∧
    (∃ w : SWord, Met (opForm .scalar .scalar .unused .unused true (w.b6 = 0 && w.nwb = 0)) (scalarSl true w) (fun _ _ => True)) ∧
    (∀ fn : BitVec 8, fn.toNat < 4 → ∃ w : XWord, w.fn = fn ∧
      Met (opForm .scalar .scalar .scalar .unused true (w.m6 = 0 && (w.b9 = 268 || w.imm = 0) && w.nwb = 0)) w (fun _ _ => True)) :=
  ⟨⟨⟨0, 0, 0, 63, 1, 62⟩, met small (by decide) trivial⟩, ⟨⟨0, 0, 0, 63, 1, 0⟩, met small (by decide) trivial⟩,
   fun fn _ => ⟨⟨0, 0, 0, 63, 0, 268, 268, fn, 0, 0xFFFFFFFF⟩, rfl, met small (by revert fn; decide) trivial⟩⟩

theorem witness_ScalarDivideSelectMove :
    (∃ w : XWord, Met (opForm .scalar .scalar .named .unused (w.fn.toNat ≤ 3) (w.m6 = 0 && w.imm = 0 && w.nwb = 0)) w (fun x _ => x.s w.b9.toNat = 0)) ∧
    (∃ w : XWord, Met (opForm .scalar .scalar .scalar .unused (w.fn.toNat ≤ 5) (w.m6 = 0 && (w.b9 = 268 || w.imm = 0) && w.nwb = 0)) w
      (fun _ _ => w.fn = 5)) ∧
    (∃ (w : XWord) (s : State) (x : Ctx), s.Issues x ∧ 6 ≤ w.fn.toNat) ∧
    (∃ w : XWord, Met (opForm .scalar .named .named .named (w.fn = 0) (w.m6 = 0 && w.imm = 0 && w.nwb = 0)) w (fun _ _ => True)) ∧
    (∃ w : SWord, Met (opForm .scalar .unused .unused .unused true (w.b6 = 0 && w.nwb = 0)) (scalarSl false w) (fun _ _ => True)) ∧
    (∃ w : SWord, Met (opForm .scalar .scalar .unused .unused true (w.nwb = 0)) (scalarS true false w) (fun _ _ => True)) ∧
    (∃ w : XWord, Met (opForm .scalar .scalar .named .unused (w.fn = 0) (w.m6.toNat < 8 && w.nwb = 0)) w (fun _ _ => w.m6 = 7)) :=
  ⟨⟨⟨0, 0, 0, 5, 6, 7, 268, 3, 0, 0⟩, met small (by decide) (by decide)⟩,
   ⟨⟨0, 0, 0, 5, 6, 268, 268, 5, 0, 0xFFFFFFFF⟩, met small (by decide) rfl⟩,
   ⟨⟨0, 0, 0, 5, 6, 7, 268, 6, 0, 0⟩, small, at_ small, issues (by decide), by decide⟩,
   ⟨⟨0, 0, 0, 5, 6, 7, 8, 0, 0, 0⟩, met small (by decide) trivial⟩, ⟨⟨0, 0, 0, 5, 0, 0⟩, met small (by decide) trivial⟩,
   ⟨⟨0, 0, 0, 5, 6, 0⟩, met small (by decide) trivial⟩, ⟨⟨0, 0, 0, 5, 6, 7, 268, 0, 7, 4⟩, met small (by decide) rfl⟩⟩

theorem witness_ScalarBits :
    (∃ w : XWord, Met (sbitForm .unused (w.imm = 0) w) w (fun _ _ => True)) ∧
    (∀ b : Kind, b = .unused ∨ b = .scalar → ∃ w : XWord, Met (sbitForm b (w.imm.toNat < 8192) w) w
      (fun _ _ => w.imm.toNat % 64 + w.imm.toNat / 64 % 128 = 64)) ∧
    (∀ b : Kind, b = .unused ∨ b = .scalar → ∃ w : XWord, MetRaise (sbitForm b (w.imm.toNat < 8192) w) w
      (fun x => x.inTime ∧ 64 < w.imm.toNat % 64 + w.imm.toNat / 64 % 128)) ∧
    (∃ w : XWord, w.fn.toNat = 7) :=
  ⟨⟨⟨0, 0, 0, 5, 6, 268, 268, 5, 0, 0⟩, met small (by decide) trivial⟩, fun b h => ⟨⟨0, 0, 0, 5, 6, 268, 268, 3, 0, 63 + 64⟩, by
    rcases h with rfl | rfl <;> exact met small (by decide) (by decide)⟩, fun b h => ⟨⟨0, 0, 0, 5, 6, 268, 268, 3, 0, 63 + 128⟩, by
    rcases h with rfl | rfl <;> exact metRaise small (by decide) (by unfold Ctx.inTime; decide)⟩,
   ⟨⟨0, 0, 0, 5, 6, 268, 268, 7, 0, 0⟩, rfl⟩⟩

theorem witness_ScalarReads :
    (∃ w : XWord, Met (opForm .scalar .unused .unused .unused (w.fn = 0 && w.imm.toNat < 24) (w.m6 = 0 && w.nwb = 0)) w
      (fun _ _ => w.imm = 23)) ∧
    (∃ w : XWord, Met (opForm .scalar .vfield .scalar .unused (w.fn.toNat < 2) (w.m6 = 0 && w.imm = 0 && w.nwb = 0)) w
      (fun _ _ => w.fn = 1)) :=
  ⟨⟨⟨0, 0, 0, 5, 268, 268, 268, 0, 0, 23⟩, met small (by decide) rfl⟩, ⟨⟨0, 0, 0, 5, 15, 6, 268, 1, 0, 0⟩, met small (by decide) rfl⟩⟩

/-! ## Witnesses: per-lane instructions

The form is the one that the statement gives its instruction, and the word one that lies on an edge of it. -/

theorem witness_LaneArithmetic :
    (∃ w : SWord, MetPass (.vaddSForm w) (fun _ => opForm .dst .src .src .unused true true) (laneS true w)) ∧
    (∃ w, MetPass (.vaddXForm w) (fun _ => intForm2 8 8 w) w ∧ MetPass (.vsubXForm w) (fun _ => intForm2 8 8 w) w ∧
      MetPass (.vmulXForm w) (fun _ => intForm2 8 8 w) w) ∧
    (∃ w, MetPass (.vmulhXForm w) (fun _ => intForm2 8 0 w) w) ∧
    (∃ w, MetPass (.vmad w) (fun _ => laneRule .src .src (w.fn.toNat % 4 ≠ 3 && w.fn.toNat < 8) (w.m6.toNat &&& 55 == 0) (w.imm = 0)) w) ∧
    (∃ w, MetPass (.vdot4 w) (fun _ => laneRule .src .src (w.fn.toNat < 4) (w.m6.toNat &&& 55 == 0) (w.imm = 0)) w) ∧
    (∃ w, MetPass (.vandXForm w) (fun _ => intForm2 1 0 w) w ∧ MetPass (.vorXForm w) (fun _ => intForm2 1 0 w) w ∧
      MetPass (.vxorXForm w) (fun _ => intForm2 1 0 w) w) ∧
    (∃ w, MetPass (.vshlXForm w) (fun _ => intForm2 4 0 w) w ∧ MetPass (.vshrXForm w) (fun _ => intForm2 4 0 w) w ∧
      MetPass (.vsraXForm w) (fun _ => intForm2 4 0 w) w) ∧
    (∃ w, MetPass (.vmin w) (fun _ => intForm2 16 0 w) w ∧ MetPass (.vmax w) (fun _ => intForm2 16 0 w) w) ∧
    (∃ w, MetPass (.vabs w) (fun _ => laneRule .unused .unused (w.fn.toNat < 3) (w.m6.toNat &&& 55 == 0) (w.imm = 0)) w) ∧
    (∃ w, MetPass (.vneg w) (fun _ => laneRule .unused .unused (w.fn.toNat % 4 ≠ 3 && 8 ≤ w.fn.toNat && w.fn.toNat < 16)
      (w.m6.toNat &&& 55 == 0) (w.imm = 0)) w) :=
  ⟨⟨⟨0, 0, 0, 27, 12, 8⟩, metPass (by decide)⟩,
   ⟨⟨0, 0, 0, 15, 0, 268, 268, 6, 8, 0xFFFFFFFF⟩, metPass (by decide), metPass (by decide), metPass (by decide)⟩,
   ⟨⟨0, 0, 1, 268, 0, 1, 268, 6, 0, 0⟩, metPass (by decide)⟩, ⟨⟨0, 0, 0, 15, 0, 1, 2, 6, 8, 0⟩, metPass (by decide)⟩,
   ⟨⟨0, 0, 0, 15, 0, 1, 2, 3, 8, 0⟩, metPass (by decide)⟩,
   ⟨⟨0, 0, 0, 15, 0, 268, 268, 0, 0, 5⟩, metPass (by decide), metPass (by decide), metPass (by decide)⟩,
   ⟨⟨0, 0, 0, 15, 0, 1, 268, 2, 0, 0⟩, metPass (by decide), metPass (by decide), metPass (by decide)⟩,
   ⟨⟨0, 0, 0, 15, 0, 1, 268, 14, 0, 0⟩, metPass (by decide), metPass (by decide)⟩,
   ⟨⟨0, 0, 0, 15, 0, 268, 268, 2, 8, 0⟩, metPass (by decide)⟩, ⟨⟨0, 0, 0, 15, 0, 268, 268, 14, 8, 0⟩, metPass (by decide)⟩⟩

theorem witness_LaneBitsAndMoves :
    (∃ w, MetPass (.vsel w) (fun _ => laneRule .src .unused (w.fn.toNat < 16) (w.m6 = 0) (w.imm = 0)) w) ∧
    (∃ w : SWord, MetPass (.vmovSForm w) (fun _ => opForm .dst .src .unused .unused true true) (laneS false w)) ∧
    (∃ (w : SWord) (lit : W64), MetPass (.vmovSlForm w lit) (fun _ => { opForm .dst .unused .unused .unused true (w.b6 = 0) with
      litOk := lit = (lit.setWidth 32).signExtend 64 }) (laneSl w)) ∧
    (∃ w, MetPass (.vmovXForm w) (fun _ => laneRule .unused .unused (w.fn = 0) (w.m6 = 0) (w.a9 = 268 || w.imm = 0)) w) ∧
    (∃ w, MetPass (.vfsh w) (fun _ => laneRule .src .src (w.fn = 0) (w.m6 = 0)
      (if w.c9 = 268 then w.imm.toNat < 32 else w.imm = 0)) w) ∧
    (∃ w, MetPass (.vprm w) (fun _ => laneRule .src .src (w.fn = 0) (w.m6 = 0)
      (if w.c9 = 268 then w.imm.toNat < 65536 else w.imm = 0)) w) ∧
    (∃ w, MetPass (.vbitPopc w) (fun _ => unaryForm (w.fn.toNat < 4) w) w ∧ MetPass (.vbitClz w) (fun _ => unaryForm (w.fn.toNat < 4) w) w ∧
      MetPass (.vbitCtz w) (fun _ => unaryForm (w.fn.toNat < 4) w) w ∧ MetPass (.vbitBrev w) (fun _ => unaryForm (w.fn.toNat < 4) w) w) ∧
    (∃ w, MetPass (.vbitBfx w) (fun _ => laneRule .src .unused (4 ≤ w.fn.toNat && w.fn.toNat < 6) (w.m6 = 0) (immIsB w)) w) ∧
    (∃ w, MetPass (.vbitBfi w) (fun _ => laneRule .src .src (w.fn = 6) (w.m6 = 0) (w.imm = 0)) w) ∧
    (∃ w, MetPass (.vrsh w) (fun _ => laneRule .src .src (w.fn.toNat % 4 ≠ 3 && w.fn.toNat < 8 && w.fn.toNat ≠ 4) (w.m6.toNat < 4)
      (if w.b9 = 268 then w.imm.toNat < 32 else w.imm = 0)) w) ∧
    (∃ w, MetPass (.vpack w) (fun _ => laneRule .src .unused ((w.fn.toNat % 4 = 1 || w.fn.toNat % 4 = 2) && w.fn.toNat < 8)
      (w.m6.toNat &&& 55 == 0) (w.imm = 0)) w) ∧
    (∃ w, MetPass (.vunpk w) (fun _ => laneRule .unused .unused ((w.fn.toNat % 4 = 1 || w.fn.toNat % 4 = 2) && w.fn.toNat < 16) (w.m6 = 0)
      (w.imm = 0)) w) :=
  ⟨⟨⟨1, 1, 0, 15, 0, 1, 268, 15, 0, 0⟩, metPass (by decide)⟩, ⟨⟨0, 0, 0, 12, 12, 0⟩, metPass (by decide)⟩,
   ⟨⟨0, 0, 0, 12, 0, 0⟩, 0xFFFFFFFF80000000, metPass (by decide)⟩, ⟨⟨0, 0, 0, 15, 268, 268, 268, 0, 0, 0xFFFFFFFF⟩, metPass (by decide)⟩,
   ⟨⟨0, 0, 0, 15, 0, 1, 268, 0, 0, 31⟩, metPass (by decide)⟩, ⟨⟨0, 0, 0, 15, 0, 1, 268, 0, 0, 65535⟩, metPass (by decide)⟩,
   ⟨⟨0, 0, 0, 15, 0, 268, 268, 3, 0, 0⟩, metPass (by decide), metPass (by decide), metPass (by decide), metPass (by decide)⟩,
   ⟨⟨0, 0, 0, 15, 0, 268, 268, 5, 0, 0x7FF⟩, metPass (by decide)⟩, ⟨⟨0, 0, 0, 15, 0, 1, 2, 6, 0, 0⟩, metPass (by decide)⟩,
   ⟨⟨0, 0, 0, 15, 0, 268, 2, 6, 3, 31⟩, metPass (by decide)⟩, ⟨⟨0, 0, 0, 15, 0, 1, 268, 6, 8, 0⟩, metPass (by decide)⟩,
   ⟨⟨0, 0, 0, 15, 0, 268, 268, 14, 0, 0⟩, metPass (by decide)⟩⟩

theorem witness_LanePredicates :
    (∃ w, MetPass (.vcmp w) (fun _ => { laneRule .src .unused (w.fn.toNat % 4 ≠ 3 && w.fn.toNat / 8 % 8 < 6 && w.fn.toNat < 128)
      (w.m6 = 0) (immIsB w) with d := .pred, result := false }) w) ∧
    (∃ w, MetPass (.plog w) (fun _ => { opForm .pred .pred .pred .unused (w.fn.toNat < 16 && w.m6 = 0) (w.imm = 0) with
      result := false }) w) ∧
    (∃ w, MetPass (.fcmp w) (fun _ => { floatRule .src .unused (w.fn.toNat < 64) 16 immIsB w with d := .pred, result := false }) w) :=
  ⟨⟨⟨0, 0, 0, 7, 0, 268, 268, 110, 0, 9⟩, metPass (by decide)⟩, ⟨⟨0, 0, 0, 0, 7, 7, 268, 15, 0, 0⟩, metPass (by decide)⟩,
   ⟨⟨0, 0, 0, 7, 0, 1, 268, 62, 16, 0⟩, metPass (by decide)⟩⟩

theorem witness_AcrossLanes :
    (∃ w, MetPass (.vshfl w) (fun x =>
      let seg := if w.fn.toNat / 4 = 0 then x.g.kernel.width else 2 ^ (w.fn.toNat / 4 + 1)
      laneRule .src .unused (w.fn.toNat / 4 < 5 && seg ≠ 0 && seg ≤ x.g.kernel.width) (w.m6 = 0) (immIsB w)) w) ∧
    (∃ w, MetPass (.vred w) (fun _ => laneRule .unused .unused (w.fn.toNat < 11) (redM6 w.fn.toNat w) (w.imm = 0)) w) ∧
    (∃ w, MetPass (.vscn w) (fun _ => laneRule .unused .unused (w.fn.toNat % 16 < 11 && w.fn.toNat < 32)
      (redM6 (w.fn.toNat % 16) w) (w.imm = 0)) w) ∧
    (∃ w, MetPass (.vbal w) (fun _ => laneRule .unused .unused (w.fn.toNat < 2) (w.m6 = 0) (w.imm = 0)) w) :=
  ⟨⟨⟨0, 0, 0, 15, 0, 268, 268, 15, 0, 16⟩, metPass (by decide)⟩, ⟨⟨0, 0, 0, 15, 0, 268, 268, 10, 16, 0⟩, metPass (by decide)⟩,
   ⟨⟨0, 0, 0, 15, 0, 268, 268, 24, 19, 0⟩, metPass (by decide)⟩, ⟨⟨0, 0, 0, 15, 0, 268, 268, 1, 0, 0⟩, metPass (by decide)⟩⟩

theorem witness_FloatArithmetic :
    (∃ w, MetPass (.faddXForm w) (fun _ => floatRule .src .unused (w.fn.toNat < 4) 31 immIsB w) w ∧
      MetPass (.fsubXForm w) (fun _ => floatRule .src .unused (w.fn.toNat < 4) 31 immIsB w) w ∧
      MetPass (.fmulXForm w) (fun _ => floatRule .src .unused (w.fn.toNat < 4) 31 immIsB w) w ∧
      MetPass (.fscl w) (fun _ => floatRule .src .unused (w.fn.toNat < 4) 31 immIsB w) w) ∧
    (∃ w : SWord, MetPass (.ffmaSForm w) (fun _ => opForm .dst .src .src .unused true true) (laneS true w)) ∧
    (∃ w, MetPass (.ffmaXForm w) (fun _ => floatRule .src .src (w.fn.toNat < 4) 31 (fun w => w.imm = 0) w) w) ∧
    (∀ k < 4, ∃ w, MetPass (.fmin w) (fun _ => floatRule .src .unused (w.fn.toNat / 4 = k) 16 immIsB w) w) ∧
    (∀ k < 2, ∃ w, MetPass (.fneg w) (fun _ => floatRule .unused .unused (w.fn.toNat / 4 = k) 0 (fun w => w.imm = 0) w) w) ∧
    (∃ w, MetPass (.fcpys w) (fun _ => floatRule .src .unused (w.fn.toNat / 4 = 2) 0 immIsB w) w) ∧
    (∃ w, MetPass (.fcls w) (fun _ => floatRule .unused .unused (w.fn.toNat < 4) 0 (fun w => w.imm = 0) w) w) ∧
    (∃ w, MetPass (.fdot2 w) (fun _ => floatRule .src .src (w.fn.toNat % 4 ≠ 0 && w.fn.toNat < 4) 31 (fun w => w.imm = 0) w) w) ∧
    (∃ w, MetPass (.frnd w) (fun _ => floatRule .unused .unused (w.fn.toNat < 4) 23 (fun w => w.imm = 0) w) w) :=
  ⟨⟨⟨0, 0, 0, 15, 0, 268, 268, 2, 27, 0x3F800000⟩, metPass (by decide), metPass (by decide), metPass (by decide), metPass (by decide)⟩,
   ⟨⟨0, 0, 0, 12, 12, 13⟩, metPass (by decide)⟩, ⟨⟨0, 0, 0, 15, 0, 1, 2, 2, 27, 0⟩, metPass (by decide)⟩,
   fun k h => ⟨⟨0, 0, 0, 15, 0, 1, 268, BitVec.ofNat 8 (4 * k + 2), 16, 0⟩, metPass (by revert k; decide)⟩,
   fun k h => ⟨⟨0, 0, 0, 15, 0, 268, 268, BitVec.ofNat 8 (4 * k + 2), 0, 0⟩, metPass (by revert k; decide)⟩,
   ⟨⟨0, 0, 0, 15, 0, 1, 268, 10, 0, 0⟩, metPass (by decide)⟩, ⟨⟨0, 0, 0, 15, 0, 268, 268, 2, 0, 0⟩, metPass (by decide)⟩,
   ⟨⟨0, 0, 0, 15, 0, 1, 2, 1, 27, 0⟩, metPass (by decide)⟩, ⟨⟨0, 0, 0, 15, 0, 268, 268, 2, 19, 0⟩, metPass (by decide)⟩⟩

theorem witness_FloatSpecialAndConversions :
    (∃ w : SWord, MetPass (.frcpSForm w) (fun _ => opForm .dst .src .unused .unused true true) (laneS false w)) ∧
    (∃ w, MetPass (.frcpXForm w) (fun _ => specialForm 24 w) w ∧ MetPass (.ftanhXForm w) (fun _ => specialForm 24 w) w) ∧
    (∃ w, MetPass (.fsqrtXForm w) (fun _ => specialForm 31 w) w) ∧
    (∃ w, MetPass (.fcvt w) (fun _ => laneRule .src .unused (cvtLegal w.fn.toNat w.m6.toNat (w.imm.toNat % 4)) true (w.imm.toNat < 4)) w) ∧
    (∃ w, MetPass (.bfpd w) (fun _ => laneRule .unused .unused (w.fn.toNat % 4 = 0 && w.fn.toNat / 4 < 7)
      (w.m6.toNat &&& 48 == 0 && w.m6.toNat % 8 < 4) (w.imm = 0)) w) ∧
    (∃ w, MetPass (.bfpq w) (fun _ => laneRule .unused .unused (w.fn.toNat % 4 = 0 && w.fn.toNat / 4 % 8 < 7 && w.fn.toNat < 64)
      (w.m6 = 0) (w.imm = 0)) w) :=
  ⟨⟨⟨0, 0, 0, 12, 12, 0⟩, metPass (by decide)⟩, ⟨⟨0, 0, 0, 15, 0, 268, 268, 2, 24, 0⟩, metPass (by decide), metPass (by decide)⟩,
   ⟨⟨0, 0, 0, 15, 0, 268, 268, 2, 27, 0⟩, metPass (by decide)⟩, ⟨⟨0, 0, 0, 15, 0, 1, 268, 48, 8, 1⟩, metPass (by decide)⟩,
   ⟨⟨0, 0, 0, 15, 0, 268, 268, 24, 11, 0⟩, metPass (by decide)⟩, ⟨⟨0, 0, 0, 15, 0, 268, 268, 56, 0, 0⟩, metPass (by decide)⟩⟩

theorem witness_RoundingAndSpecialOperands :
    (∃ (t : Fmt) (x : Nat) (n : Bool) (m : Nat) (e : Int), t ∈ [fp32, fp16, bf16, e4m3, e5m2] ∧ x < 2 ^ fmtWidth t ∧
      readFloat t false x = .fin n m e) ∧
    (∃ mode m : Nat, mode < 4 ∧ m ≠ 0) ∧ (∃ t : Fmt, t ∈ [fp32, fp16, bf16]) :=
  ⟨⟨fp16, 1, false, 1, -24, by decide⟩, ⟨3, 1, by decide⟩, ⟨bf16, by decide⟩⟩

theorem witness_PairAndNop :
    (∃ (w : PairWord) (s : State) (x : Ctx), s.Issues x ∧ s.watching = false ∧ x.inTime ∧ pairCheck x.g.kernel.v w = none ∧
      x.latchCheck x.c.plane (.pair w) = none) ∧
    MetPass .nop (fun _ => bareForm true true) (plainWord 0 0 0 268 268) :=
  ⟨⟨⟨0, 0, 0, 0x30, 0, 1, 2, 3, 0, 0x5C, 0, 4, 5, 268, 0⟩, small, at_ small, issues (by decide), by decide, by unfold Ctx.inTime; decide,
    by decide, by decide⟩, metPass (by decide)⟩

/-! ## Witnesses: control flow, barriers and groups -/

theorem witness_Branches :
    (∃ w : BraWord, Met (bareForm true (w.nwb = 0)) (plainWord 0 0 0 w.d9 w.a9) (fun x _ =>
      x.inCode (x.targetOf w.w2) ∧ (w.w1 = 0 ∨ x.inCode (x.targetOf w.w1)) ∧
      (∀ sl ∈ x.b.slicesOf x.q, x.parts w sl → w.w1 ≠ 0 ∧ sl.join.length < 8) ∧ ∃ sl ∈ x.b.slicesOf x.q, x.parts w sl)) ∧
    (∃ w : XWord, Met { bareForm (w.fn = 0) (w.m6 = 0 && w.imm = 0 && w.nwb = 0) with a := .named } w
      (fun x _ => x.inCode (x.sn w.a9.toNat))) ∧
    (∃ w : XWord, Met { bareForm (w.fn.toNat ≤ 5) (w.m6 = 0 && w.nwb = 0) with a := .scalar, b := .scalar } w
      (fun x _ => x.inCode (x.targetOf w.imm))) ∧
    (∃ w : XWord, Met (bareForm true (w.m6 = 0 && w.nwb = 0)) w
      (fun x _ => x.inCode (x.targetOf w.imm) ∧ ∀ sl ∈ x.b.slicesOf x.q, sl.call.length < 16)) ∧
    (∃ w : XWord, Met { bareForm true (w.m6 = 0 && w.imm = 0 && w.nwb = 0) with a := .named } w
      (fun x _ => x.inCode (x.sn w.a9.toNat) ∧ ∀ sl ∈ x.b.slicesOf x.q, sl.call.length < 16)) ∧
    Met (bareForm true true) (plainWord 0 0 0 268 268) (fun x _ => ∀ sl ∈ x.b.slicesOf x.q, sl.call ≠ []) :=
  ⟨⟨⟨1, 0, 0, 268, 268, 60, 0⟩, met (withBundle (fun b => (b.modLane 0 (fun y => { y with p := 2 })).modSlices [0, 1, 2, 3] (fun sl =>
      { sl with join := List.replicate 7 ⟨60, 0, 0, 15⟩ }))) (by decide) (by unfold Ctx.inCode Ctx.parts; decide)⟩,
   ⟨⟨0, 0, 0, 268, 3, 268, 268, 0, 0, 0⟩, met (withS [(3, 60)]) (by decide) (by unfold Ctx.inCode; decide)⟩,
   ⟨⟨0, 0, 0, 268, 3, 4, 268, 5, 0, 0xFFFFFFD0⟩, met (withOffset 48) (by decide) (by unfold Ctx.inCode; decide)⟩,
   ⟨⟨0, 0, 0, 268, 268, 268, 268, 0, 0, 12⟩, met (withBundle (fun b => b.modSlices [0, 1, 2, 3] (fun sl =>
      { sl with offset := 48, call := List.replicate 15 4 }))) (by decide) (by unfold Ctx.inCode; decide)⟩,
   ⟨⟨0, 0, 0, 268, 3, 268, 268, 1, 0, 0⟩, met (withS [(3, 0)]) (by decide) (by unfold Ctx.inCode; decide)⟩,
   met (withBundle (fun b => b.modSlices [0, 1, 2, 3] (fun sl => { sl with call := [8] }))) (by decide) (by decide)⟩

theorem witness_BranchFaults :
    (∃ w : XWord, MetRaise (bareForm true (w.m6 = 0 && w.nwb = 0)) w (fun x => x.inTime ∧ (x.targetOf w.imm) % 4 ≠ 0)) ∧
    (∃ w : XWord, MetRaise (bareForm true (w.m6 = 0 && w.nwb = 0)) w
      (fun x => x.inTime ∧ (x.targetOf w.imm) % 4 = 0 ∧ ¬ x.inCode (x.targetOf w.imm))) ∧
    (∃ w : XWord, MetRaise (bareForm true (w.m6 = 0 && w.nwb = 0)) w
      (fun x => x.inTime ∧ x.inCode (x.targetOf w.imm) ∧ ∃ sl ∈ x.b.slicesOf x.q, 16 ≤ sl.call.length)) ∧
    MetRaise (bareForm true true) (plainWord 0 0 0 268 268) (fun x => x.inTime ∧ ∃ sl ∈ x.b.slicesOf x.q, sl.call = []) ∧
    (∃ w : BraWord, MetRaise (bareForm true (w.nwb = 0)) (plainWord 0 0 0 w.d9 w.a9)
      (fun x => x.inTime ∧ x.inCode (x.targetOf w.w2) ∧ w.w1 = 0 ∧ ∃ sl ∈ x.b.slicesOf x.q, x.parts w sl)) ∧
    (∃ w : BraWord, MetRaise (bareForm true (w.nwb = 0)) (plainWord 0 0 0 w.d9 w.a9)
      (fun x => x.inTime ∧ x.inCode (x.targetOf w.w2) ∧ w.w1 ≠ 0 ∧ x.inCode (x.targetOf w.w1) ∧
        ∃ sl ∈ x.b.slicesOf x.q, x.parts w sl ∧ 8 ≤ sl.join.length)) :=
  ⟨⟨⟨0, 0, 0, 268, 268, 268, 268, 0, 0, 2⟩, metRaise small (by decide) (by unfold Ctx.inTime; decide)⟩,
   ⟨⟨0, 0, 0, 268, 268, 268, 268, 0, 0, 64⟩, metRaise small (by decide) (by unfold Ctx.inTime Ctx.inCode; decide)⟩,
   ⟨⟨0, 0, 0, 268, 268, 268, 268, 0, 0, 12⟩, metRaise (withBundle (fun b => b.modSlices [0, 1, 2, 3] (fun sl =>
      { sl with call := List.replicate 16 4 }))) (by decide) (by unfold Ctx.inTime Ctx.inCode; decide)⟩,
   metRaise small (by decide) (by unfold Ctx.inTime; decide),
   ⟨⟨1, 0, 0, 268, 268, 0, 0⟩, metRaise (withBundle (fun b => b.modLane 0 (fun y => { y with p := 2 }))) (by decide)
      (by unfold Ctx.inTime Ctx.inCode Ctx.parts; decide)⟩,
   ⟨⟨1, 0, 0, 268, 268, 60, 0⟩, metRaise (withBundle (fun b => (b.modLane 0 (fun y => { y with p := 2 })).modSlices [0, 1, 2, 3] (fun sl =>
      { sl with join := List.replicate 8 ⟨60, 0, 0, 15⟩ }))) (by decide) (by unfold Ctx.inTime Ctx.inCode Ctx.parts; decide)⟩⟩

/-- The small state's bundle divided into two sub-bundles, the other at an offset and waiting as named. -/
def divided (off : Nat) (wait : Wait) : State :=
  withBundle (fun b => { b.modSlices [2, 3] (fun sl => { sl with offset := off }) with
    subs := [{ Sub.free with slices := [0, 1] }, { Sub.free with slices := [2, 3], wait := wait }] })

theorem allSliced_of {x : Ctx} (h : (List.range x.b.slices.length).all (fun k => !x.b.isDetached k ||
    match x.b.slices[k]? with | some sl => sl.own == 0 && sl.join == [] | none => true) = true)
    (h' : x.q.slices.all (fun k => !x.b.isDetached k) = true) : x.whole := by
  refine ⟨fun k hk => by simpa using List.all_eq_true.1 h' k hk, fun k sl hk hd => ?_⟩
  have hlt : k < x.b.slices.length := by
    by_contra hn
    rw [List.getElem?_eq_none (by omega)] at hk
    cases hk
  have := List.all_eq_true.1 h k (List.mem_range.2 hlt)
  rw [hk, hd] at this
  simpa using this

theorem witness_JoinRegangExit :
    Met (bareForm true true) (plainWord 0 0 0 268 268) (fun x _ => x.whole) ∧
    Met (bareForm true true) (plainWord 0 0 0 268 268) (fun x _ => x.whole ∧ x.q.slices ≠ [] ∧ x.allArrived ∧
      (∀ q ∈ x.gathering, ∀ i ∈ q.slices, x.b.isDetached i = false) ∧ x.otherLive ≠ []) ∧
    (∃ (s : State) (x : Ctx), s.Issues x ∧ x.inTime ∧ ∃ k ∈ x.otherLive, ∃ q, x.b.subs[k]? = some q ∧ q.wait ≠ .regang) ∧
    (∃ (s : State) (x : Ctx), s.Issues x ∧ x.whole) :=
  ⟨met small (by decide) (allSliced_of (by decide) (by decide)),
   met (divided 0 .regang) (by decide) ⟨allSliced_of (by decide) (by decide), by decide, by
     intro k hk
     have : k = 1 := by revert k; decide
     subst this
     exact ⟨by decide, fun q hq => by cases hq; decide⟩, by decide, by decide⟩,
   ⟨divided 16 .none, at_ _, issues (by decide), by unfold Ctx.inTime; decide, 1, by decide, { Sub.free with slices := [2, 3] }, by decide,
    by decide⟩,
   ⟨small, at_ small, issues (by decide), allSliced_of (by decide) (by decide)⟩⟩

theorem witness_Planes :
    (∃ w : XWord, Met (bareForm true (w.m6 = 0 && w.imm.toNat < 64 && w.nwb = 0)) w (fun x _ => w.imm.toNat % 4 < x.g.kernel.planes)) ∧
    (∃ w : XWord, Met { bareForm true (w.m6 = 0 && w.imm = 0 && w.nwb = 0) with a := .pair } w
      (fun x _ => ∀ l ∈ x.b.activeLanes x.q, (x.sn w.a9.toNat + x.sn (w.a9.toNat + 1) * 2 ^ 64) / 4 ^ l % 4 < x.g.kernel.planes)) ∧
    (∃ w : XWord, Met { bareForm true (w.m6 = 0 && w.imm = 0 && w.nwb = 0) with d := .pair } w (fun _ _ => True)) ∧
    (∃ w : XWord, Met { bareForm true (w.m6 = 0 && w.imm.toNat < 4 && w.nwb = 0) with d := .scalar } w (fun _ _ => w.imm = 3)) ∧
    (∃ w : XWord, MetRaise (bareForm true (w.m6 = 0 && w.imm.toNat < 64 && w.nwb = 0)) w
      (fun x => x.inTime ∧ x.g.kernel.planes ≤ w.imm.toNat % 4)) ∧
    (∃ w : XWord, MetRaise { bareForm true (w.m6 = 0 && w.imm = 0 && w.nwb = 0) with a := .pair } w
      (fun x => x.inTime ∧ ∃ l ∈ x.b.activeLanes x.q,
        x.g.kernel.planes ≤ (x.sn w.a9.toNat + x.sn (w.a9.toNat + 1) * 2 ^ 64) / 4 ^ l % 4)) ∧
    (∃ w : XWord, MetRaise { bareForm true (w.m6 = 0 && w.imm = 0 && w.nwb = 0) with a := .named } w
      (fun x => x.inTime ∧ (w.a9.toNat % 2 = 1 ∨ w.a9.toNat < 2))) ∧
    (∃ w : XWord, MetRaise { bareForm true (w.m6 = 0 && w.imm = 0 && w.nwb = 0) with d := .named } w
      (fun x => x.inTime ∧ (w.d9.toNat % 2 = 1 ∨ w.d9.toNat < 2))) ∧
    (∃ w : XWord, w.fn.toNat = 4) :=
  ⟨⟨⟨0, 0, 0, 268, 268, 268, 268, 0, 0, 63⟩, met (withGang (fun g => { g with kernel := { kernel with planes := 4 } })) (by decide) (by decide)⟩,
   ⟨⟨0, 0, 0, 268, 2, 268, 268, 1, 0, 0⟩, met small (by decide) (by decide)⟩,
   ⟨⟨0, 0, 0, 62, 268, 268, 268, 2, 0, 0⟩, met small (by decide) trivial⟩,
   ⟨⟨0, 0, 0, 2, 268, 268, 268, 3, 0, 3⟩, met small (by decide) rfl⟩,
   ⟨⟨0, 0, 0, 268, 268, 268, 268, 0, 0, 3⟩, metRaise small (by decide) (by unfold Ctx.inTime; decide)⟩,
   ⟨⟨0, 0, 0, 268, 2, 268, 268, 1, 0, 0⟩, metRaise (withBundle (fun b => { b with s := setNth b.s 2 3 })) (by decide)
      (by unfold Ctx.inTime; decide)⟩,
   ⟨⟨0, 0, 0, 268, 63, 268, 268, 1, 0, 0⟩, metRaise small (by decide) (by unfold Ctx.inTime; decide)⟩,
   ⟨⟨0, 0, 0, 0, 268, 268, 268, 2, 0, 0⟩, metRaise small (by decide) (by unfold Ctx.inTime; decide)⟩,
   ⟨⟨0, 0, 0, 268, 268, 268, 268, 4, 0, 0⟩, rfl⟩⟩

/-- The small state 256 cycles on with its sub-bundle waiting and the counter set. -/
def waitsFor (w : Wait) (n : Nat) : State :=
  (withBundle (fun b => { b.modSub 0 (fun q => { q with wait := w }) with ycount := n })).modDie 0 (fun (d : Die) => { d with cycles := 256 })

theorem witness_YieldWatchdogTrap :
    (∃ (w : XWord) (s : State) (x : Ctx), s.Issues x ∧
      x.passesForm (bareForm (w.fn = 0) (w.m6 = 0 && w.imm.toNat < 2 ^ 23 && w.nwb = 0)) w ∧
      1 ≤ w.imm.toNat % 2 ^ 14 ∧ w.imm.toNat % 2 ^ 14 = x.g.kernel.yieldMax ∧ w.imm.toNat / 2 ^ 14 = x.g.kernel.v ∧ x.b.ycount = 0) ∧
    (∃ w : XWord, ∃ (s : State) (x : Ctx), s.Issues x ∧ x.passesForm
      (opForm .scalar .scalar .scalar .unused (w.fn = 0) (w.m6 = 0 && (w.b9 = 268 || w.imm = 0) && w.nwb = 0)) w ∧
      x.b.ycount = 0 ∧ x.q.charged = false ∧ x.c.first = true) ∧
    (∃ w : TrapWord, Met (bareForm true (w.rsv = 0 && w.nwb = 0)) (plainWord w.pred w.pn 0 268 268) (fun _ _ => w.code = 0xFFF)) ∧
    (∀ n < 2, ∃ (s : State) (g : Gang) (y : Bundle) (q : Sub) (k : Nat), s.gang 0 = some g ∧ g.bundles[0]? = some y ∧
      y.firstWaiting = some (k, q) ∧ g.retired = false ∧ y.done = false ∧ y.anyHalted = false ∧ (s.die g.die).shutdown = false ∧
      s.failed = false ∧ s.bundleStopped g 0 y = false ∧ y.lastCycle + 256 ≤ (s.die g.die).cycles ∧ y.ycount = n) := by
  refine ⟨⟨⟨0, 0, 0, 268, 268, 268, 268, 0, 0, 16 * 2 ^ 14 + 64⟩, withBundle (fun b => { b with ycount := 0 }), at_ _, issues (by decide),
     by unfold Ctx.passesForm; decide, by decide, by decide, by decide, by decide⟩,
   ⟨⟨0, 0, 0, 5, 6, 7, 268, 0, 0, 0⟩, withBundle (fun b => { b with ycount := 0 }), at_ _, issues (by decide),
     by unfold Ctx.passesForm; decide, by decide, by decide, by decide⟩,
   ⟨⟨0, 0, 0, 0xFFF, 0⟩, met small (by decide) rfl⟩, fun n h => ?_⟩
  exact ⟨waitsFor (.timeline 1) n, _, _, { Sub.free with slices := [0, 1, 2, 3], wait := .timeline 1 }, 0,
    some_of gang (by revert n; decide), some_of (Bundle.start kernel 0) (by revert n; decide), by revert n; decide⟩

theorem witness_BarrierPhases :
    (∃ b : Barrier, b.ab = false ∧ b.arr + 1 < b.count) ∧ (∃ b : Barrier, b.ab = false ∧ b.count = b.arr + 1) ∧
    (∃ b : Barrier, b.ab = true) :=
  ⟨⟨Barrier.start 3, by decide⟩, ⟨Barrier.start 0, by decide⟩, ⟨{ Barrier.start 0 with ab := true }, rfl⟩⟩

theorem witness_Barriers :
    (∃ w : XWord, Met (opForm .unused .scalar .unused .unused true (barImm w)) w
      (fun x _ => x.barOk w ∧ 1 ≤ x.sn w.a9.toNat ∧ x.sn w.a9.toNat = 4095)) ∧
    (∃ w : XWord, Met (opForm .scalar .unused .unused .unused true (barImm w)) w
      (fun x s => x.barOk w ∧ s.quiet x)) ∧
    (∃ w : XWord, MetHold (opForm .scalar .unused .unused .unused true (barImm w)) w (fun x s => x.barOk w ∧ ¬ s.quiet x)) ∧
    (∃ w : XWord, Met (opForm .scalar .unused .unused .unused true (barImm w)) w (fun x _ => x.barOk w)) ∧
    (∃ w : XWord, Met (opForm .scalar .scalar .unused .unused true (barImm w)) w
      (fun x s => x.barOk w ∧ x.fresh ∧ s.acquires x ∧ (x.bar w).isComplete ((x.s w.a9.toNat).setWidth 32) = true)) ∧
    (∃ w : XWord, Met (opForm .scalar .scalar .unused .unused true (barImm w)) w
      (fun x _ => x.barOk w ∧ x.fresh ∧ (x.bar w).isComplete ((x.s w.a9.toNat).setWidth 32) = false)) ∧
    (∃ w : XWord, Met (opForm .scalar .unused .unused .unused true (barImm w)) w
      (fun x s => x.barOk w ∧ x.fresh ∧ s.quiet x ∧ (x.bar w).arrive.isComplete (x.bar w).phase = true ∧
        (State.barrierPut w (fun _ b => b.arrive) x s).acquires x)) ∧
    (∃ w : XWord, Met (opForm .scalar .unused .unused .unused true (barImm w)) w
      (fun x s => x.barOk w ∧ x.fresh ∧ s.quiet x ∧
        (x.bar w).arrive.isComplete (x.bar w).phase = false)) ∧
    (∃ w : XWord, MetRaise (opForm .unused .scalar .unused .unused true (barImm w)) w (fun x => x.g.kernel.barriers = barN w)) ∧
    (∃ w : XWord, MetHold (opForm .scalar .unused .unused .unused true (barImm w)) w (fun x s => x.barOk w ∧ x.fresh ∧ ¬ s.quiet x)) :=
  ⟨⟨⟨0, 0, 0, 268, 3, 268, 268, 0, 0, 1⟩, met (withS [(3, 4095)]) (by decide) (by unfold Ctx.barOk; decide)⟩,
   ⟨⟨0, 0, 0, 2, 268, 268, 268, 1, 0, 1⟩, met small (by decide) (by unfold Ctx.barOk State.quiet; decide)⟩,
   ⟨⟨0, 0, 0, 2, 268, 268, 268, 1, 0, 1⟩, metHold busy (by decide) (by unfold Ctx.barOk State.quiet; decide)⟩,
   ⟨⟨0, 0, 0, 2, 268, 268, 268, 6, 0, 1⟩, met small (by decide) (by unfold Ctx.barOk; decide)⟩,
   ⟨⟨0, 0, 0, 2, 3, 268, 268, 2, 0, 1⟩, met (withS [(3, 0xFFFFFFFF)]) (by decide)
      ⟨by unfold Ctx.barOk; decide, Or.inl rfl, by unfold State.acquires; decide, by decide⟩⟩,
   ⟨⟨0, 0, 0, 2, 3, 268, 268, 2, 0, 1⟩, met small (by decide) ⟨by unfold Ctx.barOk; decide, Or.inl rfl, by decide⟩⟩,
   ⟨⟨0, 0, 0, 2, 268, 268, 268, 3, 0, 1⟩, met small (by decide)
      ⟨by unfold Ctx.barOk; decide, Or.inl rfl, by unfold State.quiet; decide, by decide, by unfold State.acquires; decide⟩⟩,
   ⟨⟨0, 0, 0, 2, 268, 268, 268, 3, 0, 1⟩, met (withGang (fun g => { g with barriers := [Barrier.start 3, Barrier.start 3] })) (by decide)
      ⟨by unfold Ctx.barOk; decide, Or.inl rfl, by unfold State.quiet; decide, by decide⟩⟩,
   ⟨⟨0, 0, 0, 268, 3, 268, 268, 0, 0, 2⟩, metRaise small (by decide) (by decide)⟩,
   ⟨⟨0, 0, 0, 2, 268, 268, 268, 3, 0, 1⟩, metHold busy (by decide) ⟨by unfold Ctx.barOk; decide, Or.inl rfl, by unfold State.quiet; decide⟩⟩⟩

theorem witness_PayloadAndRemote :
    (∃ w : XWord, Met
      { opForm .pair .scalar .unused .unused (redFnOk w) (!w.imm.getLsbD 7 && w.imm.toNat < 4096 && w.nwb = 0) with result := false } w
      (fun x s => x.barOk w ∧ x.fresh ∧ s.quiet x ∧
        ((x.bar w).red = none ∨ (x.bar w).red = some (redOp w, w.m6.toNat)) ∧ ((x.bar w).payload[x.c.bundle]?).join = none ∧
        ((x.bar w).contribute (redOp w) w.m6.toNat x.c.bundle (x.s w.a9.toNat)).arrive.isComplete (x.bar w).phase = true ∧
        (State.barrierPut w (fun x b => (b.contribute (redOp w) w.m6.toNat x.c.bundle (x.s w.a9.toNat)).arrive) x s).acquires x)) ∧
    (∃ w : XWord, Met (opForm .unused .scalar .unused .unused true (barImm w)) w
      (fun x s => x.barOk w ∧ x.sn w.a9.toNat = x.g.rank ∧ s.quiet x)) ∧
    (∃ w : XWord, MetHold (opForm .unused .scalar .unused .unused true (barImm w)) w
      (fun x s => x.barOk w ∧ x.sn w.a9.toNat = x.g.rank ∧ ¬ s.quiet x)) ∧
    (∃ w : XWord, MetHold
      { opForm .pair .scalar .unused .unused (redFnOk w) (!w.imm.getLsbD 7 && w.imm.toNat < 4096 && w.nwb = 0) with result := false } w
      (fun x s => x.barOk w ∧ x.fresh ∧ ¬ s.quiet x ∧ ((x.bar w).red = none ∨ (x.bar w).red = some (redOp w, w.m6.toNat)) ∧
        ((x.bar w).payload[x.c.bundle]?).join = none)) ∧
    (∃ (w : XWord) (t : Gang), Met (opForm .unused .scalar .unused .unused true (barImm w)) w
      (fun x s => x.barOk w ∧ x.sn w.a9.toNat ≠ x.g.rank ∧ x.sn w.a9.toNat < s.ranks x.g.crew ∧ bit x.g.group x.g.rank = true ∧
        bit x.g.group (x.sn w.a9.toNat) = true ∧ s.gangOfRank x.g.crew (x.sn w.a9.toNat) = some t)) ∧
    (∃ (s : State) (r : RemoteArr) (g : Gang) (b : Barrier), s.remotes.find? (fun q => q.id == r.id) = some r ∧
      s.remoteReady r = true ∧ s.gang r.dstGid = some g ∧ g.barriers[r.barrier]? = some b) :=
  ⟨⟨⟨0, 0, 0, 4, 7, 268, 268, 5, 0, 0x801⟩, met (withS [(7, 9)]) (by decide)
      ⟨by unfold Ctx.barOk; decide, Or.inl rfl, by unfold State.quiet; decide, by decide, by decide, by decide, by unfold State.acquires; decide⟩⟩,
   ⟨⟨0, 0, 0, 268, 3, 268, 268, 4, 0, 1⟩, met small (by decide) (by unfold Ctx.barOk State.quiet; decide)⟩,
   ⟨⟨0, 0, 0, 268, 3, 268, 268, 4, 0, 1⟩, metHold busy (by decide) (by unfold Ctx.barOk State.quiet; decide)⟩,
   ⟨⟨0, 0, 0, 4, 7, 268, 268, 5, 0, 0x801⟩, metHold busy (by decide)
      ⟨by unfold Ctx.barOk; decide, Or.inl rfl, by unfold State.quiet; decide, by decide, by decide⟩⟩,
   ⟨⟨0, 0, 0, 268, 3, 268, 268, 4, 0, 1⟩, ((State.scalars duo [(3, 1)]).gangOfRank 0 1).getD gang, met (State.scalars duo [(3, 1)]) (by decide)
      ⟨by unfold Ctx.barOk; decide, by decide, by decide, by decide, by decide, some_of gang (by decide)⟩⟩,
   ⟨{ duo with remotes := [⟨5, 0, 0, 0, 1, 1⟩] }, ⟨5, 0, 0, 0, 1, 1⟩, _, _, by decide, by decide, some_of gang (by decide),
    some_of (Barrier.start 0) (by decide)⟩⟩

theorem witness_WaitsAndFences :
    (∃ w : XWord, Met (bareForm true (w.m6 = 0 && w.nwb = 0 && w.imm.toNat < 256)) w
      (fun x s => s.acquires x ∧ w.imm = 255 ∧ ∀ i < 8, w.imm.getLsbD i = true → x.b.tok.getD i 0 = 0)) ∧
    (∃ w : XWord, Met (bareForm true (w.m6 = 0 && w.nwb = 0 && w.imm.toNat < 256)) w
      (fun x s => ¬ (s.acquires x ∧ ∀ i < 8, w.imm.getLsbD i = true → x.b.tok.getD i 0 = 0))) ∧
    (∃ w : XWord, Met { bareForm true (w.m6 = 0 && w.nwb = 0 && w.imm.toNat < 4) with a := .scalar } w
      (fun x s => s.acquires x ∧ x.fresh ∧
        min (x.sn w.a9.toNat) (x.g.issued.getD w.imm.toNat 0) = x.g.tl.getD w.imm.toNat 0)) ∧
    (∃ w : XWord, Met { bareForm true (w.m6 = 0 && w.nwb = 0 && w.imm.toNat < 4) with a := .scalar } w
      (fun x s => x.fresh ∧
        ¬ (s.acquires x ∧ min (x.sn w.a9.toNat) (x.g.issued.getD w.imm.toNat 0) ≤ x.g.tl.getD w.imm.toNat 0))) ∧
    (∃ w : FenceWord, w.kind ≠ 1 ∧ Met (bareForm (w.kind.toNat ≤ 1 && w.scope != 7 && !(w.kind == 0 && w.ord == 0)) (w.rsv = 0 && w.nwb = 0))
      (plainWord w.pred w.pn 0 268 268) (fun x s => s.fencePassed x w)) ∧
    (∃ w : FenceWord, w.kind = 1 ∧ Met (bareForm (w.kind.toNat ≤ 1 && w.scope != 7 && !(w.kind == 0 && w.ord == 0)) (w.rsv = 0 && w.nwb = 0))
      (plainWord w.pred w.pn 0 268 268) (fun x s => s.fencePassed x w)) ∧
    (∃ w : FenceWord, w.kind = 1 ∧ Met (bareForm (w.kind.toNat ≤ 1 && w.scope != 7 && !(w.kind == 0 && w.ord == 0)) (w.rsv = 0 && w.nwb = 0))
      (plainWord w.pred w.pn 0 268 268) (fun x s => ¬ s.fencePassed x w)) ∧
    (∃ w : FenceWord, Met (bareForm (w.kind.toNat ≤ 1 && w.scope != 7 && !(w.kind == 0 && w.ord == 0)) (w.rsv = 0 && w.nwb = 0))
      (plainWord w.pred w.pn 0 268 268) (fun x s => ¬ s.fencePassed x w)) :=
  ⟨⟨⟨0, 0, 0, 268, 268, 268, 268, 0, 0, 255⟩, met small (by decide) (by unfold State.acquires; decide)⟩,
   ⟨⟨0, 0, 0, 268, 268, 268, 268, 0, 0, 128⟩, met (withBundle (fun b => { b with tok := [0, 0, 0, 0, 0, 0, 0, 1] })) (by decide) (by unfold State.acquires; decide)⟩,
   ⟨⟨0, 0, 0, 268, 3, 268, 268, 1, 0, 3⟩, met small (by decide) ⟨by unfold State.acquires; decide, Or.inl rfl, by decide⟩⟩,
   ⟨⟨0, 0, 0, 268, 3, 268, 268, 1, 0, 3⟩, met (State.scalars (withGang (fun g => { g with issued := [0, 0, 0, 2] })) [(3, 1)]) (by decide)
      ⟨Or.inl rfl, by unfold State.acquires; decide⟩⟩,
   ⟨⟨0, 0, 0, 3, 6, 0, 0⟩, by decide, met small (by decide) (by unfold State.fencePassed State.quiet; decide)⟩,
   ⟨⟨0, 0, 0, 3, 6, 1, 0⟩, by decide, met small (by decide) (by unfold State.fencePassed State.quiet; decide)⟩,
   ⟨⟨0, 0, 0, 0, 0, 1, 0⟩, by decide, met busy (by decide) (by unfold State.fencePassed State.quiet; decide)⟩,
   ⟨⟨0, 0, 0, 2, 0, 0, 0⟩, met busy (by decide) (by unfold State.fencePassed State.quiet; decide)⟩⟩

theorem noCrew_of {s : State} {x : Ctx} (h : ((s.accessesTo x.g.crew x.g.rank (fun _ => true)).isEmpty && (s.plannedTo x.g.crew x.g.rank).isEmpty &&
    (s.multicastsTo x.g.crew x.g.rank).isEmpty && s.memOps.all (fun o => o.gid != x.c.gid || o.space != 2) && !s.plansCrew x.g) = true) :
    s.noCrewAccess x := by
  simp only [Bool.and_eq_true, List.isEmpty_iff, Bool.not_eq_true', List.all_eq_true, Bool.or_eq_true, bne_iff_ne] at h
  exact ⟨h.1.1.1.1, h.1.1.1.2, h.1.1.2, fun o ho hg => (h.1.2 o ho).resolve_left (fun k => k hg), h.2⟩

theorem witness_SharingGroups :
    (∃ w : XWord, Met (opForm .scalar .unused .unused .unused true (w.m6 = 0 && w.nwb = 0 && w.imm = 0)) w
      (fun x s => s.quiet x ∧ x.updating = false ∧ bit x.g.group x.g.rank = false)) ∧
    (∃ w : XWord, Met (opForm .scalar .unused .unused .unused true (w.m6 = 0 && w.nwb = 0 && w.imm = 0)) w
      (fun x s => s.quiet x ∧ x.updating = false ∧ bit x.g.group x.g.rank = true)) ∧
    (∃ w : XWord, Met (opForm .scalar .unused .unused .unused true (w.m6 = 0 && w.nwb = 0 && w.imm = 0)) w
      (fun x s => s.quiet x ∧ x.updating = false ∧ bit x.g.group x.g.rank = true ∧ s.noCrewAccess x)) ∧
    (∃ w : XWord, Met (opForm .scalar .unused .unused .unused true (w.m6 = 0 && w.nwb = 0 && w.imm = 0)) w
      (fun x s => s.quiet x ∧ x.updating = false ∧ bit x.g.group x.g.rank = false)) ∧
    (∃ w : XWord, Met (opForm .scalar .unused .unused .unused true (w.m6 = 0 && w.nwb = 0 && w.imm = 0)) w (fun _ _ => True)) ∧
    (∃ w : XWord, Met (opForm .unused .scalar .scalar .unused true (w.m6 = 0 && w.nwb = 0 && w.imm = 0)) w
      (fun x s => s.quiet x ∧ x.updating = false ∧ x.sn w.a9.toNat % 128 = 0 ∧ x.sn w.b9.toNat % 128 = 0 ∧
        x.sn w.a9.toNat + x.sn w.b9.toNat = 0x40000 ∧ s.noCrewAccess x)) :=
  ⟨⟨⟨0, 0, 0, 2, 268, 268, 268, 0, 0, 0⟩, met (withGang (fun g => { g with group := 0 })) (by decide) (by unfold State.quiet; decide)⟩,
   ⟨⟨0, 0, 0, 2, 268, 268, 268, 0, 0, 0⟩, met small (by decide) (by unfold State.quiet; decide)⟩,
   ⟨⟨0, 0, 0, 2, 268, 268, 268, 1, 0, 0⟩, met small (by decide) (by unfold State.quiet; exact ⟨by decide, by decide, by decide, noCrew_of (by decide)⟩)⟩,
   ⟨⟨0, 0, 0, 2, 268, 268, 268, 1, 0, 0⟩, met (withGang (fun g => { g with group := 0 })) (by decide) (by unfold State.quiet; decide)⟩,
   ⟨⟨0, 0, 0, 2, 268, 268, 268, 2, 0, 0⟩, met small (by decide) trivial⟩,
   ⟨⟨0, 0, 0, 268, 2, 3, 268, 3, 0, 0⟩, met (withS [(2, 0x3FF80), (3, 0x80)]) (by decide)
      (by unfold State.quiet; exact ⟨by decide, by decide, by decide, by decide, by decide, noCrew_of (by decide)⟩)⟩⟩

/-! ## Witnesses: memory -/

theorem witness_ScratchpadScalar :
    (∃ w : XWord, Met (scalarMemForm 0x24 w) w (fun x s => s.scalarReady x (scalarMemInfo 0x24 w) w)) ∧
    (∃ w : XWord, Met (scalarMemForm 0x25 w) w (fun x s => s.scalarReady x (scalarMemInfo 0x25 w) w)) ∧
    (∃ w : XWord, Met (scalarMemForm 0x26 w) w (fun x s => s.scalarReady x (scalarMemInfo 0x26 w) w)) ∧
    (∃ w : XWord, MetHold (scalarMemForm 0x24 w) w (fun x s =>
      let m := scalarMemInfo 0x24 w
      m.spaceOf x.g (x.s w.b9.toNat) = 1 ∧ s.orderWait x m = none ∧ s.meetsRest x [(m, x.s w.b9.toNat, [x.scalarEa m w])] = false ∧
        s.accessFault x.g m (x.s w.b9.toNat) (x.scalarEa m w) = none ∧ s.viewPresent x.g (x.scalarEa m w).toNat m.size = false)) :=
  ⟨⟨⟨0, 0, 0, 2, 3, 268, 268, 13, 0, 0⟩, met (withS [(3, 0x3FF8)]) (by decide) (by unfold State.scalarReady; decide)⟩,
   ⟨⟨0, 0, 0, 268, 3, 268, 5, 8, 0, 0⟩, met (withS [(3, 0x3FFF)]) (by decide) (by unfold State.scalarReady; decide)⟩,
   ⟨⟨0, 0, 0, 2, 3, 268, 5, 89, 0, 0⟩, met (withS [(3, 0x3FF8)]) (by decide) (by unfold State.scalarReady; decide)⟩,
   ⟨⟨0, 0, 0, 2, 3, 268, 268, 12, 0, 0⟩, metHold { withS [(3, 0)] with absent := [padLoc 0 0 0 / 128] } (by decide) (by decide)⟩⟩

/-- The hypotheses of a statement on a pass of an access to the gang's own scratchpad (R230, R232). -/
def MetPad (i : Instr) (m : MemInfo) (w : XWord) : Prop :=
  ∃ (s : State) (x : Ctx), s.Accesses x i m ∧ m.spaceOf x.g (x.base w.b9.toNat) = 1 ∧
    s.padReady x m w (x.lanesIn x.c.plane (w.pred.toNat, w.pn == 1)) ∧ x.lanesIn x.c.plane (w.pred.toNat, w.pn == 1) ≠ []

theorem witness_ScratchpadLanes :
    (∃ w : XWord, MetPad (.lds w) (memInfo 0x6A w) w) ∧ (∃ w : XWord, MetPad (.sts w) (memInfo 0x6B w) w) ∧
    (∃ w : XWord, MetPad (.atom w) (memInfo 0x6C w) w) :=
  ⟨⟨⟨0, 0, 0, 12, 9, 3, 268, 6, 0, 0⟩, withS [(3, 0x3FF0)], at_ _, accesses_of (by decide), by decide,
      by unfold State.padReady; decide, by decide⟩,
   ⟨⟨0, 0, 0, 268, 9, 3, 15, 0, 0, 0⟩, withS [(3, 0x3FFF)], at_ _, accesses_of (by decide), by decide,
      by unfold State.padReady; decide, by decide⟩,
   ⟨⟨0, 0, 0, 4, 9, 3, 15, 0x49, 0, 0⟩, withS [(3, 0x3FFC)], at_ _, accesses_of (by decide), by decide,
      by unfold State.padReady; decide, by decide⟩⟩

theorem witness_ScratchpadMemory :
    ∃ (s : State) (g : Gang) (a : Nat) (bs : List Byte), Memory.wf s.mem = true ∧ g.inView a bs.length = true ∧
      a + bs.length = 0x4000 ∧ (g.viewBytes a bs.length).Nodup ∧ ∃ c, c ∉ g.viewBytes a bs.length :=
  ⟨mapped, gang, 0x3FFC, [1, 2, 3, 4], by decide, by decide, by decide, by decide, 0, by decide⟩

/-- The hypotheses of a statement on a pass of an access that leaves the core (R229, R232). -/
def MetOut (i : Instr) (m : MemInfo) (w : XWord) : Prop :=
  ∃ (s : State) (x : Ctx), s.Accesses x i m ∧ m.spaceOf x.g (x.base w.b9.toNat) ≠ 1 ∧
    (m.spaceOf x.g (x.base w.b9.toNat) = 2 → m.kind ≠ 1) ∧
    (x.c.first = true → ∀ r ∈ s.padRanges x.g (x.planeAccesses x.c.words),
      s.gatePresent r = true ∨ m.spaceOf x.g (x.base w.b9.toNat) = 2 ∧ r.1 ≠ x.g.gid) ∧ x.lanesIn x.c.plane (w.pred.toNat, w.pn == 1) ≠ []

/-- The hypotheses of a statement on a scalar global access (R235). -/
def MetScalarOut (op : Nat) (w : XWord) : Prop :=
  ∃ (s : State) (x : Ctx), s.Issues x ∧ x.inTime ∧ x.passesForm (scalarMemForm op w) w ∧ s.orderWait x (scalarMemInfo op w) = none ∧
    s.meetsRest x [(scalarMemInfo op w, x.s w.b9.toNat, [x.scalarEa (scalarMemInfo op w) w])] = false ∧
    s.accessFault x.g (scalarMemInfo op w) (x.s w.b9.toNat) (x.scalarEa (scalarMemInfo op w) w) = none ∧
    (scalarMemInfo op w).spaceOf x.g (x.s w.b9.toNat) = 0

/-- The mapped state with s3 at an address. -/
def mappedS (a : W64) : State := State.scalars mapped [(3, a)]

theorem witness_AccessesIssue :
    (∃ w : XWord, MetOut (.ld w) (memInfo 0x68 w) w) ∧ (∃ w : XWord, MetOut (.st w) (memInfo 0x69 w) w) ∧
    (∃ w : XWord, MetOut (.lds w) (memInfo 0x6A w) w) ∧ (∃ w : XWord, MetOut (.atom w) (memInfo 0x6C w) w) ∧
    (∃ w : XWord, MetScalarOut 0x24 w) ∧ (∃ w : XWord, MetScalarOut 0x25 w) ∧ (∃ w : XWord, MetScalarOut 0x26 w) :=
  ⟨⟨⟨0, 0, 0, 12, 9, 3, 268, 6, 0, 0⟩, mappedS 0x1FFF0, at_ _, accesses_of (by decide), by decide, by decide, by decide, by decide⟩,
   ⟨⟨0, 0, 0, 268, 9, 3, 15, 0, 0, 0⟩, mappedS 0x1FFFF, at_ _, accesses_of (by decide), by decide, by decide, by decide, by decide⟩,
   ⟨⟨0, 0, 0, 12, 9, 3, 268, 12, 0, 0⟩, State.scalars duo [(3, 1)], at_ _, accesses_of (by decide), by decide, by decide, by decide, by decide⟩,
   ⟨⟨0, 0, 0, 4, 9, 3, 15, 9, 0, 0⟩, mappedS 0x1FFFC, at_ _, accesses_of (by decide), by decide, by decide, by decide, by decide⟩,
   ⟨⟨0, 0, 0, 2, 3, 268, 268, 5, 0, 0⟩, mappedS 0x1FFF8, at_ _, issues (by decide), by unfold Ctx.inTime; decide,
      by unfold Ctx.passesForm; decide, by decide, by decide, by decide, by decide⟩,
   ⟨⟨0, 0, 0, 268, 3, 268, 5, 5, 0, 0⟩, mappedS 0x1FFF8, at_ _, issues (by decide), by unfold Ctx.inTime; decide,
      by unfold Ctx.passesForm; decide, by decide, by decide, by decide, by decide⟩,
   ⟨⟨0, 0, 0, 2, 3, 268, 5, 25, 0, 0⟩, mappedS 0x1FFF8, at_ _, issues (by decide), by unfold Ctx.inTime; decide,
      by unfold Ctx.passesForm; decide, by decide, by decide, by decide, by decide⟩⟩

/-- A TLB entry for the mapped page. -/
def mappedTlb : TlbEnt := ⟨homeAgent 0 0x1FFFC, 0, 0x10000, 0x10000, 0x100000F⟩

theorem witness_Translation :
    (∃ (s : State) (o : MemOp) (r : LaneReq) (g : Gang) (e : TlbEnt), s.Request o r g ∧ r.status = 0 ∧ vaIsXv r.va.toNat = false ∧
      (s.die (vaDie r.va.toNat)).tlbFind g.part r.va.toNat = some e ∧ bit e.leaf.toNat (o.kind + 1) = true ∧
      s.resetStops g (vaDie r.va.toNat) (entryPa e.leaf.toNat + r.va.toNat % e.size) = false) ∧
    (∃ (s : State) (o : MemOp) (r : LaneReq) (g : Gang), s.Request o r g ∧ r.status = 0 ∧ vaIsXv r.va.toNat = false ∧
      (s.die (vaDie r.va.toNat)).tlbFind g.part r.va.toNat = none) ∧
    (∃ (s : State) (o : MemOp) (r : LaneReq) (g : Gang) (p : Partition) (e base size : Nat), s.Request o r g ∧ r.status = 1 ∧
      (r.data = [] ∨ o.kind ≠ 0) ∧ s.part g.part = some p ∧ s.walk p r.va.toNat = .leaf e base size ∧ bit e (o.kind + 1) = true ∧
      s.resetStops g (vaDie r.va.toNat) (base + r.va.toNat % size) = false) ∧
    (∃ (s : State) (o : MemOp) (r : LaneReq) (g : Gang) (p : Partition), s.Request o r g ∧ r.status = 1 ∧
      s.part g.part = some p ∧ s.walk p r.va.toNat = .invalid) := by
  refine ⟨⟨{ during (access 2 0 (request 0x1FFFC 0)) with
      dies := modNth mapped.dies 0 (fun (d : Die) => { d with tlb := [mappedTlb] }) },
      _, _, gang, mappedTlb, request_of _ _ rfl rfl rfl rfl rfl, rfl, by decide, rfl, by decide, by decide⟩,
    ⟨during (access 0 0 (request 0x10000 0)), _, _, gang, request_of _ _ rfl rfl rfl rfl rfl, rfl, by decide, by decide⟩,
    ⟨during (access 1 0 (request 0x10000 1)), _, _, gang, probePartition, 0x100000F, 0x100000, 2 ^ 16,
      request_of _ _ rfl rfl rfl rfl rfl, rfl, by decide, rfl, rfl, by decide, by decide⟩,
    ⟨during (access 0 0 (request 0x20000 1)), _, _, gang, probePartition, request_of _ _ rfl rfl rfl rfl rfl, rfl, rfl, rfl⟩⟩

theorem witness_SliceAccesses :
    ∀ k < 3, ∃ (s : State) (o : MemOp) (r : LaneReq) (g : Gang), s.Request o r g ∧ s.watching = false ∧ r.status = 2 ∧
      s.mayPerform o r = true ∧ s.resetStops g (vaDie r.va.toNat) (r.loc % 2 ^ 37) = false ∧ o.kind = k ∧
      s.poisoned r.loc r.size = false ∧ s.poisonedLane o = none := by
  intro k hk
  refine ⟨during (access k 0 { request 0x1FFFC 2 with loc := 0x10FFFC, data := [1, 2, 3, 4] }), _, _, gang,
    request_of _ _ rfl rfl rfl rfl rfl, rfl, rfl, by revert k; decide, by revert k; decide, rfl, by revert k; decide, by revert k; decide⟩

/-- An access of the small gang to the scratchpad of the other gang of its crew. -/
def crewOp (k : Nat) : MemOp := access k 2 { request 0x3FFC 0 with data := [1, 2, 3, 4] }

/-- The state with that access under way. -/
def crewState (k : Nat) : State := { duo with memOps := [crewOp k] }

theorem witness_AccessReturns :
    (∃ (s : State) (o : MemOp) (g : Gang) (x : Ctx), s.memOp o.id = some o ∧ s.gang o.gid = some g ∧ s.watching = false ∧
      s.halts = [] ∧ s.ending o.gid = false ∧ s.opCtx o = some x ∧ x.q.stepping = false ∧ x.q.charged = true ∧ o.uniform = false ∧ o.kind ≠ 1 ∧
      (∀ r ∈ o.lanes, r.status = 3 ∧ s.delivered g.die r.clock = true)) ∧
    (∀ k ∈ [0, 2], ∃ (s : State) (o : MemOp) (g : Gang) (x : Ctx) (r : LaneReq), s.memOp o.id = some o ∧ s.gang o.gid = some g ∧
      s.watching = false ∧ s.halts = [] ∧ s.ending o.gid = false ∧ s.opCtx o = some x ∧ x.q.stepping = false ∧ x.q.charged = true ∧
      o.uniform = true ∧ o.kind ≠ 1 ∧ o.kind = k ∧ o.lanes = [r] ∧ r.status = 3 ∧ s.delivered g.die r.clock = true) ∧
    (∀ k < 3, ∃ (s : State) (o : MemOp) (g t : Gang) (r : LaneReq), s.memOp o.id = some o ∧ s.gang o.gid = some g ∧
      s.watching = false ∧ o.space = 2 ∧ o.held = false ∧ s.gangOfRank g.crew o.rank = some t ∧ o.lanes = [r] ∧ r.status ≠ 3 ∧
      s.crewEarlier o = false ∧ o.gate.all s.gatePresent = true ∧ o.kind = k ∧
      s.poisonedRuns (t.viewRuns r.va.toNat r.size) = false) := by
  let o : MemOp := access 0 0 { request 0x10000 3 with data := [1, 2, 3, 4] }
  let s : State := (during o).modBundle 0 0 (fun b =>
    b.modSub 0 (fun q => { q with wait := .mem 7 5, charged := true, pass := some ⟨[], b.lanes, b.s, 0⟩ }))
  let u (k : Nat) : MemOp := { o with kind := k, uniform := true }
  let v (k : Nat) : State := (during (u k)).modBundle 0 0 (fun b => b.modSub 0 (fun q => { q with wait := .mem 7 5, charged := true }))
  refine ⟨⟨s, o, (s.gang 0).getD gang, (s.opCtx o).getD (at_ small), rfl, some_of gang rfl, rfl, rfl, rfl, some_of (at_ small) rfl, rfl, rfl, rfl,
    by decide, by decide⟩, fun k hk => ⟨v k, u k, ((v k).gang 0).getD gang, ((v k).opCtx (u k)).getD (at_ small), _, rfl, some_of gang rfl, rfl, rfl,
    rfl, some_of (at_ small) rfl, rfl, rfl, rfl, by revert k; decide, rfl, rfl, rfl, rfl⟩, ?_⟩
  intro k hk
  exact ⟨crewState k, crewOp k, (duo.gang 0).getD gang, (duo.gangOfRank 0 1).getD gang, _, rfl, rfl, rfl, rfl, rfl, rfl, rfl,
    by decide, by revert k; decide, by revert k; decide, rfl, by revert k; decide⟩

/-! ## Witnesses: watch entries, Sextant, control registers and counters -/

/-- The small state with an entry of its core owned. -/
def owned (o : Option Nat) : State :=
  { withS ([(4, 0x3FFFC), (5, 4 + 1 <<< 48 + 1 <<< 51), (6, 0), (7, 1 <<< 9)]) with
    cores := small.cores.map (fun c => { c with watch := setNth c.watch 7 ⟨[0, 0, 0, 0], 0, false, o⟩ }) }

/-- A run of a program. -/
def aRun : SxRun := ⟨9, 9, 0, 0, 7, [], 0, 0, 0, List.replicate 48 0, none, none, 0, none⟩

/-- A state with a Sextant program of partition 0 on CD0 and a run of it. -/
def running (ws : List W32) : State :=
  { small with sxProgs := [⟨0, 0, 7, ws, List.replicate 16 0⟩], sxRuns := [aRun] }

/-- The 8 bytes that a run reads (R389). -/
def sxRead (s : State) (r : SxRun) (va : Nat) : Option W64 :=
  if va % 8 ≠ 0 then none else match s.readAny r.part 1 va 8 with
    | .ok b => some (BitVec.ofNat 64 (leNat b)) | .error _ => none

/-- The hypotheses of a statement on a program's run (R389, R390). -/
def MetRun (ok : SxState → Prop) : Prop :=
  ∃ (s : State) (r : SxRun) (p : SxProg) (read : Nat → Option W64) (f : SxState), s.sxRuns.find? (fun q => q.id == r.id) = some r ∧
    (∀ q ∈ s.sxRuns, q.part = r.part → q.die = r.die → q.prog = r.prog → r.id ≤ q.id) ∧ s.settled r.die = true ∧
    s.sxProgs.find? (fun q => q.part == r.part && q.die == r.die && q.n == r.prog) = some p ∧
    (∀ va, read va = if va % 8 ≠ 0 then none else match s.readAny r.part 1 va 8 with
      | .ok b => some (BitVec.ofNat 64 (leNat b)) | .error _ => none) ∧
    f = sxRun read r.event p.words 0 ⟨List.replicate 8 0, p.cells, none⟩ ∧ ok f

theorem metRun {ok : SxState → Prop} (ws : List W32)
    (h : ok (sxRun (sxRead (running ws) aRun) aRun.event ws 0 ⟨List.replicate 8 0, List.replicate 16 0, none⟩)) : MetRun ok := by
  refine ⟨running ws, aRun, ⟨0, 0, 7, ws, List.replicate 16 0⟩, sxRead (running ws) aRun, _, rfl, ?_, rfl, rfl, fun va => rfl, rfl, h⟩
  intro q hq
  simp only [running, List.mem_cons, List.mem_nil_iff, or_false] at hq
  subst hq
  exact fun _ _ _ => le_refl _

theorem witness_WatchAndSextant :
    (∃ w : XWord, Met (opForm .scalar .quad .unused .unused true (w.imm.toNat / 16 = 0 && w.m6 = 0 && w.nwb = 0)) w (fun x s =>
      w.imm.toNat % 16 < 8 ∧ ((s.watchEntry x.g (w.imm.toNat % 16)).owner = none ∨
        (s.watchEntry x.g (w.imm.toNat % 16)).owner = some x.c.gid) ∧ entryBad (entryNat (x.quad w.a9.toNat)) (some x.g.kernel) = none)) ∧
    (∃ (w : XWord) (o : Nat), Met (opForm .scalar .quad .unused .unused true (w.imm.toNat / 16 = 0 && w.m6 = 0 && w.nwb = 0)) w (fun x s =>
      w.imm.toNat % 16 < 8 ∧ (s.watchEntry x.g (w.imm.toNat % 16)).owner = some o ∧ o ≠ x.c.gid)) ∧
    (∃ w : XWord, Met (opForm .unused .unused .unused .unused true (w.imm.toNat / 2 ^ 16 = 0 && w.m6 = 0 && w.nwb = 0)) w
      (fun _ _ => w.imm.toNat / 2 ^ 8 % 2 ^ 8 = 0)) ∧
    (∃ w : XWord, Met (opForm .quad .unused .unused .unused true (w.imm.toNat / 16 = 0 && w.m6 = 0 && w.nwb = 0)) w (fun _ _ => True)) ∧
    (∃ w : XWord, Met (opForm .unused .scalar .scalar .unused true (w.imm = 0 && w.m6 = 0 && w.nwb = 0)) w (fun x s =>
      x.sn w.a9.toNat < 256 ∧ x.sn w.b9.toNat < 256 ∧ s.watchPending x.c.gid x.c.bundle = false)) ∧
    (∃ (s : State) (g : Gang), (s.watchEntry g 7).owner = none) ∧
    (∃ (s : State) (g : Gang), (s.watchEntry g 7).owner = some 5 ∧ 5 ≠ g.gid) ∧
    (∀ e ∈ [8, 15], ∃ (part die : Nat) (ws : List W64), MetMessage 1 (fun s =>
      (s.part part).isSome = true ∧ die < 8 ∧ 8 ≤ e ∧ e < 16 ∧ ws.length = 4 ∧ entryBad (entryNat ws) none = none)) ∧
    (∃ (part die n : Nat) (ws : List W32), MetMessage 1 (fun s => (s.part part).isSome = true ∧ die < 8 ∧ n < 8 ∧ 1 ≤ ws.length ∧
      ws.length ≤ 32 ∧ ∀ k < ws.length, sxWordBad ws.length k (ws.getD k 0) = false)) ∧
    MetRun (fun f => f.action = none) ∧ MetRun (fun f => f.action = some 0) ∧ MetRun (fun f => f.action = some 1) ∧
    MetRun (fun f => f.action = some 3) ∧
    (∀ n ∈ [0, 1, 2, 3, 13, 14], ∃ (w : W32) (x : SxState), x.g.length = 8 ∧ w.toNat % 16 = n) := by
  refine ⟨⟨⟨0, 0, 0, 2, 4, 268, 268, 0, 0, 7⟩, met (owned (some 0)) (by decide) (by decide)⟩,
    ⟨⟨0, 0, 0, 2, 4, 268, 268, 0, 0, 7⟩, 5, met (owned (some 5)) (by decide) (by decide)⟩,
    ⟨⟨0, 0, 0, 268, 268, 268, 268, 1, 0, 0xFF⟩, met small (by decide) (by decide)⟩,
    ⟨⟨0, 0, 0, 4, 268, 268, 268, 2, 0, 15⟩, met small (by decide) trivial⟩,
    ⟨⟨0, 0, 0, 268, 3, 4, 268, 3, 0, 0⟩, met (withS [(3, 255), (4, 255)]) (by decide) (by decide)⟩,
    ⟨small, gang, by decide⟩, ⟨owned (some 5), gang, by decide⟩, ?_,
    ⟨0, 7, 7, List.replicate 32 0x900E, small, by decide, by decide, by decide⟩,
    metRun [2] (by decide),
    metRun [0x000E] (by decide),
    metRun [0x200E] (by decide),
    metRun [0x600E] (by decide),
    fun n hn => ⟨BitVec.ofNat 32 n, ⟨List.replicate 8 0, [], none⟩, rfl, by revert n; decide⟩⟩
  · intro e he
    exact ⟨0, 7, [0x3FFFC, 4 + 1 <<< 48 + 1 <<< 51, 0, 1 <<< 9], small, by decide, by decide, by revert e; decide⟩

/-- The hypotheses of a statement on a write of a control register (R372). -/
def MetCsr (w : XWord) (ok : Ctx → Prop) : Prop :=
  Met (opForm .unused .named .unused .unused (w.imm.toNat < 8) (w.m6 = 0 && w.nwb = 0)) w (fun x s => s.csrReady x ∧ ok x)

/-- The small state with its counters assigned to a partition and, maybe, a sampling ring. -/
def measured (o : Option Nat) (ring : Option (W64 × Nat)) : State :=
  { small with
    dies := modNth small.dies 0 (fun (d : Die) => { d with ctrOwner := List.replicate 16 o })
    parts := setNth small.parts 0 (some { probePartition with sampRings := List.replicate 8 ring }) }

/-- That state with a sampling gang. -/
def sampled : State := (measured none (some (0x10000, 1024))).modGang 0 (fun g => { g with sampling := some ⟨1024, 0, 5⟩ })

/-- A state whose sub-bundle has issued the instruction that it waits in. -/
def begun (s : State) : State := s.modBundle 0 0 (fun b => b.modSub 0 (fun q => { q with wait := .retry 26, charged := true }))

/-- A state in which a counter of CD0 has just been given to a partition. -/
def moving (n : Nat) : State :=
  { small with dies := modNth small.dies 0 (fun (d : Die) => { d with ctrMoved := setNth d.ctrMoved n (some d.cycles) }) }

theorem witness_RegistersAndCounters :
    (∃ w : XWord, Met (opForm .named .unused .unused .unused (w.imm.toNat < 8) (w.m6 = 0 && w.nwb = 0)) w (fun x s => s.csrReady x)) ∧
    (∃ w : XWord, MetHold (opForm .named .unused .unused .unused (w.imm.toNat < 8) (w.m6 = 0 && w.nwb = 0)) w (fun x s =>
      s.isPrivileged x.g.part = true ∧ ¬ s.quiet x)) ∧
    (∃ w, MetCsr w (fun x => x.q.charged = false)) ∧
    (∃ w : XWord, Met (opForm .unused .named .unused .unused (w.imm.toNat < 8) (w.m6 = 0 && w.nwb = 0)) w (fun x s =>
      s.isPrivileged x.g.part = true ∧ x.q.charged = true)) ∧ (∀ v ∈ [0, 1], ∃ w, MetCsr w (fun x => x.sn w.a9.toNat = v ∧ x.sn w.a9.toNat ≤ 1)) ∧
    (∀ n ∈ [0, 4, 5, 6], ∃ (w : XWord) (s : State) (x : Ctx), s.Issues x ∧ s.isPrivileged x.g.part = true ∧
      x.passesForm (opForm .unused .named .unused .unused (w.imm.toNat < 8) (w.m6 = 0 && w.nwb = 0)) w ∧ w.imm.toNat = n) ∧
    (∃ (w : XWord) (s : State) (x : Ctx), s.Issues x ∧ s.isPrivileged x.g.part = true ∧
      x.passesForm (opForm .unused .named .unused .unused (w.imm.toNat < 8) (w.m6 = 0 && w.nwb = 0)) w ∧ x.sn w.a9.toNat = 2) ∧
    (∃ (s : State) (x : Ctx), s.Issues x ∧ s.isPrivileged x.g.part = false) ∧
    (∃ w : XWord, Met (opForm .scalar .unused .unused .unused true (w.m6 = 0 && w.nwb = 0 && w.imm.toNat < 16)) w (fun _ _ => True)) ∧
    (∃ w : XWord, Met (opForm .scalar .scalar .unused .unused true (w.m6 = 0 && w.nwb = 0 && w.imm.toNat < 16)) w (fun x s =>
      (s.die x.g.die).ctrOwner.getD w.imm.toNat none ≠ some x.g.part ∧ s.counterMoving x.g.die w.imm.toNat = false)) ∧
    (∃ w : XWord, MetHold (opForm .scalar .scalar .unused .unused true (w.m6 = 0 && w.nwb = 0 && w.imm.toNat < 16)) w (fun x s =>
      s.counterMoving x.g.die w.imm.toNat = true)) ∧
    (∃ w : XWord, Met (opForm .scalar .scalar .unused .unused true (w.m6 = 0 && w.nwb = 0 && w.imm.toNat < 16)) w (fun x s =>
      s.counterMoving x.g.die w.imm.toNat = false ∧
      (s.die x.g.die).ctrOwner.getD w.imm.toNat none = some x.g.part ∧ selectorBad (x.sn w.a9.toNat) = false ∧
      (s.core x.g.die x.g.core).counters.length = 16 ∧ (x.s w.a9.toNat).getLsbD 11 = true ∧ (x.s w.a9.toNat).getLsbD 12 = false)) ∧
    (∃ w : XWord, Met (opForm .scalar .scalar .unused .unused true (w.m6 = 0 && w.nwb = 0 && w.imm.toNat < 16)) w (fun x s =>
      s.counterMoving x.g.die w.imm.toNat = false ∧
      (s.die x.g.die).ctrOwner.getD w.imm.toNat none = some x.g.part ∧ selectorBad (x.sn w.a9.toNat) = true)) ∧
    (∃ w : XWord, Met (opForm .scalar .scalar .unused .unused true (w.m6 = 0 && w.nwb = 0 && w.imm = 0)) w (fun x s =>
      x.sn w.a9.toNat ≠ 0 ∧ s.sampRing x.g.part x.g.die = none)) ∧
    (∀ n ∈ [512, 2 ^ 25, 1025], ∃ w : XWord, Met (opForm .scalar .scalar .unused .unused true (w.m6 = 0 && w.nwb = 0 && w.imm = 0)) w (fun x s =>
      x.sn w.a9.toNat = n ∧ x.sn w.a9.toNat ≠ 0 ∧ (s.sampRing x.g.part x.g.die).isSome = true ∧
        ∀ k, 10 ≤ k → k ≤ 24 → x.sn w.a9.toNat ≠ 2 ^ k)) ∧
    (∀ n ∈ [10, 24], ∀ c : Bool, ∃ w : XWord, Met (opForm .scalar .scalar .unused .unused true (w.m6 = 0 && w.nwb = 0 && w.imm = 0)) w (fun x s =>
      x.q.charged = c ∧ (s.sampRing x.g.part x.g.die).isSome = true ∧ x.sn w.a9.toNat = 2 ^ n)) ∧
    (∃ w : XWord, Met (opForm .scalar .scalar .unused .unused true (w.m6 = 0 && w.nwb = 0 && w.imm = 0)) w (fun x _ => x.sn w.a9.toNat = 0)) ∧
    (∃ (part die : Nat) (s : State), s.linkUp = true ∧ 8 ≤ s.phase ∧ (s.part part).isSome = true ∧ die < 8 ∧ s.dies.length = 8) ∧
    (∃ (part die n k : Nat) (va : W64), MetMessage 1 (fun s => (s.part part).isSome = true ∧ die < 8 ∧ va.toNat % 2 ^ 16 = 0 ∧ 10 ≤ k ∧ k ≤ 20 ∧
      n = 2 ^ k)) ∧
    (∃ (s : State) (gid : Nat) (g : Gang) (m : Sampling) (ring : W64 × Nat) (p : SubAt), s.gang gid = some g ∧
      g.sampling = some m ∧ s.sampRing g.part g.die = some ring ∧ m.next ≤ (s.die g.die).cycles ∧ g.allSubs ≠ [] ∧
      g.allSubs[m.rotation % g.allSubs.length]? = some p) := by
  refine ⟨⟨⟨0, 0, 0, 2, 268, 268, 268, 0, 0, 7⟩, met (debug id) (by decide) (by unfold State.csrReady; decide)⟩,
    ⟨⟨0, 0, 0, 2, 268, 268, 268, 0, 0, 7⟩, metHold { debug id with memOps := [access 1 0 (request 0x10100 0)] } (by decide)
      (by unfold State.quiet; decide)⟩,
    ⟨⟨0, 0, 0, 268, 3, 268, 268, 1, 0, 1⟩, met (debug id) (by decide) (by unfold State.csrReady; decide)⟩,
    ⟨⟨0, 0, 0, 268, 3, 268, 268, 1, 0, 1⟩, met (begun (debug id)) (by decide) (by decide)⟩, ?_, ?_,
    ⟨⟨0, 0, 0, 268, 3, 268, 268, 1, 0, 7⟩, debugS id [(3, 2)], at_ (debugS id [(3, 2)]), issues (by decide), by decide,
      by unfold Ctx.passesForm; decide, by decide⟩,
    ⟨small, at_ small, issues (by decide), by decide⟩,
    ⟨⟨0, 0, 0, 2, 268, 268, 268, 0, 0, 15⟩, met (measured (some 0) none) (by decide) trivial⟩,
    ⟨⟨0, 0, 0, 2, 3, 268, 268, 1, 0, 15⟩, met (measured (some 1) none) (by decide) (by decide)⟩,
    ⟨⟨0, 0, 0, 2, 3, 268, 268, 1, 0, 15⟩, metHold (moving 15) (by decide)
      (decide_eq_true (show (0 : Nat) ≤ 0 + Config.assignDelay 0 from Nat.zero_le _))⟩,
    ⟨⟨0, 0, 0, 2, 3, 268, 268, 1, 0, 15⟩, met (State.scalars (measured (some 0) none) [(3, 0x80A)]) (by decide) (by decide)⟩,
    ⟨⟨0, 0, 0, 2, 3, 268, 268, 1, 0, 15⟩, met (State.scalars (measured (some 0) none) [(3, 0x7FF)]) (by decide) (by decide)⟩,
    ⟨⟨0, 0, 0, 2, 3, 268, 268, 2, 0, 0⟩, met (State.scalars (measured none none) [(3, 1024)]) (by decide) (by decide)⟩, ?_, ?_,
    ⟨⟨0, 0, 0, 2, 3, 268, 268, 2, 0, 0⟩, met small (by decide) (by decide)⟩,
    ⟨0, 7, small, by decide, by decide, by decide, by decide, by decide⟩,
    ⟨0, 7, 2 ^ 20, 20, 0xFFFF0000, small, by decide, by decide, by decide⟩,
    ⟨sampled, 0, (sampled.gang 0).getD gang, ⟨1024, 0, 5⟩, (0x10000, 1024), (((sampled.gang 0).getD gang).allSubs[0]?).getD (0, 0, Bundle.start kernel 0, Sub.free),
      some_of _ (by decide), by decide, by decide, by decide, by decide, some_of _ (by decide)⟩⟩
  · intro v hv
    exact ⟨⟨0, 0, 0, 268, 3, 268, 268, 1, 0, 7⟩, met (debugS id [(3, BitVec.ofNat 64 v)]) (by revert v; decide) ⟨by unfold State.csrReady; revert v; decide, by revert v; decide⟩⟩
  · intro n hn
    exact ⟨⟨0, 0, 0, 268, 3, 268, 268, 1, 0, BitVec.ofNat 32 n⟩, debug id, at_ (debug id), issues (by decide), by decide, by unfold Ctx.passesForm; revert n; decide, by revert n; decide⟩
  · intro n hn
    refine ⟨⟨0, 0, 0, 2, 3, 268, 268, 2, 0, 0⟩, met (State.scalars (measured none (some (0x10000, 1024))) [(3, BitVec.ofNat 64 n)])
      (by revert n; decide) ⟨by revert n; decide, by revert n; decide, by revert n; decide, fun k h1 h2 => ?_⟩⟩
    have h : ∀ n ∈ [512, 2 ^ 25, 1025], ∀ k ≤ 24, 10 ≤ k →
      (at_ (State.scalars (measured none (some (0x10000, 1024))) [(3, BitVec.ofNat 64 n)])).sn 3 ≠ 2 ^ k := by decide
    exact h n hn k h2 h1
  · intro n hn c
    exact ⟨⟨0, 0, 0, 2, 3, 268, 268, 2, 0, 0⟩, met (State.modBundle (State.scalars (measured none (some (0x10000, 1024))) [(3, BitVec.ofNat 64 (2 ^ n))])
      0 0 (fun b => b.modSub 0 (fun q => { q with charged := c }))) (by revert n c; decide) (by revert n c; decide)⟩

/-- An invalidation in progress with so many acknowledgements (R142). -/
def invalReq (acks : List (Nat × Nat)) : InvalReq := ⟨9, 3, 0, 0, 0x10000, 0x10000, acks⟩

theorem witness_ControlNodeMemory :
    (∃ (a : MemSpan) (bs : List Byte), MetMessage 1 (fun s => s.spanBad a = false ∧ a.sel = 0 ∧ s.spanRead a.unit a.addr.toNat a.len = .ok bs)) ∧
    (∃ a : MemSpan, MetMessage 1 (fun s => s.spanBad a = false ∧ a.sel = 1 ∧ a.addr.toNat + a.len ≤ 2 ^ 37)) ∧
    (∃ a : MemSpan, MetMessage 1 (fun s => s.spanBad a = true)) ∧
    (∃ (a : MemSpan) (bs : List Byte) (rs : List (Nat × Nat)), MetMessage ((14 + bs.length + 255) / 256) (fun s => s.spanBad a = false ∧ a.sel = 0 ∧
      bs.length = a.len ∧ vaIsXv a.addr.toNat = false ∧ a.addr.toNat % 2 ^ 53 + a.len ≤ 2 ^ 53 ∧ s.runs a.unit 1 a.addr.toNat a.len = some rs)) ∧
    (∃ (a : MemSpan) (bs : List Byte), MetMessage ((14 + bs.length + 255) / 256) (fun s => s.spanBad a = false ∧ a.sel = 1 ∧ bs.length = a.len ∧
      a.addr.toNat + a.len ≤ 2 ^ 37)) ∧
    (∃ (s : State) (die a : Nat) (bs : List Byte), Memory.wf s.mem = true ∧ die = 0 ∧ a = 0 ∧ bs ≠ []) ∧
    (∃ (a : MemSpan) (bs : List Byte), MetMessage ((14 + bs.length + 255) / 256) (fun s => s.spanBad a = true ∨ bs.length ≠ a.len)) ∧
    (∃ (part n : Nat) (va : W64) (s : State), s.linkUp = true ∧ 8 ≤ s.phase ∧ va.toNat % 2 ^ 16 = 0 ∧ 1 ≤ n ∧
      (s.part part).isSome = true ∧ vaLegal va.toNat = true ∧ (va.toNat + n * 2 ^ 16 - 1) / 2 ^ 54 = va.toNat / 2 ^ 54 ∧
      s.pinned part (vaDie va.toNat) va.toNat (n * 2 ^ 16) = false) ∧
    (∀ n ∈ [0, 3071], ∃ (s : State) (die core : Nat) (q : InvalReq), s.invals.find? (fun y => y.id == q.id) = some q ∧ die < 8 ∧ core < 384 ∧
      (die, core) ∉ q.acks ∧ s.drained q = true ∧ q.acks.length = n) ∧
    (∃ (s : State) (die src : Nat) (b : InvalBatch), s.batches.find? (fun y => y.dst == die && y.src == src) = some b ∧ die < s.dies.length ∧
      (∃ core, b.spare ≠ some (die, core)) ∧ ∀ o ∈ s.memOps, o.kind ≠ 1) := by
  refine ⟨?_, ⟨⟨1, 7, 0x1FFFFF0000, 65536⟩, small, by decide, by decide, by decide⟩, ⟨⟨0, 0, 0, 65537⟩, small, by decide, by decide, by decide⟩,
    ⟨⟨0, 0, 0x1FFFE, 2⟩, [1, 2], [(0x10FFFE, 2)], mapped, by decide, by decide, by decide, by decide, by decide, by decide, by decide, by decide⟩,
    ⟨⟨1, 7, 0x1FFFFFFFFF, 1⟩, [5], small, by decide, by decide, by decide⟩, ⟨mapped, 0, 0, [1], by decide, rfl, rfl, by simp⟩,
    ⟨⟨1, 7, 0, 1⟩, [5, 6], small, by decide, by decide, by decide⟩,
    ⟨0, 1, 0x30000, mapped, by decide, by decide, by decide, by decide, by decide, by decide, by decide, by decide⟩, ?_,
    ⟨{ small with batches := [⟨6, 7, 1, [3], some (7, 0), List.replicate 8 0⟩] }, 7, 6, ⟨6, 7, 1, [3], some (7, 0), List.replicate 8 0⟩, by decide, by decide,
     ⟨1, by decide⟩, nofun⟩⟩
  · obtain ⟨bs, h⟩ := ok_of (r := (mapped.received 1).spanRead 0 0x1FFFF 1) (by decide)
    exact ⟨⟨0, 0, 0x1FFFF, 1⟩, bs, mapped, by decide, by decide, by decide, rfl, h⟩
  · intro n _
    refine ⟨{ small with invals := [invalReq (List.replicate n (0, 0))] }, 7, 383, invalReq (List.replicate n (0, 0)), by simp, by decide,
      by decide, ?_, rfl, by simp [invalReq]⟩
    simp only [invalReq]
    intro h
    exact absurd (List.eq_of_mem_replicate h) (by decide)

/-- The mapped state with a crew of a small kernel whose save area (R357) at 0x12000 has slots of so many pages. -/
def saving (ss va : Nat) (f : Crew → Crew) : State :=
  let s := mapped.putBytes 0x102000 (leBytes 8 (1 + ss <<< 32))
  { (s.modGang 0 (fun g => { g with kernel := { kernel with accRows := 0, scratch := 0 }, bundles := g.bundles.map (fun b =>
      { b with subs := b.subs.map (fun q => { q with stopped := true }) }) })) with
    crews := [f probeCrew], dies := modNth mapped.dies 0 (fun (d : Die) => { d with store := [{ probeRecord with packet := packet 1 [(320, va)] }] }) }

/-- The record of that crew. -/
def savedRec (va : Nat) : Record := { probeRecord with packet := packet 1 [(320, va)] }

/-- A crew that is to stop, one to be dumped and one dumped. -/
def stopping (why : Nat) : Crew := { probeCrew with stop := some why }
def dumping : Crew := { probeCrew with dump := some 7 }
def dumped : Crew := { probeCrew with dumpSlot := some 0 }

theorem slot_of {o : Option (Option (Nat × State))} (h : (o.map (fun r => r.isSome)) = some true) : ∃ k t, o = some (some (k, t)) := by
  obtain _ | _ | ⟨k, t⟩ := o
  · cases h
  · cases h
  · exact ⟨k, t, rfl⟩

theorem full_of {o : Option (Option (Nat × State))} (h : (o.map (fun r => r.isSome)) = some false) : o = some none := by
  obtain _ | _ | ⟨k, t⟩ := o
  · cases h
  · rfl
  · cases h

theorem witness_StopsAndDumps :
    (∃ (s : State) (part die : Nat) (p : Partition), s.linkUp = true ∧ 8 ≤ s.phase ∧ s.part part = some p ∧ die < 8 ∧ (s.crews.map (·.cid)).Nodup) ∧
    (∃ part die : Nat, MetMessage 1 (fun s => (s.part part).isSome = true ∧ die < 8)) ∧
    (∃ (s s1 : State) (c : Crew) (r : Record) (why k : Nat), s.crew c.cid = some c ∧ c.stop = some why ∧
      s.record c.die c.arrival = some r ∧ s.mayStop c = true ∧ c.die < s.dies.length ∧
      s.allocSlot c.die c.part (pkSave r.packet) (s.crewBlocks c why 0 (fun _ => [])).2 = some (some (k, s1))) ∧
    (∀ why < 2, ∃ (s : State) (c : Crew) (r : Record), s.crew c.cid = some c ∧ s.record c.die c.arrival = some r ∧ s.mayStop c = true ∧
      c.stop = some why ∧ s.allocSlot c.die c.part (pkSave r.packet) (s.crewBlocks c why 0 (fun _ => [])).2 = some none) ∧
    (∃ (s : State) (c : Crew) (r : Record) (why : Nat), s.crew c.cid = some c ∧ s.record c.die c.arrival = some r ∧ s.mayStop c = true ∧
      c.stop = some why ∧ s.allocSlot c.die c.part (pkSave r.packet) (s.crewBlocks c why 0 (fun _ => [])).2 = none) ∧
    (∃ (part die idx : Nat) (lid : W64) (c : Crew), MetMessage 1 (fun s =>
      s.crews.find? (fun c => c.part == part && c.die == die && c.index == idx && s.lidOf c.cid == lid) = some c ∧
      c.dump = none ∧ c.dumpSlot = none)) ∧
    (∃ (part die idx : Nat) (lid : W64), MetMessage 1 (fun s =>
      ∀ c ∈ s.crews, ¬ (c.part = part ∧ c.die = die ∧ c.index = idx ∧ s.lidOf c.cid = lid))) ∧
    (∃ (s s1 : State) (c : Crew) (r : Record) (m : MsgId) (k : Nat), s.crew c.cid = some c ∧ c.dump = some m ∧
      s.record c.die c.arrival = some r ∧ s.mayDump c = true ∧
      s.allocSlot c.die c.part (pkSave r.packet) (s.crewBlocks c 2 0 (fun g => s.pendList g.gid)).2 = some (some (k, s1))) ∧
    (∃ (s : State) (c : Crew) (r : Record) (m : MsgId), s.crew c.cid = some c ∧ c.dump = some m ∧
      s.record c.die c.arrival = some r ∧ s.mayDump c = true ∧
      s.allocSlot c.die c.part (pkSave r.packet) (s.crewBlocks c 2 0 (fun g => s.pendList g.gid)).2 = some none) ∧
    (∃ (c : Crew) (r : Record) (k : Nat), MetMessage 1 (fun s => s.crew c.cid = some c ∧ c.dumpSlot = some k ∧ s.record c.die c.arrival = some r)) := by
  refine ⟨⟨duo, 0, 7, partOf duo, by decide, by decide, some_of _ (by decide), by decide, by decide⟩, ⟨0, 7, small, by decide, by decide, by decide⟩,
    ?_, ?_, ?_, ⟨0, 0, 0, 0, probeCrew, small, by decide, by decide, by decide⟩, ⟨0, 0, 1, 0, small, by decide, by decide, by decide⟩, ?_, ?_,
    ⟨dumped, savedRec 0x11000, 0, saving 9 0x11000 (fun _ => dumped), by decide, by decide, by decide⟩⟩
  · obtain ⟨k, t, h⟩ := slot_of (o := (saving 9 0x11000 (fun _ => stopping 1)).allocSlot (stopping 1).die (stopping 1).part (pkSave (savedRec 0x11000).packet)
      ((saving 9 0x11000 (fun _ => stopping 1)).crewBlocks (stopping 1) 1 0 (fun _ => [])).2) (by decide)
    exact ⟨saving 9 0x11000 (fun _ => stopping 1), t, stopping 1, savedRec 0x11000, 1, k, by decide, rfl, by decide, by decide, by decide, h⟩
  · intro why hw
    exact ⟨saving 8 0x11000 (fun _ => stopping why), stopping why, savedRec 0x11000, by revert why; decide, by revert why; decide,
      by revert why; decide, rfl, full_of (by revert why; decide)⟩
  · have h : ((saving 9 0x1F000 (fun _ => stopping 0)).allocSlot (stopping 0).die (stopping 0).part (pkSave (savedRec 0x1F000).packet)
      ((saving 9 0x1F000 (fun _ => stopping 0)).crewBlocks (stopping 0) 0 0 (fun _ => [])).2).isNone = true := by decide
    exact ⟨saving 9 0x1F000 (fun _ => stopping 0), stopping 0, savedRec 0x1F000, 0, by decide, by decide, by decide, rfl, Option.isNone_iff_eq_none.1 h⟩
  · obtain ⟨k, t, h⟩ := slot_of (o := (saving 9 0x11000 (fun _ => dumping)).allocSlot dumping.die dumping.part (pkSave (savedRec 0x11000).packet)
      ((saving 9 0x11000 (fun _ => dumping)).crewBlocks dumping 2 0 (fun g => (saving 9 0x11000 (fun _ => dumping)).pendList g.gid)).2) (by decide)
    exact ⟨saving 9 0x11000 (fun _ => dumping), t, dumping, savedRec 0x11000, 7, k, by decide, rfl, by decide, by decide, h⟩
  · exact ⟨saving 8 0x11000 (fun _ => dumping), dumping, savedRec 0x11000, 7, by decide, rfl, by decide, by decide, full_of (by decide)⟩

/-! ## Witnesses: faults, encodings and steps -/

/-- The small state with a partition in a debug session whose every class halts the gang (R366). -/
def halting : State :=
  { small with parts := setNth small.parts 0 (some { probePartition with session := true, faultact := List.replicate 8 0x2AAAAAAAAA }) }

/-- A fault with every field at the end of its range. -/
def widest (cls : Nat) : FaultInfo :=
  { cls := cls, sub := 255, addr := 2 ^ 64 - 1, opnum := 2 ^ 64 - 1, handle := 4095, trow := 65535, tcol := 65535, bitoff := 2 ^ 48 - 1,
    progress := 2 ^ 32 - 1, engine := 7, plane := some 3, lane := some 63, offset := some (2 ^ 32 - 1) }

theorem witness_FaultEntry :
    (∀ d < 3, ∃ (s : State) (w : FaultAt) (f : FaultInfo) (g : Gang) (p : Partition), s.gang w.gid = some g ∧ s.part g.part = some p ∧
      f.cls < 256 ∧ f.sub < 256 ∧ w.bundle < 32 ∧ g.rank < 64 ∧ g.die < 8 ∧ g.core < 512 ∧ g.part < 16 ∧ f.opnum < 2 ^ 64 ∧
      f.handle < 2 ^ 12 ∧ f.trow < 2 ^ 16 ∧ f.tcol < 2 ^ 16 ∧ f.bitoff < 2 ^ 48 ∧ f.progress < 2 ^ 32 ∧ f.engine < 8 ∧
      f.plane.getD w.plane < 4 ∧ f.lane.getD 0 < 64 ∧ f.offset.getD w.offset < 2 ^ 32 ∧ disposition p g.die f.cls = d) ∧
    (∃ p : Partition, p.session = false) ∧ (∀ c ∈ [1, 3, 5, 0x13], ∃ f : FaultInfo, 1 ≤ f.cls ∧ f.cls ≤ 0x13 ∧ f.cls ≠ 4 ∧ f.cls ≠ 0x0D ∧ f.cls = c) := by
  refine ⟨?_, ⟨probePartition, rfl⟩, fun c h => ⟨widest c, by revert c; decide, by revert c; decide, by revert c; decide, by revert c; decide, rfl⟩⟩
  intro d hd
  match d, hd with
  | 0, _ => exact ⟨small, ⟨0, 0, 0, 0⟩, widest 0x13, (small.gang 0).getD gang, partOf small, some_of _ (by decide), some_of _ (by decide), by decide⟩
  | 1, _ => exact ⟨small, ⟨0, 0, 0, 0⟩, widest 4, (small.gang 0).getD gang, partOf small, some_of _ (by decide), some_of _ (by decide), by decide⟩
  | 2, _ => exact ⟨halting, ⟨0, 0, 0, 0⟩, widest 1, (halting.gang 0).getD gang, partOf halting, some_of _ (by decide), some_of _ (by decide), by decide⟩

theorem witness_DecodeEncode :
    (∃ (ws rest : List W32) (i : Instr), decodeWords ws = .ok (i, rest)) ∧
    ∃ (ws rest : List W32) (i : Instr), wellFormed i = true ∧ encode i ≠ [] ∧ ws = encode i ++ rest :=
  ⟨⟨[0x24, 0], [0], .exit, rfl⟩, ⟨_, [0], .vaddSForm ⟨7, 1, 1, 63, 63, 63⟩, by decide, by decide, rfl⟩⟩

/-- A word placed where the next step fetches it, with the turn taken off the inputs, and the sub-bundle whose turn it is. -/
def placed (nbits w : Nat) : State := State.reset.withFetchWord nbits w
def turned (nbits w : Nat) : State := { placed nbits w with inputs := [] }
def placedCtx (nbits w : Nat) : Ctx := ({ turned nbits w with cur := some ⟨0, 0, 0, 0, [], true, [], [], []⟩ }.ctx).getD (at_ small)

/-- What such a step decodes. -/
def placedInstr (nbits w : Nat) : Instr × Nat :=
  match decodeBytes ((turned nbits w).bytesFor (placedCtx nbits w) (placedCtx nbits w).lowPlane) with
  | .ok r => r
  | .error _ => (.nop, 0)

/-- The state has an instruction to fetch. -/
def fetching : State := withBundle (fun b => b.modSub 0 (fun q => { q with wait := .fetch }))

theorem placed_issues {nbits w : Nat} (h : ({ turned nbits w with cur := some ⟨0, 0, 0, 0, [], true, [], [], []⟩ }.ctx).isSome = true)
    (k : (placedCtx nbits w).q.issuable = true ∧ (((turned nbits w).die (placedCtx nbits w).g.die).shutdown = false ∧ (turned nbits w).failed = false) ∧
      (placedCtx nbits w).g.retired = false ∧ (turned nbits w).stopPending (placedCtx nbits w).g = false ∧
      (turned nbits w).barred (placedCtx nbits w) = false ∧ (placedCtx nbits w).b.damaged = none ∧ (placedCtx nbits w).q.pass = none)
    (f : ((placedCtx nbits w).b.planesOf (placedCtx nbits w).q).all (fun p =>
      ((turned nbits w).codeRefused (placedCtx nbits w).g p (placedCtx nbits w).offset).isNone) = true)
    (t : (turned nbits w).chosen 0 0 0 = true) : (turned nbits w).MayIssue 0 0 0 (placedCtx nbits w) :=
  ⟨some_of _ h, k.1, k.2.1, k.2.2.1, fun e => absurd (k.2.2.2.1.symm.trans e) (by decide), k.2.2.2.2.1, k.2.2.2.2.2.1, k.2.2.2.2.2.2,
    fun p hp => Option.isNone_iff_eq_none.1 (List.all_eq_true.1 f p hp), t⟩

theorem witness_StepRunsDecoded :
    (∃ (s s0 : State) (rest : List Turn) (x : Ctx) (i : Instr) (n : Nat), s.inputs = .issue 0 0 0 :: rest ∧
      s0 = { s with inputs := rest } ∧ s0.MayIssue 0 0 0 x ∧ s0.cached x ∧ x.offset < x.g.kernel.codeLen ∧
      planeCheck (s0.fetched x) = none ∧ s0.regHeld x (s0.fetched x) = false ∧ x.b.planesOf x.q ≠ [] ∧
      decodeBytes (s0.bytesFor x x.lowPlane) = .ok (i, n) ∧ uniformClass (leNat (s0.bytesFor x x.lowPlane) / 4 % 128) = true) ∧
    (∃ (s s0 : State) (rest : List Turn) (x : Ctx) (i : Instr) (n : Nat) (ps : List Nat), s.inputs = .issue 0 0 0 :: rest ∧
      s0 = { s with inputs := rest } ∧ s0.MayIssue 0 0 0 x ∧ s0.cached x ∧ x.offset < x.g.kernel.codeLen ∧
      planeCheck (s0.fetched x) = none ∧ s0.regHeld x (s0.fetched x) = false ∧ x.b.planesOf x.q ≠ [] ∧
      decodeBytes (s0.bytesFor x x.lowPlane) = .ok (i, n) ∧ uniformClass (leNat (s0.bytesFor x x.lowPlane) / 4 % 128) = false ∧
      sweepPlanes x s0 (fun x' i => laneFieldCheck x'.g.kernel i) (s0.fetched x) = none ∧ laneChecks x s0 (s0.fetched x) = none ∧
      passPlanes (s0.fetched x) = x.lowPlane :: ps ∧
      s0.passGate { x with c := { x.c with plane := x.lowPlane, rest := ps, first := true, words := s0.fetched x, snap := x.b.lanes,
                                           base := x.b.s } } false (s0.fetched x) = none) ∧
    (∃ (s : State) (gid b k : Nat) (g : Gang) (y : Bundle) (q : Sub), s.gang gid = some g ∧ g.bundles[b]? = some y ∧
      y.subs[k]? = some q ∧ q.wait = .fetch ∧ q.isLive = true ∧ y.killed = false ∧
      ((y.planesOf q).flatMap (fun p => codeLines g p (y.offsetOf q))).length ≤ 256) ∧
    (∃ (s : State) (i : Instr) (rest : List Turn), s.inputs = .event i :: rest) := by
  refine ⟨⟨placed 96 0x123400614042, turned 96 0x123400614042, [], placedCtx 96 0x123400614042, (placedInstr 96 0x123400614042).1, (placedInstr 96 0x123400614042).2,
      rfl, rfl, placed_issues (by decide) (by decide) (by decide) (by decide), by unfold State.cached; decide, by decide, by decide, by decide, by decide, by decide,
      by decide⟩,
    ⟨placed 32 0x3CE4C0C0, turned 32 0x3CE4C0C0, [], placedCtx 32 0x3CE4C0C0, (placedInstr 32 0x3CE4C0C0).1, (placedInstr 32 0x3CE4C0C0).2, [],
      rfl, rfl, placed_issues (by decide) (by decide) (by decide) (by decide), by unfold State.cached; decide, by decide, by decide, by decide, by decide, by decide,
      by decide, Option.isNone_iff_eq_none.1 (by decide), Option.isNone_iff_eq_none.1 (by decide), by decide, Option.isNone_iff_eq_none.1 (by decide)⟩,
    ⟨fetching, 0, 0, 0, (fetching.gang 0).getD gang, _, _, some_of _ (by decide), rfl, rfl, by decide, by decide, by decide, by decide⟩,
    ⟨{ State.reset with inputs := [.event .powerRailEnable] }, _, _, rfl⟩⟩

theorem witness_InvStep : ∃ s t : State, s.Inv ∧ step s = .next t := by
  have h : (match step (placed 32 0x3CE4C0C0) with | .next _ => true | _ => false) = true := by decide
  refine ⟨placed 32 0x3CE4C0C0, next (step (placed 32 0x3CE4C0C0)), ⟨by decide, by decide, by decide, by decide, by decide⟩, ?_⟩
  revert h
  generalize step (placed 32 0x3CE4C0C0) = r
  cases r <;> simp [next]

/-! ## Words and the instructions that they stand for (R27–R34, R39, R43, R151, R341, R371)

Each word is written from the layout of its format, with the same value in every field of a kind: guard p5 negated, NWB, and the
registers and fields below. -/

/-- The fields of every S word below. -/
def sw : SWord := ⟨5, 1, 1, 5, 38, 23⟩

/-- The fields of every X word below, with the word's FN. -/
def xw (fn : BitVec 8) : XWord := ⟨5, 1, 1, 0x155, 0x0A3, 0x1F0, 0x04D, fn, 0x2A, 0x89ABCDEF⟩

/-- A number of bits and a word decode to an instruction. -/
def reads (nbits w : Nat) (i : Instr) : Bool := decodeTableWord nbits w == some i

theorem test_decode_control_1 :
    reads 96 0x89ABCDEFA8009BF051D57A09 (.brx (xw 0)) ∧
    reads 96 0x89ABCDEFA80C9BF051D57A39 (.bru (xw 3)) ∧
    reads 96 0x89ABCDEFA8009BF051D57A0D (.call (xw 0)) ∧
    reads 96 0x89ABCDEFA8049BF051D57A0D (.callIndirect (xw 1)) ∧
    reads 96 0x89ABCDEFA8009BF051D57A1D (.planeSet (xw 0)) ∧
    reads 96 0x89ABCDEFA8049BF051D57A1D (.planeMov (xw 1)) ∧
    reads 96 0x89ABCDEFA8089BF051D57A1D (.planeGet (xw 2)) ∧
    reads 96 0x89ABCDEFA80C9BF051D57A1D (.planeBal (xw 3)) ∧
    reads 96 0x89ABCDEFA8009BF051D57A21 (.yield (xw 0)) ∧
    reads 96 0x13579BDCFFFFFFF051D57A05 (.bra ⟨5, 1, 1, 0x155, 0x0A3, 0xFFFFFFF0, 0x13579BDC⟩) ∧
    reads 32 0x0 .nop ∧
    reads 32 0x10 .ret ∧
    reads 32 0x14 .join ∧
    reads 32 0x18 .regang := by
  decide

theorem test_decode_control_2 :
    reads 32 0x24 .exit ∧
    reads 32 0x56AF3A28 (.trap ⟨5, 1, 1, 0xABC, 0x15⟩) := by
  decide

theorem test_decode_synchronization_1 :
    reads 96 0x89ABCDEFA8009BF051D57A2D (.barInit (xw 0)) ∧
    reads 96 0x89ABCDEFA8049BF051D57A2D (.barArrive (xw 1)) ∧
    reads 96 0x89ABCDEFA8089BF051D57A2D (.barWait (xw 2)) ∧
    reads 96 0x89ABCDEFA80C9BF051D57A2D (.barMeet (xw 3)) ∧
    reads 96 0x89ABCDEFA8109BF051D57A2D (.barArriveRemote (xw 4)) ∧
    reads 96 0x89ABCDEFA8149BF051D57A2D (.barRed (xw 5)) ∧
    reads 96 0x89ABCDEFA8189BF051D57A2D (.barQuery (xw 6)) ∧
    reads 96 0x89ABCDEFA8009BF051D57A31 (.waitTok (xw 0)) ∧
    reads 96 0x89ABCDEFA8049BF051D57A31 (.waitTl (xw 1)) ∧
    reads 96 0x89ABCDEFA8009BF051D57A3D (.grpJoin (xw 0)) ∧
    reads 96 0x89ABCDEFA8049BF051D57A3D (.grpLeave (xw 1)) ∧
    reads 96 0x89ABCDEFA8089BF051D57A3D (.grpQuery (xw 2)) ∧
    reads 96 0x89ABCDEFA80C9BF051D57A3D (.grpPublish (xw 3)) ∧
    reads 32 0x38034 (.fence ⟨0, 0, 0, 2, 3, 0, 0⟩) := by
  decide

theorem test_decode_synchronization_2 :
    reads 32 0xC4034 (.fenceAlias ⟨0, 0, 0, 1, 4, 1, 0⟩) := by
  decide

theorem test_decode_scalar_1 :
    reads 32 0x5E617A40 (.saddSForm sw) ∧
    reads 96 0xFEDCBA98765432105E617A42 (.saddSlForm sw 0xFEDCBA9876543210) ∧
    reads 96 0x89ABCDEFA8009BF051D57A41 (.saddXForm (xw 0)) ∧
    reads 32 0x5E617A44 (.ssubSForm sw) ∧
    reads 96 0xFEDCBA98765432105E617A46 (.ssubSlForm sw 0xFEDCBA9876543210) ∧
    reads 96 0x89ABCDEFA8009BF051D57A45 (.ssubXForm (xw 0)) ∧
    reads 32 0x5E617A48 (.smulSForm sw) ∧
    reads 96 0xFEDCBA98765432105E617A4A (.smulSlForm sw 0xFEDCBA9876543210) ∧
    reads 96 0x89ABCDEFA8009BF051D57A49 (.smulXForm (xw 0)) ∧
    reads 32 0x5E617A4C (.smulhSForm sw) ∧
    reads 96 0xFEDCBA98765432105E617A4E (.smulhSlForm sw 0xFEDCBA9876543210) ∧
    reads 96 0x89ABCDEFA8009BF051D57A4D (.smulhXForm (xw 0)) ∧
    reads 32 0x5E617A54 (.sandSForm sw) ∧
    reads 96 0xFEDCBA98765432105E617A56 (.sandSlForm sw 0xFEDCBA9876543210) := by
  decide

theorem test_decode_scalar_2 :
    reads 96 0x89ABCDEFA8009BF051D57A55 (.sandXForm (xw 0)) ∧
    reads 32 0x5E617A58 (.sorSForm sw) ∧
    reads 96 0xFEDCBA98765432105E617A5A (.sorSlForm sw 0xFEDCBA9876543210) ∧
    reads 96 0x89ABCDEFA8009BF051D57A59 (.sorXForm (xw 0)) ∧
    reads 32 0x5E617A5C (.sxorSForm sw) ∧
    reads 96 0xFEDCBA98765432105E617A5E (.sxorSlForm sw 0xFEDCBA9876543210) ∧
    reads 96 0x89ABCDEFA8009BF051D57A5D (.sxorXForm (xw 0)) ∧
    reads 32 0x5E617A60 (.sshlSForm sw) ∧
    reads 96 0xFEDCBA98765432105E617A62 (.sshlSlForm sw 0xFEDCBA9876543210) ∧
    reads 96 0x89ABCDEFA8009BF051D57A61 (.sshlXForm (xw 0)) ∧
    reads 32 0x5E617A64 (.sshrSForm sw) ∧
    reads 96 0xFEDCBA98765432105E617A66 (.sshrSlForm sw 0xFEDCBA9876543210) ∧
    reads 96 0x89ABCDEFA8009BF051D57A65 (.sshrXForm (xw 0)) ∧
    reads 32 0x5E617A68 (.ssraSForm sw) := by
  decide

theorem test_decode_scalar_3 :
    reads 96 0xFEDCBA98765432105E617A6A (.ssraSlForm sw 0xFEDCBA9876543210) ∧
    reads 96 0x89ABCDEFA8009BF051D57A69 (.ssraXForm (xw 0)) := by
  decide

theorem test_decode_scalarMore_1 :
    reads 96 0x89ABCDEFA8049BF051D57A4D (.smulhZ (xw 1)) ∧
    reads 96 0x89ABCDEFA8009BF051D57A51 (.sdivS (xw 0)) ∧
    reads 96 0x89ABCDEFA8049BF051D57A51 (.sdivZ (xw 1)) ∧
    reads 96 0x89ABCDEFA8089BF051D57A51 (.sremS (xw 2)) ∧
    reads 96 0x89ABCDEFA80C9BF051D57A51 (.sremZ (xw 3)) ∧
    reads 96 0x89ABCDEFA8009BF051D57A6D (.sminS (xw 0)) ∧
    reads 96 0x89ABCDEFA8049BF051D57A6D (.sminZ (xw 1)) ∧
    reads 96 0x89ABCDEFA8089BF051D57A6D (.smaxS (xw 2)) ∧
    reads 96 0x89ABCDEFA80C9BF051D57A6D (.smaxZ (xw 3)) ∧
    reads 96 0x89ABCDEFA8149BF051D57A71 (.scmp (xw 5)) ∧
    reads 96 0x89ABCDEFA8009BF051D57A75 (.ssel (xw 0)) ∧
    reads 96 0xFEDCBA98765432105E617A7A (.sli sw 0xFEDCBA9876543210) ∧
    reads 32 0x5E617A7C (.smov sw) ∧
    reads 96 0x89ABCDEFA8009BF051D57A81 (.saddr (xw 0)) := by
  decide

theorem test_decode_scalarMore_2 :
    reads 96 0x89ABCDEFA8009BF051D57A85 (.sbitPopc (xw 0)) ∧
    reads 96 0x89ABCDEFA8049BF051D57A85 (.sbitClz (xw 1)) ∧
    reads 96 0x89ABCDEFA8089BF051D57A85 (.sbitCtz (xw 2)) ∧
    reads 96 0x89ABCDEFA80C9BF051D57A85 (.sbitBfx (xw 3)) ∧
    reads 96 0x89ABCDEFA8109BF051D57A85 (.sbitBfi (xw 4)) ∧
    reads 96 0x89ABCDEFA8149BF051D57A85 (.sbitBrev (xw 5)) ∧
    reads 96 0x89ABCDEFA8189BF051D57A85 (.sbitBfxS (xw 6)) ∧
    reads 96 0x89ABCDEFA8009BF051D57A89 (.srd (xw 0)) ∧
    reads 96 0x89ABCDEFA8009BF051D57A8D (.vget (xw 0)) ∧
    reads 96 0x89ABCDEFA8049BF051D57A8D (.vgetS (xw 1)) ∧
    reads 96 0x89ABCDEFA82C9BF051D57A91 (.sld (xw 11)) ∧
    reads 96 0x89ABCDEFA8489BF051D57A95 (.sst (xw 18)) ∧
    reads 96 0x89ABCDEFA84C9BF051D57A99 (.satom (xw 19)) := by
  decide

theorem test_decode_laneInteger_1 :
    reads 32 0x5E617AC0 (.vaddSForm sw) ∧
    reads 96 0x89ABCDEFA8109BF051D57AC1 (.vaddXForm (xw 4)) ∧
    reads 32 0x5E617AC4 (.vsubSForm sw) ∧
    reads 96 0x89ABCDEFA8109BF051D57AC5 (.vsubXForm (xw 4)) ∧
    reads 32 0x5E617AC8 (.vmulSForm sw) ∧
    reads 96 0x89ABCDEFA8109BF051D57AC9 (.vmulXForm (xw 4)) ∧
    reads 32 0x5E617ACC (.vmulhSForm sw) ∧
    reads 96 0x89ABCDEFA8109BF051D57ACD (.vmulhXForm (xw 4)) ∧
    reads 32 0x5E617AD8 (.vandSForm sw) ∧
    reads 96 0x89ABCDEFA8109BF051D57AD9 (.vandXForm (xw 4)) ∧
    reads 32 0x5E617ADC (.vorSForm sw) ∧
    reads 96 0x89ABCDEFA8109BF051D57ADD (.vorXForm (xw 4)) ∧
    reads 32 0x5E617AE0 (.vxorSForm sw) ∧
    reads 96 0x89ABCDEFA8109BF051D57AE1 (.vxorXForm (xw 4)) := by
  decide

theorem test_decode_laneInteger_2 :
    reads 32 0x5E617AE4 (.vshlSForm sw) ∧
    reads 96 0x89ABCDEFA8109BF051D57AE5 (.vshlXForm (xw 4)) ∧
    reads 32 0x5E617AE8 (.vshrSForm sw) ∧
    reads 96 0x89ABCDEFA8109BF051D57AE9 (.vshrXForm (xw 4)) ∧
    reads 32 0x5E617AEC (.vsraSForm sw) ∧
    reads 96 0x89ABCDEFA8109BF051D57AED (.vsraXForm (xw 4)) ∧
    reads 32 0x5E617B00 (.vmovSForm sw) ∧
    reads 96 0x89ABCDEFA8109BF051D57B01 (.vmovXForm (xw 4)) ∧
    reads 96 0xFEDCBA98765432105E617B02 (.vmovSlForm sw 0xFEDCBA9876543210) := by
  decide

theorem test_decode_laneMore_1 :
    reads 96 0x89ABCDEFA8109BF051D57AD1 (.vmad (xw 4)) ∧
    reads 96 0x89ABCDEFA80C9BF051D57AD5 (.vdot4 (xw 3)) ∧
    reads 96 0x89ABCDEFA8109BF051D57AF1 (.vmin (xw 4)) ∧
    reads 96 0x89ABCDEFA8309BF051D57AF1 (.vmax (xw 12)) ∧
    reads 96 0x89ABCDEFA8049BF051D57AF5 (.vabs (xw 1)) ∧
    reads 96 0x89ABCDEFA8249BF051D57AF5 (.vneg (xw 9)) ∧
    reads 96 0x89ABCDEFA80C9BF051D57AF9 (.vsel (xw 3)) ∧
    reads 96 0x89ABCDEFA8849BF051D57AFD (.vcmp (xw 33)) ∧
    reads 96 0x89ABCDEFA8009BF051D57B05 (.vfsh (xw 0)) ∧
    reads 96 0x89ABCDEFA8009BF051D57B09 (.vbitPopc (xw 0)) ∧
    reads 96 0x89ABCDEFA8049BF051D57B09 (.vbitClz (xw 1)) ∧
    reads 96 0x89ABCDEFA8089BF051D57B09 (.vbitCtz (xw 2)) ∧
    reads 96 0x89ABCDEFA80C9BF051D57B09 (.vbitBrev (xw 3)) ∧
    reads 96 0x89ABCDEFA8109BF051D57B09 (.vbitBfx (xw 4)) := by
  decide

theorem test_decode_laneMore_2 :
    reads 96 0x89ABCDEFA8149BF051D57B09 (.vbitBfx (xw 5)) ∧
    reads 96 0x89ABCDEFA8189BF051D57B09 (.vbitBfi (xw 6)) ∧
    reads 96 0x89ABCDEFA8089BF051D57B0D (.vrsh (xw 2)) ∧
    reads 96 0x89ABCDEFA8049BF051D57B11 (.vpack (xw 1)) ∧
    reads 96 0x89ABCDEFA8249BF051D57B15 (.vunpk (xw 9)) ∧
    reads 96 0x89ABCDEFA80C9BF051D57B19 (.vshfl (xw 3)) ∧
    reads 96 0x89ABCDEFA8089BF051D57B1D (.vred (xw 2)) ∧
    reads 96 0x89ABCDEFA8489BF051D57B21 (.vscn (xw 18)) ∧
    reads 96 0x89ABCDEFA8049BF051D57B25 (.vbal (xw 1)) ∧
    reads 96 0x89ABCDEFA8109BF051D57B29 (.plog (xw 4)) ∧
    reads 96 0x89ABCDEFA8009BF051D57B2D (.vprm (xw 0)) ∧
    reads 96 0x89ABCDEFA8009BF051D57B31 (.vlut (xw 0)) ∧
    reads 96 0x89ABCDEFA8049BF051D57B31 (.vlutHi (xw 1)) ∧
    reads 96 0x89ABCDEFA8089BF051D57B31 (.vlutP2 (xw 2)) := by
  decide

theorem test_decode_laneMore_3 :
    reads 96 0xB6F3A73E48D65CD2BCF2EBFD (.pair ⟨5, 0, 1, 0x4B, 1, 0x0F3, 0x1A5, 0x05C, 1, 0x35, 0, 0x192, 0x0E7, 0x13A, 0x5B7⟩) := by
  decide

theorem test_decode_float_1 :
    reads 32 0x5E617B40 (.faddSForm sw) ∧
    reads 96 0x89ABCDEFA8089BF051D57B41 (.faddXForm (xw 2)) ∧
    reads 32 0x5E617B44 (.fsubSForm sw) ∧
    reads 96 0x89ABCDEFA8089BF051D57B45 (.fsubXForm (xw 2)) ∧
    reads 32 0x5E617B48 (.fmulSForm sw) ∧
    reads 96 0x89ABCDEFA8089BF051D57B49 (.fmulXForm (xw 2)) ∧
    reads 32 0x5E617B4C (.ffmaSForm sw) ∧
    reads 96 0x89ABCDEFA8089BF051D57B4D (.ffmaXForm (xw 2)) ∧
    reads 32 0x5E617B60 (.frcpSForm sw) ∧
    reads 96 0x89ABCDEFA8089BF051D57B61 (.frcpXForm (xw 2)) ∧
    reads 32 0x5E617B64 (.frsqSForm sw) ∧
    reads 96 0x89ABCDEFA8089BF051D57B65 (.frsqXForm (xw 2)) ∧
    reads 32 0x5E617B68 (.fsqrtSForm sw) ∧
    reads 96 0x89ABCDEFA8089BF051D57B69 (.fsqrtXForm (xw 2)) := by
  decide

theorem test_decode_float_2 :
    reads 32 0x5E617B6C (.fexp2SForm sw) ∧
    reads 96 0x89ABCDEFA8089BF051D57B6D (.fexp2XForm (xw 2)) ∧
    reads 32 0x5E617B70 (.flog2SForm sw) ∧
    reads 96 0x89ABCDEFA8089BF051D57B71 (.flog2XForm (xw 2)) ∧
    reads 32 0x5E617B74 (.fsinSForm sw) ∧
    reads 96 0x89ABCDEFA8089BF051D57B75 (.fsinXForm (xw 2)) ∧
    reads 32 0x5E617B78 (.fcosSForm sw) ∧
    reads 96 0x89ABCDEFA8089BF051D57B79 (.fcosXForm (xw 2)) ∧
    reads 32 0x5E617B7C (.ftanhSForm sw) ∧
    reads 96 0x89ABCDEFA8089BF051D57B7D (.ftanhXForm (xw 2)) := by
  decide

theorem test_decode_floatMore_1 :
    reads 96 0x89ABCDEFA8049BF051D57B51 (.fmin (xw 1)) ∧
    reads 96 0x89ABCDEFA8109BF051D57B51 (.fmax (xw 4)) ∧
    reads 96 0x89ABCDEFA8289BF051D57B51 (.fminn (xw 10)) ∧
    reads 96 0x89ABCDEFA8349BF051D57B51 (.fmaxn (xw 13)) ∧
    reads 96 0x89ABCDEFA8009BF051D57B55 (.fneg (xw 0)) ∧
    reads 96 0x89ABCDEFA8189BF051D57B55 (.fabs (xw 6)) ∧
    reads 96 0x89ABCDEFA8249BF051D57B55 (.fcpys (xw 9)) ∧
    reads 96 0x89ABCDEFA8909BF051D57B59 (.fcmp (xw 36)) ∧
    reads 96 0x89ABCDEFA8C09BF051D57B5D (.fcvt (xw 48)) ∧
    reads 96 0x89ABCDEFA8009BF051D57B81 (.fcls (xw 0)) ∧
    reads 96 0x89ABCDEFA8009BF051D57B85 (.fscl (xw 0)) ∧
    reads 96 0x89ABCDEFA8049BF051D57B89 (.fdot2 (xw 1)) ∧
    reads 96 0x89ABCDEFA8009BF051D57B8D (.frnd (xw 0)) ∧
    reads 96 0x89ABCDEFA8609BF051D57B91 (.bfpq (xw 24)) := by
  decide

theorem test_decode_floatMore_2 :
    reads 96 0x89ABCDEFA8609BF051D57B95 (.bfpd (xw 24)) := by
  decide

theorem test_decode_memory :
    reads 96 0x89ABCDEFA82C9BF051D57BA1 (.ld (xw 11)) ∧
    reads 96 0x89ABCDEFA8489BF051D57BA5 (.st (xw 18)) ∧
    reads 96 0x89ABCDEFA80C9BF051D57BA9 (.lds (xw 3)) ∧
    reads 96 0x89ABCDEFA8109BF051D57BAD (.sts (xw 4)) ∧
    reads 96 0x89ABCDEFA84C9BF051D57BB1 (.atom (xw 19)) ∧
    reads 96 0x89ABCDEFA8009BF051D57BC9 (.presClr (xw 0)) ∧
    reads 96 0x89ABCDEFA8049BF051D57BC9 (.presSet (xw 1)) ∧
    reads 96 0x89ABCDEFA8089BF051D57BC9 (.presTest (xw 2)) := by
  decide

theorem test_decode_tensors :
    reads 96 0x89ABCDEFA8009BF051D57BB5 (.tlocEnt (xw 0)) ∧
    reads 96 0x89ABCDEFA8049BF051D57BB5 (.tloc (xw 1)) ∧
    reads 96 0x89ABCDEFA8009BF051D57BC5 (.tbind (xw 0)) ∧
    reads 96 0x89ABCDEFA8049BF051D57BC5 (.tbindClr (xw 1)) ∧
    reads 96 0x89ABCDEFA8149BF051D57BB9 (.texp (xw 5)) ∧
    reads 96 0x89ABCDEFA8049BF051D57BBD (.tenc (xw 1)) ∧
    reads 96 0x89ABCDEFA8009BF051D57BC1 (.ctld (xw 0)) ∧
    reads 96 0x89ABCDEFA8049BF051D57BC1 (.ctldSpm (xw 1)) ∧
    reads 96 0x89ABCDEFA8009BF051D57BCD (.ctst (xw 0)) := by
  decide

theorem test_decode_engines_1 :
    reads 96 0x89ABCDEFA8009BF051D57BD1 (.cpyLinG2s (xw 0)) ∧
    reads 96 0x89ABCDEFA8049BF051D57BD1 (.cpyLinS2g (xw 1)) ∧
    reads 96 0x89ABCDEFA8089BF051D57BD1 (.cpyLinG2g (xw 2)) ∧
    reads 96 0x89ABCDEFA80C9BF051D57BD1 (.cpyTileG2s (xw 3)) ∧
    reads 96 0x89ABCDEFA8109BF051D57BD1 (.cpyRowsG2s (xw 4)) ∧
    reads 96 0x89ABCDEFA8149BF051D57BD1 (.cpyMcastG2s (xw 5)) ∧
    reads 96 0x89ABCDEFA8189BF051D57BD1 (.cpyMcastS2s (xw 6)) ∧
    reads 96 0x89ABCDEFA81C9BF051D57BD1 (.cpyFill (xw 7)) ∧
    reads 160 0x123456789ABCDEF89ABCDEFAC0C9BF051D57BD3 (.cpyTileG2sCh { xw 3 with m6 := 0x2B } 0x0123456789ABCDEF) ∧
    reads 96 0x89ABCDEFA8009BF051D57BD5 (.mma (xw 0)) ∧
    reads 96 0x89ABCDEFA8089BF051D57BD5 (.mmaSp (xw 2)) ∧
    reads 96 0x89ABCDEFA80C9BF051D57BD5 (.bload (xw 3)) ∧
    reads 160 0x123456789ABCDEF89ABCDEFA8049BF051D57BD7 (.mmaCrew (xw 1) 0x0123456789ABCDEF) ∧
    reads 96 0x89ABCDEFA8009BF051D57BD9 (.accWin (xw 0)) := by
  decide

theorem test_decode_engines_2 :
    reads 96 0x89ABCDEFA8049BF051D57BD9 (.accLd (xw 1)) ∧
    reads 96 0x89ABCDEFA8089BF051D57BD9 (.accSt (xw 2)) ∧
    reads 96 0x89ABCDEFA80C9BF051D57BD9 (.accZero (xw 3)) ∧
    reads 96 0x89ABCDEFA8109BF051D57BD9 (.accOut (xw 4)) ∧
    reads 96 0x89ABCDEFA8009BF051D57BDD (.scanOpdef (xw 0)) ∧
    reads 96 0x89ABCDEFA8049BF051D57BDD (.scanBegin (xw 1)) ∧
    reads 96 0x89ABCDEFA8089BF051D57BDD (.scanTile (xw 2)) ∧
    reads 96 0x89ABCDEFA80C9BF051D57BDD (.scanPub (xw 3)) ∧
    reads 96 0x89ABCDEFA8109BF051D57BDD (.scanCarry (xw 4)) ∧
    reads 96 0x89ABCDEFA8149BF051D57BDD (.scanFix (xw 5)) ∧
    reads 96 0x89ABCDEFA8189BF051D57BDD (.scanEnd (xw 6)) := by
  decide

theorem test_decode_system_1 :
    reads 96 0x89ABCDEFA8009BF051D57BE1 (.spawn (xw 0)) ∧
    reads 96 0x89ABCDEFA8049BF051D57BE1 (.launchInstruction (xw 1)) ∧
    reads 96 0x89ABCDEFA8089BF051D57BE1 (.jcInit (xw 2)) ∧
    reads 96 0x89ABCDEFA80C9BF051D57BE1 (.jcAdd (xw 3)) ∧
    reads 96 0x89ABCDEFA8009BF051D57BE5 (.collRed (xw 0)) ∧
    reads 96 0x89ABCDEFA8049BF051D57BE5 (.collAr (xw 1)) ∧
    reads 96 0x89ABCDEFA8089BF051D57BE5 (.collBc (xw 2)) ∧
    reads 96 0x89ABCDEFA8009BF051D57BE9 (.dbgHread (xw 0)) ∧
    reads 96 0x89ABCDEFA8049BF051D57BE9 (.dbgHwrite (xw 1)) ∧
    reads 96 0x89ABCDEFA8089BF051D57BE9 (.dbgHstep (xw 2)) ∧
    reads 96 0x89ABCDEFA80C9BF051D57BE9 (.dbgHresume (xw 3)) ∧
    reads 96 0x89ABCDEFA8109BF051D57BE9 (.dbgHstat (xw 4)) ∧
    reads 96 0x89ABCDEFA8149BF051D57BE9 (.dbgHalt (xw 5)) ∧
    reads 96 0x89ABCDEFA8009BF051D57BED (.watchSet (xw 0)) := by
  decide

theorem test_decode_system_2 :
    reads 96 0x89ABCDEFA8049BF051D57BED (.watchClr (xw 1)) ∧
    reads 96 0x89ABCDEFA8089BF051D57BED (.watchGet (xw 2)) ∧
    reads 96 0x89ABCDEFA80C9BF051D57BED (.watchArm (xw 3)) ∧
    reads 96 0x89ABCDEFA8009BF051D57BF1 (.perfRd (xw 0)) ∧
    reads 96 0x89ABCDEFA8049BF051D57BF1 (.perfSel (xw 1)) ∧
    reads 96 0x89ABCDEFA8089BF051D57BF1 (.perfSamp (xw 2)) ∧
    reads 96 0x89ABCDEFA8009BF051D57BF5 (.csrRd (xw 0)) ∧
    reads 96 0x1A8049BF051D57BF5 (.csrWrFaultact { xw 1 with imm := 1 }) ∧
    reads 96 0x2A8049BF051D57BF5 (.csrWrCecnt { xw 1 with imm := 2 }) ∧
    reads 96 0x3A8049BF051D57BF5 (.csrWrUecnt { xw 1 with imm := 3 }) ∧
    reads 96 0x7A8049BF051D57BF5 (.csrWrStopreq { xw 1 with imm := 7 }) ∧
    reads 96 0x4A8049BF051D57BF5 (.csrWr { xw 1 with imm := 4 }) := by
  decide

/-- The example words of the chapters (R32, R39, R176, R189, R192, R197, R351). -/
theorem test_decode_examples :
    reads 32 0x3CE4C0C0 (.vaddSForm ⟨0, 0, 0, 19, 14, 15⟩) ∧
    reads 96 0x618060281004D (.smulhZ ⟨0, 0, 0, 4, 5, 6, 268, 1, 0, 0⟩) ∧
    reads 96 0x7000A0B0C0F87810D (.vrsh ⟨0, 0, 0, 30, 31, 268, 261, 2, 0, 7⟩) ∧
    reads 96 0x1000E190C0A850119 (.vshfl ⟨0, 0, 0, 20, 21, 268, 268, 3, 0, 1⟩) ∧
    reads 96 0x120C218010580415D (.fcvt ⟨0, 0, 0, 1, 11, 1, 268, 0x30, 8, 1⟩) ∧
    reads 96 0x8000E18040500C1E1 (.jcAdd ⟨0, 0, 0, 3, 10, 4, 268, 3, 0, 8⟩) ∧
    reads 96 0x12190C0600C1DD (.scanCarry ⟨0, 0, 0, 3, 12, 268, 268, 4, 0, 0⟩) ∧
    reads 96 0x4000040000008201B9 (.texp ⟨0, 0, 0, 8, 1, 0, 0, 1, 0, 0x40⟩) ∧
    reads 96 0x20002190C860141F5 (.csrRd ⟨0, 0, 0, 5, 268, 268, 268, 0, 0, 2⟩) := by
  decide

/-- Words that no row fits: a reserved major, a format that a major does not list, a reserved FN, CH outside FN 3, a bit of nop. -/
theorem test_decode_refuses :
    decodeTableWord 32 0x9C = none ∧ decodeTableWord 32 0x1F8 = none ∧ decodeTableWord 96 0x7D = none ∧
    decodeTableWord 96 0x800000000000D = none ∧ decodeTableWord 96 0x8100000000001D5 = none ∧ decodeTableWord 160 0x4000000000001D3 = none ∧
    decodeTableWord 32 0x200 = none := by
  decide

/-! ## Every check of WellFormed refuses a term -/

/-- FN tells rows of one major apart. -/
theorem test_illFormed_fn_1 :
    wellFormed (.call (xw 1)) = false ∧
    wellFormed (.callIndirect (xw 2)) = false ∧
    wellFormed (.planeSet (xw 1)) = false ∧
    wellFormed (.planeMov (xw 2)) = false ∧
    wellFormed (.planeGet (xw 3)) = false ∧
    wellFormed (.planeBal (xw 4)) = false ∧
    wellFormed (.barInit (xw 1)) = false ∧
    wellFormed (.barArrive (xw 2)) = false ∧
    wellFormed (.barWait (xw 3)) = false ∧
    wellFormed (.barMeet (xw 4)) = false ∧
    wellFormed (.barArriveRemote (xw 5)) = false ∧
    wellFormed (.barRed (xw 6)) = false ∧
    wellFormed (.barQuery (xw 7)) = false ∧
    wellFormed (.waitTok (xw 1)) = false ∧
    wellFormed (.waitTl (xw 2)) = false ∧
    wellFormed (.fence ⟨0, 0, 0, 0, 0, 1, 0⟩) = false := by
  decide

/-- FN tells rows of one major apart. -/
theorem test_illFormed_fn_2 :
    wellFormed (.fenceAlias ⟨0, 0, 0, 0, 0, 0, 0⟩) = false ∧
    wellFormed (.grpJoin (xw 1)) = false ∧
    wellFormed (.grpLeave (xw 2)) = false ∧
    wellFormed (.grpQuery (xw 3)) = false ∧
    wellFormed (.grpPublish (xw 4)) = false ∧
    wellFormed (.smulhXForm (xw 1)) = false ∧
    wellFormed (.smulhZ (xw 2)) = false ∧
    wellFormed (.sdivS (xw 1)) = false ∧
    wellFormed (.sdivZ (xw 2)) = false ∧
    wellFormed (.sremS (xw 3)) = false ∧
    wellFormed (.sremZ (xw 4)) = false ∧
    wellFormed (.sminS (xw 1)) = false ∧
    wellFormed (.sminZ (xw 2)) = false ∧
    wellFormed (.smaxS (xw 3)) = false ∧
    wellFormed (.smaxZ (xw 4)) = false ∧
    wellFormed (.sbitPopc (xw 1)) = false := by
  decide

/-- FN tells rows of one major apart. -/
theorem test_illFormed_fn_3 :
    wellFormed (.sbitClz (xw 2)) = false ∧
    wellFormed (.sbitCtz (xw 3)) = false ∧
    wellFormed (.sbitBfx (xw 4)) = false ∧
    wellFormed (.sbitBfi (xw 5)) = false ∧
    wellFormed (.sbitBrev (xw 6)) = false ∧
    wellFormed (.sbitBfxS (xw 7)) = false ∧
    wellFormed (.vget (xw 1)) = false ∧
    wellFormed (.vgetS (xw 2)) = false ∧
    wellFormed (.vmin (xw 8)) = false ∧
    wellFormed (.vmax (xw 0)) = false ∧
    wellFormed (.vabs (xw 8)) = false ∧
    wellFormed (.vneg (xw 0)) = false ∧
    wellFormed (.vbitPopc (xw 1)) = false ∧
    wellFormed (.vbitClz (xw 2)) = false ∧
    wellFormed (.vbitCtz (xw 3)) = false ∧
    wellFormed (.vbitBrev (xw 4)) = false := by
  decide

/-- FN tells rows of one major apart. -/
theorem test_illFormed_fn_4 :
    wellFormed (.vbitBfx (xw 6)) = false ∧
    wellFormed (.vbitBfi (xw 7)) = false ∧
    wellFormed (.vlut (xw 1)) = false ∧
    wellFormed (.vlutHi (xw 2)) = false ∧
    wellFormed (.vlutP2 (xw 3)) = false ∧
    wellFormed (.fmin (xw 4)) = false ∧
    wellFormed (.fmax (xw 0)) = false ∧
    wellFormed (.fminn (xw 0)) = false ∧
    wellFormed (.fmaxn (xw 0)) = false ∧
    wellFormed (.fneg (xw 4)) = false ∧
    wellFormed (.fabs (xw 0)) = false ∧
    wellFormed (.fcpys (xw 0)) = false ∧
    wellFormed (.presClr (xw 1)) = false ∧
    wellFormed (.presSet (xw 2)) = false ∧
    wellFormed (.presTest (xw 3)) = false ∧
    wellFormed (.tlocEnt (xw 1)) = false := by
  decide

/-- FN tells rows of one major apart. -/
theorem test_illFormed_fn_5 :
    wellFormed (.tloc (xw 2)) = false ∧
    wellFormed (.tbind (xw 1)) = false ∧
    wellFormed (.tbindClr (xw 2)) = false ∧
    wellFormed (.ctld (xw 1)) = false ∧
    wellFormed (.ctldSpm (xw 2)) = false ∧
    wellFormed (.cpyLinG2s (xw 1)) = false ∧
    wellFormed (.cpyLinS2g (xw 2)) = false ∧
    wellFormed (.cpyLinG2g (xw 3)) = false ∧
    wellFormed (.cpyTileG2s (xw 4)) = false ∧
    wellFormed (.cpyTileG2sCh (xw 4) 0) = false ∧
    wellFormed (.cpyRowsG2s (xw 5)) = false ∧
    wellFormed (.cpyMcastG2s (xw 6)) = false ∧
    wellFormed (.cpyMcastS2s (xw 7)) = false ∧
    wellFormed (.cpyFill (xw 8)) = false ∧
    wellFormed (.mma (xw 1)) = false ∧
    wellFormed (.mmaCrew (xw 2) 0) = false := by
  decide

/-- FN tells rows of one major apart. -/
theorem test_illFormed_fn_6 :
    wellFormed (.mmaSp (xw 3)) = false ∧
    wellFormed (.bload (xw 4)) = false ∧
    wellFormed (.accWin (xw 1)) = false ∧
    wellFormed (.accLd (xw 2)) = false ∧
    wellFormed (.accSt (xw 3)) = false ∧
    wellFormed (.accZero (xw 4)) = false ∧
    wellFormed (.accOut (xw 5)) = false ∧
    wellFormed (.scanOpdef (xw 1)) = false ∧
    wellFormed (.scanBegin (xw 2)) = false ∧
    wellFormed (.scanTile (xw 3)) = false ∧
    wellFormed (.scanPub (xw 4)) = false ∧
    wellFormed (.scanCarry (xw 5)) = false ∧
    wellFormed (.scanFix (xw 6)) = false ∧
    wellFormed (.scanEnd (xw 7)) = false ∧
    wellFormed (.spawn (xw 1)) = false ∧
    wellFormed (.launchInstruction (xw 2)) = false := by
  decide

/-- FN tells rows of one major apart. -/
theorem test_illFormed_fn_7 :
    wellFormed (.jcInit (xw 3)) = false ∧
    wellFormed (.jcAdd (xw 4)) = false ∧
    wellFormed (.collRed (xw 1)) = false ∧
    wellFormed (.collAr (xw 2)) = false ∧
    wellFormed (.collBc (xw 3)) = false ∧
    wellFormed (.dbgHread (xw 1)) = false ∧
    wellFormed (.dbgHwrite (xw 2)) = false ∧
    wellFormed (.dbgHstep (xw 3)) = false ∧
    wellFormed (.dbgHresume (xw 4)) = false ∧
    wellFormed (.dbgHstat (xw 5)) = false ∧
    wellFormed (.dbgHalt (xw 6)) = false ∧
    wellFormed (.watchSet (xw 1)) = false ∧
    wellFormed (.watchClr (xw 2)) = false ∧
    wellFormed (.watchGet (xw 3)) = false ∧
    wellFormed (.watchArm (xw 4)) = false ∧
    wellFormed (.perfRd (xw 1)) = false := by
  decide

/-- FN tells rows of one major apart. -/
theorem test_illFormed_fn_8 :
    wellFormed (.perfSel (xw 2)) = false ∧
    wellFormed (.perfSamp (xw 3)) = false ∧
    wellFormed (.csrRd (xw 1)) = false ∧
    wellFormed (.csrWrFaultact (xw 2)) = false ∧
    wellFormed (.csrWrCecnt (xw 2)) = false ∧
    wellFormed (.csrWrUecnt (xw 2)) = false ∧
    wellFormed (.csrWrStopreq (xw 2)) = false ∧
    wellFormed (.csrWr (xw 2)) = false := by
  decide

/-- CH asks for the form with a chained instruction, and only cpy.tile has one (R277). -/
theorem test_illFormed_ch :
    wellFormed (.cpyLinG2s { xw 0 with m6 := 1 }) = false ∧
    wellFormed (.cpyLinS2g { xw 1 with m6 := 1 }) = false ∧
    wellFormed (.cpyLinG2g { xw 2 with m6 := 1 }) = false ∧
    wellFormed (.cpyTileG2s { xw 3 with m6 := 1 }) = false ∧
    wellFormed (.cpyTileG2sCh (xw 3) 0) = false ∧
    wellFormed (.cpyRowsG2s { xw 4 with m6 := 1 }) = false ∧
    wellFormed (.cpyMcastG2s { xw 5 with m6 := 1 }) = false ∧
    wellFormed (.cpyMcastS2s { xw 6 with m6 := 1 }) = false ∧
    wellFormed (.cpyFill { xw 7 with m6 := 1 }) = false := by
  decide

/-- The register that csr.wr names tells its rows apart. -/
theorem test_illFormed_csr :
    wellFormed (.csrWrFaultact { xw 1 with imm := 2 }) = false ∧
    wellFormed (.csrWrCecnt { xw 1 with imm := 3 }) = false ∧
    wellFormed (.csrWrUecnt { xw 1 with imm := 7 }) = false ∧
    wellFormed (.csrWrStopreq { xw 1 with imm := 1 }) = false ∧
    wellFormed (.csrWr { xw 1 with imm := 1 }) = false ∧
    wellFormed (.csrWr { xw 1 with imm := 2 }) = false ∧
    wellFormed (.csrWr { xw 1 with imm := 3 }) = false ∧
    wellFormed (.csrWr { xw 1 with imm := 7 }) = false := by
  decide

/-- An event names a die, a core, a port or a partition that the module has, and a message has the length that its kind gives it (R2, R12). -/
theorem test_illFormed_event_1 :
    wellFormed (.unlistedMessage 18 0) = false ∧
    wellFormed (.attestReq 0 [1]) = false ∧
    wellFormed (.devtimeStart [0]) = false ∧
    wellFormed (.devtimeCheck 8 0) = false ∧
    wellFormed (.thermalLimit 8) = false ∧
    wellFormed (.overtempShutdown 8) = false ∧
    wellFormed (.partset 0 (some { weights := [1], roots := List.replicate 8 0, part := 0, key := 0, quota := 0, hbmWeight := 0, llcQuota := 0, vlog := 0 })) = false ∧
    wellFormed (.partset 0 (some { weights := List.replicate 8 256, roots := List.replicate 8 0, part := 0, key := 0, quota := 0, hbmWeight := 0, llcQuota := 0, vlog := 0 })) = false ∧
    wellFormed (.partset 0 (some { weights := List.replicate 8 1, roots := [], part := 0, key := 0, quota := 0, hbmWeight := 0, llcQuota := 0, vlog := 0 })) = false ∧
    wellFormed (.compass 0 (some ⟨0, [1]⟩)) = false ∧
    wellFormed (.compass 0 (some ⟨0, List.replicate 8 256⟩)) = false ∧
    wellFormed (.resetDone 8 0) = false ∧
    wellFormed (.resetDone 0 16) = false ∧
    wellFormed (.resetTimeout 8 0) = false ∧
    wellFormed (.resetTimeout 0 16) = false ∧
    wellFormed (.launch 0 [0]) = false := by
  decide

/-- An event names a die, a core, a port or a partition that the module has, and a message has the length that its kind gives it (R2, R12). -/
theorem test_illFormed_event_2 :
    wellFormed (.resideTimeout 8 0) = false ∧
    wellFormed (.leaseReady 8 0) = false ∧
    wellFormed (.leaseFail 8 0) = false ∧
    wellFormed (.crewPlace 8) = false ∧
    wellFormed (.backfillTimeout 8) = false ∧
    wellFormed (.late 8 0) = false ∧
    wellFormed (.invalAck 8 0 0) = false ∧
    wellFormed (.invalAck 0 384 0) = false ∧
    wellFormed (.invalBatch 8 0) = false ∧
    wellFormed (.invalBatch 0 8) = false ∧
    wellFormed (.fabricFrame ⟨8, 0, 0, 0, 0, 0, .revoked⟩) = false ∧
    wellFormed (.fabricFrame ⟨0, 16, 0, 0, 0, 0, .revoked⟩) = false ∧
    wellFormed (.sxentry 0 0 0 0 [0]) = false ∧
    wellFormed (.softErrorCorrected 8 0 0) = false ∧
    wellFormed (.softErrorCorrected 0 384 0) = false ∧
    wellFormed (.softErrorCorrected 0 0 16) = false := by
  decide

/-- An event names a die, a core, a port or a partition that the module has, and a message has the length that its kind gives it (R2, R12). -/
theorem test_illFormed_event_3 :
    wellFormed (.deviceStructureError 8 0 0) = false ∧
    wellFormed (.deviceStructureError 0 16 0) = false ∧
    wellFormed (.leaseShareReport 8 0 0) = false ∧
    wellFormed (.leaseShareReport 0 8 0) = false := by
  decide

theorem test_illFormed_event_4 :
    wellFormed (.fabricFrame ⟨0, 0, 0, 0, 0, 0, .contrib 0 ⟨0, 0, 0, 0, 0, 0, 0, false, 1⟩ [1 <<< 101] []⟩) = false := by
  decide

/-! ## Steps and results, with the values that the spec's examples or its rules give -/

/-- The small state with lane registers set in every lane. -/
def withV (vs : List (Nat × W32)) : State :=
  withBundle (fun b => { b with lanes := b.lanes.map (fun l => { l with v := vs.foldl (fun r p => setNth r p.1 p.2) l.v }) })

/-- A scalar of the small state's bundle. -/
def sOf (r : Nat) (s : State) : W64 := (at_ s).b.s.getD r 0

/-- A register of lane 0. -/
def vOf (r : Nat) (s : State) : W32 := ((at_ s).b.lanes[0]?.map (fun l => l.v.getD r 0)).getD 0

/-- Latch z0 of lane 0. -/
def z0Of (s : State) : W32 := ((at_ s).b.lanes[0]?.map (fun l => (l.z.headD (0, false)).1)).getD 0

/-- The offset of lane 0's slice. -/
def offsetOf (s : State) : Nat := ((at_ s).b.slices[0]?.map Slice.offset).getD 0

/-- An X word of registers and an immediate with FN and M6. -/
def xr (d a b c : BitVec 9) (fn : BitVec 8) (m6 : BitVec 6) (imm : W32) : XWord := ⟨0, 0, 0, d, a, b, c, fn, m6, imm⟩

/-- R176: a sum wraps; a signed product's high half; a shift by 64; the offset moves past the words (R146). -/
theorem test_scalar_arithmetic :
    sOf 4 (after (.saddXForm (xr 4 3 268 268 0 0 1)) (withS [(3, 0xFFFFFFFFFFFFFFFF)])) = 0 ∧
    sOf 4 (after (.smulhXForm (xr 4 3 5 268 0 0 0)) (withS [(3, 0xFFFFFFFFFFFFFFFF), (5, 2)])) = 0xFFFFFFFFFFFFFFFF ∧
    sOf 4 (after (.smulhZ (xr 4 3 5 268 1 0 0)) (withS [(3, 0xFFFFFFFFFFFFFFFF), (5, 2)])) = 1 ∧
    sOf 4 (after (.sshlXForm (xr 4 3 268 268 0 0 64)) (withS [(3, 5)])) = 0 ∧
    offsetOf (after (.saddXForm (xr 4 3 268 268 0 0 1)) small) = offsetOf small + 12 := by
  decide

/-- R176: the literal of format SL is the second source, and s0 reads 0. -/
theorem test_scalar_literal :
    sOf 4 (after (.ssubSlForm ⟨0, 0, 0, 4, 0, 0⟩ 0x8000000000000000) (withS [(3, 5)])) = 0x8000000000000000 ∧
    sOf 0 (after (.sli ⟨0, 0, 0, 0, 0, 0⟩ 7) small) = 0 := by
  decide

/-- R177: a zero divisor, and the most negative number by −1. -/
theorem test_divide_corners :
    sOf 4 (after (.sdivS (xr 4 3 5 268 0 0 0)) (withS [(3, 9)])) = 0xFFFFFFFFFFFFFFFF ∧
    sOf 4 (after (.sremZ (xr 4 3 5 268 3 0 0)) (withS [(3, 9)])) = 9 ∧
    sOf 4 (after (.sdivS (xr 4 3 5 268 0 0 0)) (withS [(3, 0x8000000000000000), (5, 0xFFFFFFFFFFFFFFFF)])) = 0x8000000000000000 ∧
    sOf 4 (after (.sremS (xr 4 3 5 268 2 0 0)) (withS [(3, 0xFFFFFFFFFFFFFFF9), (5, 2)])) = 0xFFFFFFFFFFFFFFFF := by
  decide

/-- R178, R154: .lt is signed and .ltu unsigned. -/
theorem test_compare_signs :
    sOf 4 (after (.scmp (xr 4 3 5 268 2 0 0)) (withS [(3, 0xFFFFFFFFFFFFFFFF), (5, 1)])) = 1 ∧
    sOf 4 (after (.scmp (xr 4 3 5 268 4 0 0)) (withS [(3, 0xFFFFFFFFFFFFFFFF), (5, 1)])) = 0 := by
  decide

/-- R180: the leading zeros of 0; a signed field; an inserted field; a reversal. -/
theorem test_scalar_bits :
    sOf 4 (after (.sbitClz (xr 4 3 268 268 1 0 0)) small) = 64 ∧
    sOf 4 (after (.sbitBfxS (xr 4 3 268 268 6 0 0x104)) (withS [(3, 0x80)])) = 0xFFFFFFFFFFFFFFF8 ∧
    sOf 4 (after (.sbitBfi (xr 4 3 5 268 4 0 0x208)) (withS [(3, 0xFFFF), (5, 0x12)])) = 0x12FF ∧
    sOf 4 (after (.sbitBrev (xr 4 3 268 268 5 0 0)) (withS [(3, 1)])) = 0x8000000000000000 := by
  decide

/-- The worked values of vmad (R185): 17, a product that wraps to 1, −42; the belt takes the result. -/
theorem test_vmad_values :
    vOf 3 (after (.vmad (xr 3 4 5 6 0 0 0)) (withV [(4, 3), (5, 4), (6, 5)])) = 17 ∧
    z0Of (after (.vmad (xr 3 4 5 6 0 0 0)) (withV [(4, 3), (5, 4), (6, 5)])) = 17 ∧
    intMad 0 false false 0x40000000 4 1 = (1, 0) ∧ intMad 0 false true 0x40000000 4 1 = (0x7FFFFFFF, excSat) ∧
    intMad 0 false false 0xFFFFFFF9 6 0 = (0xFFFFFFD6, 0) := by
  decide

/-- The worked values of vrsh.s8.rne by 7 with C = −3 (R189). -/
theorem test_vrsh_values :
    requantise 2 false (rmode 0) 7 1000 0xFFFFFFFD = (5, 0) ∧ requantise 2 false (rmode 0) 7 320 0xFFFFFFFD = (0xFFFFFFFF, 0) ∧
    requantise 2 false (rmode 0) 7 0xFFFFB1E0 0xFFFFFFFD = (0xFFFFFF80, excSat) ∧
    requantise 2 false (rmode 0) 7 16640 0xFFFFFFFD = (0x7F, 0) ∧
    vOf 3 (after (.vrsh (xr 3 4 268 5 2 0 7)) (withV [(4, 1000), (5, 0xFFFFFFFD)])) = 5 := by
  decide

/-- R192: vshfl.mirror by 1 gives lane 0 the value of lane 1; vshfl.rotf.seg4 by 1 gives lane 3 that of lane 0. -/
theorem test_vshfl_sources : shuffleSrc 3 16 0 1 = 1 ∧ shuffleSrc 1 4 3 1 = 0 ∧ shuffleSrc 2 4 0 1 = 3 ∧ shuffleSrc 0 4 6 5 = 5 := by
  decide

/-- R184: element types; a saturating sum; an arithmetic shift by the width of the element or more. -/
theorem test_lane_elements :
    vOf 3 (after (.vaddXForm (xr 3 4 5 268 2 0 0)) (withV [(4, 0xFF01FF7F), (5, 0x01010101)])) = 0x00020080 ∧
    vOf 3 (after (.vaddXForm (xr 3 4 5 268 2 8 0)) (withV [(4, 0xFF01FF7F), (5, 0x01010101)])) = 0x0002007F ∧
    vOf 3 (after (.vmulXForm (xr 3 4 5 268 0 0 0)) (withV [(4, 0x10000), (5, 0x10001)])) = 0x00010000 := by
  decide

/-- R190: vpack without .sat keeps the low bits, with it clamps; vunpk.hi extends the high half. -/
theorem test_pack_values :
    packLanes 1 false false 0x18000 0x7FFF = (0x7FFF8000, 0) ∧ packLanes 1 false true 0x18000 0x7FFF = (0x7FFF7FFF, excSat) ∧
    unpackLanes 1 true false 0x8000FFFF = 0xFFFF8000 ∧ unpackLanes 1 true true 0x8000FFFF = 0x8000 := by
  decide

/-- The chapter's four conversions that pack E4M3 values, with their flags, and the two remarks below them (R204, R205). -/
theorem test_fcvt_values :
    convertLane (.float fp32) (.float e4m3) (floatMods 8) 0 0x3F800000 0 = (0x38, 0) ∧
    convertLane (.float fp32) (.float e4m3) (floatMods 8) 1 0x3DCCCCCD 0x38 = (0x1D38, excX) ∧
    convertLane (.float fp32) (.float e4m3) (floatMods 8) 2 0x43FA0000 0x1D38 = (0x7E1D38, excO ||| excX ||| excSat) ∧
    convertLane (.float fp32) (.float e4m3) (floatMods 8) 3 0xBB800000 0x7E1D38 = (0x827E1D38, 0) ∧
    convertLane (.float fp32) (.float e4m3) (floatMods 0) 2 0x43FA0000 0x1D38 = (0x7F1D38, excO ||| excX) ∧
    convertLane (.float fp32) (.float e4m3) (floatMods 24) 3 0xBB800000 0x7E1D38 = (0x807E1D38, excU ||| excX) ∧
    vOf 1 (after (.fcvt (xr 1 4 1 268 0x30 8 1)) (withV [(4, 0x3DCCCCCD), (1, 0x38)])) = 0x1D38 := by
  decide

/-- R205: 70,000 to FP16 is +∞ with O and X. -/
theorem test_fcvt_overflow : convElem (.int 32 false) (.float fp16) (floatMods 0) 70000 = (0x7C00, excO ||| excX) := by
  decide

/-- R199, R200: 1 + 2 = 3; fmin(−0, +0) is −0 and fmax(+0, −0) is +0; fmin(NaN, 3) is the canonical NaN and fminn(NaN, 3) is 3. -/
theorem test_float_values :
    vOf 3 (after (.faddSForm ⟨0, 0, 0, 15, 16, 17⟩) (withV [(4, 0x3F800000), (5, 0x40000000)])) = 0x40400000 ∧
    (floatMinMax 0 0 (floatMods 0) 0x80000000 0).1 = 0x80000000 ∧ (floatMinMax 1 0 (floatMods 0) 0 0x80000000).1 = 0 ∧
    (floatMinMax 0 0 (floatMods 0) 0x7FC12345 0x40400000).1 = 0x7FC00000 ∧
    (floatMinMax 2 0 (floatMods 0) 0x7FC12345 0x40400000).1 = 0x40400000 := by
  decide

/-- R201: the sign operations work on bits alone, a NaN's payload among them. -/
theorem test_sign_bits :
    vOf 3 (after (.fneg (xr 3 4 268 268 0 0 0)) (withV [(4, 0x7F812345)])) = 0xFF812345 ∧
    vOf 3 (after (.fcpys (xr 3 4 5 268 8 0 0)) (withV [(4, 0x7F812345), (5, 0x80000000)])) = 0xFF812345 := by
  decide

/-- R206: a square root is rounded correctly; the reciprocal of 2 is one half. -/
theorem test_special_values :
    floatSpecial 0x5A 0 (floatMods 0) 0x40800000 = (0x40000000, 0) ∧ floatSpecial 0x5A 0 (floatMods 0) 0x40000000 = (0x3FB504F3, excX) ∧
    (floatSpecial 0x58 0 (floatMods 0) 0x40000000).1 = 0x3F000000 := by
  decide

/-- R154: bru takes the branch when the comparison holds, else goes on at the next instruction. -/
theorem test_branch_uniform :
    offsetOf (after (.bru (xr 268 3 268 268 0 0 36)) (withS [(3, 0)])) = offsetOf small + 36 ∧
    offsetOf (after (.bru (xr 268 3 268 268 1 0 36)) (withS [(3, 0)])) = offsetOf small + 12 := by
  decide

/-- R155: call pushes the return offset, and a return from an empty stack faults. -/
theorem test_call_pushes :
    ((at_ (after (.call (xr 268 268 268 268 0 0 24)) small)).b.slices[0]?.map Slice.call) = some [offsetOf small + 12] := by
  decide

/-- R8: the HBM rails come up before the core rails, and reset stays held. -/
theorem test_power_up :
    (next (execPowerRailEnable State.reset)).hbmRails = true ∧ (next (execPowerRailEnable State.reset)).rails = false ∧
    (next (execPowerRailEnable (next (execPowerRailEnable State.reset)))).rails = true ∧
    (next (execPowerRailEnable (next (execPowerRailEnable State.reset)))).resetHeld = true := by
  decide

/-- The lanes of a 32-lane lds.b32 whose addresses lie a stride apart. -/
def strided (n : Nat) : List (Nat × Nat × Nat) := (List.range 32).map (fun l => (l, l * n, 4))

/-- R220: the strides of its table, and a .b128 pass, whose lanes make four requests each. -/
theorem test_bank_conflicts :
    bankExtra (strided 4) = 0 ∧ bankExtra (strided 8) = 1 ∧ bankExtra (strided 128) = 31 ∧ bankExtra (strided 132) = 0 ∧
    bankExtra (strided 0) = 0 ∧ bankExtra ((List.range 32).map (fun l => (l, 16 * l, 16))) = 3 := by
  decide

/-- IEEE 802.3 (R12): the check value of CRC-32 over the digits 1 to 9. -/
theorem test_crc32 : crc32 [0x31, 0x32, 0x33, 0x34, 0x35, 0x36, 0x37, 0x38, 0x39] = 0xCBF43926 := by
  decide

/-- R11, R12: a frame that is not the last of its message is taken: its bytes wait for the rest, and its LSN is the last received. -/
theorem test_receive_frame : (match State.receive { small with arriving :=
    [TxFrame.bytes { kind := 22, first := true, last := false, msg := 9, payload := [0, 1] } 0 none] } with
    | .next t => t.link.rxBody == [0, 1] && t.link.rxLast == some 0 | _ => false) = true := by
  decide +kernel

/-- R351, R408: a PARTATTR of a partition with a resident gang answers status 3, its body being the partition and the value. -/
theorem test_message_body : (match State.deliverMessage small 22 9 1 [0, 1] with
    | .next t => t.out.getLast? == some (.reply 9 3 []) | _ => false) = true := by
  decide +kernel

/-- FIPS 180-4 (R13): the digest of the letters abc. -/
theorem test_sha256 :
    sha256 [0x61, 0x62, 0x63] = be32Bytes 0xBA7816BF8F01CFEA414140DE5DAE2223B00361A396177A9CB410FF61F20015AD := by
  decide +kernel

/-- RFC 6979, A.2.5 (R13): the public key of its example, its digest and its signature over P-256. -/
def rfcKey : List Byte :=
  be32Bytes 0x60FED4BA255A9D31C961EB74C6356D68C049B8923B61FA6CE669622E60F29FB6 ++
    be32Bytes 0x7903FE1008B8BC99A41AE9E95628BC64F2F1B20C2D7E9F5177A3C294D4462299
def rfcDigest : List Byte := be32Bytes 0xAF2BDBE1AA9B6EC1E2ADE1D694F41FC71A831D0268E9891562113D8A62ADD1BF
def rfcSignature : List Byte :=
  be32Bytes 0xEFD48B2AACB6A8FD1140DD9CD45E81D69D2C877B56AAF991C34D0EA84EAF3716 ++
    be32Bytes 0xF7CB1C942D657C41D436C7A1B6E29F65F3E900DBB9AFF4064DC4AB2F843ACDA8
theorem test_ecdsa : ecdsaVerify rfcKey rfcSignature rfcDigest = true := by
  decide +kernel

/-- R68: N of minus one and the NaN flag, bits 0 to 96. -/
theorem test_wire_word : Wire.word ⟨-1, true, false, false, false, false⟩ = (1 <<< 97) - 1 := by
  decide

end Sys2Proof.Tests
end

section
/-!
PROOF. The invariant of the module (O60): what it means for outcomes, effects and acquires, and what it asks of the link.
-/

namespace Sys2Proof.Machine

/-! ## The invariant of a step's outcome -/

/-- A next state meets the invariant. -/
def Keeps (r : Host.Outcome State Fault Refusal) : Prop := ∀ t, r = .next t → t.Inv

/-- The state that an effect hands on meets the invariant. -/
def Eff.Inv : Eff → Prop
  | .hold _ => True
  | .done s | .moved s | .wait _ s | .fault _ s | .yielded _ _ _ s => s.Inv

/-- The state that an acquire hands on meets the invariant. -/
def Got.Inv : Got → Prop
  | .wait _ => True
  | .fault _ s | .bytes _ s => s.Inv

/-- What a sub-bundle's turn is prepared to, an outcome or a state to run an instruction in, meets the invariant. -/
def Ready.Inv : Ready → Prop
  | .out o => Keeps o
  | .run _ s => s.Inv

section
variable {s t : State}

@[simp] theorem Eff.inv_hold (r : Nat) : (Eff.hold r).Inv := trivial
@[simp] theorem Eff.inv_done : (Eff.done s).Inv ↔ s.Inv := .rfl
@[simp] theorem Eff.inv_moved : (Eff.moved s).Inv ↔ s.Inv := .rfl
@[simp] theorem Eff.inv_wait (w : Wait) : (Eff.wait w s).Inv ↔ s.Inv := .rfl
@[simp] theorem Eff.inv_fault (f : FaultInfo) : (Eff.fault f s).Inv ↔ s.Inv := .rfl
@[simp] theorem Eff.inv_yielded (deadline live : Nat) (stop : Bool) : (Eff.yielded deadline live stop s).Inv ↔ s.Inv := .rfl

@[simp] theorem Got.inv_wait (r : Nat) : (Got.wait r).Inv := trivial
@[simp] theorem Got.inv_fault (f : FaultInfo) : (Got.fault f s).Inv ↔ s.Inv := .rfl
@[simp] theorem Got.inv_bytes (bs : List Byte) : (Got.bytes bs s).Inv ↔ s.Inv := .rfl

@[simp] theorem Ready.inv_out (o : Host.Outcome State Fault Refusal) : (Ready.out o).Inv ↔ Keeps o := .rfl
@[simp] theorem Ready.inv_run (i : Instr) : (Ready.run i s).Inv ↔ s.Inv := .rfl

@[simp] theorem keeps_next : Keeps (.next t) ↔ t.Inv :=
  ⟨fun h => h t rfl, fun h _ e => by cases e; exact h⟩

@[simp] theorem keeps_fault (r : Fault) : Keeps (.fault r) := fun _ e => nomatch e

@[simp] theorem keeps_refused (r : Refusal) : Keeps (.refused r) := fun _ e => nomatch e

/-- The invariant speaks of five fields, and of lists among them by their length alone. -/
theorem State.inv_congr (mem : t.mem = s.mem) (dies : t.dies.length = s.dies.length) (parts : t.parts.length = s.parts.length)
    (phase : t.phase = s.phase) (frames : t.link.unacked.length ≤ 1024 ↔ s.link.unacked.length ≤ 1024) : t.Inv ↔ s.Inv := by
  constructor
  · intro ⟨hm, hd, hp, hph, hf⟩
    exact ⟨mem ▸ hm, dies ▸ hd, parts ▸ hp, phase ▸ hph, frames.1 hf⟩
  · intro ⟨hm, hd, hp, hph, hf⟩
    exact ⟨mem ▸ hm, dies ▸ hd, parts ▸ hp, phase ▸ hph, frames.2 hf⟩
end

/-- A change of other fields leaves the invariant as it was. -/
@[simp] theorem State.inv_with (s : State) (a b c e : Bool) (flash : Flash) (roms : List (List Byte)) (devtime psRem : Nat)
    (attest : List (MsgId × List Byte)) (out : List OutMsg) (segs : List Segment) (xviews : List XView) (groups : List CollGroup)
    (leases : List Lease) (invals : List InvalReq) (crews : List Crew) (gangs : List Gang) (cores : List Core) (absent poison : List Nat)
    (memOps : List MemOp) (batches : List InvalBatch) (ops : List EngOp) (carries : List CarryMsg) (remotes : List RemoteArr)
    (colls : List CollState) (fabric : List FabricOut) (revoked : List Nat) (ownRevoked : List (BitVec 16)) (sxEntries : List SxEntry)
    (sxProgs : List SxProg) (sxRuns : List SxRun) (halts : List PendingHalt) (inputs : List Turn) (arriving : List (List Byte))
    (trainFault : Option (Nat × Nat)) (cur : Option Issuer) (tick draws nextId : Nat) (running : Bool) :
    State.Inv ⟨s.phase, a, b, c, e, s.link, flash, roms, s.dies, devtime, psRem, running, attest, out, s.parts, segs, xviews, groups,
      leases, invals, crews, gangs, cores, s.mem, absent, poison, memOps, batches, ops, carries, remotes, colls, fabric, revoked,
      ownRevoked, sxEntries, sxProgs, sxRuns, halts, inputs, arriving, trainFault, cur, tick, draws, nextId⟩ ↔ s.Inv :=
  State.inv_congr rfl rfl rfl rfl .rfl

@[simp] theorem State.inv_ite {s t : State} (p : Prop) [Decidable p] : (if p then s else t).Inv ↔ if p then s.Inv else t.Inv := by
  split <;> rfl

@[simp] theorem keeps_ite {a b : Host.Outcome State Fault Refusal} (p : Prop) [Decidable p] :
    Keeps (if p then a else b) ↔ if p then Keeps a else Keeps b := by
  split <;> rfl

@[simp] theorem Eff.inv_ite {a b : Eff} (p : Prop) [Decidable p] : (if p then a else b).Inv ↔ if p then a.Inv else b.Inv := by
  split <;> rfl

/-! ## Lists and the link -/

@[simp] theorem setNth_length {α : Type} (xs : List α) (n : Nat) (y : α) : (setNth xs n y).length = xs.length := by
  induction xs generalizing n with
  | nil => rfl
  | cons x xs ih => cases n <;> simp [setNth, ih]

@[simp] theorem modNth_length {α : Type} (xs : List α) (n : Nat) (f : α → α) : (modNth xs n f).length = xs.length := by
  induction xs generalizing n with
  | nil => rfl
  | cons x xs ih => cases n <;> simp [modNth, ih]

/-- Every frame that goes out joins the unacknowledged ones. -/
theorem Link.emit_unacked_length (fs : List TxFrame) (l : Link) :
    (fs.foldl Link.emit l).unacked.length = l.unacked.length + fs.length := by
  induction fs generalizing l with
  | nil => rfl
  | cons f fs ih =>
    simp only [List.foldl_cons, ih, Link.emit, List.length_append, List.length_cons, List.length_nil]
    omega

/-- Frames go out only while fewer than 1,024 are unacknowledged (R12). -/
@[simp] theorem Link.pump_frames (l : Link) : l.pump.unacked.length ≤ 1024 ↔ l.unacked.length ≤ 1024 := by
  unfold Link.pump
  split
  · rfl
  · simp only [emit_unacked_length, List.length_take]
    omega

@[simp] theorem Link.post_frames (l : Link) (kind : Nat) (body : List Byte) :
    (l.post kind body).unacked.length ≤ 1024 ↔ l.unacked.length ≤ 1024 :=
  Link.pump_frames _

theorem Link.acked_frames {l : Link} (h : l.unacked.length ≤ 1024) (lsn : BitVec 16) : (l.acked lsn).unacked.length ≤ 1024 := by
  unfold Link.acked
  split
  · refine (Link.pump_frames _).2 ((List.drop_sublist _ _).trans (List.dropWhile_sublist _) |>.length_le.trans h)
  · exact h

/-! ## The operations on the state (Machine/Ops.lean) -/

section
variable {s t : State}

theorem State.foldl_inv {α : Type} {f : State → α → State} (hf : ∀ t x, t.Inv → (f t x).Inv) (h : s.Inv) (xs : List α) :
    (xs.foldl f s).Inv := by
  induction xs generalizing s with
  | nil => exact h
  | cons x xs ih => exact ih (hf s x h)

/-- A fold that carries data beside the state. -/
theorem State.foldl_fst_inv {α β : Type} {f : State × β → α → State × β} (hf : ∀ t c x, t.Inv → (f (t, c) x).1.Inv) (h : s.Inv)
    (c : β) (xs : List α) : (xs.foldl f (s, c)).1.Inv := by
  induction xs generalizing s c with
  | nil => exact h
  | cons x xs ih => exact ih (hf s c x h) _

@[simp] theorem State.foldl_inv_iff {α : Type} {f : State → α → State} (hf : ∀ t x, (f t x).Inv ↔ t.Inv) (xs : List α) :
    (xs.foldl f s).Inv ↔ s.Inv := by
  induction xs generalizing s with
  | nil => rfl
  | cons x xs ih => exact ih.trans (hf s x)

@[simp] theorem State.putBytes_inv (h : s.Inv) (a : Nat) (bs : List Byte) : (s.putBytes a bs).Inv :=
  ⟨State.putBytes_wf h.mem a bs, h.dies, h.parts, h.phase, h.frames⟩

@[simp] theorem State.clearPad_inv (h : s.Inv) (a n : Nat) : (s.clearPad a n).Inv :=
  ⟨State.clearPad_wf h.mem a n, h.dies, h.parts, h.phase, h.frames⟩

@[simp] theorem State.modDie_inv (d : Nat) (f : Die → Die) : (s.modDie d f).Inv ↔ s.Inv :=
  State.inv_congr rfl (modNth_length _ _ _) rfl rfl .rfl

@[simp] theorem State.mapDies_inv (f : Nat → Die → Die) : (s.mapDies f).Inv ↔ s.Inv :=
  State.inv_congr rfl (by simp [State.mapDies]) rfl rfl .rfl

@[simp] theorem State.modPart_inv (p : Nat) (f : Partition → Partition) : (s.modPart p f).Inv ↔ s.Inv :=
  State.inv_congr rfl rfl (modNth_length _ _ _) rfl .rfl

@[simp] theorem State.send_inv (m : OutMsg) : (s.send m).Inv ↔ s.Inv :=
  State.inv_congr rfl rfl rfl rfl (Link.post_frames _ _ _)

@[simp] theorem State.received_inv (n : Nat) : (s.received n).Inv ↔ s.Inv :=
  State.inv_congr rfl rfl rfl rfl .rfl

end

end Sys2Proof.Machine
end

section
/-!
PROOF. Every operation on the state keeps the invariant, file by file of the model. An operation that writes no memory does so in both
directions; one that writes memory keeps it canonical (Sys2Proof/WellFormed).
-/

namespace Sys2Proof.Machine

variable {s t : State}

/-! ### Machine/Ops.lean -/

@[simp] theorem State.modCore_inv {die core : Nat} {f : Core → Core} : (s.modCore die core f).Inv ↔ s.Inv := by simp [State.modCore]
@[simp] theorem State.modGang_inv {gid : Nat} {f : Gang → Gang} : (s.modGang gid f).Inv ↔ s.Inv := by simp [State.modGang]
@[simp] theorem State.modCrew_inv {cid : Nat} {f : Crew → Crew} : (s.modCrew cid f).Inv ↔ s.Inv := by simp [State.modCrew]

@[simp] theorem State.modRecord_inv {d arrival : Nat} {f : Record → Record} : (s.modRecord d arrival f).Inv ↔ s.Inv := by
  simp [State.modRecord]

@[simp] theorem State.modBundle_inv {gid b : Nat} {f : Bundle → Bundle} : (s.modBundle gid b f).Inv ↔ s.Inv := by simp [State.modBundle]
@[simp] theorem State.draw_inv : (s.draw).2.Inv ↔ s.Inv := by simp [State.draw]
@[simp] theorem State.reply_inv {m : MsgId} {status : Nat} : (s.reply m status).Inv ↔ s.Inv := by simp [State.reply]

@[simp] theorem State.notice_inv {kind part die detail : Nat} {lid : W64} {body : List Byte} :
    (s.notice kind part die detail lid body).Inv ↔ s.Inv := by
  simp [State.notice]

@[simp] theorem State.moduleError_inv {die reason : Nat} {vals : List Nat} : (s.moduleError die reason vals).Inv ↔ s.Inv := by
  simp [State.moduleError]

@[simp] theorem State.refuse_inv {m : MsgId} : (s.refuse m).Inv ↔ s.Inv := by simp [State.refuse]
@[simp] theorem State.abandonCrew_inv {cid : Nat} : (s.abandonCrew cid).Inv ↔ s.Inv := by simp [State.abandonCrew]

@[simp] theorem State.killBundle_inv {gid b : Nat} : (s.killBundle gid b).Inv ↔ s.Inv := by
  simp only [State.killBundle]
  split <;> simp

@[simp] theorem State.stopEnded_inv {cid : Nat} : (s.stopEnded cid).Inv ↔ s.Inv := by simp [State.stopEnded]
@[simp] theorem State.endCrew_inv {cid : Nat} : (s.endCrew cid).Inv ↔ s.Inv := by simp [State.endCrew]

@[simp] theorem State.dueEnd_inv {gid : Nat} : (s.dueEnd gid).Inv ↔ s.Inv := by
  simp only [State.dueEnd]
  (repeat' split) <;> simp

@[simp] theorem State.requestStop_inv {cid reason : Nat} : (s.requestStop cid reason).Inv ↔ s.Inv := by simp [State.requestStop]
@[simp] theorem State.perfWith_inv {g : Gang} {ev reason n : Nat} : (s.perfWith g ev reason n).Inv ↔ s.Inv := by simp [State.perfWith]
@[simp] theorem State.perf_inv {g : Gang} {ev n : Nat} : (s.perf g ev n).Inv ↔ s.Inv := by simp [State.perf]
@[simp] theorem State.countUe_inv {g : Gang} : (s.countUe g).Inv ↔ s.Inv := by simp [State.countUe]

@[simp] theorem State.faultHalt_inv {g : Gang} {image : List Byte} {w : FaultAt} : (s.faultHalt g w image).Inv ↔ s.Inv := by
  simp [State.faultHalt]

@[simp] theorem State.takeFault_inv {f : FaultInfo} {w : FaultAt} : (s.takeFault w f).Inv ↔ s.Inv := by
  simp only [State.takeFault]
  (repeat' split) <;> simp

/-! ### Machine/Translate.lean -/

@[simp] theorem State.carryClock_inv {src dst : Nat} : (s.carryClock src dst).Inv ↔ s.Inv := by simp [State.carryClock]

@[simp] theorem State.dropLines_inv {d : Nat} {hit : Nat → Bool} {lines : List Nat} : (s.dropLines d hit lines).Inv ↔ s.Inv := by
  simp [State.dropLines]

@[simp] theorem State.invalidate_inv {home : Nat} {except : Option (Nat × Nat)} {lines : List Nat} :
    (s.invalidate home except lines).Inv ↔ s.Inv := by
  simp only [State.invalidate]
  split <;> simp [↓State.inv_with]

@[simp] theorem State.writeHome_inv {except : Option (Nat × Nat)} {loc : Nat} {bs : List Byte} (h : s.Inv) :
    (s.writeHome except loc bs).Inv := by
  simp [State.writeHome, h]

@[simp] theorem State.writeRuns_inv {except : Option (Nat × Nat)} {rs : List (Nat × Nat)} {bs : List Byte} (h : s.Inv) :
    (s.writeRuns except rs bs).Inv := by
  induction rs generalizing s bs with
  | nil => exact h
  | cons r rs ih => exact ih (State.writeHome_inv h)

@[simp] theorem State.touchRange_inv {part cls fuel va n : Nat} : (s.touchRange part cls fuel va n).Inv ↔ s.Inv := by
  induction fuel generalizing s va n with
  | zero => rfl
  | succ fuel ih =>
    unfold State.touchRange
    split
    · rfl
    · refine ih.trans ?_
      split <;> simp

@[simp] theorem State.useRange_inv {die part cls va n : Nat} : (s.useRange die part cls va n).Inv ↔ s.Inv := by simp [State.useRange]

theorem State.writeVa_inv {die part kind va : Nat} {bs : List Byte} (h : s.Inv) (e : s.writeVa die part kind va bs = some t) : t.Inv := by
  obtain ⟨rs, -, rfl⟩ := Option.map_eq_some_iff.1 e
  simp [h]

/-- A write to global memory that is left out when it is refused. -/
@[simp] theorem State.writeVa_getD_inv {die part kind va : Nat} {bs : List Byte} (h : s.Inv) :
    ((s.writeVa die part kind va bs).getD s).Inv := by
  cases e : s.writeVa die part kind va bs with
  | none => exact h
  | some t => exact State.writeVa_inv h e

@[simp] theorem State.hearRange_inv {die va : Nat} : (s.hearRange die va).Inv ↔ s.Inv := by simp [State.hearRange]

@[simp] theorem State.logViolation_inv {part die va agentIdx agentType kind rdie : Nat} (h : s.Inv) :
    (s.logViolation part die va agentIdx agentType kind rdie).Inv := by
  simp only [State.logViolation]
  split
  · exact h
  · split
    next hw => exact State.writeVa_inv (by simpa using h) hw
    next => split <;> simp [h]

@[simp] theorem State.logAccess_inv {part va agentIdx agentType kind rdie : Nat} (h : s.Inv) :
    (s.logAccess part va agentIdx agentType kind rdie).Inv := by
  simp [State.logAccess, h]

@[simp] theorem State.logFault_inv {g : Gang} {kind : Nat} {f : FaultInfo} (h : s.Inv) : (s.logFault g kind f).Inv := by
  simp [State.logFault, h]

@[simp] theorem State.putRuns_inv {rs : List (Nat × Nat)} {bs : List Byte} (h : s.Inv) : (s.putRuns rs bs).Inv := by
  induction rs generalizing s bs with
  | nil => exact h
  | cons r rs ih => exact ih (State.putBytes_inv h _ _)

@[simp] theorem State.writeView_inv {g : Gang} {a : Nat} {bs : List Byte} (h : s.Inv) : (s.writeView g a bs).Inv := by
  simp [State.writeView, h]

@[simp] theorem State.logView_inv {g : Gang} {a kind : Nat} (h : s.Inv) : (s.logView g a kind).Inv := by simp [State.logView, h]

/-! ### Machine/WatchMatch.lean -/

@[simp] theorem State.modSextant_inv {part die gid e : Nat} {f : SxCopy → SxCopy} : (s.modSextant part die e gid f).Inv ↔ s.Inv := by
  simp [State.modSextant]

@[simp] theorem State.countHit_inv {g : Gang} {v : WatchEvent} {h : Hit} : (s.countHit g v h).Inv ↔ s.Inv := by simp [State.countHit]

@[simp] theorem State.noticeHit_inv {g : Gang} {die entry : Nat} {report : List Byte} : (s.noticeHit g die entry report).Inv ↔ s.Inv := by
  simp [State.noticeHit]

@[simp] theorem State.notifyHit_inv {g : Gang} {v : WatchEvent} {h : Hit} : (s.notifyHit g v h).Inv ↔ s.Inv := by simp [State.notifyHit]

@[simp] theorem State.queueRun_inv {g : Gang} {v : WatchEvent} {ev : Nat} {h : Hit} {waits : Option Nat} :
    (s.queueRun g v ev h waits).Inv ↔ s.Inv := by
  simp [State.queueRun]

@[simp] theorem State.askHalt_inv {g : Gang} {v : WatchEvent} {ev : Nat} {hs : List Hit} : (s.askHalt g v ev hs).Inv ↔ s.Inv := by
  simp only [State.askHalt]
  (repeat' split) <;> simp

@[simp] theorem State.holdOp_inv {op : Option Nat} : (s.holdOp op).Inv ↔ s.Inv := by
  simp only [State.holdOp]
  split <;> simp

@[simp] theorem State.observe_inv {v : WatchEvent} {waits : Option Nat} : (s.observe v waits).Inv ↔ s.Inv := by
  simp only [State.observe]
  split <;> simp

@[simp] theorem State.observeEach_inv {v : WatchEvent} {step : Nat} {bs : List Byte} : (s.observeEach v step bs).Inv ↔ s.Inv := by
  simp [State.observeEach]

@[simp] theorem State.seeGlobal_inv {v : WatchEvent} {step : Nat} {bs : List Byte} : (s.seeGlobal v step bs).Inv ↔ s.Inv := by
  simp [State.seeGlobal]

@[simp] theorem State.seeView_inv {v : WatchEvent} {owner step : Nat} {bs : List Byte} : (s.seeView v owner step bs).Inv ↔ s.Inv := by
  simp [State.seeView]

/-! ### Machine/Issue.lean -/

@[simp] theorem State.setS_inv {x : Ctx} {code : Nat} {v : W64} : (s.setS x code v).Inv ↔ s.Inv := by simp [State.setS]
@[simp] theorem State.setPair_inv {x : Ctx} {code v : Nat} : (s.setPair x code v).Inv ↔ s.Inv := by simp [State.setPair]

@[simp] theorem State.releaseOp_inv {op : Option Nat} : (s.releaseOp op).Inv ↔ s.Inv := by
  simp only [State.releaseOp]
  split <;> simp

@[simp] theorem State.keepHalt_inv {h : PendingHalt} : (s.keepHalt h).Inv ↔ s.Inv := by
  simp only [State.keepHalt]
  split <;> simp

@[simp] theorem State.answerHalt_inv {status : Nat} {h : PendingHalt} : (s.answerHalt h status).Inv ↔ s.Inv := by
  simp only [State.answerHalt]
  split <;> simp

@[simp] theorem State.makeHalt_inv {h0 : PendingHalt} : (s.makeHalt h0).Inv ↔ s.Inv := by
  simp only [State.makeHalt]
  (repeat' split) <;> simp

@[simp] theorem State.performHalt_inv {h : PendingHalt} : (s.performHalt h).Inv ↔ s.Inv := by simp [State.performHalt]
@[simp] theorem State.dueHalts_inv {gid b : Nat} : (s.dueHalts gid b).Inv ↔ s.Inv := by simp [State.dueHalts]

@[simp] theorem State.endStep_inv {x : Ctx} : (s.endStep x).Inv ↔ s.Inv := by
  simp only [State.endStep]
  (repeat' split) <;> simp

@[simp] theorem State.completeSub_inv {x : Ctx} : (s.completeSub x).Inv ↔ s.Inv := by simp [State.completeSub]

@[simp] theorem State.countIssue_inv {x : Ctx} {passes lanes : Nat} : (s.countIssue x passes lanes).Inv ↔ s.Inv := by
  simp [State.countIssue]

@[simp] theorem State.charge_inv {x : Ctx} : (s.charge x).Inv ↔ s.Inv := by simp [State.charge]
@[simp] theorem State.hold_inv {x : Ctx} {reason : Nat} : (s.hold x reason).Inv ↔ s.Inv := by simp [State.hold]
@[simp] theorem State.countPass_inv {x : Ctx} {lanes : Nat} : (s.countPass x lanes).Inv ↔ s.Inv := by simp [State.countPass]
@[simp] theorem State.countBank_inv {x : Ctx} {i : Instr} : (s.countBank x i).Inv ↔ s.Inv := by simp [State.countBank]

/-- The end of a uniform instruction hands on the state of its effect, or, where it is held, the state that it began in. -/
@[simp] theorem State.finishUniform_inv {x : Ctx} {control : Bool} {len : Nat} {e : Eff} (h : s.Inv) (he : e.Inv) :
    (s.finishUniform x control len e).Inv := by
  cases e with
  | hold r => simpa [State.finishUniform] using h
  | fault f s => simpa [State.finishUniform] using he
  | done s => simpa [State.finishUniform] using he
  | moved s => simpa [State.finishUniform] using he
  | wait w s => simpa [State.finishUniform] using he
  | yielded deadline live stop s => simpa [State.finishUniform] using he

@[simp] theorem State.finishPass_inv {x : Ctx} {len : Nat} : (s.finishPass x len).Inv ↔ s.Inv := by
  simp only [State.finishPass]
  split <;> simp

@[simp] theorem State.waitPass_inv {x : Ctx} {w : Wait} : (s.waitPass x w).Inv ↔ s.Inv := by simp [State.waitPass]

@[simp] theorem State.deliverPass_inv {x : Ctx} {w : XWord} {ls : List Nat} {f : Nat → Lane → LaneResult} :
    (s.deliverPass x w ls f).Inv ↔ s.Inv := by
  simp [State.deliverPass]

/-! ### Machine/MemAccess.lean -/

@[simp] theorem State.logIssue_inv {g : Gang} {f : FaultInfo} {m : MemInfo} (h : s.Inv) : (s.logIssue g m f).Inv := by
  simp [State.logIssue, h]

@[simp] theorem State.logPrecheck_inv {x : Ctx} {i : Instr} {f : FaultInfo} (h : s.Inv) : (s.logPrecheck x i f).Inv := by
  simp only [State.logPrecheck]
  split <;> simp [h]

@[simp] theorem State.padAccess_inv {t : Gang} {m : MemInfo} {a : Nat} {data cmp : List Byte} (h : s.Inv) :
    (s.padAccess t m a data cmp).1.Inv := by
  simp only [State.padAccess]
  split
  · exact h
  · split <;> exact State.writeView_inv h

@[simp] theorem State.countConflicts_inv {g : Gang} {b k n : Nat} : (s.countConflicts g b k n).Inv ↔ s.Inv := by simp [State.countConflicts]

@[simp] theorem State.padPass_inv {x : Ctx} {m : MemInfo} {w : XWord} {ls : List Nat} (h : s.Inv) : (s.padPass x m w ls).Inv := by
  refine State.foldl_inv (fun t q ht => ?_) h _
  simp [ht]

@[simp] theorem State.memPass_inv {x : Ctx} {w : XWord} {ls : List Nat} {m : MemInfo} (h : s.Inv) : (s.memPass x m w ls).Inv := by
  simp [State.memPass, h]

@[simp] theorem State.deliverScalar_inv {x : Ctx} {kind wd dest : Nat} {data : List Byte} :
    (s.deliverScalar x kind wd dest data).Inv ↔ s.Inv := by
  simp [State.deliverScalar]

@[simp] theorem State.setPresence_inv {g : Gang} {a n : Nat} {present : Bool} : (s.setPresence g a n present).Inv ↔ s.Inv := by
  simp [State.setPresence]

/-! ### Machine/MemSystem.lean -/

@[simp] theorem State.modMemOp_inv {id : Nat} {f : MemOp → MemOp} : (s.modMemOp id f).Inv ↔ s.Inv := by simp [State.modMemOp]
@[simp] theorem State.modReq_inv {id lane : Nat} {f : LaneReq → LaneReq} : (s.modReq id lane f).Inv ↔ s.Inv := by simp [State.modReq]
@[simp] theorem State.dropMemOp_inv {id : Nat} : (s.dropMemOp id).Inv ↔ s.Inv := by simp [State.dropMemOp]
@[simp] theorem State.finishMem_inv {x : Ctx} {o : MemOp} : (s.finishMem x o).Inv ↔ s.Inv := by simp [State.finishMem, State.finishUniform]

@[simp] theorem State.resolveMem_inv {id : Nat} : (s.resolveMem id).Inv ↔ s.Inv := by
  simp only [State.resolveMem]
  (repeat' split) <;> simp

@[simp] theorem State.failReq_inv {err : List Nat} {o : MemOp} {r : LaneReq} (h : s.Inv) : (s.failReq o r err).Inv := by
  simp only [State.failReq]
  (repeat' split) <;> simp [h]

@[simp] theorem State.touchLine_inv {part d slice loc attr : Nat} : (s.touchLine part d slice loc attr).Inv ↔ s.Inv := by
  simp [State.touchLine]

@[simp] theorem State.translated_inv {g : Gang} {leaf base size : Nat} {o : MemOp} {r : LaneReq} (h : s.Inv) :
    (s.translated o r g leaf base size).Inv := by
  simp [State.translated, h]

@[simp] theorem State.answerStores_inv : s.answerStores.Inv ↔ s.Inv := by
  simp only [State.answerStores, State.inv_with]
  refine State.foldl_inv_iff (fun t o => ?_) _
  split <;> simp

@[simp] theorem State.storeToL1_inv {g : Gang} {va loc : Nat} {bs : List Byte} : (s.storeToL1 g va loc bs).Inv ↔ s.Inv := by
  simp [State.storeToL1]

@[simp] theorem State.performReq_inv {g : Gang} {loc : Nat} {o : MemOp} {r : LaneReq} (h : s.Inv) : (s.performReq o r g loc).Inv := by
  simp only [State.performReq]
  (repeat' split) <;> simp [h]

@[simp] theorem State.deliverMem_inv {x : Ctx} {o : MemOp} : (s.deliverMem x o).Inv ↔ s.Inv := by simp [State.deliverMem]

@[simp] theorem State.crewPerform_inv {o : MemOp} {g t : Gang} (h : s.Inv) : (s.crewPerform o g t).Inv := by
  refine State.foldl_inv (fun t r ht => ?_) h _
  simp [ht]

/-! ### Machine/Tiles.lean -/

@[simp] theorem State.xvUse_inv {part fuel va n : Nat} : (s.xvUse part fuel va n).Inv ↔ s.Inv := by
  induction fuel generalizing s va n with
  | zero => rfl
  | succ fuel ih =>
    simp only [State.xvUse]
    split
    · rfl
    · split
      · rfl
      · rw [ih]
        split <;> simp

@[simp] theorem State.xvUsed_inv {part va n : Nat} : (s.xvUsed part va n).Inv ↔ s.Inv := by simp [State.xvUsed]
@[simp] theorem State.dropOwn_inv {g : Gang} {rs : List (Nat × Nat)} : (s.dropOwn g rs).Inv ↔ s.Inv := by simp [State.dropOwn]
@[simp] theorem State.tookAs_inv {die part cls va n : Nat} : (s.tookAs die part cls va n).Inv ↔ s.Inv := by simp [State.tookAs]
@[simp] theorem State.tookRange_inv {g : Gang} {va n : Nat} : (s.tookRange g va n).Inv ↔ s.Inv := by simp [State.tookRange]

/-! ### Machine/Coded.lean -/

@[simp] theorem State.seeRead_inv {x : Ctx} {view : Bool} {addr : Nat} {bs : List Byte} : (s.seeRead x view addr bs).Inv ↔ s.Inv := by
  simp [State.seeRead]

@[simp] theorem State.setHandle_inv {gid n : Nat} {h : Option Handle} : (s.setHandle gid n h).Inv ↔ s.Inv := by simp [State.setHandle]
@[simp] theorem State.modOp_inv {id : Nat} {f : EngOp → EngOp} : (s.modOp id f).Inv ↔ s.Inv := by simp [State.modOp]
@[simp] theorem State.dropOp_inv {id : Nat} : (s.dropOp id).Inv ↔ s.Inv := by simp [State.dropOp]

@[simp] theorem State.endDec_inv {x : Ctx} {o : EngOp} {e : Eff} (h : s.Inv) (he : e.Inv) : (s.endDec x o e).Inv := by
  cases e with
  | fault f s => simpa [State.endDec] using he
  | done s => simpa [State.endDec, State.finishUniform] using he
  | hold r => exact h
  | moved s => exact h
  | wait w s => exact h
  | yielded deadline live stop s => exact h

@[simp] theorem State.texpWrite_inv {x : Ctx} {d fn rows : Nat} {xs : List Elem} : (s.texpWrite x d fn rows xs).Inv ↔ s.Inv := by
  simp [State.texpWrite]

@[simp] theorem State.texpSeen_inv {x : Ctx} {o : EngOp} : (s.texpSeen x o).Inv ↔ s.Inv := by simp [State.texpSeen]

@[simp] theorem State.tencSeen_inv {before : State} {x : Ctx} {e : IdxEntry} {n : Nat} : (s.tencSeen before x e n).Inv ↔ s.Inv := by
  simp [State.tencSeen]

/-! ### Machine/Flow.lean -/

@[simp] theorem State.modIssuing_inv {x : Ctx} {f : Slice → Slice} : (s.modIssuing x f).Inv ↔ s.Inv := by simp [State.modIssuing]
@[simp] theorem State.goto_inv {x : Ctx} {t : Nat} : (s.goto x t).Inv ↔ s.Inv := by simp [State.goto]
@[simp] theorem State.doCall_inv {x : Ctx} {t : Nat} : (s.doCall x t).Inv ↔ s.Inv := by simp [State.doCall]
@[simp] theorem State.setPlanes_inv {x : Ctx} {f : Nat → Lane → Nat} : (s.setPlanes x f).Inv ↔ s.Inv := by simp [State.setPlanes]
@[simp] theorem State.exitSlices_inv {x : Ctx} : (s.exitSlices x).Inv ↔ s.Inv := by simp [State.exitSlices]

/-! ### Machine/Engine.lean -/

@[simp] theorem State.updateTl_inv {gid eng : Nat} : (s.updateTl gid eng).Inv ↔ s.Inv := by
  simp only [State.updateTl]
  split <;> simp

@[simp] theorem State.completeOp_inv {o : EngOp} : (s.completeOp o).Inv ↔ s.Inv := by
  simp only [State.completeOp]
  split <;> simp

@[simp] theorem State.abandonChain_inv {o : EngOp} : (s.abandonChain o).Inv ↔ s.Inv := by simp [State.abandonChain]

@[simp] theorem State.faultOp_inv {o : EngOp} {f : FaultInfo} {progress : Nat} : (s.faultOp o f progress).Inv ↔ s.Inv := by
  simp [State.faultOp]

@[simp] theorem State.logEngine_inv {g : Gang} {type kind : Nat} {f : FaultInfo} (h : s.Inv) : (s.logEngine g type kind f).Inv := by
  simp [State.logEngine, h]

@[simp] theorem State.addOp_inv {o : EngOp} : (s.addOp o).Inv ↔ s.Inv := by simp [State.addOp]

/-! ### Machine/Copy.lean -/

@[simp] theorem State.clearLines_inv {o : EngOp} : (s.clearLines o).Inv ↔ s.Inv := by simp [State.clearLines]
@[simp] theorem State.landed_inv {after before : EngOp} : (s.landed before after).Inv ↔ s.Inv := by simp [State.landed]

@[simp] theorem State.startMulticasts_inv {gid : Nat} : (s.startMulticasts gid).Inv ↔ s.Inv := by
  refine State.foldl_inv_iff (fun t o => ?_) _
  split <;> simp

@[simp] theorem State.issueCopy_inv {o : EngOp} : (s.issueCopy o).Inv ↔ s.Inv := by
  simp only [State.issueCopy]
  (repeat' split) <;> simp

@[simp] theorem State.carryPoison_inv {rs : List (Nat × Nat)} {bad : List Bool} : (s.carryPoison rs bad).Inv ↔ s.Inv := by
  simp [State.carryPoison]

@[simp] theorem State.copyTook_inv {g : Gang} {o : EngOp} {r : Nat × Nat} : (s.copyTook g o r).Inv ↔ s.Inv := by simp [State.copyTook]

@[simp] theorem State.copyWrite_inv {g : Gang} {o : EngOp} {rs : List (Nat × Nat)} {bs : List Byte} {bad : List Bool} (h : s.Inv) :
    (s.copyWrite g o rs bs bad).Inv := by
  simp only [State.copyWrite]
  split
  · refine State.foldl_inv (fun t y ht => ?_) h _
    refine State.foldl_fst_inv (fun t c r ht => ?_) (by simp [ht]) _ _
    simp [ht]
  · refine State.foldl_fst_inv (fun t c r ht => ?_) h _ _
    simp [ht]

@[simp] theorem State.endCopy_inv {o : EngOp} : (s.endCopy o).Inv ↔ s.Inv := by simp [State.endCopy]

@[simp] theorem State.seeChunkReads_inv {g : Gang} {o : EngOp} {rs : List (Nat × Nat)} : (s.seeChunkReads g o rs).Inv ↔ s.Inv := by
  simp [State.seeChunkReads]

@[simp] theorem State.linearChunk_inv {g : Gang} {o : EngOp} (h : s.Inv) : (s.linearChunk g o).Inv := by
  simp only [State.linearChunk]
  (repeat' split) <;> simp [h]

@[simp] theorem State.tileChunk_inv {g : Gang} {o : EngOp} (h : s.Inv) : (s.tileChunk g o).Inv := by
  unfold State.tileChunk
  extract_lets d tc n first res entries read es stop p q o' begun pieces reads
  have hr : read.Inv := by
    simp only [read]
    split <;> simp [h]
  have hb : begun.Inv := by simpa [begun] using hr
  split
  · simp [hb]
  next seen written t _ _ =>
    have ht : t.Inv := by
      refine State.perf_inv.2 (State.foldl_inv (fun u x hu => ?_) (by simpa [seen] using hb) pieces)
      split <;> simp [hu]
    clear_value t
    split
    · exact ht
    · split
      · simpa using ht
      · split
        · dsimp only
          split <;> simp [ht]
        · simpa using ht

/-! ### Machine/Barrier.lean -/

@[simp] theorem State.putBarrier_inv {gid n : Nat} {b : Barrier} : (s.putBarrier gid n b).Inv ↔ s.Inv := by simp [State.putBarrier]

/-! ### Machine/Group.lean -/

@[simp] theorem State.modMembers_inv {cid : Nat} {f : Gang → Gang} : (s.modMembers cid f).Inv ↔ s.Inv := by simp [State.modMembers]
@[simp] theorem State.unpark_inv {t : Gang} : (s.unpark t).Inv ↔ s.Inv := by simp [State.unpark]

@[simp] theorem State.ungroup_inv {g : Gang} {member : Bool} {window : Nat × Nat} : (s.ungroup g member window).Inv ↔ s.Inv := by
  simp [State.ungroup]

/-! ### Machine/Launch.lean -/

@[simp] theorem State.modLease_inv {lkey : Nat} {f : Lease → Lease} : (s.modLease lkey f).Inv ↔ s.Inv := by simp [State.modLease]
@[simp] theorem State.countRecord_inv {lkey d : Nat} {f : Nat → Nat} : (s.countRecord lkey d f).Inv ↔ s.Inv := by simp [State.countRecord]
@[simp] theorem State.modRing_inv {part d : Nat} {f : Ring → Ring} : (s.modRing part d f).Inv ↔ s.Inv := by simp [State.modRing]
@[simp] theorem State.pushRecord_inv {d : Nat} {r : Record} : (s.pushRecord d r).Inv ↔ s.Inv := by simp [State.pushRecord]

@[simp] theorem State.accept_inv {d : Nat} {r : Record} {reserve : Bool} (h : s.Inv) : (s.accept d r reserve).1.Inv := by
  simp only [State.accept]
  split
  · exact h
  · split
    · simp [h]
    · split
      · simp [h]
      · split
        · split
          next => exact h
          next hw => simpa using State.writeVa_inv h hw
        · exact h

@[simp] theorem State.tookImage_inv {d part : Nat} {kva : W64} (h : s.Inv) : (s.tookImage d part kva).Inv := by
  simp only [State.tookImage]
  split <;> simp [h]

@[simp] theorem State.reject_inv {d : Nat} {packet : List Byte} {check : Nat} : (s.reject d packet check).Inv ↔ s.Inv := by
  simp [State.reject]

@[simp] theorem State.dropRecord_inv {d arrival : Nat} : (s.dropRecord d arrival).Inv ↔ s.Inv := by
  simp only [State.dropRecord]
  split <;> simp

@[simp] theorem State.vetRecord_inv {d : Nat} {r : Record} (h : s.Inv) : (s.vetRecord d r).Inv := by
  simp only [State.vetRecord]
  (repeat' split) <;> simp [h]

@[simp] theorem drainRing_inv {part d fuel : Nat} (h : s.Inv) : (State.drainRing part d fuel s).Inv := by
  induction fuel generalizing s with
  | zero => exact h
  | succ fuel ih =>
    simp only [State.drainRing]
    (repeat' split) <;> simp [h, ih]

@[simp] theorem State.drain_inv {part d : Nat} (h : s.Inv) : (s.drain part d).Inv := by
  unfold State.drain
  split <;> simp [h]

@[simp] theorem State.drainAll_inv {part d : Nat} (h : s.Inv) : (s.drainAll part d).Inv :=
  State.foldl_inv (fun _ _ ht => State.drain_inv ht) h _

@[simp] theorem State.discardLaunch_inv {l : Lease} {check : Nat} (h : s.Inv) : (s.discardLaunch l check).Inv := by
  refine State.foldl_inv (fun t d ht => ?_) h _
  simp [ht]

@[simp] theorem State.askPages_inv {l : Lease} {d : Nat} {run : Nat × Nat} : (s.askPages l d run).Inv ↔ s.Inv := by simp [State.askPages]
@[simp] theorem State.failShare_inv {lkey d : Nat} : (s.failShare lkey d).Inv ↔ s.Inv := by simp [State.failShare]

@[simp] theorem State.reside_inv {l : Lease} {d : Nat} {spans : List (Nat × Nat)} : (s.reside l d spans).Inv ↔ s.Inv := by
  simp only [State.reside]
  split <;> simp

@[simp] theorem State.readHeader_inv {lkey d : Nat} : (s.readHeader lkey d).Inv ↔ s.Inv := by
  simp only [State.readHeader]
  (repeat' split) <;> simp

@[simp] theorem State.openLease_inv {lkey : Nat} {p : List Byte} : (s.openLease lkey p).Inv ↔ s.Inv := by simp [State.openLease]
@[simp] theorem State.dropReside_inv {lkey d : Nat} {id : MsgId} : (s.dropReside lkey d id).Inv ↔ s.Inv := by simp [State.dropReside]

@[simp] theorem State.launch_inv {p : List Byte} {q : Partition} (h : s.Inv) : (s.launch p q).Inv := by
  refine State.foldl_inv (fun t d ht => ?_) (by simp [h]) _
  simp [ht]

@[simp] theorem State.queueWhole_inv {d : Nat} {p : List Byte} {reserve : Bool} (h : s.Inv) : (s.queueWhole d p reserve).1.Inv := by
  simp only [State.queueWhole]
  split <;> simp [h]

@[simp] theorem State.contLost_inv {part d va : Nat} {cont : W64} {detail : Nat} : (s.contLost part d va cont detail).Inv ↔ s.Inv := by
  simp [State.contLost]

@[simp] theorem State.continuation_inv {part va : Nat} {cont : W64} (h : s.Inv) : (s.continuation part va cont).Inv := by
  unfold State.continuation
  -- what is read does not matter; left in place, it would be evaluated when the proof is checked
  generalize s.readAny part 1 cont.toNat 256 = packet
  cases packet with
  | error f => simp [h]
  | ok p =>
    dsimp only
    (repeat' split) <;> simp [h]

theorem State.jcApply_inv {die part va : Nat} {delta old : W64} (h : s.Inv) (e : s.jcApply die part va delta = some (t, old)) : t.Inv := by
  unfold State.jcApply at e
  split at e
  · cases e
  · dsimp only at e
    injection e with e
    injection e with e _
    rw [← e]
    simp [h]

/-! ### Machine/Scan.lean -/

@[simp] theorem State.modScan_inv {gid : Nat} {f : ScanCtx → ScanCtx} : (s.modScan gid f).Inv ↔ s.Inv := by simp [State.modScan]
@[simp] theorem State.abandonCarries_inv : (s.abandonCarries).Inv ↔ s.Inv := by simp [State.abandonCarries]

theorem State.sendBlock_inv {g : Gang} {b : CarryBlock} (e : s.sendBlock g b = some t) : t.Inv ↔ s.Inv := by
  unfold State.sendBlock at e
  (repeat' split at e) <;> simp at e <;> simp [← e]

@[simp] theorem State.sendCarry_inv {gid : Nat} : (s.sendCarry gid).Inv ↔ s.Inv := by
  unfold State.sendCarry
  split
  · rfl
  · split
    · split
      next hb => simpa using State.sendBlock_inv hb
      next => rfl
    · split
      · rfl
      · split
        next hb => simpa using State.sendBlock_inv hb
        next => rfl
    · rfl

@[simp] theorem State.scanWrite_inv {g : Gang} {o : EngOp} {a : Nat} {ws : List W32} (h : s.Inv) : (s.scanWrite g o a ws).Inv := by
  simp [State.scanWrite, h]

@[simp] theorem State.scanRead_inv {g : Gang} {o : EngOp} {a n : Nat} : (s.scanRead g o a n).1.Inv ↔ s.Inv := by simp [State.scanRead]

@[simp] theorem State.openScan_inv {x : Ctx} {w : XWord} {block : Option (List W32)} : (s.openScan x w block).Inv ↔ s.Inv := by
  simp [State.openScan]

@[simp] theorem State.issueScan_inv {x : Ctx} {fn : Nat} {words : List W32} {a b : W64} : (s.issueScan x fn words a b).Inv ↔ s.Inv := by
  simp [State.issueScan]

@[simp] theorem State.publish_inv {x : Ctx} {words : List W32} : (s.publish x words).Inv ↔ s.Inv := by simp [State.publish]

/-! ### Machine/Save.lean -/

@[simp] theorem State.poke_inv {die part va : Nat} {bs : List Byte} (h : s.Inv) : (s.poke die part va bs).Inv := State.writeVa_getD_inv h

@[simp] theorem State.putSlot_inv {die part va k : Nat} {on : Bool} (h : s.Inv) : (s.putSlot die part va k on).Inv := by
  simp [State.putSlot, h]

theorem State.allocSlot_inv {die part va bytes k : Nat} (h : s.Inv) (e : s.allocSlot die part va bytes = some (some (k, t))) : t.Inv := by
  simp only [State.allocSlot] at e
  (repeat' split at e) <;> simp at e
  obtain ⟨-, rfl⟩ := e
  simp [h]

@[simp] theorem State.putChunks_inv {die part va : Nat} {c : Chunks} (h : s.Inv) : (s.putChunks die part va c).Inv :=
  State.foldl_inv (fun _ _ ht => State.poke_inv ht) h _

@[simp] theorem State.fillGang_inv {g : Gang} {sv : SavedGang} (h : s.Inv) : (s.fillGang g sv).Inv := by simp [State.fillGang, h]

@[simp] theorem State.fillWindows_inv {part : Nat} {gids : List Nat} {ranks va : Nat} : (s.fillWindows part gids ranks va).Inv ↔ s.Inv := by
  simp [State.fillWindows]

/-! ### Machine/Watch.lean -/

@[simp] theorem State.modWatch_inv {g : Gang} {f : Nat → WatchEntry → WatchEntry} : (s.modWatch g f).Inv ↔ s.Inv := by simp [State.modWatch]
@[simp] theorem State.releaseWatch_inv {g : Gang} : (s.releaseWatch g).Inv ↔ s.Inv := by simp [State.releaseWatch]
@[simp] theorem State.setQuad_inv {x : Ctx} {code : Nat} {ws : List W64} : (s.setQuad x code ws).Inv ↔ s.Inv := by simp [State.setQuad]

@[simp] theorem State.joinHalt_inv {level : Nat} {r : SxRun} : (s.joinHalt r level).Inv ↔ s.Inv := by
  simp only [State.joinHalt]
  split <;> simp

@[simp] theorem State.notifyRun_inv {r : SxRun} : (s.notifyRun r).Inv ↔ s.Inv := by
  simp only [State.notifyRun]
  split <;> simp

/-! ### Machine/Debug.lean -/

@[simp] theorem State.dbgWrite_inv {part die : Nat} {sel t v : W64} : (s.dbgWrite part die t sel v).1.Inv ↔ s.Inv := by
  simp only [State.dbgWrite]
  (repeat' split) <;> simp

@[simp] theorem State.modTarget_inv {t : DbgTarget} {f : Bundle → Sub → Sub} : (s.modTarget t f).Inv ↔ s.Inv := by simp [State.modTarget]

@[simp] theorem State.dbgStep_inv {part die : Nat} {t : W64} : (s.dbgStep part die t).1.Inv ↔ s.Inv := by
  simp only [State.dbgStep]
  (repeat' split) <;> simp

@[simp] theorem State.release_inv {pick : Bundle → Sub → Bool} {t : DbgTarget} : (s.release t pick).Inv ↔ s.Inv := by simp [State.release]

@[simp] theorem State.dbgResume_inv {part die : Nat} {t : W64} : (s.dbgResume part die t).1.Inv ↔ s.Inv := by
  simp only [State.dbgResume]
  (repeat' split) <;> simp

@[simp] theorem State.dbgReply_inv {r : State × Nat} {m : MsgId} : (State.dbgReply r m).Inv ↔ r.1.Inv := State.reply_inv

/-! ### Machine/Matrix.lean -/

@[simp] theorem State.seeStreams_inv {g : Gang} {o : EngOp} {st : List MxRead} : (s.seeStreams g o st).Inv ↔ s.Inv := by
  simp [State.seeStreams]

@[simp] theorem State.faultMatrix_inv {g : Gang} {o : EngOp} {f : FaultInfo} {k i : Nat} (h : s.Inv) : (s.faultMatrix g o f k i).Inv := by
  simp [State.faultMatrix, h]

@[simp] theorem State.comeToPort_inv {gs : List Nat} : (s.comeToPort gs).Inv ↔ s.Inv := by simp [State.comeToPort]
@[simp] theorem State.tookStreams_inv {g : Gang} {st : List MxRead} : (s.tookStreams g st).Inv ↔ s.Inv := by simp [State.tookStreams]

@[simp] theorem State.countRows_inv {o : EngOp} {n : Nat} : (s.countRows o n).Inv ↔ s.Inv := by
  refine State.foldl_inv_iff (fun t gid => ?_) _
  split <;> simp

@[simp] theorem State.accStores_inv {x : Ctx} {w : XWord} {base pitch r n : Nat} (h : s.Inv) : (s.accStores x w base pitch r n).Inv := by
  refine State.foldl_inv (fun t i ht => ?_) h _
  simp [ht]

/-! ### Machine/Place.lean -/

@[simp] theorem State.takeTurn_inv {before : State} {d : Nat} {r : Record} : (s.takeTurn before d r).Inv ↔ s.Inv := by simp [State.takeTurn]

@[simp] theorem State.startGangs_inv {o : Offer} {cid d : Nat} {xs : List (Nat × Nat × Nat)} (h : s.Inv) :
    (s.startGangs o cid d xs).Inv := by
  induction xs generalizing s with
  | nil => exact h
  | cons x xs ih => exact ih (State.clearPad_inv (by simpa using h) _ _)

@[simp] theorem State.faultCrew_inv {cid : Nat} {f : FaultInfo} : (s.faultCrew cid f).Inv ↔ s.Inv := by
  simp only [State.faultCrew]
  split <;> simp

@[simp] theorem State.deliverOwed_inv {gid : Nat} : (s.deliverOwed gid).Inv ↔ s.Inv := by
  refine State.foldl_inv_iff (fun t o => ?_) _
  split <;> simp

@[simp] theorem State.restore_inv {o : Offer} {cid : Nat} (h : s.Inv) : (s.restore o cid).Inv := by
  simp only [State.restore]
  split
  · simp [h]
  · simp only [State.foldl_inv_iff fun _ _ => State.deliverOwed_inv]
    refine State.putSlot_inv (State.fillWindows_inv.2 (State.foldl_inv (fun t v ht => ?_) h _))
    split <;> simp [ht]

@[simp] theorem State.sendRingLate_inv {part d : Nat} {r : Record} : (s.sendRingLate part d r).Inv ↔ s.Inv := by simp [State.sendRingLate]
@[simp] theorem State.sendLate_inv {d : Nat} {r : Record} : (s.sendLate d r).Inv ↔ s.Inv := by simp [State.sendLate]

@[simp] theorem State.placeCrew_inv {d cluster : Nat} {cores : List Nat} {o : Offer} (h : s.Inv) : (s.placeCrew d cluster cores o).Inv := by
  simp [State.placeCrew, h]

@[simp] theorem State.closeRecord_inv {d arrival : Nat} (h : s.Inv) : (s.closeRecord d arrival).Inv := by
  simp only [State.closeRecord]
  split <;> simp [h]

@[simp] theorem State.refuseCrew_inv {d : Nat} {r : Record} (h : s.Inv) : (s.refuseCrew d r).Inv := by simp [State.refuseCrew, h]
@[simp] theorem State.noteWait_inv {d : Nat} {r : Record} : (s.noteWait d r).Inv ↔ s.Inv := by simp [State.noteWait]

/-! ### Machine/Stop.lean -/

@[simp] theorem State.stopCrews_inv {reason : Nat} {pick : Crew → Bool} : (s.stopCrews reason pick).Inv ↔ s.Inv := by simp [State.stopCrews]
@[simp] theorem State.leave_inv {g : Gang} : (s.leave g).Inv ↔ s.Inv := by simp [State.leave]
@[simp] theorem State.cancelStop_inv {cid : Nat} : (s.cancelStop cid).Inv ↔ s.Inv := by simp [State.cancelStop]

@[simp] theorem State.saveInto_inv {c : Crew} {r : Record} {reason slot : Nat} (h : s.Inv) : (s.saveInto c r reason slot).Inv := by
  have hp (xs : List (Nat × Chunks × Option Gang)) (base : Nat) :
      (xs.foldl (fun s b => s.putChunks c.die c.part (base + b.1) b.2.1) s).Inv :=
    State.foldl_inv (fun _ _ ht => State.putChunks_inv ht) h xs
  simp [State.saveInto, hp]

@[simp] theorem State.performLane_inv {id lane : Nat} (h : s.Inv) : (s.performLane id lane).Inv := by
  simp only [State.performLane]
  (repeat' split) <;> simp [h]

@[simp] theorem State.haltCrew_inv {c : Crew} : (s.haltCrew c).Inv ↔ s.Inv := by simp [State.haltCrew]
@[simp] theorem State.unhaltCrew_inv {c : Crew} : (s.unhaltCrew c).Inv ↔ s.Inv := by simp [State.unhaltCrew]

/-! ### Machine/Csr.lean -/

@[simp] theorem State.setFaultact_inv {part : Nat} {dies : List Nat} {v : W64} : (s.setFaultact part dies v).Inv ↔ s.Inv := by
  simp [State.setFaultact]

/-! ### Machine/Perf.lean -/

@[simp] theorem State.countCore_inv {n : Nat} {c : Core} : (s.countCore c n).Inv ↔ s.Inv := by simp [State.countCore]
@[simp] theorem State.passConflicts_inv {n : Nat → Nat} : (s.passConflicts n).Inv ↔ s.Inv := by simp [State.passConflicts]
@[simp] theorem State.countCycles_inv {n : Nat → Nat} : (s.countCycles n).Inv ↔ s.Inv := by simp [State.countCycles]

@[simp] theorem State.putSample_inv {die part : Nat} {ring : W64 × Nat} {entry : List Byte} (h : s.Inv) :
    (s.putSample die part ring entry).Inv := by
  unfold State.putSample
  dsimp only
  split
  · exact h
  · split
    · simp [h]
    · split
      next => simp [h]
      next hw => exact State.writeVa_getD_inv (State.writeVa_inv (by simpa using h) hw)

/-! ### Machine/Collective.lean -/

@[simp] theorem State.modColl_inv {part k : Nat} {gid : W32} {f : CollState → CollState} : (s.modColl part gid k f).Inv ↔ s.Inv := by
  simp [State.modColl]

@[simp] theorem State.dropFrame_inv {owner : Nat} {f : FabricFrame} (h : s.Inv) : (s.dropFrame f owner).Inv := by simp [State.dropFrame, h]

@[simp] theorem State.sendFrame_inv {part die k dst : Nat} {gid : W32} {body : FabricBody} :
    (s.sendFrame part die gid k body dst).Inv ↔ s.Inv := by
  simp only [State.sendFrame]
  split <;> simp

@[simp] theorem State.tellPeers_inv {part die k : Nat} {gid : W32} {body : FabricBody} : (s.tellPeers part die gid k body).Inv ↔ s.Inv := by
  simp only [State.tellPeers]
  split <;> simp

@[simp] theorem State.issueColl_inv {x : Ctx} {fn : Nat} {i : Instr} {w : XWord} {b : List Byte} :
    (s.issueColl x fn i w b).Inv ↔ s.Inv := by
  simp [State.issueColl]

@[simp] theorem State.collStatus_inv {o : EngOp} {r : Nat} {ovf inx : Bool} {n : Nat} (h : s.Inv) : (s.collStatus o r ovf inx n).Inv := by
  simp only [State.collStatus]
  split
  next => simp [h]
  next hw =>
    have ht := State.writeVa_inv h hw
    split <;> simp [ht]

@[simp] theorem State.savedCl_inv {gid part : Nat} (h : s.Inv) : (s.savedCl gid part).Inv := by
  simp only [State.savedCl]
  (repeat' split) <;> simp [h]

@[simp] theorem State.endColl_inv {o : EngOp} (h : s.Inv) : (s.endColl o).Inv := by simp [State.endColl, h]

@[simp] theorem State.faultColl_inv {o : EngOp} {f : FaultInfo} {kind : Nat} (h : s.Inv) : (s.faultColl o f kind).Inv := by
  simp [State.faultColl, h]

@[simp] theorem State.putContrib_inv {o : EngOp} {bs : List Byte} {ws : List Wire} : (s.putContrib o ws bs).Inv ↔ s.Inv := by
  simp only [State.putContrib]
  (repeat' split) <;> simp

@[simp] theorem State.contribute_inv {o : EngOp} (h : s.Inv) : (s.contribute o).Inv := by
  fun_cases State.contribute s o
  case case4 bs _ took seen _ | case5 bs _ took seen _ =>
    have hs : seen.Inv := by
      simp only [seen]
      split <;> simp [took, h]
    simpa using hs
  all_goals simp [h]

@[simp] theorem State.contributeAll_inv {o : EngOp} (h : s.Inv) : (s.contributeAll o).Inv :=
  State.foldl_inv (fun _ _ ht => State.contribute_inv ht) h _

@[simp] theorem State.collBytes_inv {h : CollShape} {ws : List Wire} : (s.collBytes h ws).1.Inv ↔ s.Inv := by
  induction ws generalizing s with
  | nil => rfl
  | cons w ws ih => exact ih.trans State.draw_inv

@[simp] theorem State.endedNews_inv {g : Gang} : (s.endedNews g).Inv ↔ s.Inv := by simp [State.endedNews]

@[simp] theorem State.decideColl_inv {part die k : Nat} {gid : W32} : (s.decideColl part die gid k).Inv ↔ s.Inv := by
  simp only [State.decideColl]
  (repeat' split) <;> simp

@[simp] theorem State.finishColl_inv {o : EngOp} {r : Nat} {ovf inx : Bool} {n : Nat} {bytes : List Byte} (h : s.Inv) :
    (s.finishColl o r ovf inx n bytes).Inv := by
  simp only [State.finishColl]
  split
  · split
    next => simp [h]
    next hw =>
      have ht := State.writeVa_inv h hw
      refine State.endColl_inv (State.collStatus_inv ?_)
      split <;> simp [ht]
  · simp [h]

/-! ### Machine/Retire.lean -/

@[simp] theorem State.freeSegment_inv {c : Crew} : (s.freeSegment c).Inv ↔ s.Inv := by
  simp only [State.freeSegment]
  split <;> simp

@[simp] theorem State.retireJc_inv {c : Crew} {va : Nat} (h : s.Inv) : (s.retireJc c va).Inv := by
  simp only [State.retireJc]
  split
  · exact h
  · split
    next hw => exact State.jcApply_inv h hw
    next => simp [h]

/-! ### Machine/Partition.lean -/

@[simp] theorem State.partset_inv {m : MsgId} {b : PartSet} (h : s.Inv) : (s.partset m b).Inv := by
  unfold State.partset
  split
  · simp [h]
  · split
    · split
      · simp [h]
      · exact State.reply_inv.2 (State.foldl_inv (fun t d ht => State.drainAll_inv ht) (by simpa using h) _)
    · split
      · simp [h]
      · exact State.reply_inv.2 ⟨h.mem, h.dies, (setNth_length _ _ _).trans h.parts, h.phase, h.frames⟩

@[simp] theorem State.beginReset_inv {part : Nat} {msgs : List MsgId} : (s.beginReset part msgs).Inv ↔ s.Inv := by simp [State.beginReset]
@[simp] theorem State.dropSlot_inv {die part va k : Nat} (h : s.Inv) : (s.dropSlot die part va k).Inv := by simp [State.dropSlot, h]
@[simp] theorem State.resetRecords_inv {part die : Nat} : (s.resetRecords part die).Inv ↔ s.Inv := by simp [State.resetRecords]

@[simp] theorem State.resetGangs_inv {part die : Nat} : (s.resetGangs part die).Inv ↔ s.Inv := by
  unfold State.resetGangs
  dsimp only
  rw [State.inv_with, State.foldl_inv_iff, State.foldl_inv_iff, State.foldl_inv_iff]
  · simp
  · intro t h
    split <;> simp
  · intro t c
    split <;> simp

@[simp] theorem State.resetTables_inv {part die : Nat} : (s.resetTables part die).Inv ↔ s.Inv := by simp [State.resetTables]

@[simp] theorem State.damage_inv {u : SoftError} : (s.damage u).Inv ↔ s.Inv := by
  simp only [State.damage]
  split <;> simp

/-! ### Machine/Bringup.lean -/

theorem State.cleared_inv {hbm core : Bool} : (s.cleared hbm core).Inv := ⟨rfl, rfl, rfl, Nat.zero_le _, Nat.zero_le _⟩

theorem State.report_inv {phase : Nat} {msg : Nat → OutMsg} {reason : Nat → Nat} (h : s.Inv) (hp : phase ≤ 8) :
    (s.report phase msg reason).Inv := by
  have hs : ((List.range 8).foldl (fun s d => s.send (if reason d == 0 then msg d else .bringup phase d (reason d) [])) s).Inv := by
    simp [h]
  simp only [State.report]
  split
  · exact ⟨hs.mem, hs.dies, hs.parts, hp, hs.frames⟩
  · simpa using hs

@[simp] theorem State.verifyImage_inv {f : FwImage} (h : s.Inv) : (s.verifyImage f).Inv := State.report_inv (by simpa using h) (by decide)
@[simp] theorem State.configure_inv {f : FwImage} (h : s.Inv) : (s.configure f).Inv := State.report_inv (by simpa using h) (by decide)
@[simp] theorem State.identify_inv (h : s.Inv) : s.identify.Inv := State.report_inv (by simpa using h) (by decide)
@[simp] theorem State.verify_inv {f : FwImage} (h : s.Inv) : (s.verify f).Inv := by simp [State.verify, h]

/-! ### Machine/Messages.lean -/

@[simp] theorem State.refuseSpan_inv {part va kind : Nat} (h : s.Inv) : (s.refuseSpan part va kind).Inv := by simp [State.refuseSpan, h]
@[simp] theorem State.tookSpan_inv {part va n : Nat} : (s.tookSpan part va n).Inv ↔ s.Inv := by simp [State.tookSpan]

/-! ### Machine/Tick.lean -/

@[simp] theorem State.withdrawArrival_inv {g : Gang} {b : Nat} {y : Bundle} {q : Sub} : (s.withdrawArrival g b y q).Inv ↔ s.Inv := by
  simp only [State.withdrawArrival]
  (repeat' split) <;> simp

@[simp] theorem State.unissue_inv {g : Gang} {b k : Nat} {y : Bundle} {q : Sub} : (s.unissue g b k y q).Inv ↔ s.Inv := by
  simp only [State.unissue]
  split <;> simp

@[simp] theorem State.tookCode_inv {g : Gang} {planes : List Nat} {off : Nat} : (s.tookCode g planes off).Inv ↔ s.Inv := by
  simp [State.tookCode]

/-! ### Machine/VecInt.lean -/

@[simp] theorem State.deliverPred_inv {x : Ctx} {w : XWord} {ls : List Nat} {f : Nat → Lane → Bool} :
    (s.deliverPred x w ls f).Inv ↔ s.Inv := by
  simp [State.deliverPred]

/-! ### Machine/Turns.lean -/

@[simp] theorem State.passTime_inv : s.passTime.Inv ↔ s.Inv := by
  unfold State.passTime
  dsimp only
  split
  · rw [State.countCycles_inv]
    exact State.inv_congr rfl (by simp) rfl rfl .rfl
  · exact State.inv_with ..

end Sys2Proof.Machine
end

section
/-!
PROOF. What the instructions share: reads, effects and checks that hand on a state, and the rules of the shapes that run them.
-/

namespace Sys2Proof.Machine

variable {s t : State}

theorem Eff.inv_of_ite {a b : Eff} {p : Prop} [Decidable p] (ha : a.Inv) (hb : b.Inv) : (if p then a else b).Inv := by split <;> assumption

/-! ## Reads, effects and checks that hand on a state -/

theorem State.acquireRead_inv {x : Ctx} {va n : Nat} (h : s.Inv) : (s.acquireRead x va n).Inv := by
  fun_cases State.acquireRead s x va n <;> simp [h]

theorem State.acquireRead_fault_inv {x : Ctx} {va n : Nat} {f : FaultInfo} (h : s.Inv) (e : s.acquireRead x va n = .fault f t) : t.Inv := by
  simpa [e] using State.acquireRead_inv (x := x) (va := va) (n := n) h

theorem State.acquireRead_bytes_inv {x : Ctx} {va n : Nat} {bs : List Byte} (h : s.Inv) (e : s.acquireRead x va n = .bytes bs t) :
    t.Inv := by
  simpa [e] using State.acquireRead_inv (x := x) (va := va) (n := n) h

theorem State.writeGang_inv {g : Gang} {kind va : Nat} {bs : List Byte} (h : s.Inv) (e : s.writeGang g kind va bs = .ok t) : t.Inv := by
  revert e
  fun_cases State.writeGang s g kind va bs
  case case2 hw =>
    intro e
    cases e
    simpa using State.writeVa_inv h hw
  all_goals simp

@[simp] theorem State.startDec_inv {x : Ctx} {eng number : Nat} {desc : List Byte} {params : List W64} {words : List W32} :
    (s.startDec x eng number desc params words).Inv ↔ s.Inv := by
  simp [State.startDec]

theorem State.scalarMem_inv {x : Ctx} {m : MemInfo} {w : XWord} (h : s.Inv) : (s.scalarMem x m w).Inv := by
  unfold State.scalarMem
  dsimp only
  (repeat' split) <;> simp [h]

theorem texpIssue_inv {w : XWord} {x : Ctx} (h : s.Inv) : (texpIssue w x s).Inv := by
  unfold texpIssue
  dsimp only
  (repeat' split) <;> simp [h]

theorem tencIssue_inv {w : XWord} {x : Ctx} (h : s.Inv) : (tencIssue w x s).Inv := by
  unfold tencIssue
  dsimp only
  (repeat' split) <;> simp [h]

theorem regangEff_inv {x : Ctx} (h : s.Inv) : (regangEff x s).Inv := by
  unfold regangEff
  dsimp only
  (repeat' split) <;> simp [h]

theorem waitEff_inv {x : Ctx} {ready : Bool} {w : Wait} (h : s.Inv) : (waitEff x ready w s).Inv := by
  unfold waitEff
  split <;> simp [h]

theorem leaveEnd_inv {w : XWord} {x : Ctx} (h : s.Inv) : (leaveEnd w x s).Inv := by simp [leaveEnd, h]
theorem publishEnd_inv {a n : Nat} {x : Ctx} (h : s.Inv) : (publishEnd a n x s).Inv := by simp [publishEnd, h]
theorem padFault_inv {x : Ctx} {kind : Nat} {f : FaultInfo} (h : s.Inv) : (padFault x kind f s).Inv := by simp [padFault, h]

theorem opdefEff_inv {x : Ctx} {q : Nat} {bs : List Byte} (h : s.Inv) : (opdefEff x q bs s).Inv := by
  unfold opdefEff
  dsimp only
  split <;> simp [h]

theorem accEff_inv {x : Ctx} {r n : Nat} {eff : State → Eff} (he : (eff s).Inv) : (accEff x r n s eff).Inv := by simp [accEff, he]
theorem csrOrdered_inv {x : Ctx} {eff : State → Eff} (he : (eff s).Inv) : (csrOrdered x s eff).Inv := by simp [csrOrdered, he]

theorem barWaitOn_inv {x : Ctx} {w : XWord} {p : BitVec 32} {done : W64 → Bool → State → State} (hd : ∀ v ab, (done v ab s).Inv)
    (h : s.Inv) : (barWaitOn x w p done s).Inv := by
  unfold barWaitOn
  dsimp only
  (repeat' split) <;> simp [h, hd]

theorem closeScan_inv {w : XWord} {x : Ctx} (h : s.Inv) : (closeScan w x s).Inv := by
  unfold closeScan
  dsimp only
  split
  · simp [h]
  · split
    · simp [h]
    · split
      · simp [h]
      · split
        · simp [h]
        · split
          next => simp [h]
          next hw => simp [State.writeGang_inv h hw]

theorem State.copyFault_inv {x : Ctx} {o : EngOp} (h : s.Inv) : ∀ p ∈ s.copyFault x o, p.2.Inv := by
  fun_cases State.copyFault s x o <;> simp [h]

theorem State.matrixFault_inv {x : Ctx} {fn w2 n r c mask : Nat} {spm : Option Nat} (h : s.Inv) :
    ∀ p ∈ s.matrixFault x fn w2 n spm r c mask, p.2.Inv := by
  fun_cases State.matrixFault s x fn w2 n spm r c mask
  case case3 q hq =>
    obtain ⟨a, -, ha⟩ := Option.bind_eq_some_iff.1 hq
    have : q.2.Inv := by
      split at ha
      · simp [← Option.some.inj ha, h]
      · split at ha
        · simp [← Option.some.inj ha, h]
        · cases ha
    simpa using this
  all_goals simp [h]

theorem State.chainFault_inv {x : Ctx} {w : XWord} {lit : W64} {a : Nat} (h : s.Inv) : ∀ p ∈ s.chainFault x w lit a, p.2.Inv := by
  fun_cases State.chainFault s x w lit a
  case case1 q hq => simpa using State.matrixFault_inv h q hq
  all_goals simp [h]

theorem sweepPlanes_inv {x : Ctx} {check : Ctx → Instr → Option FaultInfo} {ws : List (Nat × List W32)} (h : s.Inv) :
    ∀ p ∈ sweepPlanes x s check ws, p.2.Inv := by
  fun_induction sweepPlanes x s check ws <;> simp_all

theorem laneChecks_inv {x : Ctx} {ws : List (Nat × List W32)} (h : s.Inv) : ∀ p ∈ laneChecks x s ws, p.2.Inv := by
  fun_cases laneChecks x s ws
  case case1 hp | case2 hp => simpa using sweepPlanes_inv h _ hp
  case case3 => exact sweepPlanes_inv h

theorem State.tryPlace_inv {d : Nat} {r : Record} (h : s.Inv) : ∀ t ∈ s.tryPlace d r, t.Inv := by
  fun_cases State.tryPlace s d r
  case case3 =>
    intro t ht
    obtain ⟨cores, -, rfl⟩ := Option.map_eq_some_iff.1 ht
    exact State.placeCrew_inv h
  all_goals simp [h]

theorem State.placeFirst_inv {d : Nat} {rs : List Record} (h : s.Inv) : ∀ t ∈ s.placeFirst d rs, t.Inv := by
  fun_induction State.placeFirst s d rs
  case case2 hp => simpa using State.tryPlace_inv h _ hp
  all_goals simp_all

/-! ## tenc: a part of it hands on a state where it stops, and one where it goes on -/

/-- A part of tenc that stops leaves a state that meets the invariant; one that goes on hands on what P says. -/
def TencHolds {α : Type} (P : α → Prop) : Except TencStop α → Prop
  | .error q => q.state.Inv
  | .ok a => P a

theorem TencHolds.bind {α β : Type} {P : α → Prop} {Q : β → Prop} {r : Except TencStop α} {f : α → Except TencStop β} (hr : TencHolds P r)
    (hf : ∀ a, P a → TencHolds Q (f a)) : TencHolds Q (r >>= f) :=
  match r, hr with
  | .error _, hq => hq
  | .ok a, ha => hf a ha

theorem tencTry_holds {α : Type} {P : α → Prop} {kind : Nat} {r : Except FaultInfo α} (h : s.Inv) (hr : ∀ a, r = .ok a → P a) :
    TencHolds P (tencTry s kind r) :=
  match r, hr with
  | .error _, _ => h
  | .ok a, hr => hr a rfl

/-- A part that only reads. -/
theorem tencTry_reads {α : Type} {kind : Nat} {r : Except FaultInfo α} (h : s.Inv) : TencHolds (fun _ => True) (tencTry s kind r) :=
  tencTry_holds h fun _ _ => trivial

theorem tencTry_writes {g : Gang} {kind k va : Nat} {bs : List Byte} (h : s.Inv) (ht : t.Inv) :
    TencHolds State.Inv (tencTry s kind (t.writeGang g k va bs)) :=
  tencTry_holds h fun _ e => State.writeGang_inv ht e

theorem State.tencMove_holds {g : Gang} {d : Desc} {e : IdxEntry} {row : List Byte} {r c : Nat} (h : s.Inv) :
    TencHolds (fun p => p.2.Inv) (s.tencMove g d e row r c) := by
  unfold State.tencMove
  extract_lets n cap
  split
  · exact h
  · refine (tencTry_reads h).bind fun p _ => ?_
    extract_lets cur
    split
    · exact h
    · refine (tencTry_writes h h).bind fun t ht => ?_
      refine (tencTry_reads ht).bind fun old _ => ?_
      exact (tencTry_writes ht (by simpa using ht)).bind fun u hu => hu

theorem State.tencPlace_holds {g : Gang} {d : Desc} {e : IdxEntry} {row : List Byte} {r c : Nat} (h : s.Inv) :
    TencHolds (fun p => p.2.Inv) (s.tencPlace g d e row r c) := by
  unfold State.tencPlace
  dsimp only
  split
  · exact (tencTry_writes h h).bind fun u hu => hu
  · exact State.tencMove_holds h

theorem State.tencStore_holds {g : Gang} {va r c : Nat} {was : List Byte} {e : IdxEntry} (h : s.Inv) :
    TencHolds (fun p => p.2.Inv) (s.tencStore g va was e r c) := by
  unfold State.tencStore
  refine (tencTry_reads h).bind fun now _ => ?_
  split
  · exact h
  · exact (tencTry_writes h h).bind fun u hu => hu

theorem State.tencAppend_holds {x : Ctx} {o : EngOp} {e : IdxEntry} (h : s.Inv) : TencHolds (fun p => p.2.Inv) (s.tencAppend x o e) := by
  unfold State.tencAppend
  dsimp only
  split
  · exact h
  · exact h
  · split
    · exact h
    · refine (tencTry_reads h).bind fun _ _ => ?_
      split
      · exact h
      · exact (State.tencPlace_holds (by simpa using h)).bind fun q hq => State.tencStore_holds hq

theorem State.ctldObject_inv {x : Ctx} {o : EngOp} {f : FaultInfo} (h : s.Inv) (e : s.ctldObject x o = .error (f, t)) : t.Inv := by
  revert e
  fun_cases State.ctldObject s x o <;> rintro ⟨⟩ <;> simp [h]

/-! ## The shapes that the instructions share -/

theorem onMessage_keeps {n : Nat} {lid : W64} {f : State → State} (h : s.Inv) (hf : ∀ t, t.Inv → (f t).Inv) :
    Keeps (onMessage n lid s f) := by
  have hr : (s.received n).Inv := by simpa using h
  simp [onMessage, hr, hf]

theorem runUniformWith_keeps {dog : Ctx → Option FaultInfo} {control : Bool} {len : Nat} {form : Ctx → Form} {w : XWord}
    {extra : Ctx → Option FaultInfo} {eff : Ctx → State → Eff} (h : s.Inv) (he : ∀ x, (eff x s).Inv) :
    Keeps (runUniformWith dog control len form w extra eff s) := by
  unfold runUniformWith
  split
  · simp
  next x _ =>
    have hx := he x
    split
    · simp [h]
    · split
      · simp [h]
      · split <;> simp [h, hx]

theorem runUniform_keeps {control : Bool} {len : Nat} {form : Ctx → Form} {w : XWord} {extra : Ctx → Option FaultInfo}
    {eff : Ctx → State → Eff} (h : s.Inv) (he : ∀ x, (eff x s).Inv) : Keeps (runUniform control len form w extra eff s) :=
  runUniformWith_keeps h he

theorem runPrivileged_keeps {form : Form} {w : XWord} {extra : Ctx → Option FaultInfo} {eff : Ctx → State → Eff} (h : s.Inv)
    (he : ∀ x, (eff x s).Inv) : Keeps (runPrivileged form w extra eff s) := by
  unfold runPrivileged
  split
  · simp
  · split
    · simp [h]
    · exact runUniform_keeps h he

theorem runLane_keeps {i : Instr} {len : Nat} {extra : Ctx → Option FaultInfo} {eff : Ctx → List Nat → State → State} (h : s.Inv)
    (he : ∀ x ls t, t.Inv → (eff x ls t).Inv) : Keeps (runLane i len extra eff s) := by
  unfold runLane
  split
  · simp
  · split
    · simp [h]
    · simp [he, h]

theorem runCompute_keeps {i : Instr} {w : XWord} {len : Nat} {f : W32 → W32 → W32 → LaneResult} (h : s.Inv) :
    Keeps (runCompute i w len f s) :=
  runLane_keeps h fun _ _ _ ht => by simpa using ht

theorem runMem_keeps {i : Instr} {op : Nat} {w : XWord} (h : s.Inv) : Keeps (runMem i op w s) := by fun_cases runMem i op w s <;> simp [h]

theorem runScalarMem_keeps {op : Nat} {w : XWord} (h : s.Inv) : Keeps (runScalarMem op w s) := by
  refine runUniform_keeps h fun x => ?_
  dsimp only
  split
  · simp [h]
  · exact State.scalarMem_inv h

theorem runPres_keeps {w : XWord} {eff : Ctx → Nat → Nat → State → Eff} (h : s.Inv) (he : ∀ x a n, (eff x a n s).Inv) :
    Keeps (runPres w eff s) :=
  runUniform_keeps h fun x => by simp [h, he]

theorem runVlut_keeps {i : Instr} {w : XWord} {f : AtlasSlot → Nat → Nat} (h : s.Inv) : Keeps (runVlut i w f s) := by
  fun_cases runVlut i w f s
  case case4 => exact runLane_keeps h fun x ls t ht => by simpa using ht
  all_goals simp [h]

theorem runCopy_keeps {fn : Nat} {i : Instr} {w : XWord} (h : s.Inv) : Keeps (runCopy fn i w s) := by
  refine runUniform_keeps h fun x => ?_
  dsimp only
  split
  next hf => simpa using State.copyFault_inv h _ hf
  next => simp [h]

theorem runBar_keeps {form : Form} {w : XWord} {extra : Ctx → Option FaultInfo} {eff : Ctx → State → Eff} (h : s.Inv)
    (he : ∀ x, (eff x s).Inv) : Keeps (runBar form w extra eff s) :=
  runUniform_keeps h he

theorem runMatrix_keeps {fn len : Nat} {i : Instr} {w : XWord} {mask : W64} (h : s.Inv) : Keeps (runMatrix fn len i w mask s) := by
  refine runUniform_keeps h fun x => ?_
  dsimp only
  split
  next hf => simpa using State.matrixFault_inv h _ hf
  next => simp [h]

theorem runCsrWrWith_keeps {w : XWord} {extra : Ctx → Option FaultInfo} {eff : Ctx → State → Eff} (h : s.Inv) (he : ∀ x, (eff x s).Inv) :
    Keeps (runCsrWrWith w extra eff s) :=
  runPrivileged_keeps h he

theorem runCsrWr_keeps {w : XWord} {extra : Ctx → Option FaultInfo} {eff : Ctx → State → State} (h : s.Inv) (he : ∀ x, (eff x s).Inv) :
    Keeps (runCsrWr w extra eff s) :=
  runCsrWrWith_keeps h fun x => csrOrdered_inv (he x)

theorem runFence_keeps {w : FenceWord} (h : s.Inv) : Keeps (runFence w s) := runUniform_keeps h fun x => by simp [h]

theorem runPerf_keeps {k : Bool} {a : Kind} {w : XWord} {extra : Ctx → Option FaultInfo} {eff : Ctx → State → Eff} (h : s.Inv)
    (he : ∀ x, (eff x s).Inv) : Keeps (runPerf k a w extra eff s) :=
  runUniform_keeps h he

theorem runColl_keeps {fn : Nat} {i : Instr} {w : XWord} (h : s.Inv) : Keeps (runColl fn i w s) := by
  refine runUniform_keeps h fun x => ?_
  dsimp only
  split
  · simp [h]
  · split
    next => simp
    next hf => simpa using State.acquireRead_fault_inv h hf
    next hb =>
      have ht := State.acquireRead_bytes_inv h hb
      (repeat' split) <;> simp [ht]

theorem runScalar_keeps {len : Nat} {form : Form} {w : XWord} {f : Ctx → State → W64} (h : s.Inv) : Keeps (runScalar len form w f s) :=
  runUniform_keeps h fun x => by simp [h]

theorem runSbitField_keeps {b : Kind} {f : W64 → W64 → Nat → Nat → W64} {w : XWord} (h : s.Inv) : Keeps (runSbitField b f w s) :=
  runUniform_keeps h fun x => by simp [h]

theorem runScalarS_keeps {f : W64 → W64 → W64} {w : SWord} (h : s.Inv) : Keeps (runScalarS f w s) := by
  unfold runScalarS
  exact runScalar_keeps h

theorem runScalarSl_keeps {f : W64 → W64 → W64} {w : SWord} {lit : W64} (h : s.Inv) : Keeps (runScalarSl f w lit s) := by
  unfold runScalarSl
  exact runScalar_keeps h

theorem runScalarX_keeps {fnOk : Bool} {f : W64 → W64 → W64} {w : XWord} (h : s.Inv) : Keeps (runScalarX fnOk f w s) := by
  unfold runScalarX
  exact runScalar_keeps h

theorem runDivide_keeps {f : W64 → W64 → W64} {w : XWord} (h : s.Inv) : Keeps (runDivide f w s) := by
  unfold runDivide
  exact runScalar_keeps h

theorem runSbit_keeps {f : Nat → Nat} {w : XWord} (h : s.Inv) : Keeps (runSbit f w s) := by
  unfold runSbit
  exact runScalar_keeps h

end Sys2Proof.Machine
end

section
/-!
PROOF. Instructions, messages and events of which the rule of their shape alone does not say that they keep the invariant.
-/

namespace Sys2Proof.Machine

variable {s t : State}

/-! ### Machine/MemAccess.lean -/

theorem execPresClr_keeps {w : XWord} (h : s.Inv) : Keeps (execPresClr w s) := runPres_keeps h fun _ _ _ => by simp [h]
theorem execPresSet_keeps {w : XWord} (h : s.Inv) : Keeps (execPresSet w s) := runPres_keeps h fun _ _ _ => by simp [h]
theorem execPresTest_keeps {w : XWord} (h : s.Inv) : Keeps (execPresTest w s) := runPres_keeps h fun _ _ _ => by simp [h]

/-! ### Machine/MemSystem.lean -/

theorem execHomeAgentRequest_keeps {op lane : Nat} (h : s.Inv) : Keeps (execHomeAgentRequest op lane s) := by
  unfold execHomeAgentRequest
  dsimp only
  (repeat' split) <;> simp [h]

theorem execPageWalkComplete_keeps {op lane : Nat} (h : s.Inv) : Keeps (execPageWalkComplete op lane s) := by
  unfold execPageWalkComplete
  (repeat' split) <;> simp [h]

theorem execSliceAccess_keeps {op lane : Nat} (h : s.Inv) : Keeps (execSliceAccess op lane s) := by
  unfold execSliceAccess
  (repeat' split) <;> simp [h]

theorem execInvalBatch_keeps {die src : Nat} (h : s.Inv) : Keeps (execInvalBatch die src s) := by
  unfold execInvalBatch
  (repeat' split) <;> simp [h]

theorem execLoadDataReturn_keeps {op : Nat} (h : s.Inv) : Keeps (execLoadDataReturn op s) := by
  unfold execLoadDataReturn
  dsimp only
  (repeat' split) <;> simp [h]

theorem execCrewScratchpadAccess_keeps {op : Nat} (h : s.Inv) : Keeps (execCrewScratchpadAccess op s) := by
  unfold execCrewScratchpadAccess
  (repeat' split) <;> simp [h]

theorem execInvalidate_keeps {m : MsgId} {part : Nat} {va : W64} {pages : Nat} (h : s.Inv) : Keeps (execInvalidate m part va pages s) := by
  refine onMessage_keeps h fun t ht => ?_
  dsimp only
  split
  · simpa using ht
  · split
    · simpa using ht
    · split
      · simpa using ht
      · exact (State.inv_with ..).2 ((State.modDie_inv _ _).2 ht)

theorem execInvalAck_keeps {die core inv : Nat} (h : s.Inv) : Keeps (execInvalAck die core inv s) := by
  unfold execInvalAck
  (repeat' split) <;> simp [h]

/-! ### Machine/Tiles.lean -/

theorem execExpandedViewRead_keeps {op lane : Nat} (h : s.Inv) : Keeps (execExpandedViewRead op lane s) := by
  unfold execExpandedViewRead
  dsimp only
  (repeat' split) <;> simp [h]

theorem execXvreg_keeps {m : MsgId} {part die xid : Nat} {desc : W64} {tabs : List W64} (h : s.Inv) :
    Keeps (execXvreg m part die xid desc tabs s) := by
  refine onMessage_keeps h fun t ht => ?_
  split
  · simpa using ht
  · exact State.refuse_inv.2 (State.foldl_inv (fun _ _ hu => State.logAccess_inv hu) ht _)

theorem execXvfree_keeps {m : MsgId} {part die xid : Nat} (h : s.Inv) : Keeps (execXvfree m part die xid s) :=
  onMessage_keeps h fun _ ht => by simpa using ht

/-! ### Machine/Coded.lean -/

theorem execTbind_keeps {w : XWord} (h : s.Inv) : Keeps (execTbind w s) := by
  refine runUniform_keeps h fun x => ?_
  dsimp only
  split
  · simp [h]
  · split
    next => simp
    next hf => simpa using State.acquireRead_fault_inv h hf
    next hb => simp [State.acquireRead_bytes_inv h hb]

theorem execTbindClr_keeps {w : XWord} (h : s.Inv) : Keeps (execTbindClr w s) := runUniform_keeps h fun _ => by simp [h]

theorem execTlocEnt_keeps {w : XWord} (h : s.Inv) : Keeps (execTlocEnt w s) := by
  refine runUniform_keeps h fun x => ?_
  (repeat' split) <;> simp [h]

theorem execTloc_keeps {w : XWord} (h : s.Inv) : Keeps (execTloc w s) := by
  refine runUniform_keeps h fun x => ?_
  split
  · simp [h]
  · split
    next => simp
    next hf => simpa using State.acquireRead_fault_inv h hf
    next hb => simp [State.acquireRead_bytes_inv h hb]

theorem execTexp_keeps {w : XWord} (h : s.Inv) : Keeps (execTexp w s) := runUniform_keeps h fun _ => texpIssue_inv h

theorem execTexpDecodeDone_keeps {gid b sub : Nat} (h : s.Inv) : Keeps (execTexpDecodeDone gid b sub s) := by
  unfold execTexpDecodeDone
  (repeat' split) <;> simp [h]

theorem execTenc_keeps {w : XWord} (h : s.Inv) : Keeps (execTenc w s) := runUniform_keeps h fun _ => tencIssue_inv h

theorem execTencPublish_keeps {gid b sub : Nat} (h : s.Inv) : Keeps (execTencPublish gid b sub s) := by
  unfold execTencPublish
  split
  · simp
  next o x _ =>
    have ha := State.tencAppend_holds (x := x) (o := o) (e := entryOf (o.desc.drop 64)) h
    split
    · simp
    · refine keeps_next.2 (State.endDec_inv h ?_)
      split
      next hq =>
        rw [hq] at ha
        exact (Eff.inv_fault ..).2 (State.logFault_inv ha)
      next hq =>
        rw [hq] at ha
        exact Eff.inv_done.2 (State.setS_inv.2 (State.tencSeen_inv.2 ha))

theorem execCtld_keeps {w : XWord} (h : s.Inv) : Keeps (execCtld w s) := by
  refine runUniform_keeps h fun x => ?_
  dsimp only
  (repeat' split) <;> simp [h]

theorem execCtldSpm_keeps {w : XWord} (h : s.Inv) : Keeps (execCtldSpm w s) := by
  refine runUniform_keeps h fun x => ?_
  dsimp only
  (repeat' split) <;> simp [h]

theorem execDecoderResume_keeps {gid b sub : Nat} (h : s.Inv) : Keeps (execDecoderResume gid b sub s) := by
  unfold execDecoderResume
  split
  · simp
  · split
    · simp
    · split
      · simp [h]
      · split
        · split
          next hf => simp [State.ctldObject_inv h hf]
          next => simp [h]
        · split
          · simp
          · dsimp only
            split <;> simp [h]

theorem execCtldFill_keeps {gid b sub : Nat} (h : s.Inv) : Keeps (execCtldFill gid b sub s) := by
  unfold execCtldFill
  (repeat' split) <;> simp [h]

theorem execCtst_keeps {w : XWord} (h : s.Inv) : Keeps (execCtst w s) := by
  refine runUniform_keeps h fun x => ?_
  dsimp only
  (repeat' split) <;> simp [h]

theorem execVlut_keeps {w : XWord} (h : s.Inv) : Keeps (execVlut w s) := runVlut_keeps h
theorem execVlutHi_keeps {w : XWord} (h : s.Inv) : Keeps (execVlutHi w s) := runVlut_keeps h
theorem execVlutP2_keeps {w : XWord} (h : s.Inv) : Keeps (execVlutP2 w s) := runVlut_keeps h

/-! ### Machine/Flow.lean -/

theorem execNop_keeps (h : s.Inv) : Keeps (execNop s) := runLane_keeps h fun _ _ _ ht => by simpa using ht
theorem execBra_keeps {w : BraWord} (h : s.Inv) : Keeps (execBra w s) := runUniform_keeps h fun _ => by simp [h]

theorem execJoin_keeps (h : s.Inv) : Keeps (execJoin s) := by
  unfold execJoin
  split
  · simp
  · extract_lets blocked eff turned
    have hr : Keeps (runUniform true 4 (fun _ => bareForm true true) (plainWord 0 0 0 268 268) noExtra eff s) :=
      runUniform_keeps h fun _ => by simp only [eff]; split <;> simp [h]
    split
    next e =>
      have ht := hr _ e
      split <;> simp [ht]
    next => exact hr

theorem execBrx_keeps {w : XWord} (h : s.Inv) : Keeps (execBrx w s) := runUniform_keeps h fun _ => by simp [h]
theorem execBru_keeps {w : XWord} (h : s.Inv) : Keeps (execBru w s) := runUniform_keeps h fun _ => by simp [h]
theorem execCall_keeps {w : XWord} (h : s.Inv) : Keeps (execCall w s) := runUniform_keeps h fun _ => by simp [h]
theorem execCallIndirect_keeps {w : XWord} (h : s.Inv) : Keeps (execCallIndirect w s) := runUniform_keeps h fun _ => by simp [h]
theorem execRet_keeps (h : s.Inv) : Keeps (execRet s) := runUniform_keeps h fun _ => by simp [h]
theorem execRegang_keeps (h : s.Inv) : Keeps (execRegang s) := runUniform_keeps h fun _ => regangEff_inv h
theorem execPlaneSet_keeps {w : XWord} (h : s.Inv) : Keeps (execPlaneSet w s) := runUniform_keeps h fun _ => by simp [h]
theorem execPlaneMov_keeps {w : XWord} (h : s.Inv) : Keeps (execPlaneMov w s) := runUniform_keeps h fun _ => by simp [h]
theorem execPlaneGet_keeps {w : XWord} (h : s.Inv) : Keeps (execPlaneGet w s) := runUniform_keeps h fun _ => by simp [h]
theorem execPlaneBal_keeps {w : XWord} (h : s.Inv) : Keeps (execPlaneBal w s) := runUniform_keeps h fun _ => by simp [h]

theorem execYield_keeps {w : XWord} (h : s.Inv) : Keeps (execYield w s) := by
  unfold execYield
  exact runUniformWith_keeps h fun _ => by simpa using h

theorem execExit_keeps (h : s.Inv) : Keeps (execExit s) := runUniformWith_keeps h fun _ => by simp [h]
theorem execTrap_keeps {w : TrapWord} (h : s.Inv) : Keeps (execTrap w s) := runUniform_keeps h fun _ => by simp [h]

/-! ### Machine/Engine.lean -/

theorem execWaitTok_keeps {w : XWord} (h : s.Inv) : Keeps (execWaitTok w s) := runUniform_keeps h fun _ => waitEff_inv h
theorem execWaitTl_keeps {w : XWord} (h : s.Inv) : Keeps (execWaitTl w s) := runUniform_keeps h fun _ => waitEff_inv h

/-! ### Machine/Copy.lean -/

theorem execCpyTileG2sCh_keeps {w : XWord} {lit : W64} (h : s.Inv) : Keeps (execCpyTileG2sCh w lit s) := by
  refine runUniform_keeps h fun x => ?_
  dsimp only
  split
  next hf => simpa using State.copyFault_inv h _ hf
  next =>
    split
    next hf => simpa using State.chainFault_inv h _ hf
    next => simp [h]

theorem execCopyChunk_keeps {op : Nat} (h : s.Inv) : Keeps (execCopyChunk op s) := by
  unfold execCopyChunk
  (repeat' split) <;> simp [h]

/-! ### Machine/Barrier.lean -/

theorem execBarInit_keeps {w : XWord} (h : s.Inv) : Keeps (execBarInit w s) := runBar_keeps h fun _ => by simp [h]
theorem execBarArrive_keeps {w : XWord} (h : s.Inv) : Keeps (execBarArrive w s) := runBar_keeps h fun _ => by simp [h]
theorem execBarQuery_keeps {w : XWord} (h : s.Inv) : Keeps (execBarQuery w s) := runBar_keeps h fun _ => by simp [h]

theorem execBarWait_keeps {w : XWord} (h : s.Inv) : Keeps (execBarWait w s) :=
  runBar_keeps h fun _ => barWaitOn_inv (fun _ _ => by simpa using h) h

theorem execBarMeet_keeps {w : XWord} (h : s.Inv) : Keeps (execBarMeet w s) := by
  refine runBar_keeps h fun x => ?_
  dsimp only
  split
  · exact barWaitOn_inv (fun _ _ => by simpa using h) h
  · split
    · simp
    · exact barWaitOn_inv (fun _ _ => by simpa using h) (by simpa using h)

theorem execBarRed_keeps {w : XWord} (h : s.Inv) : Keeps (execBarRed w s) := by
  refine runBar_keeps h fun x => ?_
  dsimp only
  split
  · exact barWaitOn_inv (fun _ _ => by simpa using h) h
  · split
    · simp
    · exact barWaitOn_inv (fun _ _ => by simpa using h) (by simpa using h)

theorem execBarArriveRemote_keeps {w : XWord} (h : s.Inv) : Keeps (execBarArriveRemote w s) := by
  refine runBar_keeps h fun x => ?_
  dsimp only
  (repeat' split) <;> simp [h]

theorem execRemoteArrival_keeps {arr : Nat} (h : s.Inv) : Keeps (execRemoteArrival arr s) := by
  unfold execRemoteArrival
  dsimp only
  (repeat' split) <;> simp [h]

/-! ### Machine/Group.lean -/

theorem execGrpJoin_keeps {w : XWord} (h : s.Inv) : Keeps (execGrpJoin w s) := runUniform_keeps h fun _ => by simp [h]
theorem execGrpLeave_keeps {w : XWord} (h : s.Inv) : Keeps (execGrpLeave w s) := runUniform_keeps h fun _ => by simp [h, leaveEnd_inv]
theorem execGrpQuery_keeps {w : XWord} (h : s.Inv) : Keeps (execGrpQuery w s) := runUniform_keeps h fun _ => by simp [h]
theorem execGrpPublish_keeps {w : XWord} (h : s.Inv) : Keeps (execGrpPublish w s) := runUniform_keeps h fun _ => by simp [h, publishEnd_inv]

/-! ### Machine/Launch.lean -/

theorem execResideOk_keeps {m of : MsgId} (h : s.Inv) : Keeps (execResideOk m of s) := by
  refine onMessage_keeps h fun t ht => ?_
  (repeat' split) <;> simp [ht]

theorem execResideFail_keeps {m of : MsgId} (h : s.Inv) : Keeps (execResideFail m of s) := by
  refine onMessage_keeps h fun t ht => ?_
  (repeat' split) <;> simp [ht]

theorem execResideTimeout_keeps {die lkey : Nat} (h : s.Inv) : Keeps (execResideTimeout die lkey s) := by
  unfold execResideTimeout
  (repeat' split) <;> simp [h]

theorem execLeaseReady_keeps {die lkey : Nat} (h : s.Inv) : Keeps (execLeaseReady die lkey s) := by
  unfold execLeaseReady
  split
  · simp
  · split
    · simp
    · dsimp only
      split
      · simp [h]
      · split
        · simp [h]
        · refine keeps_next.2 (State.foldl_inv (fun t d ht => ?_) (by simpa using h) _)
          exact State.drainAll_inv (State.foldl_inv (fun _ _ hu => State.vetRecord_inv hu) ht _)

theorem execLeaseFail_keeps {die lkey : Nat} (h : s.Inv) : Keeps (execLeaseFail die lkey s) := by
  unfold execLeaseFail
  (repeat' split) <;> simp [h]

theorem execLeaseShareReport_keeps {src die lkey : Nat} (h : s.Inv) : Keeps (execLeaseShareReport src die lkey s) := by
  unfold execLeaseShareReport
  (repeat' split) <;> simp [h]

theorem execLaunch_keeps {m : MsgId} {packet : List Byte} (h : s.Inv) : Keeps (execLaunch m packet s) := by
  refine onMessage_keeps h fun t ht => ?_
  (repeat' split) <;> simp [ht]

theorem execSpawn_keeps {w : XWord} (h : s.Inv) : Keeps (execSpawn w s) := by
  refine runUniform_keeps h fun x => ?_
  dsimp only
  (repeat' split) <;> simp [h]

theorem execLaunchInstruction_keeps {w : XWord} (h : s.Inv) : Keeps (execLaunchInstruction w s) := by
  refine runUniform_keeps h fun x => ?_
  dsimp only
  split
  · simp [h]
  · split
    next => simp
    next hf => simpa using State.acquireRead_fault_inv h hf
    next hb => simp [State.acquireRead_bytes_inv h hb]

theorem execJcInit_keeps {w : XWord} (h : s.Inv) : Keeps (execJcInit w s) := by
  refine runUniform_keeps h fun x => ?_
  dsimp only
  split
  · simp [h]
  · split
    · simp
    · split
      next => simp [h]
      next hw => simp [State.writeGang_inv h hw]

theorem execJcAdd_keeps {w : XWord} (h : s.Inv) : Keeps (execJcAdd w s) := by
  refine runUniform_keeps h fun x => ?_
  dsimp only
  split
  · simp [h]
  · refine Eff.inv_of_ite (by simp) (Eff.inv_of_ite (by simpa using h) ?_)
    split
    next => simpa using h
    next hr => simp [State.jcApply_inv h hr]

/-! ### Machine/Scan.lean -/

theorem execCarryOutFormed_keeps {gid : Nat} (h : s.Inv) : Keeps (execCarryOutFormed gid s) := by
  unfold execCarryOutFormed
  (repeat' split) <;> simp [h]

theorem execCarryArrive_keeps {carry : Nat} (h : s.Inv) : Keeps (execCarryArrive carry s) := by
  unfold execCarryArrive
  (repeat' split) <;> simp [h]

theorem execScanTilePerform_keeps {op : Nat} (h : s.Inv) : Keeps (execScanTilePerform op s) := by
  unfold execScanTilePerform
  (repeat' split) <;> simp [h]

theorem execScanFixPerform_keeps {op : Nat} (h : s.Inv) : Keeps (execScanFixPerform op s) := by
  unfold execScanFixPerform
  dsimp only
  (repeat' split) <;> simp [h]

theorem execScanOpdef_keeps {w : XWord} (h : s.Inv) : Keeps (execScanOpdef w s) := by
  refine runUniform_keeps h fun x => ?_
  dsimp only
  split
  · simp [h]
  · split
    · (repeat' split) <;> simp [h, padFault_inv, opdefEff_inv]
    · split
      next => simp
      next hf => simpa using State.acquireRead_fault_inv h hf
      next =>
        split
        next => simp
        next hf => simpa using State.acquireRead_fault_inv h hf
        next hb => exact opdefEff_inv (State.acquireRead_bytes_inv h hb)

theorem execScanBegin_keeps {w : XWord} (h : s.Inv) : Keeps (execScanBegin w s) := by
  refine runUniform_keeps h fun x => ?_
  dsimp only
  split
  · simp [h]
  · split
    · (repeat' split) <;> simp [h, padFault_inv]
    · split
      · simp [h]
      · split
        next => simp
        next hf => simpa using State.acquireRead_fault_inv h hf
        next hb => simpa using State.acquireRead_bytes_inv h hb

theorem execScanTile_keeps {w : XWord} (h : s.Inv) : Keeps (execScanTile w s) := by
  refine runUniform_keeps h fun x => ?_
  dsimp only
  split <;> simp [h, padFault_inv]

theorem execScanPub_keeps {w : XWord} (h : s.Inv) : Keeps (execScanPub w s) := runUniform_keeps h fun _ => by simp [h]

theorem execScanCarry_keeps {w : XWord} (h : s.Inv) : Keeps (execScanCarry w s) := by
  refine runUniform_keeps h fun x => ?_
  dsimp only
  split
  · exact padFault_inv h
  · split <;> simp [h]

theorem execScanFix_keeps {w : XWord} (h : s.Inv) : Keeps (execScanFix w s) := by
  refine runUniform_keeps h fun x => ?_
  dsimp only
  split <;> simp [h, padFault_inv]

theorem execScanEnd_keeps {w : XWord} (h : s.Inv) : Keeps (execScanEnd w s) := by
  refine runUniform_keeps h fun x => ?_
  dsimp only
  split <;> simp [h, closeScan_inv]

/-! ### Machine/Watch.lean -/

theorem execWatchSet_keeps {w : XWord} (h : s.Inv) : Keeps (execWatchSet w s) := by
  refine runUniform_keeps h fun x => ?_
  dsimp only
  (repeat' split) <;> simp [h]

theorem execWatchClr_keeps {w : XWord} (h : s.Inv) : Keeps (execWatchClr w s) := runUniform_keeps h fun _ => by simp [h]
theorem execWatchGet_keeps {w : XWord} (h : s.Inv) : Keeps (execWatchGet w s) := runUniform_keeps h fun _ => by simp [h]
theorem execWatchArm_keeps {w : XWord} (h : s.Inv) : Keeps (execWatchArm w s) := runUniform_keeps h fun _ => by simp [h]

theorem execHaltTakesEffect_keeps {halt : Nat} (h : s.Inv) : Keeps (execHaltTakesEffect halt s) := by
  unfold execHaltTakesEffect
  (repeat' split) <;> simp [h]

theorem execSxentry_keeps {m : MsgId} {part die e : Nat} {words : List W64} (h : s.Inv) : Keeps (execSxentry m part die e words s) :=
  onMessage_keeps h fun _ ht => by simpa using ht

theorem execSxprog_keeps {m : MsgId} {part die n : Nat} {words : List W32} (h : s.Inv) : Keeps (execSxprog m part die n words s) :=
  onMessage_keeps h fun _ ht => by simpa using ht

theorem execAttach_keeps {m : MsgId} {body : Option PartFlag} (h : s.Inv) : Keeps (execAttach m body s) := by
  refine onMessage_keeps h fun t ht => ?_
  (repeat' split) <;> simp [ht]

theorem execSextantProgramRun_keeps {run : Nat} (h : s.Inv) : Keeps (execSextantProgramRun run s) := by
  unfold execSextantProgramRun
  dsimp only
  (repeat' split) <;> simp [h]

/-! ### Machine/Debug.lean -/

theorem execDbgHread_keeps {w : XWord} (h : s.Inv) : Keeps (execDbgHread w s) := runPrivileged_keeps h fun _ => by simp [h]
theorem execDbgHwrite_keeps {w : XWord} (h : s.Inv) : Keeps (execDbgHwrite w s) := runPrivileged_keeps h fun _ => by simp [h]
theorem execDbgHstep_keeps {w : XWord} (h : s.Inv) : Keeps (execDbgHstep w s) := runPrivileged_keeps h fun _ => by simp [h]
theorem execDbgHresume_keeps {w : XWord} (h : s.Inv) : Keeps (execDbgHresume w s) := runPrivileged_keeps h fun _ => by simp [h]
theorem execDbgHstat_keeps {w : XWord} (h : s.Inv) : Keeps (execDbgHstat w s) := runPrivileged_keeps h fun _ => by simp [h]

theorem execDbgHalt_keeps {w : XWord} (h : s.Inv) : Keeps (execDbgHalt w s) := by
  refine runPrivileged_keeps h fun x => ?_
  (repeat' split) <;> simp [h]

theorem execDebug_keeps {m : MsgId} {part die : Nat} {d : DbgCmd} (h : s.Inv) : Keeps (execDebug m part die d s) := by
  refine onMessage_keeps h fun t ht => ?_
  dsimp only
  (repeat' split) <;> simp [ht]

/-! ### Machine/Matrix.lean -/

theorem execMatrixKStep_keeps {op : Nat} (h : s.Inv) : Keeps (execMatrixKStep op s) := by
  unfold execMatrixKStep
  dsimp only
  (repeat' split) <;> simp [h]

theorem execBloadSlotSwitch_keeps {op : Nat} (h : s.Inv) : Keeps (execBloadSlotSwitch op s) := by
  unfold execBloadSlotSwitch
  dsimp only
  (repeat' split) <;> simp [h]

theorem execAccWin_keeps {w : XWord} (h : s.Inv) : Keeps (execAccWin w s) := runUniform_keeps h fun _ => by simp [h]
theorem execAccLd_keeps {w : XWord} (h : s.Inv) : Keeps (execAccLd w s) := runUniform_keeps h fun _ => accEff_inv (by simpa using h)
theorem execAccSt_keeps {w : XWord} (h : s.Inv) : Keeps (execAccSt w s) := runUniform_keeps h fun _ => accEff_inv (by simpa using h)
theorem execAccZero_keeps {w : XWord} (h : s.Inv) : Keeps (execAccZero w s) := runUniform_keeps h fun _ => accEff_inv (by simpa using h)

theorem execAccOut_keeps {w : XWord} (h : s.Inv) : Keeps (execAccOut w s) := by
  refine runUniform_keeps h fun x => ?_
  dsimp only
  (repeat' split) <;> simp [h]

/-! ### Machine/Place.lean -/

theorem execCrewPlace_keeps {die : Nat} (h : s.Inv) : Keeps (execCrewPlace die s) := by
  unfold execCrewPlace
  split
  · simp
  · split
    · simp
    · split
      next ht => simpa using State.tryPlace_inv h _ ht
      next =>
        dsimp only
        split
        next ht => simpa using State.placeFirst_inv (by simpa using h) _ ht
        next => simp [h]

theorem execBackfillTimeout_keeps {die : Nat} (h : s.Inv) : Keeps (execBackfillTimeout die s) := by
  unfold execBackfillTimeout
  (repeat' split) <;> simp [h]

theorem execLate_keeps {die arrival : Nat} (h : s.Inv) : Keeps (execLate die arrival s) := by
  unfold execLate
  (repeat' split) <;> simp [h]

theorem execPinseg_keeps {m : MsgId} {b : PinSet} (h : s.Inv) : Keeps (execPinseg m b s) := by
  refine onMessage_keeps h fun t ht => ?_
  dsimp only
  split
  · simp [ht]
  · exact (State.send_inv _).2 (State.foldl_inv (fun _ _ hu => State.clearPad_inv hu _ _) (by simpa using ht) _)

theorem execPinfree_keeps {m : MsgId} {part seg : Nat} (h : s.Inv) : Keeps (execPinfree m part seg s) := by
  refine onMessage_keeps h fun t ht => ?_
  (repeat' split) <;> simp [ht]

/-! ### Machine/Stop.lean -/

theorem execPreempt_keeps {m : MsgId} {part die : Nat} {lid : W64} (h : s.Inv) : Keeps (execPreempt m part die lid s) :=
  onMessage_keeps h fun _ ht => by simpa using ht

theorem execWswitch_keeps {m : MsgId} {part die : Nat} (h : s.Inv) : Keeps (execWswitch m part die s) :=
  onMessage_keeps h fun _ ht => by simpa using ht

theorem execWresume_keeps {m : MsgId} {part die : Nat} (h : s.Inv) : Keeps (execWresume m part die s) :=
  onMessage_keeps h fun _ ht => by simpa using ht

theorem execStopSave_keeps {crew : Nat} (h : s.Inv) : Keeps (execStopSave crew s) := by
  unfold execStopSave
  split
  · simp
  · split
    · split
      · simp
      · dsimp only
        split
        next => simp [h]
        next => simp [h]
        next hs => simp [State.allocSlot_inv h hs, State.saveInto_inv]
    · simp

theorem execDump_keeps {m : MsgId} {part die : Nat} {lid : W64} {idx : Nat} (h : s.Inv) : Keeps (execDump m part die lid idx s) := by
  refine onMessage_keeps h fun t ht => ?_
  (repeat' split) <;> simp [ht]

@[simp] theorem State.performHeld_inv {id : Nat} (h : s.Inv) : (s.performHeld id).Inv := by
  unfold State.performHeld
  split
  · exact h
  · split
    · split
      next e => exact execCrewScratchpadAccess_keeps h _ e
      next => exact h
    · exact State.foldl_inv (fun _ _ hu => State.performLane_inv hu) h _

@[simp] theorem State.performAll_inv {ids : List Nat} (h : s.Inv) : (s.performAll ids).Inv :=
  State.foldl_inv (fun _ _ hu => State.performHeld_inv hu) (by simpa using h) _

theorem execDumpDone_keeps {crew : Nat} (h : s.Inv) : Keeps (execDumpDone crew s) := by
  unfold execDumpDone
  split
  · simp
  · split
    · split
      · simp
      · dsimp only
        split
        next => simp [h]
        next => simp [h]
        next hs =>
          refine keeps_next.2 ((State.send_inv _).2 (State.modCrew_inv.2 ?_))
          refine State.foldl_inv (fun _ _ hu => State.putChunks_inv hu) ((State.inv_with ..).2 ?_) _
          exact State.haltCrew_inv.2 (State.allocSlot_inv h hs)
    · simp

theorem execDumpRelease_keeps {m : MsgId} {crew : Nat} {resume : Bool} (h : s.Inv) : Keeps (execDumpRelease m crew resume s) := by
  refine onMessage_keeps h fun t ht => ?_
  split
  · simpa using ht
  next c _ =>
    split
    next k r _ _ =>
      have hf : (t.performAll c.held).Inv := State.performAll_inv ht
      have hp := State.putSlot_inv (die := c.die) (part := c.part) (va := pkSave r.packet) (k := k) (on := false) hf
      dsimp only
      split <;> simp [hp]
    next => simpa using ht

/-! ### Machine/Csr.lean -/

theorem execCsrRd_keeps {w : XWord} (h : s.Inv) : Keeps (execCsrRd w s) := runPrivileged_keeps h fun _ => csrOrdered_inv (by simpa using h)

theorem execCsrWrFaultact_keeps {w : XWord} (h : s.Inv) : Keeps (execCsrWrFaultact w s) := by
  refine runCsrWrWith_keeps h fun x => ?_
  dsimp only
  split
  · simp [h]
  · exact csrOrdered_inv (by simpa using h)

theorem execCsrWrCecnt_keeps {w : XWord} (h : s.Inv) : Keeps (execCsrWrCecnt w s) := runCsrWr_keeps h fun _ => by simp [h]
theorem execCsrWrUecnt_keeps {w : XWord} (h : s.Inv) : Keeps (execCsrWrUecnt w s) := runCsrWr_keeps h fun _ => by simp [h]
theorem execCsrWrStopreq_keeps {w : XWord} (h : s.Inv) : Keeps (execCsrWrStopreq w s) := runCsrWr_keeps h fun _ => by simp [h]
theorem execCsrWr_keeps {w : XWord} (h : s.Inv) : Keeps (execCsrWr w s) := runCsrWr_keeps h fun _ => by simp [h]

/-! ### Machine/Perf.lean -/

theorem execPerfRd_keeps {w : XWord} (h : s.Inv) : Keeps (execPerfRd w s) := runPerf_keeps h fun _ => by simp [h]
theorem execPerfSel_keeps {w : XWord} (h : s.Inv) : Keeps (execPerfSel w s) := runPerf_keeps h fun _ => by simp [h]
theorem execPerfSamp_keeps {w : XWord} (h : s.Inv) : Keeps (execPerfSamp w s) := runPerf_keeps h fun _ => by simp [h]

theorem execPerfset_keeps {m : MsgId} {part die : Nat} {mask : BitVec 16} (h : s.Inv) : Keeps (execPerfset m part die mask s) := by
  refine onMessage_keeps h fun t ht => ?_
  split
  · simpa using ht
  · exact State.reply_inv.2 ((State.inv_with ..).2 ((State.modDie_inv _ _).2 ht))

theorem execSampring_keeps {m : MsgId} {part die : Nat} {va : W64} {entries : Nat} (h : s.Inv) :
    Keeps (execSampring m part die va entries s) :=
  onMessage_keeps h fun _ ht => by simpa using ht

theorem execPcSample_keeps {gid : Nat} (h : s.Inv) : Keeps (execPcSample gid s) := by
  unfold execPcSample
  dsimp only
  (repeat' split) <;> simp [h]

/-! ### Machine/Collective.lean -/

theorem execCollreg_keeps {m : MsgId} {part : Nat} {gid : W32} {ends idxs : List Nat} (h : s.Inv) :
    Keeps (execCollreg m part gid ends idxs s) :=
  onMessage_keeps h fun _ ht => by simpa using ht

theorem execFabricFrame_keeps {f : FabricFrame} (h : s.Inv) : Keeps (execFabricFrame f s) := by
  unfold execFabricFrame
  (repeat' split) <;> simp [h]

theorem execCollComplete_keeps {op : Nat} (h : s.Inv) : Keeps (execCollComplete op s) := by
  unfold execCollComplete
  dsimp only
  (repeat' split) <;> simp [h]

theorem execCollTimeout_keeps {op : Nat} (h : s.Inv) : Keeps (execCollTimeout op s) := by
  unfold execCollTimeout
  dsimp only
  (repeat' split) <;> simp [h]

/-! ### Machine/Retire.lean -/

theorem execGangRetire_keeps {gid : Nat} (h : s.Inv) : Keeps (execGangRetire gid s) := by
  unfold execGangRetire
  (repeat' split) <;> simp [h]

theorem execCrewRetire_keeps {crew : Nat} (h : s.Inv) : Keeps (execCrewRetire crew s) := by
  unfold execCrewRetire
  (repeat' split) <;> simp [h]

/-! ### Machine/Partition.lean -/

theorem execPartset_keeps {m : MsgId} {body : Option PartSet} (h : s.Inv) : Keeps (execPartset m body s) := by
  refine onMessage_keeps h fun t ht => ?_
  (repeat' split) <;> simp [ht]

theorem execCompass_keeps {m : MsgId} {body : Option CompassSet} (h : s.Inv) : Keeps (execCompass m body s) := by
  refine onMessage_keeps h fun t ht => ?_
  (repeat' split) <;> simp [ht]

theorem execPartattr_keeps {m : MsgId} {body : Option PartFlag} (h : s.Inv) : Keeps (execPartattr m body s) := by
  refine onMessage_keeps h fun t ht => ?_
  (repeat' split) <;> simp [ht]

theorem execRingset_keeps {m : MsgId} {part die : Nat} {va : W64} {entries : Nat} (h : s.Inv) :
    Keeps (execRingset m part die va entries s) := by
  refine onMessage_keeps h fun t ht => ?_
  (repeat' split) <;> simp [ht]

theorem execPartreset_keeps {m : MsgId} {part : Option Nat} (h : s.Inv) : Keeps (execPartreset m part s) := by
  refine onMessage_keeps h fun t ht => ?_
  (repeat' split) <;> simp [ht]

theorem execResetDone_keeps {die part : Nat} (h : s.Inv) : Keeps (execResetDone die part s) := by
  unfold execResetDone
  split
  · simp
  · split
    · simp
    · split
      · simp
      · have hs := State.foldl_inv (f := fun s (k : Nat × Nat) => s.dropSlot die part k.1 k.2) (fun _ _ hu => State.dropSlot_inv hu) h
          (s.slotsOf part die)
        dsimp only
        split <;> simp [hs]

theorem execResetTimeout_keeps {die part : Nat} (h : s.Inv) : Keeps (execResetTimeout die part s) := by
  unfold execResetTimeout
  (repeat' split) <;> simp [h]

theorem execSoftErrorCorrected_keeps {die core part : Nat} (h : s.Inv) : Keeps (execSoftErrorCorrected die core part s) := by
  simp [execSoftErrorCorrected, h]

theorem execDeviceStructureError_keeps {die part : Nat} {refetched : Bool} (h : s.Inv) :
    Keeps (execDeviceStructureError die part refetched s) := by
  simp [execDeviceStructureError, h]

/-! ### Machine/Bringup.lean -/

theorem execPowerRailEnable_keeps (h : s.Inv) : Keeps (execPowerRailEnable s) := by simp [execPowerRailEnable, h]

theorem execModuleReset_keeps {asserted : Bool} (h : s.Inv) : Keeps (execModuleReset asserted s) := by
  unfold execModuleReset
  split
  · simp
  · split
    · exact keeps_next.2 State.cleared_inv
    · split
      · exact keeps_next.2 ⟨h.mem, h.dies, h.parts, Nat.le_add_left 1 7, h.frames⟩
      · simp

theorem execPowerDown_keeps : Keeps (execPowerDown s) := by simp [execPowerDown, State.cleared_inv]

theorem execTikelTraining_keeps {passed : List LinkSetting} (h : s.Inv) : Keeps (execTikelTraining passed s) := by
  unfold execTikelTraining
  split
  · simp
  · split
    · simp
    · refine keeps_next.2 ((State.send_inv _).2 ⟨h.mem, h.dies, h.parts, ?_, (Link.pump_frames _).2 h.frames⟩)
      exact max_le h.phase (by decide)

theorem execTrainingRetry_keeps (h : s.Inv) : Keeps (execTrainingRetry s) := by
  unfold execTrainingRetry
  split
  · exact keeps_next.2 ⟨h.mem, h.dies, h.parts, h.phase, h.frames⟩
  · simp

theorem execAck_keeps {lsn : BitVec 16} {av : Bool} (h : s.Inv) : Keeps (execAck lsn av s) := by
  unfold execAck
  split
  · simp
  · refine keeps_next.2 ?_
    split
    · exact ⟨h.mem, h.dies, h.parts, h.phase, Link.acked_frames h.frames lsn⟩
    · exact h

theorem execAckOnlyTimer_keeps (h : s.Inv) : Keeps (execAckOnlyTimer s) := by
  unfold execAckOnlyTimer
  split
  · exact keeps_next.2 ⟨h.mem, h.dies, h.parts, h.phase, h.frames⟩
  · simp

theorem execResendTimeout_keeps (h : s.Inv) : Keeps (execResendTimeout s) := by
  unfold execResendTimeout
  split
  · simp
  · split
    · exact keeps_next.2 ⟨h.mem, h.dies, h.parts, h.phase, h.frames⟩
    · exact keeps_next.2 ⟨h.mem, h.dies, h.parts, h.phase, h.frames⟩

theorem execFrameCrcFail_keeps (h : s.Inv) : Keeps (execFrameCrcFail s) := by
  unfold execFrameCrcFail
  split
  · simp
  · split
    · exact keeps_next.2 ⟨h.mem, h.dies, h.parts, h.phase, h.frames⟩
    · simp

theorem execUnlistedMessage_keeps {kind : Byte} {m : MsgId} (h : s.Inv) : Keeps (execUnlistedMessage kind m s) := by
  simp [execUnlistedMessage, h]

theorem execFirmware_keeps {m : MsgId} {img : FwImage} (h : s.Inv) : Keeps (execFirmware m img s) := by simp [execFirmware, h]

theorem execAttestReq_keeps {m : MsgId} {nonce : List Byte} (h : s.Inv) : Keeps (execAttestReq m nonce s) := by
  unfold execAttestReq
  split
  · simp
  · have hr : (s.received 1).Inv := by simpa using h
    dsimp only
    split
    · simp [hr]
    · exact keeps_next.2 ((State.inv_with ..).2 hr)

theorem execAttestReport_keeps (h : s.Inv) : Keeps (execAttestReport s) := by
  unfold execAttestReport
  (repeat' split) <;> simp [h]

theorem execDevtimeStart_keeps {offs : List Int} (h : s.Inv) : Keeps (execDevtimeStart offs s) := by
  unfold execDevtimeStart
  split
  · simp
  next hc =>
    split
    · have ho : offs.length = 8 := by
        by_contra hn
        simp [hn] at hc
      refine keeps_next.2 ((State.send_inv _).2 ⟨h.mem, ?_, h.parts, Nat.le_add_left 6 2, h.frames⟩)
      simp [h.dies, ho]
    · split <;> simp [h]

theorem execDevtimeCheck_keeps {die : Nat} {off : Int} (h : s.Inv) : Keeps (execDevtimeCheck die off s) := by simp [execDevtimeCheck, h]

theorem execMemoryAndFabric_keeps (h : s.Inv) : Keeps (execMemoryAndFabric s) := by
  unfold execMemoryAndFabric
  split
  · simp
  · split
    · refine keeps_next.2 ((State.send_inv _).2 ((State.send_inv _).2 ?_))
      exact ⟨h.mem, h.dies, h.parts, le_rfl, h.frames⟩
    · simp [h]

theorem execThermalLimit_keeps {die : Nat} (h : s.Inv) : Keeps (execThermalLimit die s) := by simp [execThermalLimit, h]
theorem execOvertempShutdown_keeps {die : Nat} (h : s.Inv) : Keeps (execOvertempShutdown die s) := by simp [execOvertempShutdown, h]

/-! ### Machine/Float.lean -/

theorem execFcmp_keeps {w : XWord} (h : s.Inv) : Keeps (execFcmp w s) := runLane_keeps h fun _ _ _ ht => by simpa using ht
theorem execFcvt_keeps {w : XWord} (h : s.Inv) : Keeps (execFcvt w s) := runCompute_keeps h
theorem execFcls_keeps {w : XWord} (h : s.Inv) : Keeps (execFcls w s) := runCompute_keeps h
theorem execFscl_keeps {w : XWord} (h : s.Inv) : Keeps (execFscl w s) := runCompute_keeps h
theorem execFrnd_keeps {w : XWord} (h : s.Inv) : Keeps (execFrnd w s) := runCompute_keeps h
theorem execBfpd_keeps {w : XWord} (h : s.Inv) : Keeps (execBfpd w s) := runCompute_keeps h
theorem execBfpq_keeps {w : XWord} (h : s.Inv) : Keeps (execBfpq w s) := runLane_keeps h fun _ _ _ ht => by simpa using ht
theorem execPair_keeps {w : PairWord} (h : s.Inv) : Keeps (execPair w s) := runLane_keeps h fun _ _ _ ht => by simpa using ht

/-! ### Machine/Messages.lean -/

theorem execMemread_keeps {m : MsgId} {a : MemSpan} (h : s.Inv) : Keeps (execMemread m a s) := by
  refine onMessage_keeps h fun t ht => ?_
  (repeat' split) <;> simp [ht]

theorem execMemwrite_keeps {m : MsgId} {a : MemSpan} {bytes : List Byte} (h : s.Inv) : Keeps (execMemwrite m a bytes s) := by
  refine onMessage_keeps h fun t ht => ?_
  dsimp only
  (repeat' split) <;> simp [ht]

/-! ### Machine/Scalar.lean -/

theorem execScmp_keeps {w : XWord} (h : s.Inv) : Keeps (execScmp w s) := runScalarX_keeps h
theorem execSsel_keeps {w : XWord} (h : s.Inv) : Keeps (execSsel w s) := runScalar_keeps h
theorem execSli_keeps {w : SWord} {lit : W64} (h : s.Inv) : Keeps (execSli w lit s) := runScalar_keeps h
theorem execSmov_keeps {w : SWord} (h : s.Inv) : Keeps (execSmov w s) := runScalar_keeps h
theorem execSaddr_keeps {w : XWord} (h : s.Inv) : Keeps (execSaddr w s) := runScalar_keeps h
theorem execSbitBfx_keeps {w : XWord} (h : s.Inv) : Keeps (execSbitBfx w s) := runSbitField_keeps h
theorem execSbitBfxS_keeps {w : XWord} (h : s.Inv) : Keeps (execSbitBfxS w s) := runSbitField_keeps h
theorem execSrd_keeps {w : XWord} (h : s.Inv) : Keeps (execSrd w s) := runScalar_keeps h
theorem execVget_keeps {w : XWord} (h : s.Inv) : Keeps (execVget w s) := runScalar_keeps h
theorem execVgetS_keeps {w : XWord} (h : s.Inv) : Keeps (execVgetS w s) := runScalar_keeps h

/-! ### Machine/Tick.lean -/

theorem execWaitTick_keeps {gid b : Nat} (h : s.Inv) : Keeps (execWaitTick gid b s) := by
  unfold execWaitTick
  (repeat' split) <;> simp [h]

theorem execInstructionCacheFill_keeps {gid b sub : Nat} (h : s.Inv) : Keeps (execInstructionCacheFill gid b sub s) := by
  unfold execInstructionCacheFill
  (repeat' split) <;> simp [h]

/-! ### Machine/VecInt.lean -/

theorem execVsel_keeps {w : XWord} (h : s.Inv) : Keeps (execVsel w s) := runLane_keeps h fun _ _ _ ht => by simpa using ht
theorem execVcmp_keeps {w : XWord} (h : s.Inv) : Keeps (execVcmp w s) := runLane_keeps h fun _ _ _ ht => by simpa using ht
theorem execPlog_keeps {w : XWord} (h : s.Inv) : Keeps (execPlog w s) := runLane_keeps h fun _ _ _ ht => by simpa using ht
theorem execVrsh_keeps {w : XWord} (h : s.Inv) : Keeps (execVrsh w s) := runCompute_keeps h
theorem execVpack_keeps {w : XWord} (h : s.Inv) : Keeps (execVpack w s) := runCompute_keeps h
theorem execVshfl_keeps {w : XWord} (h : s.Inv) : Keeps (execVshfl w s) := runLane_keeps h fun _ _ _ ht => by simpa using ht
theorem execVred_keeps {w : XWord} (h : s.Inv) : Keeps (execVred w s) := runLane_keeps h fun _ _ _ ht => by simpa using ht
theorem execVscn_keeps {w : XWord} (h : s.Inv) : Keeps (execVscn w s) := runLane_keeps h fun _ _ _ ht => by simpa using ht
theorem execVbal_keeps {w : XWord} (h : s.Inv) : Keeps (execVbal w s) := runLane_keeps h fun _ _ _ ht => by simpa using ht

end Sys2Proof.Machine
end

section
/-!
PROOF. The dispatch, the turns and the step keep the invariant.
-/

namespace Sys2Proof.Machine

variable {s t : State}

/-! ## The dispatch (Machine/Dispatch.lean) -/

/-- Whatever runs keeps the invariant: the instructions of a shape by its rule, the others each by its own lemma. -/
theorem exec_keeps (h : s.Inv) (i : Instr) : Keeps (exec i s) := by
  cases i with
  | fence w | fenceAlias w =>
    exact runFence_keeps h
  | saddSForm w | ssubSForm w | smulSForm w | smulhSForm w | sandSForm w | sorSForm w | sxorSForm w | sshlSForm w | sshrSForm w
  | ssraSForm w =>
    exact runScalarS_keeps h
  | saddSlForm w lit | ssubSlForm w lit | smulSlForm w lit | smulhSlForm w lit | sandSlForm w lit | sorSlForm w lit
  | sxorSlForm w lit | sshlSlForm w lit | sshrSlForm w lit | ssraSlForm w lit =>
    exact runScalarSl_keeps h
  | saddXForm w | ssubXForm w | smulXForm w | smulhXForm w | smulhZ w | sandXForm w | sorXForm w | sxorXForm w | sshlXForm w
  | sshrXForm w | ssraXForm w | sminS w | sminZ w | smaxS w | smaxZ w =>
    exact runScalarX_keeps h
  | sdivS w | sdivZ w | sremS w | sremZ w =>
    exact runDivide_keeps h
  | sbitPopc w | sbitClz w | sbitCtz w | sbitBrev w =>
    exact runSbit_keeps h
  | sbitBfi w =>
    exact runSbitField_keeps h
  | sld w | sst w | satom w =>
    exact runScalarMem_keeps h
  | vaddSForm w | vaddXForm w | vsubSForm w | vsubXForm w | vmulSForm w | vmulXForm w | vmulhSForm w | vmulhXForm w | vmad w
  | vdot4 w | vandSForm w | vandXForm w | vorSForm w | vorXForm w | vxorSForm w | vxorXForm w | vshlSForm w | vshlXForm w
  | vshrSForm w | vshrXForm w | vsraSForm w | vsraXForm w | vmin w | vmax w | vabs w | vneg w | vmovSForm w | vmovSlForm w lit
  | vmovXForm w | vfsh w | vbitPopc w | vbitClz w | vbitCtz w | vbitBrev w | vbitBfx w | vbitBfi w | vunpk w | vprm w
  | faddSForm w | faddXForm w | fsubSForm w | fsubXForm w | fmulSForm w | fmulXForm w | ffmaSForm w | ffmaXForm w | fmin w
  | fmax w | fminn w | fmaxn w | fneg w | fabs w | fcpys w | frcpSForm w | frcpXForm w | frsqSForm w | frsqXForm w
  | fsqrtSForm w | fsqrtXForm w | fexp2SForm w | fexp2XForm w | flog2SForm w | flog2XForm w | fsinSForm w | fsinXForm w
  | fcosSForm w | fcosXForm w | ftanhSForm w | ftanhXForm w | fdot2 w =>
    exact runCompute_keeps h
  | ld w | st w | lds w | sts w | atom w =>
    exact runMem_keeps h
  | cpyLinG2s w | cpyLinS2g w | cpyLinG2g w | cpyTileG2s w | cpyRowsG2s w | cpyMcastG2s w | cpyMcastS2s w | cpyFill w =>
    exact runCopy_keeps h
  | mma w | mmaCrew w lit | mmaSp w | bload w =>
    exact runMatrix_keeps h
  | collRed w | collAr w | collBc w =>
    exact runColl_keeps h
  | bra w => exact execBra_keeps h
  | brx w => exact execBrx_keeps h
  | bru w => exact execBru_keeps h
  | call w => exact execCall_keeps h
  | callIndirect w => exact execCallIndirect_keeps h
  | planeSet w => exact execPlaneSet_keeps h
  | planeMov w => exact execPlaneMov_keeps h
  | planeGet w => exact execPlaneGet_keeps h
  | planeBal w => exact execPlaneBal_keeps h
  | yield w => exact execYield_keeps h
  | trap w => exact execTrap_keeps h
  | barInit w => exact execBarInit_keeps h
  | barArrive w => exact execBarArrive_keeps h
  | barWait w => exact execBarWait_keeps h
  | barMeet w => exact execBarMeet_keeps h
  | barArriveRemote w => exact execBarArriveRemote_keeps h
  | barRed w => exact execBarRed_keeps h
  | barQuery w => exact execBarQuery_keeps h
  | waitTok w => exact execWaitTok_keeps h
  | waitTl w => exact execWaitTl_keeps h
  | grpJoin w => exact execGrpJoin_keeps h
  | grpLeave w => exact execGrpLeave_keeps h
  | grpQuery w => exact execGrpQuery_keeps h
  | grpPublish w => exact execGrpPublish_keeps h
  | scmp w => exact execScmp_keeps h
  | ssel w => exact execSsel_keeps h
  | sli w lit => exact execSli_keeps h
  | smov w => exact execSmov_keeps h
  | saddr w => exact execSaddr_keeps h
  | sbitBfx w => exact execSbitBfx_keeps h
  | sbitBfxS w => exact execSbitBfxS_keeps h
  | srd w => exact execSrd_keeps h
  | vget w => exact execVget_keeps h
  | vgetS w => exact execVgetS_keeps h
  | vsel w => exact execVsel_keeps h
  | vcmp w => exact execVcmp_keeps h
  | vrsh w => exact execVrsh_keeps h
  | vpack w => exact execVpack_keeps h
  | vshfl w => exact execVshfl_keeps h
  | vred w => exact execVred_keeps h
  | vscn w => exact execVscn_keeps h
  | vbal w => exact execVbal_keeps h
  | plog w => exact execPlog_keeps h
  | vlut w => exact execVlut_keeps h
  | vlutHi w => exact execVlutHi_keeps h
  | vlutP2 w => exact execVlutP2_keeps h
  | pair w => exact execPair_keeps h
  | fcmp w => exact execFcmp_keeps h
  | fcvt w => exact execFcvt_keeps h
  | fcls w => exact execFcls_keeps h
  | fscl w => exact execFscl_keeps h
  | frnd w => exact execFrnd_keeps h
  | bfpq w => exact execBfpq_keeps h
  | bfpd w => exact execBfpd_keeps h
  | presClr w => exact execPresClr_keeps h
  | presSet w => exact execPresSet_keeps h
  | presTest w => exact execPresTest_keeps h
  | tlocEnt w => exact execTlocEnt_keeps h
  | tloc w => exact execTloc_keeps h
  | tbind w => exact execTbind_keeps h
  | tbindClr w => exact execTbindClr_keeps h
  | texp w => exact execTexp_keeps h
  | tenc w => exact execTenc_keeps h
  | ctld w => exact execCtld_keeps h
  | ctldSpm w => exact execCtldSpm_keeps h
  | ctst w => exact execCtst_keeps h
  | cpyTileG2sCh w lit => exact execCpyTileG2sCh_keeps h
  | accWin w => exact execAccWin_keeps h
  | accLd w => exact execAccLd_keeps h
  | accSt w => exact execAccSt_keeps h
  | accZero w => exact execAccZero_keeps h
  | accOut w => exact execAccOut_keeps h
  | scanOpdef w => exact execScanOpdef_keeps h
  | scanBegin w => exact execScanBegin_keeps h
  | scanTile w => exact execScanTile_keeps h
  | scanPub w => exact execScanPub_keeps h
  | scanCarry w => exact execScanCarry_keeps h
  | scanFix w => exact execScanFix_keeps h
  | scanEnd w => exact execScanEnd_keeps h
  | spawn w => exact execSpawn_keeps h
  | launchInstruction w => exact execLaunchInstruction_keeps h
  | jcInit w => exact execJcInit_keeps h
  | jcAdd w => exact execJcAdd_keeps h
  | dbgHread w => exact execDbgHread_keeps h
  | dbgHwrite w => exact execDbgHwrite_keeps h
  | dbgHstep w => exact execDbgHstep_keeps h
  | dbgHresume w => exact execDbgHresume_keeps h
  | dbgHstat w => exact execDbgHstat_keeps h
  | dbgHalt w => exact execDbgHalt_keeps h
  | watchSet w => exact execWatchSet_keeps h
  | watchClr w => exact execWatchClr_keeps h
  | watchGet w => exact execWatchGet_keeps h
  | watchArm w => exact execWatchArm_keeps h
  | perfRd w => exact execPerfRd_keeps h
  | perfSel w => exact execPerfSel_keeps h
  | perfSamp w => exact execPerfSamp_keeps h
  | csrRd w => exact execCsrRd_keeps h
  | csrWrFaultact w => exact execCsrWrFaultact_keeps h
  | csrWrCecnt w => exact execCsrWrCecnt_keeps h
  | csrWrUecnt w => exact execCsrWrUecnt_keeps h
  | csrWrStopreq w => exact execCsrWrStopreq_keeps h
  | csrWr w => exact execCsrWr_keeps h
  | nop => exact execNop_keeps h
  | ret => exact execRet_keeps h
  | join => exact execJoin_keeps h
  | regang => exact execRegang_keeps h
  | exit => exact execExit_keeps h
  | powerRailEnable => exact execPowerRailEnable_keeps h
  | moduleReset asserted => exact execModuleReset_keeps h
  | powerDown => exact execPowerDown_keeps
  | tikelTraining passed => exact execTikelTraining_keeps h
  | trainingRetry => exact execTrainingRetry_keeps h
  | ack lsn av => exact execAck_keeps h
  | ackOnlyTimer => exact execAckOnlyTimer_keeps h
  | resendTimeout => exact execResendTimeout_keeps h
  | unlistedMessage kind m => exact execUnlistedMessage_keeps h
  | firmware m img => exact execFirmware_keeps h
  | attestReq m nonce => exact execAttestReq_keeps h
  | attestReport => exact execAttestReport_keeps h
  | devtimeStart offs => exact execDevtimeStart_keeps h
  | devtimeCheck die off => exact execDevtimeCheck_keeps h
  | memoryAndFabric => exact execMemoryAndFabric_keeps h
  | thermalLimit die => exact execThermalLimit_keeps h
  | overtempShutdown die => exact execOvertempShutdown_keeps h
  | partset m body => exact execPartset_keeps h
  | compass m body => exact execCompass_keeps h
  | partattr m body => exact execPartattr_keeps h
  | partreset m part => exact execPartreset_keeps h
  | resetDone die part => exact execResetDone_keeps h
  | resetTimeout die part => exact execResetTimeout_keeps h
  | ringset m part die va entries => exact execRingset_keeps h
  | memread m a => exact execMemread_keeps h
  | memwrite m a bytes => exact execMemwrite_keeps h
  | launch m packet => exact execLaunch_keeps h
  | resideOk m of => exact execResideOk_keeps h
  | resideFail m of => exact execResideFail_keeps h
  | resideTimeout die lkey => exact execResideTimeout_keeps h
  | leaseReady die lkey => exact execLeaseReady_keeps h
  | leaseFail die lkey => exact execLeaseFail_keeps h
  | crewPlace die => exact execCrewPlace_keeps h
  | backfillTimeout die => exact execBackfillTimeout_keeps h
  | late die arrival => exact execLate_keeps h
  | pinseg m b => exact execPinseg_keeps h
  | pinfree m part seg => exact execPinfree_keeps h
  | invalidate m part va pages => exact execInvalidate_keeps h
  | invalAck die core inv => exact execInvalAck_keeps h
  | homeAgentRequest op lane => exact execHomeAgentRequest_keeps h
  | pageWalkComplete op lane => exact execPageWalkComplete_keeps h
  | sliceAccess op lane => exact execSliceAccess_keeps h
  | invalBatch die src => exact execInvalBatch_keeps h
  | loadDataReturn op => exact execLoadDataReturn_keeps h
  | crewScratchpadAccess op => exact execCrewScratchpadAccess_keeps h
  | xvreg m part die xid desc tabs => exact execXvreg_keeps h
  | xvfree m part die xid => exact execXvfree_keeps h
  | expandedViewRead op lane => exact execExpandedViewRead_keeps h
  | collreg m part gid ends idxs => exact execCollreg_keeps h
  | fabricFrame f => exact execFabricFrame_keeps h
  | preempt m part die lid => exact execPreempt_keeps h
  | wswitch m part die => exact execWswitch_keeps h
  | wresume m part die => exact execWresume_keeps h
  | stopSave crew => exact execStopSave_keeps h
  | dump m part die lid idx => exact execDump_keeps h
  | dumpDone crew => exact execDumpDone_keeps h
  | dumpRelease m crew resume => exact execDumpRelease_keeps h
  | sxentry m part die e words => exact execSxentry_keeps h
  | sxprog m part die n words => exact execSxprog_keeps h
  | attach m body => exact execAttach_keeps h
  | debug m part die d => exact execDebug_keeps h
  | perfset m part die mask => exact execPerfset_keeps h
  | sampring m part die va entries => exact execSampring_keeps h
  | pcSample gid => exact execPcSample_keeps h
  | waitTick gid b => exact execWaitTick_keeps h
  | copyChunk op => exact execCopyChunk_keeps h
  | matrixKStep op => exact execMatrixKStep_keeps h
  | bloadSlotSwitch op => exact execBloadSlotSwitch_keeps h
  | decoderResume gid b sub => exact execDecoderResume_keeps h
  | texpDecodeDone gid b sub => exact execTexpDecodeDone_keeps h
  | tencPublish gid b sub => exact execTencPublish_keeps h
  | ctldFill gid b sub => exact execCtldFill_keeps h
  | scanTilePerform op => exact execScanTilePerform_keeps h
  | carryOutFormed gid => exact execCarryOutFormed_keeps h
  | scanFixPerform op => exact execScanFixPerform_keeps h
  | carryArrive carry => exact execCarryArrive_keeps h
  | remoteArrival arr => exact execRemoteArrival_keeps h
  | collComplete op => exact execCollComplete_keeps h
  | collTimeout op => exact execCollTimeout_keeps h
  | sextantProgramRun run => exact execSextantProgramRun_keeps h
  | haltTakesEffect halt => exact execHaltTakesEffect_keeps h
  | softErrorCorrected die core part => exact execSoftErrorCorrected_keeps h
  | deviceStructureError die part refetched => exact execDeviceStructureError_keeps h
  | gangRetire gid => exact execGangRetire_keeps h
  | crewRetire crew => exact execCrewRetire_keeps h
  | frameCrcFail => exact execFrameCrcFail_keeps h
  | instructionCacheFill gid b sub => exact execInstructionCacheFill_keeps h
  | leaseShareReport src die lkey => exact execLeaseShareReport_keeps h

/-! ## The issue of a sub-bundle (Machine/Issue.lean) -/

@[simp] theorem Ready.faulted_inv {x : Ctx} {f : FaultInfo} : (Ready.faulted s x f).Inv ↔ s.Inv := by simp [Ready.faulted]

theorem State.fetchNext_inv {x : Ctx} {p : Pass} (h : s.Inv) : (s.fetchNext x p).Inv := by
  unfold State.fetchNext
  split
  · simp
  · dsimp only
    split <;> simp [h]

theorem State.fetchFirst_inv {x : Ctx} (h : s.Inv) : (s.fetchFirst x).Inv := by
  fun_cases State.fetchFirst s x
  case case8 e => simpa using sweepPlanes_inv h _ e
  case case10 e => simpa using laneChecks_inv h _ e
  all_goals simp [h]

theorem State.prepare_inv {gid b k : Nat} (h : s.Inv) : (s.prepare gid b k).Inv := by
  unfold State.prepare
  split
  · simp
  · split
    · simp
    · split
      · simp [h]
      · split
        · exact State.fetchNext_inv h
        · exact State.fetchFirst_inv h

theorem State.issueTurn_keeps {gid b k : Nat} (h : s.Inv) : Keeps (State.issueTurn gid b k s) := by
  have hp := State.prepare_inv (gid := gid) (b := b) (k := k) h
  unfold State.issueTurn
  split
  next e => simpa [e] using hp
  next i s' e =>
    have hr : Keeps (exec i s') := exec_keeps (by simpa [e] using hp) i
    split
    next e =>
      have ht := hr _ e
      split <;> simp [ht]
    next => exact hr

theorem State.ownIssue_keeps {c : Contender} (h : s.Inv) : Keeps (State.ownIssue c s) := by
  have hr : Keeps (State.issueTurn c.gid c.bundle c.sub s) := State.issueTurn_keeps h
  unfold State.ownIssue
  split
  next e =>
    have ht := hr _ e
    split <;> simp [ht]
  next => exact hr

/-- A turn that may be tried keeps the invariant. -/
def Try.Keeping (f : Try) : Prop := ∀ s : State, s.Inv → Keeps (f s)

theorem exec_keeping (i : Instr) : Try.Keeping (exec i) := fun _ h => exec_keeps h i

/-! ## What arrives on the link (Machine/Receive.lean) -/

/-- Whichever message a body makes, what the module does on it keeps the invariant. -/
theorem State.messageOf_keeping {kind : Nat} {m : MsgId} {bs : List Byte} : ∀ act ∈ s.messageOf kind m bs, Try.Keeping act := by
  fun_cases State.messageOf s kind m bs
  case case9 => simpa [Try.Keeping] using fun t ht => onMessage_keeps ht fun _ hu => by simpa using hu
  all_goals simp +contextual [Try.Keeping,
    execAttach_keeps, execAttestReq_keeps, execCollreg_keeps, execCompass_keeps, execDebug_keeps, execDump_keeps,
    execDumpRelease_keeps, execFirmware_keeps, execInvalidate_keeps, execLaunch_keeps, execMemread_keeps,
    execMemwrite_keeps, execPartattr_keeps, execPartreset_keeps, execPartset_keeps, execPerfset_keeps,
    execPinfree_keeps, execPinseg_keeps, execPreempt_keeps, execResideFail_keeps, execResideOk_keeps, execRingset_keeps,
    execSampring_keeps, execSxentry_keeps, execSxprog_keeps, execWresume_keeps, execWswitch_keeps, execXvfree_keeps,
    execXvreg_keeps]

theorem State.deliverMessage_keeps {kind n : Nat} {m : MsgId} {bs : List Byte} (h : s.Inv) : Keeps (s.deliverMessage kind m n bs) := by
  unfold State.deliverMessage
  split
  · simp [h]
  · split
    next act e => exact State.messageOf_keeping act e s h
    next =>
      split
      · simp [h]
      · exact onMessage_keeps h fun _ ht => by simpa using ht

theorem State.receive_keeps (h : s.Inv) : Keeps s.receive := by
  unfold State.receive
  split
  · simp
  next f rest _ =>
    split
    · simp
    · have hl : (if bit (leAt f 5 1) 2 then s.link.acked (BitVec.ofNat 16 (leAt f 2 2)) else s.link).unacked.length ≤ 1024 := by
        split
        · exact Link.acked_frames h.frames _
        · exact h.frames
      extract_lets flags l body n
      split
      · exact keeps_next.2 ⟨h.mem, h.dies, h.parts, h.phase, hl⟩
      · split
        · exact keeps_next.2 ((State.received_inv _).2 ⟨h.mem, h.dies, h.parts, h.phase, hl⟩)
        · exact State.deliverMessage_keeps ⟨h.mem, h.dies, h.parts, h.phase, hl⟩

/-! ## What the module does by itself (Machine/Turns.lean) -/

theorem firstEnabled_keeps {fs : List Try} (h : s.Inv) (hf : ∀ f ∈ fs, f.Keeping) : Keeps ((firstEnabled s fs).getD (.next s)) := by
  induction fs with
  | nil => simpa [firstEnabled] using h
  | cons f fs ih =>
    obtain ⟨hf, hfs⟩ := List.forall_mem_cons.1 hf
    unfold firstEnabled
    split
    next e => simpa [e] using hf s h
    next => exact ih hfs

theorem mem_rotate {α : Type} {n : Nat} {xs : List α} {x : α} (h : x ∈ rotate n xs) : x ∈ xs := by
  rcases List.mem_append.1 h with h | h
  · exact List.mem_of_mem_drop h
  · exact List.mem_of_mem_take h

theorem State.memTries_keeping : ∀ f ∈ s.memTries, f.Keeping := by
  simp only [State.memTries, List.mem_flatMap, List.mem_append, List.mem_cons, List.not_mem_nil, or_false]
  rintro _ ⟨o, -, (rfl | rfl) | ⟨r, -, rfl | rfl | rfl | rfl⟩⟩
  · exact exec_keeping (.loadDataReturn o.id)
  · exact exec_keeping (.crewScratchpadAccess o.id)
  · exact exec_keeping (.homeAgentRequest o.id r.lane)
  · exact exec_keeping (.pageWalkComplete o.id r.lane)
  · exact exec_keeping (.sliceAccess o.id r.lane)
  · exact exec_keeping (.expandedViewRead o.id r.lane)

theorem State.invalTries_keeping : ∀ f ∈ s.invalTries, f.Keeping := by
  simp only [State.invalTries, List.mem_append, List.mem_map, List.mem_filterMap, Option.map_eq_some_iff]
  rintro _ (⟨b, -, rfl⟩ | ⟨q, -, a, -, rfl⟩)
  · exact exec_keeping (.invalBatch b.dst b.src)
  · exact exec_keeping (.invalAck a.1 a.2 q.id)

theorem State.engineTries_keeping : ∀ f ∈ s.engineTries, f.Keeping := by
  simp only [State.engineTries, List.mem_flatMap, List.mem_append, List.mem_map, List.mem_cons, List.not_mem_nil, or_false]
  rintro _ ((⟨o, -, rfl | rfl | rfl | rfl | rfl | rfl | rfl⟩ | ⟨m, -, rfl⟩) | ⟨r, -, rfl⟩)
  · exact exec_keeping (.copyChunk o.id)
  · exact exec_keeping (.matrixKStep o.id)
  · exact exec_keeping (.bloadSlotSwitch o.id)
  · exact exec_keeping (.scanTilePerform o.id)
  · exact exec_keeping (.scanFixPerform o.id)
  · exact exec_keeping (.collComplete o.id)
  · exact exec_keeping (.collTimeout o.id)
  · exact exec_keeping (.carryArrive m.id)
  · exact exec_keeping (.remoteArrival r.id)

theorem State.subTries_keeping : ∀ f ∈ s.subTries, f.Keeping := by
  simp only [State.subTries, List.mem_flatMap]
  rintro f ⟨g, -, b, -, q, -, hf⟩
  split at hf
  · obtain rfl := List.mem_singleton.1 hf
    exact exec_keeping (.instructionCacheFill g.gid b.1 q.1)
  · simp only [List.mem_cons, List.not_mem_nil, or_false] at hf
    rcases hf with rfl | rfl | rfl | rfl
    · exact exec_keeping (.decoderResume g.gid b.1 q.1)
    · exact exec_keeping (.texpDecodeDone g.gid b.1 q.1)
    · exact exec_keeping (.tencPublish g.gid b.1 q.1)
    · exact exec_keeping (.ctldFill g.gid b.1 q.1)
  · simp at hf

theorem State.gangTries_keeping : ∀ f ∈ s.gangTries, f.Keeping := by
  simp only [State.gangTries, List.mem_flatMap, List.mem_append, List.mem_map, List.mem_cons, List.not_mem_nil, or_false]
  rintro _ (((⟨g, -, rfl | rfl | rfl⟩ | ⟨c, -, rfl | rfl | rfl⟩) | ⟨p, -, rfl⟩) | ⟨r, -, rfl⟩)
  · exact exec_keeping (.carryOutFormed g.gid)
  · exact exec_keeping (.gangRetire g.gid)
  · exact exec_keeping (.pcSample g.gid)
  · exact exec_keeping (.stopSave c.cid)
  · exact exec_keeping (.dumpDone c.cid)
  · exact exec_keeping (.crewRetire c.cid)
  · exact exec_keeping (.haltTakesEffect p.id)
  · exact exec_keeping (.sextantProgramRun r.id)

theorem State.launchTries_keeping : ∀ f ∈ s.launchTries, f.Keeping := by
  simp only [State.launchTries, List.mem_flatMap, List.mem_append, List.mem_map, List.mem_cons, List.not_mem_nil, or_false]
  rintro f ((⟨l, -, d, -, (rfl | rfl | rfl) | ⟨e, -, rfl⟩⟩ | ⟨d, -, (rfl | rfl) | ⟨r, -, rfl⟩⟩) | ⟨p, -, hf⟩)
  · exact exec_keeping (.leaseReady d l.lkey)
  · exact exec_keeping (.leaseFail d l.lkey)
  · exact exec_keeping (.resideTimeout d l.lkey)
  · exact exec_keeping (.leaseShareReport d e l.lkey)
  · exact exec_keeping (.crewPlace d)
  · exact exec_keeping (.backfillTimeout d)
  · exact exec_keeping (.late d r.arrival)
  · split at hf
    · simp only [List.mem_flatMap, List.mem_cons, List.not_mem_nil, or_false] at hf
      obtain ⟨d, -, rfl | rfl⟩ := hf
      · exact exec_keeping (.resetDone d p)
      · exact exec_keeping (.resetTimeout d p)
    · simp at hf

theorem State.ownTries_keeping : ∀ f ∈ s.ownTries, f.Keeping := by
  simp only [State.ownTries, List.mem_append, List.mem_map, List.mem_cons, List.not_mem_nil, or_false]
  rintro f (((((((hf | ⟨d, -, rfl⟩) | hf) | hf) | hf) | hf) | hf) | hf)
  · rcases hf with rfl | rfl | rfl | rfl | rfl
    · exact exec_keeping .ackOnlyTimer
    · exact exec_keeping .frameCrcFail
    · exact fun _ => State.receive_keeps
    · exact exec_keeping .attestReport
    · exact exec_keeping .memoryAndFabric
  · exact exec_keeping (.devtimeCheck d (s.die d).devOffset)
  · exact s.memTries_keeping f hf
  · exact s.invalTries_keeping f hf
  · exact s.engineTries_keeping f hf
  · exact s.subTries_keeping f hf
  · exact s.gangTries_keeping f hf
  · exact s.launchTries_keeping f hf

theorem State.issueTries_keeping : ∀ f ∈ s.issueTries, f.Keeping := by
  simp only [State.issueTries, List.mem_map]
  rintro _ ⟨c, -, rfl⟩ s h
  exact State.ownIssue_keeps h

theorem State.tickTries_keeping : ∀ f ∈ s.tickTries, f.Keeping := by
  simp only [State.tickTries, List.mem_flatMap, List.mem_map]
  rintro _ ⟨g, -, b, -, rfl⟩
  exact exec_keeping (.waitTick g.gid b)

theorem State.autoTurn_keeps (h : s.Inv) : Keeps s.autoTurn := by
  refine firstEnabled_keeps h fun f hf => ?_
  have hf : f ∈ s.tickTries ∨ f ∈ rotate (s.tick / 2) s.ownTries ∨ f ∈ s.issueTries := by
    split at hf <;> simp only [List.mem_append] at hf <;> tauto
  rcases hf with hf | hf | hf
  · exact s.tickTries_keeping f hf
  · exact s.ownTries_keeping f (mem_rotate hf)
  · exact s.issueTries_keeping f hf

/-! ## The step (Machine/Step.lean) -/

theorem endStep_keeps {r : Outcome} (h : Keeps r) : Keeps (endStep r) := by
  cases r with
  | next t => simpa [endStep] using h
  | fault f => simp [endStep]
  | refused r => simp [endStep]

theorem step_keeps (h : s.Inv) : Keeps (step s) := by
  have hi (rest : List Turn) : { s with inputs := rest }.Inv := (State.inv_with ..).2 h
  unfold step
  split
  · exact endStep_keeps (State.autoTurn_keeps h)
  next i rest _ => exact endStep_keeps (exec_keeps (hi rest) i)
  next rest _ => exact endStep_keeps (State.issueTurn_keeps (hi rest))
  next e rest _ => exact endStep_keeps (keeps_next.2 (State.damage_inv.2 (hi rest)))

/-- Settles O60: the step is a turn, its own or one that the environment has fixed, and the passing of time, and each keeps the
invariant. -/
theorem invStep : Obligations.InvStep :=
  fun _ t h e => step_keeps h t e

end Sys2Proof.Machine
end

section
/-!
PROOF. What the statements on bring-up, the link, partitions and the control node's memory share: the messages that the module acts on, lists
changed at one place, the parts of the module after a change, and bytes as little-endian numbers.
-/

namespace Sys2Proof.Machine

variable {s : State}

/-! ## Messages (R9, R12) -/

/-- Past bring-up a message is acted on. -/
theorem onMessage_ready {n : Nat} {lid : W64} {act : State → State} (hl : s.linkUp = true) (hp : 8 ≤ s.phase) :
    onMessage n lid s act = .next (act (s.received n)) := by
  simp [onMessage, hl, Nat.not_lt.2 hp]

/-- Before the ready notice a message is answered by NOT_READY. -/
theorem onMessage_early {n : Nat} {lid : W64} {act : State → State} (hl : s.linkUp = true) (hp : s.phase < 8) :
    onMessage n lid s act = .next ((s.received n).notice 1 0 0 0 lid []) := by
  simp [onMessage, hl, hp]

/-- A message answers as its meaning does wherever the condition holds; run is the meaning that the dispatch gives it. -/
theorem answers_of_act {i : Instr} {n : Nat} {lid : W64} {act f : State → State} {ok : State → Prop}
    (run : State → Host.Outcome State Fault Refusal) (arm : ∀ s, exec i s = run s) (hrun : ∀ s, run s = onMessage n lid s act)
    (h : ∀ s, ok s → act s = f s) : Answers i n ok f :=
  fun s hl hp hok => by rw [arm, hrun, onMessage_ready hl hp, h _ hok]

/-- The messages of a list sent in order. -/
theorem State.foldl_send {α : Type} (xs : List α) (msg : α → OutMsg) (s : State) :
    xs.foldl (fun s x => s.send (msg x)) s = { s with
      out := s.out ++ xs.map msg, link := (xs.map msg).foldl (fun l m => l.post m.kind m.body) s.link } := by
  induction xs generalizing s with
  | nil => simp
  | cons x xs ih =>
    rw [List.foldl_cons, ih]
    simp [State.send]

@[simp] theorem State.send_out (m : OutMsg) : (s.send m).out = s.out ++ [m] := rfl

@[simp] theorem State.reply_out (m : MsgId) (status : Nat) : (s.reply m status).out = s.out ++ [.reply m status []] := rfl

@[simp] theorem State.moduleError_out (die reason : Nat) (vals : List Nat) :
    (s.moduleError die reason vals).out = s.out ++ [.bringup 9 die reason vals] := rfl

/-! ## Folds that leave something as it was -/

/-- What no member of a list changes is as it was after all of them. -/
theorem foldl_field {σ α β : Type} (p : σ → β) {f : σ → α → σ} (h : ∀ t x, p (f t x) = p t) (xs : List α) (t : σ) :
    p (xs.foldl f t) = p t := by
  induction xs generalizing t with
  | nil => rfl
  | cons x xs ih => rw [List.foldl_cons, ih, h]

theorem foldl_of_fixed {σ α : Type} {f : σ → α → σ} {t : σ} {xs : List α} (h : ∀ x ∈ xs, f t x = t) : xs.foldl f t = t := by
  induction xs with
  | nil => rfl
  | cons x xs ih => rw [List.foldl_cons, h x List.mem_cons_self, ih fun y hy => h y (List.mem_cons_of_mem x hy)]

/-! ## Lists changed at one place -/

theorem setNth_eq_set {α : Type} (xs : List α) (n : Nat) (y : α) : setNth xs n y = xs.set n y := by
  induction xs generalizing n with
  | nil => rfl
  | cons x xs ih => cases n <;> simp [setNth, ih]

theorem getElem?_modNth {α : Type} (xs : List α) (n i : Nat) (f : α → α) :
    (modNth xs n f)[i]? = if i = n then xs[i]?.map f else xs[i]? := by
  induction xs generalizing n i with
  | nil => simp [modNth]
  | cons x xs ih => cases n <;> cases i <;> simp [modNth, ih]

/-- A change at one place depends on what it does to the member there alone. -/
theorem modNth_congr {α : Type} {xs : List α} {n : Nat} {f g : α → α} (h : ∀ x, xs[n]? = some x → f x = g x) :
    modNth xs n f = modNth xs n g := by
  refine List.ext_getElem? fun i => ?_
  rw [getElem?_modNth, getElem?_modNth]
  split
  next e =>
    subst e
    cases hx : xs[i]? with
    | none => rfl
    | some x => simp [h x hx]
  next => rfl

/-! ## Dies and partitions after a change -/

theorem State.die_eq {d : Nat} {x : Die} (h : s.dies[d]? = some x) : s.die d = x := by
  simp [State.die, List.getD_eq_getElem?_getD, h]

theorem State.die_modDie (d : Nat) (f : Die → Die) (h : d < s.dies.length) : (s.modDie d f).die d = f (s.die d) := by
  simp [State.die, State.modDie, List.getD_eq_getElem?_getD, getElem?_modNth, List.getElem?_eq_getElem h]

theorem State.die_modDie_ne {d e : Nat} (f : Die → Die) (h : e ≠ d) : (s.modDie d f).die e = s.die e := by
  simp [State.die, State.modDie, List.getD_eq_getElem?_getD, getElem?_modNth, h]

/-- A die that is not there reads as one with its rails off. -/
theorem State.die_absent {d : Nat} (h : ¬ d < s.dies.length) : s.die d = Die.reset := by
  simp [State.die, List.getD_eq_getElem?_getD, List.getElem?_eq_none (Nat.not_lt.1 h)]

theorem State.modDie_congr {d : Nat} {f g : Die → Die} (h : f (s.die d) = g (s.die d)) : s.modDie d f = s.modDie d g := by
  have e : modNth s.dies d f = modNth s.dies d g := modNth_congr fun x hx => by simpa [State.die_eq hx] using h
  simp only [State.modDie, e]

theorem State.part_modPart (p q : Nat) (f : Partition → Partition) :
    (s.modPart p f).part q = if q = p then (s.part q).map f else s.part q := by
  simp only [State.part, State.modPart, getElem?_modNth]
  split
  · cases s.parts[q]? with
    | none => rfl
    | some r => cases r <;> rfl
  · rfl

theorem State.modPart_congr {p : Nat} {f g : Partition → Partition} (h : ∀ q, s.part p = some q → f q = g q) :
    s.modPart p f = s.modPart p g := by
  have e : modNth s.parts p (Option.map f) = modNth s.parts p (Option.map g) := modNth_congr fun r hr => by
    cases r with
    | none => rfl
    | some q => simp [h q (by simp [State.part, hr])]
  simp only [State.modPart, e]

theorem State.mem_parts {p : Nat} {q : Partition} (h : s.part p = some q) : some q ∈ s.parts :=
  List.mem_of_getElem? (Option.join_eq_some_iff.1 h)

/-! ## Bytes as little-endian numbers (R6) -/

@[simp] theorem leBytes_length (k n : Nat) : (leBytes k n).length = k := by
  induction k generalizing n with
  | zero => rfl
  | succ k ih => simp [leBytes, ih]

theorem leNat_append (a b : List Byte) : leNat (a ++ b) = leNat a + 256 ^ a.length * leNat b := by
  induction a with
  | nil => simp [leNat]
  | cons x a ih =>
    simp only [List.cons_append, leNat, ih, List.length_cons, Nat.pow_succ]
    ring

theorem leNat_lt (bs : List Byte) : leNat bs < 256 ^ bs.length := by
  induction bs with
  | nil => simp [leNat]
  | cons x bs ih =>
    have hx := x.isLt
    simp only [leNat, List.length_cons, Nat.pow_succ]
    omega

theorem leNat_leBytes (k n : Nat) : leNat (leBytes k n) = n % 256 ^ k := by
  induction k generalizing n with
  | zero => simp [leBytes, leNat, Nat.mod_one]
  | succ k ih =>
    simp only [leBytes, leNat, ih, BitVec.toNat_ofNat, Nat.pow_succ']
    exact (Nat.mod_mul (x := n) (a := 256)).symm

theorem leNat_leBytes_of_lt {k n : Nat} (h : n < 256 ^ k) : leNat (leBytes k n) = n := by
  rw [leNat_leBytes, Nat.mod_eq_of_lt h]

theorem leNat_take (bs : List Byte) (n : Nat) : leNat (bs.take n) = leNat bs % 256 ^ n := by
  rcases Nat.le_total n bs.length with h | h
  · have e := leNat_append (bs.take n) (bs.drop n)
    have hl := leNat_lt (bs.take n)
    rw [List.take_append_drop, List.length_take, Nat.min_eq_left h] at e
    rw [List.length_take, Nat.min_eq_left h] at hl
    rw [e, Nat.add_mul_mod_self_left, Nat.mod_eq_of_lt hl]
  · rw [List.take_of_length_le h, Nat.mod_eq_of_lt ((leNat_lt bs).trans_le (Nat.pow_le_pow_right (by decide) h))]

theorem leNat_drop (bs : List Byte) (n : Nat) : leNat (bs.drop n) = leNat bs / 256 ^ n := by
  rcases Nat.le_total n bs.length with h | h
  · have e := leNat_append (bs.take n) (bs.drop n)
    have hl := leNat_lt (bs.take n)
    rw [List.take_append_drop, List.length_take, Nat.min_eq_left h] at e
    rw [List.length_take, Nat.min_eq_left h] at hl
    rw [e, Nat.add_mul_div_left _ _ (by positivity), Nat.div_eq_of_lt hl, Nat.zero_add]
  · rw [List.drop_of_length_le h, Nat.div_eq_of_lt ((leNat_lt bs).trans_le (Nat.pow_le_pow_right (by decide) h)), leNat]

theorem leAt_eq (bs : List Byte) (i n : Nat) : leAt bs i n = leNat bs / 256 ^ i % 256 ^ n := by
  rw [leAt, leNat_take, leNat_drop]

/-- A field of a structure is a field of its number. -/
theorem fieldOf_eq (bs : List Byte) (lo len : Nat) : fieldOf bs lo len = leNat bs / 2 ^ lo % 2 ^ len := by
  have h256 (k : Nat) : 256 ^ k = 2 ^ (8 * k) := by rw [Nat.pow_mul]
  have hw : 8 * (len / 8 + 2) = lo % 8 + (len + (8 * (len / 8 + 2) - lo % 8 - len)) := by omega
  have hlo : lo = 8 * (lo / 8) + lo % 8 := by omega
  rw [fieldOf, bits, leNat_take, leNat_drop, h256, h256, Nat.shiftRight_eq_div_pow, hw, Nat.pow_add, Nat.pow_add, Nat.mod_mul_right_div_self,
    Nat.mod_mul_right_mod, Nat.div_div_eq_div_mul, ← Nat.pow_add, ← hlo]

/-- Bytes past a structure do not reach its fields. -/
theorem fieldOf_leBytes_append {k lo len n : Nat} (bs : List Byte) (h : lo + len ≤ 8 * k) :
    fieldOf (leBytes k n ++ bs) lo len = n / 2 ^ lo % 2 ^ len := by
  have h256 : 256 ^ k = 2 ^ lo * (2 ^ len * 2 ^ (8 * k - lo - len)) := by
    rw [← Nat.pow_add, ← Nat.pow_add, show 256 = 2 ^ 8 from rfl, ← Nat.pow_mul]
    congr 1
    omega
  have e : (n % 256 ^ k + 256 ^ k * leNat bs) % 256 ^ k = n % 256 ^ k := by rw [Nat.add_mul_mod_self_left, Nat.mod_mod]
  rw [fieldOf_eq, leNat_append, leNat_leBytes, leBytes_length, ← Nat.mod_mul_right_mod _ (2 ^ len) (2 ^ (8 * k - lo - len)),
    ← Nat.mod_mul_right_div_self, ← h256, e, h256, Nat.mod_mul_right_div_self, Nat.mod_mul_right_mod]

end Sys2Proof.Machine
end

section
/-!
PROOF. The module after reset (O59).
-/

namespace Sys2Proof.Machine

theorem State.reset_die (d : Nat) : State.reset.die d = Die.reset := by
  have hd : State.reset.dies[d]? = if d < 8 then some Die.reset else none := List.getElem?_replicate
  rw [State.die, List.getD_eq_getElem?_getD, hd]
  split <;> rfl

theorem State.reset_part (p : Nat) : State.reset.part p = none := by
  have hp : State.reset.parts[p]? = if p < 16 then some none else none := List.getElem?_replicate
  rw [State.part, hp]
  split <;> rfl

theorem State.reset_inv : State.reset.Inv :=
  ⟨rfl, rfl, rfl, Nat.zero_le _, Nat.zero_le _⟩

/-- Settles O59: every field of the reset state is read off its definition, and its memory is empty, hence canonical. -/
theorem reset : Obligations.Reset :=
  ⟨rfl, rfl, rfl, rfl, rfl, State.reset_part, rfl, rfl, rfl, fun d => by rw [State.reset_die]; rfl, fun d => by rw [State.reset_die]; rfl,
    State.reset_inv⟩

end Sys2Proof.Machine
end

section
/-!
PROOF. The Tikel link (O51): what putting a frame on the line changes, the bytes of frames and notices, the frames of a message, and the
messages and frames that the module receives.
-/

namespace Sys2Proof.Machine

/-! ## Frames put on the line (R11, R12) -/

/-- What neither a frame nor the queue of waiting frames bears on is as it was once waiting frames have gone out. -/
theorem Link.pump_field {α : Type} (p : Link → α) (hp : ∀ l f, p (Link.emit l f) = p l)
    (hb : ∀ (l : Link) (b : List TxFrame), p { l with backlog := b } = p l) (l : Link) : p l.pump = p l := by
  unfold Link.pump
  split
  · rfl
  · exact (foldl_field p hp _ _).trans (hb _ _)

@[simp] theorem Link.pump_trained (l : Link) : l.pump.trained = l.trained := pump_field (·.trained) (fun _ _ => rfl) (fun _ _ => rfl) l

@[simp] theorem Link.pump_degraded (l : Link) : l.pump.degraded = l.degraded := pump_field (·.degraded) (fun _ _ => rfl) (fun _ _ => rfl) l

@[simp] theorem Link.pump_txMsg (l : Link) : l.pump.txMsg = l.txMsg := pump_field (·.txMsg) (fun _ _ => rfl) (fun _ _ => rfl) l

@[simp] theorem Link.post_trained (l : Link) (k : Nat) (b : List Byte) : (l.post k b).trained = l.trained := Link.pump_trained _

@[simp] theorem Link.post_degraded (l : Link) (k : Nat) (b : List Byte) : (l.post k b).degraded = l.degraded := Link.pump_degraded _

@[simp] theorem Link.post_txMsg (l : Link) (k : Nat) (b : List Byte) : (l.post k b).txMsg = l.txMsg + 1 := Link.pump_txMsg _

/-- With an empty queue there is nothing to send. -/
theorem Link.pump_of_idle {l : Link} (h : l.backlog = []) : l.pump = l := by
  unfold Link.pump
  split
  · rfl
  · simp only [h, List.take_nil, List.drop_nil, List.foldl_nil]
    rw [← h]

/-- With room for all of them every waiting frame goes out. -/
theorem Link.pump_of_room {l : Link} (ht : l.trained.isSome = true) (h : l.unacked.length + l.backlog.length ≤ 1024) :
    l.pump = l.backlog.foldl Link.emit { l with backlog := [] } := by
  have hn : l.trained.isNone = false := by rw [← Option.not_isSome, ht]; rfl
  have hk : l.backlog.length ≤ 1024 - l.unacked.length := by omega
  simp only [Link.pump, hn, Bool.false_eq_true, if_false, List.take_of_length_le hk, List.drop_of_length_le hk]

/-- Nothing on the line is taken back. -/
theorem Link.sent_prefix_foldl_emit (fs : List TxFrame) (l : Link) : l.sent <+: (fs.foldl Link.emit l).sent := by
  induction fs generalizing l with
  | nil => exact List.prefix_rfl
  | cons f fs ih => exact (List.prefix_append l.sent [f.bytes l.txLsn l.rxLast]).trans (ih (l.emit f))

theorem Link.sent_prefix_pump (l : Link) : l.sent <+: l.pump.sent := by
  unfold Link.pump
  split
  · exact List.prefix_rfl
  · exact Link.sent_prefix_foldl_emit _ { l with backlog := l.backlog.drop (1024 - l.unacked.length) }

theorem Link.sent_prefix_post (l : Link) (k : Nat) (b : List Byte) : l.sent <+: (l.post k b).sent :=
  Link.sent_prefix_pump { l with backlog := l.backlog ++ framesOf k l.txMsg b, txMsg := l.txMsg + 1 }

/-! ## The bytes of a frame (R12) -/

@[simp] theorem fitBytes_length (n : Nat) (bs : List Byte) : (fitBytes n bs).length = n := by simp [fitBytes]

theorem fitBytes_of_le {n : Nat} {bs : List Byte} (h : bs.length ≤ n) : fitBytes n bs = bs ++ List.replicate (n - bs.length) 0 := by
  simp [fitBytes, List.take_append, List.take_of_length_le h]

theorem crcBit_lt {c : Nat} (h : c < 2 ^ 32) : crcBit c < 2 ^ 32 := by
  unfold crcBit
  split
  · exact Nat.xor_lt_two_pow (by omega) (by decide)
  · omega

theorem crc32_lt (bs : List Byte) : crc32 bs < 2 ^ 32 := by
  have hbits (xs : List Nat) : ∀ c < 2 ^ 32, xs.foldl (fun c _ => crcBit c) c < 2 ^ 32 := by
    induction xs with
    | nil => exact fun c h => h
    | cons x xs ih => exact fun c h => ih _ (crcBit_lt h)
  have hbytes : ∀ c < 2 ^ 32, bs.foldl (fun c b => (List.range 8).foldl (fun c _ => crcBit c) (c ^^^ b.toNat)) c < 2 ^ 32 := by
    induction bs with
    | nil => exact fun c h => h
    | cons b bs ih => exact fun c h => ih _ (hbits _ _ (Nat.xor_lt_two_pow h (b.isLt.trans (by decide))))
  exact Nat.xor_lt_two_pow (hbytes _ (by decide)) (by decide)

@[simp] theorem TxFrame.head_length (f : TxFrame) (lsn : BitVec 16) (ack : Option (BitVec 16)) : (f.head lsn ack).length = 268 := by
  simp [TxFrame.head]

@[simp] theorem TxFrame.bytes_length (f : TxFrame) (lsn : BitVec 16) (ack : Option (BitVec 16)) : (f.bytes lsn ack).length = 272 := by
  simp [TxFrame.bytes]

/-- Every frame that the module makes passes its CRC. -/
theorem TxFrame.crcOk_bytes (f : TxFrame) (lsn : BitVec 16) (ack : Option (BitVec 16)) : crcOk (f.bytes lsn ack) = true := by
  have hd : (f.bytes lsn ack).drop 268 = leBytes 4 (crc32 (f.head lsn ack)) := by simp [TxFrame.bytes]
  have ht : (f.bytes lsn ack).take 268 = f.head lsn ack := by simp [TxFrame.bytes]
  simp [crcOk, leAt, hd, ht, List.take_of_length_le, leNat_leBytes_of_lt (k := 4) (crc32_lt _)]

/-- A frame as a number: its fields by their places, and the payload and CRC beyond them. -/
theorem TxFrame.leNat_bytes (f : TxFrame) (lsn : BitVec 16) (ack : Option (BitVec 16)) : ∃ r, leNat (f.bytes lsn ack) =
    lsn.toNat + 2 ^ 16 * (ack.getD 0).toNat + 2 ^ 32 * (f.kind % 2 ^ 8) +
      2 ^ 40 * (ofBool f.first + 2 * ofBool f.last + 4 * ofBool ack.isSome) + 2 ^ 48 * (f.payload.length % 2 ^ 16) +
      2 ^ 64 * f.msg.toNat + 2 ^ 96 * r := by
  have hb (b : Bool) : ofBool b ≤ 1 := by cases b <;> decide
  have hf := hb f.first; have hl := hb f.last; have ha := hb ack.isSome
  have h1 := lsn.isLt; have h2 := (ack.getD 0).isLt; have h3 := f.msg.isLt
  refine ⟨leNat (fitBytes 256 f.payload ++ leBytes 4 (crc32 (f.head lsn ack))), ?_⟩
  simp only [TxFrame.bytes, TxFrame.head, List.append_assoc, leNat_append, leNat_leBytes, leBytes_length]
  generalize leNat (fitBytes 256 f.payload) + _ = r
  omega

theorem TxFrame.lsnOf_bytes (f : TxFrame) (lsn : BitVec 16) (ack : Option (BitVec 16)) : lsnOf (f.bytes lsn ack) = lsn := by
  obtain ⟨r, hr⟩ := f.leNat_bytes lsn ack
  have := lsn.isLt
  refine BitVec.eq_of_toNat_eq ?_
  simp only [lsnOf, leAt_eq, hr, BitVec.toNat_ofNat]
  omega

/-- The payload of a frame lies from byte 12 on. -/
theorem TxFrame.payload_bytes {f : TxFrame} (lsn : BitVec 16) (ack : Option (BitVec 16)) (h : f.payload.length ≤ 256) :
    ((f.bytes lsn ack).drop 12).take f.payload.length = f.payload := by
  simp [TxFrame.bytes, TxFrame.head, List.drop_append, List.drop_of_length_le, fitBytes_of_le h]

/-! ## Notices (R113) -/

theorem fieldOf_packFields_append {n lo len : Nat} (fs : List (Nat × Nat)) (bs : List Byte) (h : lo + len ≤ 8 * n) :
    fieldOf (packFields n fs ++ bs) lo len = fs.foldl (fun acc f => acc + f.2 <<< f.1) 0 / 2 ^ lo % 2 ^ len :=
  fieldOf_leBytes_append bs h

/-- The number that the fields of a notice make, before any of them is cut to its width. -/
theorem noticeFields_sum (kind part die detail lid time : Nat) :
    [(0, kind), (8, part), (12, die), (16, detail), (64, lid), (128, time)].foldl (fun acc (f : Nat × Nat) => acc + f.2 <<< f.1) 0 =
      kind + part * 2 ^ 8 + die * 2 ^ 12 + detail * 2 ^ 16 + lid * 2 ^ 64 + time * 2 ^ 128 :=
  calc
    _ = 0 + kind <<< 0 + part <<< 8 + die <<< 12 + detail <<< 16 + lid <<< 64 + time <<< 128 := rfl
    _ = _ := by
      rw [Nat.shiftLeft_eq, Nat.shiftLeft_eq, Nat.shiftLeft_eq, Nat.shiftLeft_eq, Nat.shiftLeft_eq, Nat.shiftLeft_eq, Nat.pow_zero,
        Nat.mul_one, Nat.zero_add]

/-- A field of a notice before its body is a field of the sum of its fields at their places. -/
theorem fieldOf_noticeBytes {kind part die detail time : Nat} (lid : W64) (body : List Byte) {lo len : Nat} (hk : kind < 256)
    (hp : part < 16) (hd : die < 8) (he : detail < 65536) (ht : time < 2 ^ 64) (h : lo + len ≤ 192) :
    fieldOf (noticeBytes kind part die detail lid time body) lo len =
      (kind + part * 2 ^ 8 + die * 2 ^ 12 + detail * 2 ^ 16 + lid.toNat * 2 ^ 64 + time * 2 ^ 128) / 2 ^ lo % 2 ^ len := by
  rw [noticeBytes, fieldOf_packFields_append (n := 24) _ _ h, noticeFields_sum, Nat.mod_eq_of_lt hk, Nat.mod_eq_of_lt hp, Nat.mod_eq_of_lt hd,
    Nat.mod_eq_of_lt he, Nat.mod_eq_of_lt ht]

@[simp] theorem noticeBytes_length (kind part die detail time : Nat) (lid : W64) (body : List Byte) :
    (noticeBytes kind part die detail lid time body).length = 128 := by
  simp [noticeBytes, packFields]

theorem drop_noticeBytes (kind part die detail time : Nat) (lid : W64) (body : List Byte) :
    (noticeBytes kind part die detail lid time body).drop 24 = fitBytes 104 body := by
  simp [noticeBytes, packFields]

/-! ## The frames of a message (R12) -/

theorem payloads_ne_nil (n : Nat) (bs : List Byte) : payloads (n + 1) bs ≠ [] := by
  unfold payloads
  split <;> simp

/-- Enough payloads hold the whole message. -/
theorem flatten_payloads (n : Nat) (bs : List Byte) (h : bs.length < 256 * n) : (payloads n bs).flatten = bs := by
  induction n generalizing bs with
  | zero => simp at h
  | succ n ih =>
    unfold payloads
    split
    · simp
    · rw [List.flatten_cons, ih _ (by rw [List.length_drop]; omega), List.take_append_drop]

theorem payload_length_le (n : Nat) (bs : List Byte) : ∀ p ∈ payloads n bs, p.length ≤ 256 := by
  induction n generalizing bs with
  | zero => simp [payloads]
  | succ n ih =>
    unfold payloads
    split
    next h => simpa using h
    next => simpa using ih _

theorem payloads_length (n : Nat) (bs : List Byte) (h : bs.length < 256 * n) :
    (payloads n bs).length = max 1 ((bs.length + 255) / 256) := by
  induction n generalizing bs with
  | zero => simp at h
  | succ n ih =>
    unfold payloads
    split
    · simp only [List.length_singleton]
      omega
    · rw [List.length_cons, ih _ (by rw [List.length_drop]; omega), List.length_drop]
      omega

theorem framesOf_getElem (k : Nat) (m : MsgId) (body : List Byte) (i : Nat) (h : i < (framesOf k m body).length)
    (hp : i < (payloads (body.length / 256 + 1) body).length) :
    (framesOf k m body)[i] = ⟨k, i == 0, i + 1 == (payloads (body.length / 256 + 1) body).length, m,
      (payloads (body.length / 256 + 1) body)[i]⟩ := by
  simp [framesOf]

theorem framesOf_length_payloads (k : Nat) (m : MsgId) (body : List Byte) :
    (framesOf k m body).length = (payloads (body.length / 256 + 1) body).length := by
  simp [framesOf]

theorem framesOf_length (k : Nat) (m : MsgId) (body : List Byte) : (framesOf k m body).length = max 1 ((body.length + 255) / 256) := by
  rw [framesOf_length_payloads, payloads_length _ _ (by omega)]

theorem framesOf_payloads (k : Nat) (m : MsgId) (body : List Byte) :
    (framesOf k m body).map (·.payload) = payloads (body.length / 256 + 1) body := by
  refine List.ext_getElem (by simp [framesOf_length_payloads]) fun i h h' => ?_
  rw [List.getElem_map, framesOf_getElem k m body i (by simpa using h) h']

theorem framesOf_flatMap (k : Nat) (m : MsgId) (body : List Byte) : (framesOf k m body).flatMap (·.payload) = body := by
  rw [List.flatMap_def, framesOf_payloads, flatten_payloads _ _ (by omega)]

theorem framesOf_mem {k : Nat} {m : MsgId} {body : List Byte} {f : TxFrame} (h : f ∈ framesOf k m body) :
    f.kind = k ∧ f.msg = m ∧ f.payload.length ≤ 256 := by
  have hp : f.payload ∈ payloads (body.length / 256 + 1) body := framesOf_payloads k m body ▸ List.mem_map_of_mem h
  obtain ⟨i, hi, rfl⟩ := List.getElem_of_mem h
  have hi' := framesOf_length_payloads k m body ▸ hi
  refine ⟨?_, ?_, payload_length_le _ _ _ hp⟩ <;> rw [framesOf_getElem k m body i hi hi']

/-- Frames put on the line take the next LSNs in order and wait for their acknowledgement. -/
theorem Link.foldl_emit_frames (fs : List TxFrame) (l : Link) : ∃ bs : List (List Byte), bs.length = fs.length ∧
    (fs.foldl Link.emit l).sent = l.sent ++ bs ∧ (fs.foldl Link.emit l).unacked = l.unacked ++ bs ∧
      bs.map lsnOf = (List.range fs.length).map (fun i => l.txLsn + BitVec.ofNat 16 i) := by
  induction fs generalizing l with
  | nil => exact ⟨[], by simp⟩
  | cons f fs ih =>
    obtain ⟨bs, hl, hs, hu, hn⟩ := ih (l.emit f)
    refine ⟨f.bytes l.txLsn l.rxLast :: bs, by simp [hl], ?_, ?_, ?_⟩
    · rw [List.foldl_cons, hs]
      exact List.append_assoc ..
    · rw [List.foldl_cons, hu]
      exact List.append_assoc ..
    · have hstep (i : Nat) : (l.emit f).txLsn + BitVec.ofNat 16 i = l.txLsn + BitVec.ofNat 16 (i + 1) := by
        rw [BitVec.ofNat_add, BitVec.add_comm (BitVec.ofNat 16 i), ← BitVec.add_assoc]
        rfl
      rw [List.map_cons, hn, List.length_cons, List.range_succ_eq_map]
      simp [TxFrame.lsnOf_bytes, hstep, Function.comp_def]

/-- A message for which the line has room goes out whole. -/
theorem Link.post_of_room {l : Link} {k : Nat} {b : List Byte} (ht : l.trained.isSome = true) (hb : l.backlog = [])
    (h : l.unacked.length + (framesOf k l.txMsg b).length ≤ 1024) :
    l.post k b = (framesOf k l.txMsg b).foldl Link.emit { l with txMsg := l.txMsg + 1 } := by
  have hr := Link.pump_of_room (l := { l with backlog := framesOf k l.txMsg b, txMsg := l.txMsg + 1 }) ht h
  simpa only [Link.post, hb, List.nil_append] using hr

/-! ## Acknowledgements and frames that arrive (R11, R12) -/

theorem State.trained_of_linkUp {s : State} (h : s.linkUp = true) : s.link.trained.isSome = true := by
  simp only [State.linkUp, Bool.and_eq_true] at h
  exact h.1.2

/-- The frames up to the one acknowledged are forgotten. -/
theorem Link.acked_of_listed {l : Link} {pre post : List (List Byte)} {f : List Byte} (hu : l.unacked = pre ++ f :: post)
    (hp : ∀ g ∈ pre, lsnOf g ≠ lsnOf f) (hb : l.backlog = []) : l.acked (lsnOf f) = { l with unacked := post, resends := 0 } := by
  have hd : l.unacked.dropWhile (fun g => lsnOf g != lsnOf f) = f :: post := by
    rw [hu, List.dropWhile_append_of_pos (by simpa using hp), List.dropWhile_cons_of_neg (by simp)]
  have ha : l.unacked.any (fun g => lsnOf g == lsnOf f) = true := by simp [hu]
  rw [Link.acked, if_pos ha, hd]
  exact Link.pump_of_idle hb

/-- What the receiver reads of a frame that carries no acknowledgement. -/
theorem TxFrame.reads {f : TxFrame} (lsn : BitVec 16) (hl : f.payload.length ≤ 256) (hk : f.kind < 256) :
    let b := f.bytes lsn none
    bit (leAt b 5 1) 0 = f.first ∧ bit (leAt b 5 1) 1 = f.last ∧ bit (leAt b 5 1) 2 = false ∧ leAt b 4 1 = f.kind ∧
      BitVec.ofNat 32 (leAt b 8 4) = f.msg ∧ (b.drop 12).take (min 256 (leAt b 6 2)) = f.payload := by
  obtain ⟨r, hr⟩ := f.leNat_bytes lsn none
  have h1 := lsn.isLt; have h3 := f.msg.isLt
  have hb (b : Bool) : ofBool b ≤ 1 := by cases b <;> decide
  have hf := hb f.first; have hl := hb f.last
  simp only [Option.getD_none, Option.isSome_none, ofBool, Bool.false_eq_true, if_false] at hr hf hl
  have hflags : leAt (f.bytes lsn none) 5 1 = ofBool f.first + 2 * ofBool f.last := by
    simp only [leAt_eq, hr, ofBool]
    omega
  have hused : leAt (f.bytes lsn none) 6 2 = f.payload.length := by
    simp only [leAt_eq, hr]
    omega
  have hkind : leAt (f.bytes lsn none) 4 1 = f.kind := by
    simp only [leAt_eq, hr]
    omega
  have hmsg : leAt (f.bytes lsn none) 8 4 = f.msg.toNat := by
    simp only [leAt_eq, hr]
    omega
  refine ⟨?_, ?_, ?_, hkind, ?_, ?_⟩
  · rw [hflags]
    cases f.first <;> cases f.last <;> rfl
  · rw [hflags]
    cases f.first <;> cases f.last <;> rfl
  · rw [hflags]
    cases f.first <;> cases f.last <;> rfl
  · rw [hmsg, BitVec.ofNat_toNat, BitVec.setWidth_eq]
  · rw [hused, Nat.min_eq_right ‹_›, TxFrame.payload_bytes _ _ ‹_›]

end Sys2Proof.Machine
end

section
/-!
PROOF. O51, assembled from the laws of frames, notices and the link.
-/

namespace Sys2Proof.Machine

/-- A frame has its fields at their places (R12). -/
theorem TxFrame.fields (f : TxFrame) (lsn : BitVec 16) (ack : Option (BitVec 16)) (hp : f.payload.length ≤ 256) (hk : f.kind < 256) :
    let b := f.bytes lsn ack
    fieldOf b 0 16 = lsn.toNat ∧ fieldOf b 16 16 = (ack.getD 0).toNat ∧ fieldOf b 32 8 = f.kind ∧
      fieldOf b 40 8 = (if f.first then 1 else 0) + (if f.last then 2 else 0) + (if ack.isSome then 4 else 0) ∧
      fieldOf b 48 16 = f.payload.length ∧ fieldOf b 64 32 = f.msg.toNat := by
  obtain ⟨r, hr⟩ := f.leNat_bytes lsn ack
  have h1 := lsn.isLt; have h2 := (ack.getD 0).isLt; have h3 := f.msg.isLt
  have hflags : ∃ n < 8, ofBool f.first + 2 * ofBool f.last + 4 * ofBool ack.isSome = n ∧
      (if f.first then 1 else 0) + (if f.last then 2 else 0) + (if ack.isSome then 4 else 0) = n := by
    cases f.first <;> cases f.last <;> cases ack.isSome <;> exact ⟨_, by decide, rfl, rfl⟩
  obtain ⟨n, hn, e, e'⟩ := hflags
  rw [e] at hr
  simp only [fieldOf_eq, hr, e']
  refine ⟨?_, ?_, ?_, ?_, ?_, ?_⟩ <;> omega

/-- A notice has its fields at their places (R113). -/
theorem notice_fields {kind part die detail time : Nat} (lid : W64) (body : List Byte) (hk : kind < 256) (hp : part < 16) (hd : die < 8)
    (he : detail < 65536) (ht : time < 2 ^ 64) :
    let b := noticeBytes kind part die detail lid time body
    fieldOf b 0 8 = kind ∧ fieldOf b 8 4 = part ∧ fieldOf b 12 3 = die ∧ fieldOf b 16 16 = detail ∧ fieldOf b 64 64 = lid.toNat ∧
      fieldOf b 128 64 = time := by
  have hl := lid.isLt
  refine ⟨?_, ?_, ?_, ?_, ?_, ?_⟩ <;> rw [fieldOf_noticeBytes lid body hk hp hd he ht (by decide)] <;> omega

/-- The frames of a message (R12): whole, of its kind and MSGID, the first and the last marked. -/
theorem framesOf_spec (k : Nat) (m : MsgId) (body : List Byte) :
    let fs := framesOf k m body
    fs.flatMap (·.payload) = body ∧ (∀ f ∈ fs, f.kind = k ∧ f.msg = m ∧ f.payload.length ≤ 256) ∧
      (∀ i (h : i < fs.length), (fs[i].first = true ↔ i = 0) ∧ (fs[i].last = true ↔ i + 1 = fs.length)) ∧
      fs.length = max 1 ((body.length + 255) / 256) := by
  refine ⟨framesOf_flatMap k m body, fun f => framesOf_mem, fun i h => ?_, framesOf_length k m body⟩
  have hl := framesOf_length_payloads k m body
  simp [framesOf_getElem k m body i h (hl ▸ h), hl]

section
variable {s : State}

/-! ## Events of the link (R11, R12) -/

theorem exec_ack_of_listed {pre post : List (List Byte)} {f : List Byte} (hs : s.linkUp = true) (hu : s.link.unacked = pre ++ f :: post)
    (hp : ∀ g ∈ pre, lsnOf g ≠ lsnOf f) (hb : s.link.backlog = []) :
    exec (.ack (lsnOf f) true) s = .next { s with link := { s.link with unacked := post, resends := 0 } } := by
  change execAck _ _ _ = _
  simp [execAck, hs, Link.acked_of_listed hu hp hb]

theorem exec_ack_unlisted (hs : s.linkUp = true) (lsn : BitVec 16) : exec (.ack lsn false) s = .next s := by
  change execAck _ _ _ = _
  simp [execAck, hs]

theorem exec_ackOnlyTimer (hs : s.linkUp = true) (ho : s.link.ackOwed = true) : exec .ackOnlyTimer s = .next { s with link := s.link.ackOnly } := by
  change execAckOnlyTimer _ = _
  simp [execAckOnlyTimer, hs, ho]

theorem exec_resendTimeout_again (hs : s.linkUp = true) (hu : s.link.unacked ≠ []) (hr : s.link.resends < 16) : exec .resendTimeout s =
    .next { s with link := { s.link with sent := s.link.sent ++ s.link.unacked, resends := s.link.resends + 1 } } := by
  change execResendTimeout _ = _
  simp [execResendTimeout, hs, hu, hr, Link.resend]

theorem exec_resendTimeout_last (hs : s.linkUp = true) (hu : s.link.unacked ≠ []) (hr : 16 ≤ s.link.resends) :
    exec .resendTimeout s = .next { s with link := { s.link with trained := none, degraded := false, resends := 0 } } := by
  change execResendTimeout _ = _
  simp [execResendTimeout, hs, hu, Nat.not_lt.2 hr]

theorem exec_frameCrcFail {f : List Byte} {rest : List (List Byte)} (hs : s.linkUp = true) (ha : s.arriving = f :: rest)
    (hbad : crcOk f = false ∨ lsnOf f ≠ s.link.nextRx) : exec .frameCrcFail s =
      .next { s with link := { s.link with ackOwed := s.link.ackOwed || crcOk f }, arriving := rest } := by
  have hd : s.link.discards f = true := by simpa [Link.discards] using hbad
  change execFrameCrcFail _ = _
  simp [execFrameCrcFail, ha, hs, hd]

theorem exec_unlistedMessage {k : Byte} (m : MsgId) (hs : s.linkUp = true)
    (hk : 37 < k.toNat ∨ k.toNat ∈ [2, 3, 4, 7, 12, 16, 33, 36]) : exec (.unlistedMessage k m) s = .next ((s.received 1).reply m 0xFFFF) := by
  have hl : typeListed k.toNat = false := by
    rcases hk with h | h
    · simp [typeListed, Nat.not_le.2 h]
    · simp [typeListed, h]
  change execUnlistedMessage _ _ _ = _
  simp [execUnlistedMessage, hs, hl]

theorem exec_launch_early (m : MsgId) (p : List Byte) (hs : s.linkUp = true) (hp : s.phase < 8) :
    exec (.launch m p) s = .next ((s.received 1).notice 1 0 0 0 (pkLid p) []) := by
  change execLaunch _ _ _ = _
  rw [execLaunch, onMessage_early hs hp]

/-! ## Frames in order (R12) -/

/-- The bytes that have come of a message, with the payload of its next frame. -/
def Link.bodyWith (l : Link) (f : TxFrame) : List Byte := (if f.first then [] else l.rxBody) ++ f.payload

/-- The frame that the receiver expects is taken: it is not discarded, and its LAST flag alone tells whether its message is delivered. -/
theorem State.receive_of_next {f : TxFrame} {rest : List (List Byte)} (hs : s.linkUp = true) (hl : f.payload.length ≤ 256)
    (hk : f.kind < 256) (h0 : f.kind ≠ 0) (ha : s.arriving = f.bytes s.link.nextRx none :: rest) : s.receive =
      if f.last then
        State.deliverMessage { s with arriving := rest, link := { s.link with
            rxBody := [], rxLast := some (s.link.nextRx - BitVec.ofNat 16 (max 1 (((s.link.bodyWith f).length + 255) / 256))) } }
          f.kind f.msg (max 1 (((s.link.bodyWith f).length + 255) / 256)) (s.link.bodyWith f)
      else .next (State.received { s with link := { s.link with rxBody := s.link.bodyWith f }, arriving := rest } 1) := by
  obtain ⟨hfirst, hlast, hack, hkind, hmsg, hpay⟩ := f.reads s.link.nextRx hl hk
  have hd : s.link.discards (f.bytes s.link.nextRx none) = false := by simp [Link.discards, f.crcOk_bytes, f.lsnOf_bytes]
  have hk0 : (f.kind == 0) = false := by simpa using h0
  simp only [State.receive, ha, hs, hd, hfirst, hlast, hack, hkind, hmsg, hpay, hk0, f.lsnOf_bytes, Bool.not_true, Bool.or_self,
    Bool.false_eq_true, if_false]
  cases f.last <;> rfl

/-- A frame in order moves the last LSN received on to its own. -/
theorem State.received_rxLast (t : State) : (t.received 1).link.rxLast = some t.link.nextRx := by
  simp only [State.received, Link.nextRx]
  cases t.link.rxLast <;> rfl

/-- The body of a LAUNCH, once it is whole, reaches the launch. -/
theorem State.deliver_launch (t : State) (m : MsgId) (n : Nat) {body : List Byte} (h : body.length ≤ 256) :
    t.deliverMessage 1 m n body = exec (.launch m (fitBytes 256 body)) t := by
  have ht : typeListed 1 = true := rfl
  simp only [State.deliverMessage, ht, State.messageOf, h, Bool.not_true, Bool.false_eq_true, if_false, if_true]
  rfl

/-- A frame in order that is not its message's last joins what has come of the message. -/
theorem State.receive_midway {f : TxFrame} {rest : List (List Byte)} (hs : s.linkUp = true) (hl : f.payload.length ≤ 256)
    (hk : f.kind < 256) (h0 : f.kind ≠ 0) (ha : s.arriving = f.bytes s.link.nextRx none :: rest) (hlast : f.last = false) :
    ∃ t, s.receive = .next t ∧ t.arriving = rest ∧ t.link.rxLast = some s.link.nextRx ∧ t.link.ackOwed = true ∧
      t.link.rxBody = s.link.bodyWith f ∧ t.out = s.out :=
  ⟨_, (s.receive_of_next hs hl hk h0 ha).trans (if_neg (by simp [hlast])), rfl, State.received_rxLast _, rfl, rfl, rfl⟩

/-- With its last frame in order a LAUNCH is delivered, with all its body. -/
theorem State.receive_launch {f : TxFrame} {rest : List (List Byte)} (hs : s.linkUp = true) (hl : f.payload.length ≤ 256) (h1 : f.kind = 1)
    (ha : s.arriving = f.bytes s.link.nextRx none :: rest) (hlast : f.last = true) (hb : (s.link.bodyWith f).length ≤ 256) :
    ∃ t, s.receive = exec (.launch f.msg (fitBytes 256 (s.link.bodyWith f))) t ∧ t.arriving = rest ∧
      (t.received 1).link.rxLast = some s.link.nextRx ∧ t.parts = s.parts ∧ t.phase = s.phase ∧ t.out = s.out := by
  have hn : max 1 (((s.link.bodyWith f).length + 255) / 256) = 1 := by omega
  have hr := s.receive_of_next hs hl (by omega) (by omega) ha
  rw [if_pos hlast, hn, h1, State.deliver_launch _ _ _ hb] at hr
  exact ⟨_, hr, rfl, by simp [State.received], rfl, rfl, rfl⟩

end

/-! ## The queue (R12) -/

/-- With room for its frames a message goes out whole. -/
theorem Link.post_spec {l : Link} {k : Nat} {b : List Byte} (ht : l.trained.isSome = true) (hb : l.backlog = [])
    (h : l.unacked.length + (framesOf k l.txMsg b).length ≤ 1024) :
    (l.post k b).unacked.length = l.unacked.length + (framesOf k l.txMsg b).length ∧ (l.post k b).backlog = [] ∧
      (l.post k b).txMsg = l.txMsg + 1 ∧
      ∃ fs, (l.post k b).sent = l.sent ++ fs ∧ (l.post k b).unacked = l.unacked ++ fs ∧
        fs.map lsnOf = (List.range fs.length).map (fun i => l.txLsn + BitVec.ofNat 16 i) := by
  obtain ⟨bs, hlen, hsent, hun, hlsn⟩ := Link.foldl_emit_frames (framesOf k l.txMsg b) { l with txMsg := l.txMsg + 1 }
  have hbl := foldl_field (f := Link.emit) (·.backlog) (fun _ _ => rfl) (framesOf k l.txMsg b) { l with txMsg := l.txMsg + 1 }
  refine ⟨?_, ?_, Link.post_txMsg l k b, bs, ?_, ?_, hlen ▸ hlsn⟩
  · rw [Link.post_of_room ht hb h, Link.emit_unacked_length]
  · rw [Link.post_of_room ht hb h, hbl, hb]
  · rw [Link.post_of_room ht hb h, hsent]
  · rw [Link.post_of_room ht hb h, hun]

/-- Settles O51: the layouts are read off the number that the bytes make, the link's events off the laws of its queue, and the receiver's
steps off the frame that it expects. -/
theorem linkFrames : Obligations.LinkFrames := by
  refine ⟨fun f lsn ack hp hk => ?_, framesOf_spec, fun kind part die detail time lid body hk hp hd he ht hb => ?_,
    fun s pre post f lsn hs hu hf hg hb => ?_, fun s lsn hs => exec_ack_unlisted hs lsn, fun s hs ho => exec_ackOnlyTimer hs ho,
    fun s hs hu => ⟨exec_resendTimeout_again hs hu, fun hr => ⟨_, exec_resendTimeout_last hs hu hr, rfl, rfl⟩⟩,
    fun s f rest hs ha hbad => exec_frameCrcFail hs ha hbad,
    fun s f rest hs hl hk h0 ha => ⟨State.receive_midway hs hl hk h0 ha, fun hlast h1 hb => State.receive_launch hs hl h1 ha hlast hb⟩,
    fun s k m hs hk => exec_unlistedMessage m hs hk, fun s m p hs hp => exec_launch_early m p hs hp,
    fun l k b ht hb h => Link.post_spec ht hb h, fun l h => ⟨fun k b => (Link.post_frames l k b).2 h, fun n => Link.acked_frames h n⟩⟩
  case refine_1 =>
    obtain ⟨h1, h2, h3, h4, h5, h6⟩ := f.fields lsn ack hp hk
    exact ⟨f.bytes_length lsn ack, f.crcOk_bytes lsn ack, h1, h2, h3, h4, h5, h6, TxFrame.payload_bytes lsn ack hp⟩
  case refine_2 =>
    obtain ⟨h1, h2, h3, h4, h5, h6⟩ := notice_fields lid body hk hp hd he ht
    exact ⟨noticeBytes_length .., h1, h2, h3, h4, h5, h6, (drop_noticeBytes ..).trans (fitBytes_of_le hb)⟩
  case refine_3 =>
    subst hf
    exact exec_ack_of_listed hs hu hg hb

end Sys2Proof.Machine
end

section
/-!
PROOF. The control node's reads and writes of memory, and invalidation (O53).
-/

namespace Sys2Proof.Machine

/-! ## MEMREAD and MEMWRITE (R12) -/

theorem answers_memread_virtual (m : MsgId) (a : MemSpan) (bs : List Byte) : Answers (.memread m a) 1
    (fun s => s.spanBad a = false ∧ a.sel = 0 ∧ s.spanRead a.unit a.addr.toNat a.len = .ok bs)
    (fun s => (s.tookSpan a.unit a.addr.toNat a.len).send (.memData m 0 bs)) :=
  answers_of_act (execMemread m a) (fun _ => rfl) (fun _ => rfl) fun s ⟨hbad, hsel, hread⟩ => by simp [hbad, hsel, hread]

theorem answers_memread_physical (m : MsgId) (a : MemSpan) : Answers (.memread m a) 1
    (fun s => s.spanBad a = false ∧ a.sel = 1 ∧ a.addr.toNat + a.len ≤ 2 ^ 37)
    (fun s => s.send (.memData m 0 (s.bytesAt (hbmLoc a.unit a.addr.toNat) a.len))) :=
  answers_of_act (execMemread m a) (fun _ => rfl) (fun _ => rfl) fun s ⟨hbad, hsel, hend⟩ => by
    have hr : spanReserved a = false := by simpa [spanReserved] using hend
    simp [hbad, hsel, hr]

theorem answers_memread_malformed (m : MsgId) (a : MemSpan) :
    Answers (.memread m a) 1 (fun s => s.spanBad a = true) (fun s => s.send (.memData m 1 [])) :=
  answers_of_act (execMemread m a) (fun _ => rfl) (fun _ => rfl) fun s hbad => by simp [hbad]

theorem answers_memwrite_virtual (m : MsgId) (a : MemSpan) (bs : List Byte) (rs : List (Nat × Nat)) :
    Answers (.memwrite m a bs) ((14 + bs.length + 255) / 256)
      (fun s => s.spanBad a = false ∧ a.sel = 0 ∧ bs.length = a.len ∧ vaIsXv a.addr.toNat = false ∧
        a.addr.toNat % 2 ^ 53 + a.len ≤ 2 ^ 53 ∧ s.runs a.unit 1 a.addr.toNat a.len = some rs)
      (fun s => ((s.tookSpan a.unit a.addr.toNat a.len).writeRuns none rs bs).reply m 0) :=
  answers_of_act (execMemwrite m a bs) (fun _ => rfl) (fun _ => rfl) fun s ⟨hbad, hsel, hlen, hxv, hend, hruns⟩ => by
    simp [hbad, hsel, hlen, hxv, hruns]
    exact fun _ h => absurd h (Nat.not_lt.2 hend)

theorem answers_memwrite_physical (m : MsgId) (a : MemSpan) (bs : List Byte) : Answers (.memwrite m a bs) ((14 + bs.length + 255) / 256)
    (fun s => s.spanBad a = false ∧ a.sel = 1 ∧ bs.length = a.len ∧ a.addr.toNat + a.len ≤ 2 ^ 37)
    (fun s => (s.writeHome none (hbmLoc a.unit a.addr.toNat) bs).reply m 0) :=
  answers_of_act (execMemwrite m a bs) (fun _ => rfl) (fun _ => rfl) fun s ⟨hbad, hsel, hlen, hend⟩ => by
    have hr : spanReserved a = false := by simpa [spanReserved] using hend
    simp [hbad, hsel, hlen, hr]

theorem answers_memwrite_malformed (m : MsgId) (a : MemSpan) (bs : List Byte) : Answers (.memwrite m a bs) ((14 + bs.length + 255) / 256)
    (fun s => s.spanBad a = true ∨ bs.length ≠ a.len) (fun s => s.reply m 1) :=
  answers_of_act (execMemwrite m a bs) (fun _ => rfl) (fun _ => rfl) fun s hbad => by
    have hb : (s.spanBad a || bs.length != a.len) = true := by simpa using hbad
    simp [hb]

section
variable {s : State}

/-- What is written at a home reads back. -/
theorem State.bytesAt_writeHome (h : Memory.wf s.mem = true) (e : Option (Nat × Nat)) (a : Nat) (bs : List Byte) :
    (s.writeHome e a bs).bytesAt a bs.length = bs := by
  rw [State.bytesAt, State.writeHome_mem, readBytes_writeBytes_same h]

/-! ## Removing a mapping (R142) -/

/-- The translations that a die keeps are those that a filter of its TLB lets stand. -/
theorem State.mem_tlb_of_filter {d : Nat} {f : Die → Die} {p : TlbEnt → Bool} (hf : ∀ x, (f x).tlb = x.tlb.filter p) {e : TlbEnt}
    (h : e ∈ ((s.modDie d f).die d).tlb) : e ∈ (s.die d).tlb ∧ p e = true := by
  by_cases hd : d < s.dies.length
  · rw [State.die_modDie d f hd, hf] at h
    exact List.mem_filter.1 h
  · rw [State.die_absent (by simpa [State.modDie] using hd)] at h
    cases h

/-- The removal of a mapping that is neither malformed, nor of two dies, nor pinned: the home agents drop what covers the range, and the request
is kept until the cores have acknowledged. -/
def State.invalidating (s : State) (m : MsgId) (part : Nat) (va : W64) (n : Nat) : State :=
  let t := s.modDie (vaDie va.toNat) (fun x => { x with
    tlb := x.tlb.filter (fun t => !(t.part == part && (t.va < va.toNat + n && va.toNat < t.va + t.size)))
    regions := x.regions.filter (fun e => !(e.part == part && (e.region * 2 ^ 29 < va.toNat + n && va.toNat < e.region * 2 ^ 29 + 2 ^ 29))) })
  { t with nextId := t.nextId + 1, invals := t.invals ++ [⟨t.nextId, m, part, vaDie va.toNat, va, n, []⟩] }

theorem exec_invalidate {part n : Nat} {va : W64} (m : MsgId) (hl : s.linkUp = true) (hp : 8 ≤ s.phase) (ha : va.toNat % 2 ^ 16 = 0)
    (hn : 1 ≤ n) (hpart : (s.part part).isSome = true) (hva : vaLegal va.toNat = true)
    (hdie : (va.toNat + n * 2 ^ 16 - 1) / 2 ^ 54 = va.toNat / 2 ^ 54) (hpin : s.pinned part (vaDie va.toNat) va.toNat (n * 2 ^ 16) = false) :
    exec (.invalidate m part va n) s = .next ((s.received 1).invalidating m part va (n * 2 ^ 16)) := by
  have hpart' : ((s.received 1).part part).isNone = false := by rw [← Option.not_isSome]; exact congrArg not hpart
  have hpin' : (s.received 1).pinned part (vaDie va.toNat) va.toNat (n * 2 ^ 16) = false := hpin
  have hform : (va.toNat % 2 ^ 16 != 0 || n == 0 || ((s.received 1).part part).isNone) = false := by
    simp only [ha, hpart', bne_self_eq_false, Bool.false_or, Bool.or_false, beq_eq_false_iff_ne]
    omega
  have hspan : (!vaLegal va.toNat || (va.toNat + n * 2 ^ 16 - 1) / 2 ^ 54 != va.toNat / 2 ^ 54) = false := by
    simp only [hva, hdie, Bool.not_true, bne_self_eq_false, Bool.or_self]
  change execInvalidate m part va n s = _
  rw [execInvalidate, onMessage_ready hl hp]
  simp only [hform, hspan, hpin', Bool.false_eq_true, if_false]
  rfl

theorem State.mem_tlb_invalidating {m : MsgId} {part n : Nat} {va : W64} {e : TlbEnt}
    (he : e ∈ ((s.invalidating m part va n).die (vaDie va.toNat)).tlb) :
    e ∈ (s.die (vaDie va.toNat)).tlb ∧ ¬ (e.part = part ∧ e.va < va.toNat + n ∧ va.toNat < e.va + e.size) := by
  obtain ⟨hmem, hout⟩ := State.mem_tlb_of_filter (s := s) (fun _ => rfl) he
  exact ⟨hmem, fun ⟨hp, hlo, hhi⟩ => by simp [hp, hlo, hhi] at hout⟩

/-! ## Lines dropped from the cores (R142, R339) -/

/-- What holds of a core that holds nothing, and of every core listed under its number, holds of the core. -/
theorem State.core_of_listed {P : Core → Prop} {d c : Nat} (hb : P (Core.blank d c)) (h : ∀ x ∈ s.cores, x.die = d → x.core = c → P x) :
    P (s.core d c) := by
  unfold State.core
  cases e : s.cores.find? (fun c' => c'.die == d && c'.core == c) with
  | none => exact hb
  | some x =>
    have hx := List.find?_some e
    simp only [Bool.and_eq_true, beq_iff_eq] at hx
    exact h x (List.mem_of_find?_eq_some e) hx.1 hx.2

/-- A core has dropped its lines in the range of an INVALIDATE, and fills of them in flight are made non-filling (R142, steps 3 and 4). -/
def State.droppedRange (s : State) (die core : Nat) (q : InvalReq) : State :=
  let inRange (va : Nat) : Bool := q.va.toNat ≤ va && va < q.va.toNat + q.bytes
  { s with
    cores := s.cores.map (fun (c : Core) => if c.die == die && c.core == core then
      { c with l1 := c.l1.filter (fun l => !(l.part == q.part && inRange l.va)) } else c)
    memOps := s.memOps.map (fun (o : MemOp) => match s.gang o.gid with
      | some g => if g.die == die && g.core == core && g.part == q.part then
          { o with lanes := o.lanes.map (fun r => if inRange r.va.toNat then { r with noFill := true } else r) } else o
      | none => o) }

theorem State.l1_droppedRange {die core : Nat} {q : InvalReq} {l : L1Line} (hl : l ∈ ((s.droppedRange die core q).core die core).l1) :
    ¬ (l.part = q.part ∧ q.va.toNat ≤ l.va ∧ l.va < q.va.toNat + q.bytes) := by
  revert l
  refine State.core_of_listed (P := fun c => ∀ {l}, l ∈ c.l1 → ¬ (l.part = q.part ∧ q.va.toNat ≤ l.va ∧ l.va < q.va.toNat + q.bytes))
    (fun h => nomatch h) fun x hx hd hc => ?_
  obtain ⟨y, _, rfl⟩ := List.mem_map.1 hx
  intro l hl ⟨hp, hlo, hhi⟩
  split at hl
  · have hout := (List.mem_filter.1 hl).2
    simp [hp, hlo, hhi] at hout
  next hn =>
    rw [if_neg hn] at hd hc
    exact hn (by simp [hd, hc])

/-- The acknowledgement of a core (R142): the range is dropped, and the acknowledgement counted or, being the last, answered. -/
theorem exec_invalAck {die core : Nat} {q : InvalReq} (hq : s.invals.find? (fun y => y.id == q.id) = some q) (hd : die < 8)
    (hc : core < 384) (ha : (die, core) ∉ q.acks) (hdr : s.drained q = true) :
    exec (.invalAck die core q.id) s = if q.acks.length + 1 < 3072 then
        .next { s.droppedRange die core q with
          invals := s.invals.map (fun p => if p.id == q.id then { p with acks := (die, core) :: p.acks } else p) }
      else .next ({ s.droppedRange die core q with invals := s.invals.filter (fun p => p.id != q.id) }.send (.invalDone q.msg 0)) := by
  have hok : (decide (die ≥ 8) || decide (core ≥ 384) || q.acks.contains (die, core) || !s.drained q) = false := by
    simp [hd, hc, ha, hdr]
  change execInvalAck die core q.id s = _
  simp only [execInvalAck, hq, hok, Bool.false_eq_true, if_false]
  rfl

theorem exec_invalAck_spec {die core : Nat} {q : InvalReq} (hq : s.invals.find? (fun y => y.id == q.id) = some q) (hd : die < 8)
    (hc : core < 384) (ha : (die, core) ∉ q.acks) (hdr : s.drained q = true) :
    ∃ t, exec (.invalAck die core q.id) s = .next t ∧ t.mem = s.mem ∧ t.gangs = s.gangs ∧
      (∀ l ∈ (t.core die core).l1, ¬ (l.part = q.part ∧ q.va.toNat ≤ l.va ∧ l.va < q.va.toNat + q.bytes)) ∧
      (q.acks.length + 1 < 3072 → t.out = s.out ∧ ∃ y ∈ t.invals, y.id = q.id ∧ y.acks = (die, core) :: q.acks) ∧
      (3072 ≤ q.acks.length + 1 → t.out = s.out ++ [.invalDone q.msg 0] ∧ ∀ y ∈ t.invals, y.id ≠ q.id) := by
  have he := exec_invalAck hq hd hc ha hdr
  have hl : ∀ l ∈ ((s.droppedRange die core q).core die core).l1, _ := fun l hl => State.l1_droppedRange hl
  split at he
  next hlt =>
    refine ⟨_, he, rfl, rfl, hl, fun _ => ⟨rfl, { q with acks := (die, core) :: q.acks }, ?_, rfl, rfl⟩, fun h => absurd hlt (Nat.not_lt.2 h)⟩
    exact List.mem_map.2 ⟨q, List.mem_of_find?_eq_some hq, by simp⟩
  next hge =>
    exact ⟨_, he, rfl, rfl, hl, fun h => absurd h hge, fun _ => ⟨rfl, fun y hy => by simpa using (List.mem_filter.1 hy).2⟩⟩

/-! ## Invalidations between dies (R219, R339) -/

theorem State.l1_dropLines {d core : Nat} {hit : Nat → Bool} {lines : List Nat} (hh : hit core = true) {l : L1Line}
    (hl : l ∈ ((s.dropLines d hit lines).core d core).l1) : l.loc / 128 ∉ lines := by
  revert l
  refine State.core_of_listed (P := fun c => ∀ {l}, l ∈ c.l1 → l.loc / 128 ∉ lines) (fun h => nomatch h) fun x hx hd hc => ?_
  obtain ⟨y, _, rfl⟩ := List.mem_map.1 hx
  intro l hl
  split at hl
  · simpa using (List.mem_filter.1 hl).2
  next hn =>
    rw [if_neg hn] at hd hc
    exact absurd (by simp [hd, hc, hh]) hn

theorem State.dropLines_kinds {d : Nat} {hit : Nat → Bool} {lines : List Nat} {o : MemOp} (ho : o ∈ (s.dropLines d hit lines).memOps) :
    ∃ o' ∈ s.memOps, o.kind = o'.kind := by
  obtain ⟨o', ho', rfl⟩ := List.mem_map.1 ho
  refine ⟨o', ho', ?_⟩
  (repeat' split) <;> rfl

/-- The clocks that the responses to some of the stores bring merged into t (R339), as the answers to stores begin. -/
def State.hearAnswers (s : State) (os : List MemOp) (t : State) : State :=
  os.foldl (fun t o => match s.gang o.gid with
    | some g => if s.storeAnswered o then o.lanes.foldl (fun t r =>
        if r.clock.isEmpty then t else t.modDie g.die (fun d => { d with vclock := mergeClock d.vclock r.clock })) t else t
    | none => t) t

theorem State.answerStores_eq (s : State) : s.answerStores =
    { s.hearAnswers s.memOps s with memOps := s.memOps.filter (fun o => !(s.storeAnswered o)) } := rfl

/-- What no change of a die bears on is as it was once the clocks are merged. -/
theorem State.hearAnswers_field {α : Type} (p : State → α) (hd : ∀ (t : State) d f, p (t.modDie d f) = p t) (os : List MemOp) (t : State) :
    p (s.hearAnswers os t) = p t := by
  refine foldl_field p (fun t o => ?_) os t
  split
  · split
    · refine foldl_field p (fun t r => ?_) _ _
      split
      · rfl
      · exact hd ..
    · rfl
  · rfl

/-- The answers to stores merge clocks into dies and end the stores; what neither bears on is as it was. -/
theorem State.answerStores_field {α : Type} (p : State → α) (hd : ∀ (t : State) d f, p (t.modDie d f) = p t)
    (hm : ∀ (t : State) (ops : List MemOp), p { t with memOps := ops } = p t) : p s.answerStores = p s :=
  (hm _ _).trans (State.hearAnswers_field p hd s.memOps s)

theorem State.hearAnswers_of_none {os : List MemOp} (h : ∀ o ∈ os, s.storeAnswered o = false) (t : State) : s.hearAnswers os t = t :=
  foldl_of_fixed fun o ho => by
    simp only [h o ho, Bool.false_eq_true, if_false]
    split <;> rfl

/-- Where no operation is a store there is none to answer. -/
theorem State.answerStores_of_no_store (h : ∀ o ∈ s.memOps, o.kind ≠ 1) : s.answerStores = s := by
  have hno : ∀ o ∈ s.memOps, s.storeAnswered o = false := fun o ho => by simp [State.storeAnswered, h o ho]
  rw [State.answerStores_eq, State.hearAnswers_of_none hno, List.filter_eq_self.2 fun o ho => by simp [hno o ho]]

/-- A batch applied (R339): the cores drop its lines, and its clock is merged. -/
def State.applied (s : State) (die : Nat) (b : InvalBatch) : State :=
  ({ s with batches := s.batches.erase b }.dropLines die (fun c => b.spare != some (die, c)) b.lines).modDie die
    (fun d => { d with vclock := mergeClock d.vclock b.clock })

theorem exec_invalBatch {die src : Nat} {b : InvalBatch} (hb : s.batches.find? (fun y => y.dst == die && y.src == src) = some b) :
    exec (.invalBatch die src) s = .next (s.applied die b).answerStores := by
  change execInvalBatch die src s = _
  simp only [execInvalBatch, hb]
  rfl

theorem exec_invalBatch_spec {die src : Nat} {b : InvalBatch} (hb : s.batches.find? (fun y => y.dst == die && y.src == src) = some b)
    (hd : die < s.dies.length) :
    ∃ t, exec (.invalBatch die src) s = .next t ∧ t.batches = s.batches.erase b ∧ t.mem = s.mem ∧ t.gangs = s.gangs ∧
      (∀ core, b.spare ≠ some (die, core) → ∀ l ∈ (t.core die core).l1, l.loc / 128 ∉ b.lines) ∧
      ((∀ o ∈ s.memOps, o.kind ≠ 1) → (t.die die).vclock = mergeClock (s.die die).vclock b.clock) := by
  have keeps {α : Type} (p : State → α) := State.answerStores_field (s := s.applied die b) p
  refine ⟨_, exec_invalBatch hb, keeps (·.batches) (fun _ _ _ => rfl) (fun _ _ => rfl), keeps (·.mem) (fun _ _ _ => rfl) (fun _ _ => rfl),
    keeps (·.gangs) (fun _ _ _ => rfl) (fun _ _ => rfl), fun core hs l hl => ?_, fun hk => ?_⟩
  · rw [keeps (·.core die core) (fun _ _ _ => rfl) (fun _ _ => rfl)] at hl
    exact State.l1_dropLines (s := { s with batches := s.batches.erase b }) (hit := fun c => b.spare != some (die, c)) (by simpa using hs) hl
  · have hno : ∀ o ∈ (s.applied die b).memOps, o.kind ≠ 1 := fun o ho => by
      obtain ⟨o', ho', e⟩ := State.dropLines_kinds (s := { s with batches := s.batches.erase b }) (hit := fun c => b.spare != some (die, c)) ho
      exact e ▸ hk o' ho'
    rw [State.answerStores_of_no_store hno]
    exact congrArg Die.vclock (State.die_modDie (s := { s with batches := s.batches.erase b }.dropLines die _ b.lines) die _ hd)

end

/-- Settles O53: each message by the branch that its condition picks, each drop of lines or translations by the filter that makes it. -/
theorem controlNodeMemory : Obligations.ControlNodeMemory :=
  ⟨answers_memread_virtual, answers_memread_physical, answers_memread_malformed, answers_memwrite_virtual, answers_memwrite_physical,
    fun _ _ _ bs h => State.bytesAt_writeHome h none _ bs, answers_memwrite_malformed,
    fun m _ _ _ _ hl hp ha hn hpart hva hdie hpin =>
      ⟨_, exec_invalidate m hl hp ha hn hpart hva hdie hpin, rfl, rfl, fun _ he => State.mem_tlb_invalidating (m := m) he⟩,
    fun _ _ _ _ hq hd hc ha hdr => exec_invalAck_spec hq hd hc ha hdr, fun _ _ _ _ hb hd => exec_invalBatch_spec hb hd⟩

end Sys2Proof.Machine
end

section
/-!
PROOF. Partitions: their settings, their reset and the soft errors (O52).
-/

namespace Sys2Proof.Machine

variable {s : State}

/-! ## PARTSET, COMPASS, PARTATTR and RINGSET (R102, R408) -/

/-- A partition as PARTSET changes it: its shares and quotas. -/
def Partition.withShares (p : Partition) (b : PartSet) : Partition :=
  { p with weights := b.weights, quota := b.quota, hbmWeight := b.hbmWeight, llcQuota := b.llcQuota }

theorem State.partset_create {b : PartSet} (m : MsgId) (hq : s.otherQuotas b.part + b.quota ≤ 7936) (hnew : s.part b.part = none)
    (hkey : ∀ p q, s.part p = some q → q.key ≠ b.key) :
    s.partset m b = { s with parts := s.parts.set b.part (some (createPartition b)) }.reply m 0 := by
  rw [State.partset, if_neg (Nat.not_lt.2 hq), hnew]
  dsimp only
  split
  next hany =>
    obtain ⟨r, hr, hk⟩ := List.any_eq_true.1 hany
    obtain ⟨i, hi⟩ := List.mem_iff_getElem?.1 hr
    cases r with
    | none => cases hk
    | some q => exact absurd (beq_iff_eq.1 hk) (hkey i q (Option.join_eq_some_iff.2 hi))
  next => rw [setNth_eq_set]

/-- A ring without records has nothing to move into the store. -/
theorem State.drain_of_empty {p d : Nat} (h : ∀ q, s.part p = some q → (q.ring d).count = 0) : s.drain p d = s := by
  unfold State.drain
  split
  · rfl
  next q hq => rw [h q hq, State.drainRing]

theorem State.drainAll_of_empty {part d : Nat} (h : ∀ p q, s.part p = some q → (q.ring d).count = 0) : s.drainAll part d = s :=
  foldl_of_fixed fun p _ => State.drain_of_empty (h p)

theorem State.partset_change {b : PartSet} {p : Partition} (m : MsgId) (hq : s.otherQuotas b.part + b.quota ≤ 7936)
    (hp : s.part b.part = some p) (hkey : p.key = b.key) (hroots : p.roots = b.roots) (hvlog : p.vlog = b.vlog)
    (hempty : ∀ n q, s.part n = some q → ∀ d < 8, (q.ring d).count = 0) :
    s.partset m b = (s.modPart b.part (·.withShares b)).reply m 0 := by
  have hdrain : (List.range 8).foldl (fun s d => s.drainAll b.part d) (s.modPart b.part (·.withShares b)) =
      s.modPart b.part (·.withShares b) := by
    refine foldl_of_fixed fun d hd => State.drainAll_of_empty fun n q hn => ?_
    rw [State.part_modPart] at hn
    split at hn
    · obtain ⟨q', hq', rfl⟩ := Option.map_eq_some_iff.1 hn
      exact hempty n q' hq' d (List.mem_range.1 hd)
    · exact hempty n q hn d (List.mem_range.1 hd)
  rw [State.partset, if_neg (Nat.not_lt.2 hq), hp]
  simp only [hkey, hroots, hvlog, bne_self_eq_false, Bool.or_self, Bool.false_eq_true, if_false]
  exact congrArg (State.reply · m 0) hdrain

theorem answers_partset_create (m : MsgId) (b : PartSet) : Answers (.partset m (some b)) 1
    (fun s => partSetOk b = true ∧ s.otherQuotas b.part + b.quota ≤ 7936 ∧ s.part b.part = none ∧ ∀ p q, s.part p = some q → q.key ≠ b.key)
    (fun s => { s with parts := s.parts.set b.part (some (createPartition b)) }.reply m 0) :=
  answers_of_act (execPartset m (some b)) (fun _ => rfl) (fun _ => rfl) fun _ ⟨hok, hq, hnew, hkey⟩ =>
    (if_pos hok).trans (State.partset_create m hq hnew hkey)

theorem answers_partset_change (m : MsgId) (b : PartSet) (p : Partition) : Answers (.partset m (some b)) 1
    (fun s => partSetOk b = true ∧ s.otherQuotas b.part + b.quota ≤ 7936 ∧ s.part b.part = some p ∧ p.key = b.key ∧
      p.roots = b.roots ∧ p.vlog = b.vlog ∧ ∀ n q, s.part n = some q → ∀ d < 8, (q.ring d).count = 0)
    (fun s => (s.modPart b.part (·.withShares b)).reply m 0) :=
  answers_of_act (execPartset m (some b)) (fun _ => rfl) (fun _ => rfl) fun _ ⟨hok, hq, hp, hkey, hroots, hvlog, hempty⟩ =>
    (if_pos hok).trans (State.partset_change m hq hp hkey hroots hvlog hempty)

theorem answers_partset_malformed (m : MsgId) (b : PartSet) :
    Answers (.partset m (some b)) 1 (fun _ => partSetOk b = false) (fun s => s.reply m 1) :=
  answers_of_act (execPartset m (some b)) (fun _ => rfl) (fun _ => rfl) fun _ hbad => if_neg (by simp [hbad])

theorem answers_partset_quota (m : MsgId) (b : PartSet) : Answers (.partset m (some b)) 1
    (fun s => partSetOk b = true ∧ 7936 < s.otherQuotas b.part + b.quota) (fun s => s.reply m 2) :=
  answers_of_act (execPartset m (some b)) (fun _ => rfl) (fun _ => rfl) fun _ ⟨hok, hq⟩ => (if_pos hok).trans (if_pos hq)

/-- Under the dispositions of a new partition every class but LEASE acts as BUNDLE, and LEASE as CREW (R366). -/
theorem disposition_createPartition (b : PartSet) : ∀ die < 8, ∀ c, 1 ≤ c → c ≤ 0x13 →
    disposition (createPartition b) die c = if c = 4 then 1 else 0 := by
  have hall : ∀ die < 8, ∀ c < 0x14, 1 ≤ c → disposition (createPartition (⟨0, 0, [], 0, 0, 0, [], 0⟩ : PartSet)) die c = if c = 4 then 1 else 0 := by
    decide
  exact fun die hd c h1 h2 => hall die hd c (Nat.lt_succ_of_le h2) h1

theorem answers_compass (m : MsgId) (b : CompassSet) : Answers (.compass m (some b)) 1
    (fun s => (s.part b.part).isSome = true ∧ b.weights.length = 8 ∧ ∀ w ∈ b.weights, w < 256)
    (fun s => (s.modPart b.part (fun p => { p with weights := b.weights })).reply m 0) :=
  answers_of_act (execCompass m (some b)) (fun _ => rfl) (fun _ => rfl) fun s ⟨hp, hlen, hw⟩ => by
    have hok : bytes8 b.weights = true := by simpa [bytes8, hlen] using hw
    simp [hok, Option.isSome_iff_ne_none.1 hp]

theorem State.hasGang_eq_true {part : Nat} : s.hasGang part = true ↔ ∃ g ∈ s.gangs, g.part = part ∧ g.retired = false := by
  simp [State.hasGang]

theorem answers_partattr (m : MsgId) (b : PartFlag) : Answers (.partattr m (some b)) 1
    (fun s => (s.part b.part).isSome = true ∧ b.value ≤ 1 ∧ ∀ g ∈ s.gangs, g.part = b.part → g.retired = true)
    (fun s => (s.modPart b.part (fun p => { p with privileged := b.value = 1 })).reply m 0) :=
  answers_of_act (execPartattr m (some b)) (fun _ => rfl) (fun _ => rfl) fun s ⟨hp, hv, hg⟩ => by
    have hno : s.hasGang b.part = false := Bool.eq_false_iff.2 fun h => by
      obtain ⟨g, hmem, hpart, hret⟩ := State.hasGang_eq_true.1 h
      exact Bool.false_ne_true (hret.symm.trans (hg g hmem hpart))
    simp [hno, Nat.not_lt.2 hv, Option.isSome_iff_ne_none.1 hp, beq_eq_decide]

theorem answers_partattr_busy (m : MsgId) (b : PartFlag) (g : Gang) : Answers (.partattr m (some b)) 1
    (fun s => (s.part b.part).isSome = true ∧ b.value ≤ 1 ∧ g ∈ s.gangs ∧ g.part = b.part ∧ g.retired = false)
    (fun s => s.reply m 3) :=
  answers_of_act (execPartattr m (some b)) (fun _ => rfl) (fun _ => rfl) fun s ⟨hp, hv, hmem, hpart, hret⟩ => by
    simp [State.hasGang_eq_true.2 ⟨g, hmem, hpart, hret⟩, Nat.not_lt.2 hv, Option.isSome_iff_ne_none.1 hp]

theorem answers_ringset (m : MsgId) (part die n k : Nat) (va : W64) (p : Partition) : Answers (.ringset m part die va n) 1
    (fun s => part < 16 ∧ die < 8 ∧ va.toNat % 2 ^ 16 = 0 ∧ (n = 0 ∨ k ≤ 16 ∧ n = 2 ^ k) ∧ s.part part = some p ∧
      ∀ q ∈ (p.ring die).lkeys, q = none)
    (fun s => (s.modPart part (fun p => { p with rings := modNth p.rings die (fun _ => ⟨va, n, 0, 0, [], []⟩) })).reply m 0) :=
  answers_of_act (execRingset m part die va n) (fun _ => rfl) (fun _ => rfl) fun s ⟨hpart, hdie, hva, hn, hp, hkeys⟩ => by
    have hsize : (n == 0 || powerIn 0 16 n) = true := by
      rcases hn with rfl | ⟨hk, rfl⟩
      · rfl
      · have hpow : powerIn 0 16 (2 ^ k) = true := List.any_eq_true.2 ⟨k, List.mem_range.2 (Nat.lt_succ_of_le hk), by simp⟩
        rw [hpow, Bool.or_true]
    have hform : (decide (part ≥ 16) || decide (die ≥ 8) || va.toNat % 2 ^ 16 != 0 || !(n == 0 || powerIn 0 16 n)) = false := by
      simp only [hsize, hva, ge_iff_le, Nat.not_le.2 hpart, Nat.not_le.2 hdie, decide_false, bne_self_eq_false, Bool.not_true, Bool.or_self]
    have hempty : (p.ring die).lkeys.any Option.isSome = false := List.any_eq_false.2 fun q hq => by simp [hkeys q hq]
    simp only [hform, hp, hempty, Bool.false_eq_true, if_false]
    rfl

/-! ## The beginning of a partition reset, and late resets (R114) -/

theorem answers_partreset (m : MsgId) (part : Nat) : Answers (.partreset m (some part)) 1
    (fun s => ∃ p, s.part part = some p ∧ p.resetting = none ∧ p.resetMsgs = [])
    (fun s => s.modPart part (fun p => { p with resetting := some s.devtime, resetMsgs := p.resetMsgs ++ [m] })) :=
  answers_of_act (execPartreset m (some part)) (fun _ => rfl) (fun _ => rfl) fun s ⟨p, hp, hr, _⟩ => by
    have hsome : (some part).filter (fun p => (s.part p).isSome) = some part := by simp [Option.filter, hp]
    simp only [hsome]
    exact State.modPart_congr fun q hq => by
      obtain rfl : p = q := Option.some.inj (hp.symm.trans hq)
      simp [hr]

theorem exec_resetTimeout {die part t : Nat} {p : Partition} (hp : s.part part = some p) (hr : p.resetting = some t) (hd : die < 8)
    (hdone : die ∉ p.resetDone) (hlate : die ∉ p.resetLate) (ht : t + 1000000 ≤ s.devtime) : exec (.resetTimeout die part) s =
      .next ((s.modPart part (fun p => { p with resetLate := p.resetLate ++ [die] })).moduleError die 114 [part]) := by
  change execResetTimeout die part s = _
  simp [execResetTimeout, hp, hr, hdone, hlate, Nat.not_le.2 hd, Nat.not_lt.2 ht]

/-! ## What a die does for a partition reset (R114) -/

/-- A write to global memory changes dies, cores, memory and what is in flight; what none of these bears on is as it was. -/
theorem State.poke_field {α : Type} (p : State → α) (hdie : ∀ (t : State) d f, p (t.modDie d f) = p t)
    (hput : ∀ (t : State) a bs, p (t.putBytes a bs) = p t) (hdrop : ∀ (t : State) d hit lines, p (t.dropLines d hit lines) = p t)
    (hbatch : ∀ (t : State) bs, p { t with batches := bs } = p t) (die part va : Nat) (bs : List Byte) : p (s.poke die part va bs) = p s := by
  have touch (cls fuel : Nat) : ∀ (t : State) (va n : Nat), p (t.touchRange part cls fuel va n) = p t := by
    induction fuel with
    | zero => exact fun _ _ _ => rfl
    | succ fuel ih =>
      intro t va n
      unfold State.touchRange
      split
      · rfl
      · refine (ih _ _ _).trans ?_
        split
        · rfl
        · exact hdie ..
  have carry (t : State) (src dst : Nat) : p (t.carryClock src dst) = p t := by
    unfold State.carryClock
    split
    · rfl
    · exact hdie ..
  have use (t : State) (cls va n : Nat) : p (t.useRange die part cls va n) = p t := by
    unfold State.useRange
    split
    · rfl
    · exact (carry ..).trans (touch ..)
  have home (t : State) (e : Option (Nat × Nat)) (loc : Nat) (bs : List Byte) : p (t.writeHome e loc bs) = p t := by
    unfold State.writeHome State.invalidate
    dsimp only
    split
    · exact (hdrop ..).trans (hput ..)
    · exact (hbatch ..).trans ((hdie ..).trans ((hdrop ..).trans (hput ..)))
  have runs (rs : List (Nat × Nat)) : ∀ (t : State) (bs : List Byte), p (t.writeRuns none rs bs) = p t := by
    induction rs with
    | nil => exact fun _ _ => rfl
    | cons r rs ih => exact fun t bs => (ih _ _).trans (home ..)
  unfold State.poke State.writeVa
  cases s.runs part 1 va bs.length with
  | none => rfl
  | some rs => exact (runs ..).trans (use ..)

/-- A slot freed leaves the partitions alone. -/
theorem State.dropSlot_parts (die part va k : Nat) : (s.dropSlot die part va k).parts = s.parts := by
  unfold State.dropSlot
  split
  · exact State.poke_field (·.parts) (fun _ _ _ => rfl) (fun _ _ _ => rfl) (fun _ _ _ _ => rfl) (fun _ _ => rfl) die part _ _
  · rfl

/-- The records left on a die are those with another arrival number. -/
theorem State.store_dropRecord (d arrival : Nat) :
    ((s.dropRecord d arrival).die d).store = (s.die d).store.filter (fun r => r.arrival != arrival) := by
  unfold State.dropRecord
  split
  next h =>
    refine (List.filter_eq_self.2 fun r hr => ?_).symm
    simpa using List.find?_eq_none.1 h r hr
  next r h =>
    have hd : d < s.dies.length := by
      by_contra hn
      rw [State.record, State.die_absent hn] at h
      cases h
    exact congrArg Die.store (State.die_modDie d _ hd)

theorem State.mem_store_dropRecords {d : Nat} (xs : List Record) : ∀ {t : State} {r : Record},
    r ∈ ((xs.foldl (fun t x => t.dropRecord d x.arrival) t).die d).store → r ∈ (t.die d).store ∧ ∀ x ∈ xs, r.arrival ≠ x.arrival := by
  induction xs with
  | nil => exact fun h => ⟨h, fun _ hx => nomatch hx⟩
  | cons x xs ih =>
    intro t r h
    obtain ⟨hr, hxs⟩ := ih h
    rw [State.store_dropRecord, List.mem_filter] at hr
    exact ⟨hr.1, fun y hy => (List.mem_cons.1 hy).elim (fun e => e ▸ by simpa using hr.2) (hxs y)⟩

theorem State.dropRecord_parts (d arrival : Nat) : (s.dropRecord d arrival).parts = s.parts := by
  unfold State.dropRecord
  split <;> rfl

/-- No record of the partition is left on the die. -/
theorem State.store_resetRecords {part die : Nat} {r : Record} (h : r ∈ ((s.resetRecords part die).die die).store) :
    pkPart r.packet ≠ part := by
  have hdies : (s.resetRecords part die).dies =
      (((s.die die).store.filter (fun r => pkPart r.packet == part)).foldl (fun s r => s.dropRecord die r.arrival) s).dies :=
    foldl_field (f := fun s k => State.countRecord s k die (· - 1)) (·.dies) (fun _ _ => rfl) _ _
  rw [State.die, hdies] at h
  obtain ⟨hr, hne⟩ := State.mem_store_dropRecords _ h
  exact fun hp => hne r (List.mem_filter.2 ⟨hr, by simp [hp]⟩) rfl

/-- Of the partition, the discarding of its records changes its ring on the die alone. -/
theorem State.part_resetRecords (part die : Nat) : (s.resetRecords part die).part part =
    (s.part part).map (fun p => { p with rings := modNth p.rings die (fun _ => ⟨0, 0, 0, 0, [], []⟩) }) := by
  have hrecords (xs : List Record) : (xs.foldl (fun s r => s.dropRecord die r.arrival) s).parts = s.parts :=
    foldl_field (·.parts) (fun _ _ => State.dropRecord_parts ..) xs s
  have hkeys (keys : List Nat) (t : State) : (keys.foldl (fun s k => s.countRecord k die (· - 1)) t).parts = t.parts :=
    foldl_field (f := fun s k => State.countRecord s k die (· - 1)) (·.parts) (fun _ _ => rfl) keys t
  refine (State.part_modPart part part _).trans ?_
  rw [if_pos rfl, State.part, hkeys, hrecords, ← State.part]

/-- Whether a gang id is that of a gang of the partition on the die. -/
def State.mine (s : State) (part die gid : Nat) : Bool := (s.gangs.filter (fun g => g.part == part && g.die == die)).any (fun g => g.gid == gid)

/-- Before the gangs of a partition go: their watches released, and the halts and dumps that are asked of them answered. -/
def State.quieted (s : State) (part die : Nat) : State :=
  let a := (s.gangs.filter (fun g => g.part == part && g.die == die)).foldl (fun s g => s.releaseWatch g) s
  let b := (a.halts.filter (fun h => s.mine part die h.gid)).foldl (fun s h => match h.reply with | some m => s.reply m 1 | none => s) a
  (b.crews.filter (fun c => c.part == part && c.die == die)).foldl (fun s c =>
    match c.dump with | some m => s.send (.dumpDone m 1 0) | none => s) b

/-- What neither a core, nor a Sextant entry, nor a message bears on is as it was. -/
theorem State.quieted_field {α : Type} (p : State → α) (hcore : ∀ (t : State) d c f, p (t.modCore d c f) = p t)
    (hsx : ∀ (t : State) es, p { t with sxEntries := es } = p t) (hsend : ∀ (t : State) m, p (t.send m) = p t) (part die : Nat) :
    p (s.quieted part die) = p s := by
  have answers (t : State) (h : PendingHalt) : p (match h.reply with | some m => t.reply m 1 | none => t) = p t := by
    split
    · exact hsend ..
    · rfl
  have dumps (t : State) (c : Crew) : p (match c.dump with | some m => t.send (.dumpDone m 1 0) | none => t) = p t := by
    split
    · exact hsend ..
    · rfl
  exact (foldl_field p dumps _ _).trans
    ((foldl_field p answers _ _).trans (foldl_field p (fun t g => (hsx _ _).trans (hcore ..)) _ s))

theorem State.resetGangs_gangs (part die : Nat) :
    (s.resetGangs part die).gangs = (s.quieted part die).gangs.filter (fun g => !s.mine part die g.gid) := rfl

theorem State.resetGangs_dies (part die : Nat) : (s.resetGangs part die).dies = s.dies :=
  State.quieted_field (·.dies) (fun _ _ _ _ => State.modCore_dies ..) (fun _ _ => rfl) (fun _ _ => rfl) part die

theorem State.resetGangs_parts (part die : Nat) : (s.resetGangs part die).parts = s.parts :=
  State.quieted_field (·.parts) (fun _ _ _ _ => State.modCore_parts ..) (fun _ _ => rfl) (fun _ _ => rfl) part die

/-- No gang of the partition is left on the die. -/
theorem State.gang_resetGangs {part die : Nat} {g : Gang} (h : g ∈ (s.resetGangs part die).gangs) : ¬ (g.part = part ∧ g.die = die) := by
  rw [State.resetGangs_gangs, State.quieted_field (·.gangs) (fun _ _ _ _ => State.modCore_gangs ..) (fun _ _ => rfl) (fun _ _ => rfl),
    List.mem_filter] at h
  obtain ⟨hg, hout⟩ := h
  rintro ⟨hp, hd⟩
  have hin : s.mine part die g.gid = true := List.any_eq_true.2 ⟨g, List.mem_filter.2 ⟨hg, by simp [hp, hd]⟩, by simp⟩
  simp [hin] at hout

/-- No crew of the partition is left on the die. -/
theorem State.crew_resetGangs {part die : Nat} {c : Crew} (h : c ∈ (s.resetGangs part die).crews) : ¬ (c.part = part ∧ c.die = die) :=
  fun ⟨hp, hd⟩ => by simpa [hp, hd] using (List.mem_filter.1 h).2

/-- After its last die a partition's reset is over (R114, step 6). -/
theorem Partition.dieDone_last {p : Partition} {die : Nat} (h : p.resetDone.length = 7) :
    (p.dieDone die).resetting = none ∧ (p.dieDone die).lseq = 0 ∧ (p.dieDone die).resetMsgs = [] := by
  simp [Partition.dieDone, h]

/-- The steps 3 to 5 of a reset on a die (R114), its slots once freed. -/
def State.resetSteps (s : State) (part die : Nat) : State :=
  (((s.resetRecords part die).resetGangs part die).resetTables part die).modPart part (fun p => p.dieDone die)

/-- The slots of a partition's stopped and dumped crews on a die freed (R114, step 2). -/
def State.slotsFreed (s : State) (part die : Nat) : State := (s.slotsOf part die).foldl (fun s k => s.dropSlot die part k.1 k.2) s

theorem State.part_slotsFreed (part die : Nat) : (s.slotsFreed part die).part part = s.part part := by
  rw [State.slotsFreed, State.part, foldl_field (·.parts) (fun _ _ => State.dropSlot_parts ..) _ s, ← State.part]

theorem State.part_resetSteps (part die : Nat) : (s.resetSteps part die).part part =
    (s.part part).map (fun p => { p with rings := modNth p.rings die (fun _ => ⟨0, 0, 0, 0, [], []⟩) }.dieDone die) := by
  have htables (t : State) : (t.resetTables part die).part part = t.part part := rfl
  have hgangs (t : State) : (t.resetGangs part die).part part = t.part part := by rw [State.part, State.resetGangs_parts, ← State.part]
  rw [State.resetSteps, State.part_modPart, if_pos rfl, htables, hgangs, State.part_resetRecords, Option.map_map]
  rfl

theorem State.store_resetSteps {part die : Nat} {r : Record} (h : r ∈ ((s.resetSteps part die).die die).store) : pkPart r.packet ≠ part := by
  have htables (t : State) : ((t.resetTables part die).modPart part (fun p => p.dieDone die)).die die = t.die die := rfl
  rw [State.resetSteps, htables, State.die, State.resetGangs_dies] at h
  exact State.store_resetRecords h

theorem State.gang_resetSteps {part die : Nat} {g : Gang} (h : g ∈ (s.resetSteps part die).gangs) : ¬ (g.part = part ∧ g.die = die) := by
  have hsame (t : State) : ((t.resetTables part die).modPart part (fun p => p.dieDone die)).gangs = t.gangs := rfl
  rw [State.resetSteps, hsame] at h
  exact State.gang_resetGangs h

theorem State.crew_resetSteps {part die : Nat} {c : Crew} (h : c ∈ (s.resetSteps part die).crews) : ¬ (c.part = part ∧ c.die = die) := by
  have hsame (t : State) : ((t.resetTables part die).modPart part (fun p => p.dieDone die)).crews = t.crews := rfl
  rw [State.resetSteps, hsame] at h
  exact State.crew_resetGangs h

theorem State.segs_resetSteps {part die : Nat} {g : Segment} (h : g ∈ (s.resetSteps part die).segs) : ¬ (g.part = part ∧ g.die = die) :=
  fun ⟨hp, hd⟩ => by simpa [hp, hd] using (List.mem_filter.1 h).2

theorem State.xviews_resetSteps {part die : Nat} {v : XView} (h : v ∈ (s.resetSteps part die).xviews) : ¬ (v.part = part ∧ v.die = die) :=
  fun ⟨hp, hd⟩ => by simpa [hp, hd] using (List.mem_filter.1 h).2

/-- A die's part of a reset done: what is left is what its steps leave, with its notice and, being the last, its answers sent. -/
theorem exec_resetDone {die part t : Nat} {p : Partition} (hp : s.part part = some p) (hr : p.resetting = some t) (hd : die < 8)
    (hdone : die ∉ p.resetDone) (hs : s.resettable part die = true) : ∃ out link,
      exec (.resetDone die part) s = .next { (s.slotsFreed part die).resetSteps part die with out := out, link := link } := by
  have hok : (decide (die ≥ 8) || p.resetDone.contains die || !s.resettable part die) = false := by simp [hd, hdone, hs]
  have hreplies (u : State) : p.resetMsgs.foldl (fun s m => s.reply m 0) u = { u with
      out := u.out ++ p.resetMsgs.map (.reply · 0 []),
      link := (p.resetMsgs.map (OutMsg.reply · 0 [])).foldl (fun l m => l.post m.kind m.body) u.link } := State.foldl_send ..
  have hexec : exec (.resetDone die part) s = execResetDone die part s := rfl
  rw [hexec, execResetDone]
  simp only [hp, hr, hok, Bool.false_eq_true, if_false]
  rw [← State.slotsFreed, ← State.resetSteps, hreplies]
  generalize (s.slotsFreed part die).resetSteps part die = u
  split <;> exact ⟨_, _, rfl⟩

theorem exec_resetDone_spec {die part t : Nat} {p : Partition} (hp : s.part part = some p) (hr : p.resetting = some t) (hd : die < 8)
    (hdone : die ∉ p.resetDone) (hs : s.resettable part die = true) :
    ∃ u, exec (.resetDone die part) s = .next u ∧ (∀ g ∈ u.gangs, ¬ (g.part = part ∧ g.die = die)) ∧
      (∀ r ∈ (u.die die).store, pkPart r.packet ≠ part) ∧ (∀ g ∈ u.segs, ¬ (g.part = part ∧ g.die = die)) ∧
      (∀ v ∈ u.xviews, ¬ (v.part = part ∧ v.die = die)) ∧ (∀ c ∈ u.crews, ¬ (c.part = part ∧ c.die = die)) ∧
      (p.resetDone.length = 7 → ∀ q, u.part part = some q → q.resetting = none ∧ q.lseq = 0 ∧ q.resetMsgs = []) := by
  obtain ⟨out, link, he⟩ := exec_resetDone hp hr hd hdone hs
  have hlast (h : p.resetDone.length = 7) (q : Partition) (hq : ((s.slotsFreed part die).resetSteps part die).part part = some q) :
      q.resetting = none ∧ q.lseq = 0 ∧ q.resetMsgs = [] := by
    rw [State.part_resetSteps, State.part_slotsFreed, hp, Option.map_some] at hq
    obtain rfl := Option.some.inj hq
    exact Partition.dieDone_last h
  have hgangs (g : Gang) := State.gang_resetSteps (s := s.slotsFreed part die) (part := part) (die := die) (g := g)
  have hstore (r : Record) := State.store_resetSteps (s := s.slotsFreed part die) (part := part) (die := die) (r := r)
  have hsegs (g : Segment) := State.segs_resetSteps (s := s.slotsFreed part die) (part := part) (die := die) (g := g)
  have hviews (v : XView) := State.xviews_resetSteps (s := s.slotsFreed part die) (part := part) (die := die) (v := v)
  have hcrews (c : Crew) := State.crew_resetSteps (s := s.slotsFreed part die) (part := part) (die := die) (c := c)
  generalize (s.slotsFreed part die).resetSteps part die = u at he hlast hgangs hstore hsegs hviews hcrews
  exact ⟨_, he, hgangs, hstore, hsegs, hviews, hcrews, hlast⟩

/-! ## Soft errors (R369, R373) -/

/-- A core changed, where the change leaves its number. -/
theorem State.core_modCore {d c : Nat} {f : Core → Core} (hf : ∀ x : Core, (f x).die = x.die ∧ (f x).core = x.core) :
    (s.modCore d c f).core d c = f (s.core d c) := by
  unfold State.modCore State.core
  split
  next h =>
    have hpred : (fun x : Core => x.die == d && x.core == c) ∘ (fun x => if x.die == d && x.core == c then f x else x) =
        fun x => x.die == d && x.core == c := by
      funext x
      simp only [Function.comp_apply]
      split
      · rw [(hf x).1, (hf x).2]
      · rfl
    obtain ⟨y, hy⟩ := Option.isSome_iff_exists.1 (List.find?_isSome.2 (List.any_eq_true.1 h))
    have hm := List.find?_some hy
    dsimp only
    rw [List.find?_map, hpred, hy, Option.map_some, if_pos hm, Option.getD_some, Option.getD_some]
  next h =>
    have hnone : s.cores.find? (fun x => x.die == d && x.core == c) = none :=
      List.find?_eq_none.2 fun x hx hm => h (List.any_eq_true.2 ⟨x, hx, hm⟩)
    have hnew : ((f (Core.blank d c)).die == d && (f (Core.blank d c)).core == c) = true := by
      rw [(hf _).1, (hf _).2]
      simp [Core.blank]
    simp [List.find?_append, hnone, hnew]

theorem Core.errorCounts_setErrors (c : Core) (part : Nat) (v : Nat × Nat) : (c.setErrors part v).errorCounts part = v := by
  have hnone : (c.errors.filter (fun e => e.1 != part)).find? (fun e => e.1 == part) = none :=
    List.find?_eq_none.2 fun e he => by simpa using (List.mem_filter.1 he).2
  simp only [Core.errorCounts, Core.setErrors, List.find?_append, hnone, Option.none_or]
  split
  next h => exact (beq_iff_eq.1 h).symm
  next => simp

theorem exec_softErrorCorrected {die core part : Nat} (hp : 8 ≤ s.phase) (hd : die < 8) (hc : core < 384) (hpart : (s.part part).isSome = true) :
    exec (.softErrorCorrected die core part) s = .next (s.modCore die core (fun c =>
      c.setErrors part ((c.errorCounts part).1 + 1, (c.errorCounts part).2))) := by
  change execSoftErrorCorrected die core part s = _
  simp [execSoftErrorCorrected, Nat.not_lt.2 hp, Nat.not_le.2 hd, Nat.not_le.2 hc, Option.isSome_iff_ne_none.1 hpart]

/-- The core's counts of the partition: one more error corrected. -/
theorem State.errorCounts_softError (die core part : Nat) :
    ((s.modCore die core (fun c => c.setErrors part ((c.errorCounts part).1 + 1, (c.errorCounts part).2))).core die core).errorCounts part =
      (((s.core die core).errorCounts part).1 + 1, ((s.core die core).errorCounts part).2) := by
  refine (congrArg (Core.errorCounts · part) (State.core_modCore ?_)).trans (Core.errorCounts_setErrors ..)
  exact fun _ => ⟨rfl, rfl⟩

theorem exec_deviceStructureError {die part : Nat} (refetched : Bool) (hp : 8 ≤ s.phase) (hd : die < 8)
    (hpart : (s.part part).isSome = true) : exec (.deviceStructureError die part refetched) s =
      .next (if refetched then s else (s.moduleError die 369 [part]).beginReset part []) := by
  change execDeviceStructureError die part refetched s = _
  rw [execDeviceStructureError, if_neg (by simp [Nat.not_lt.2 hp, Nat.not_le.2 hd, Option.isSome_iff_ne_none.1 hpart])]
  cases refetched <;> rfl

/-- A reset once begun stands in its partition. -/
theorem State.resetting_beginReset {part : Nat} {msgs : List MsgId} {q : Partition} (h : (s.beginReset part msgs).part part = some q) :
    q.resetting.isSome = true := by
  rw [State.beginReset, State.part_modPart, if_pos rfl] at h
  obtain ⟨p, _, rfl⟩ := Option.map_eq_some_iff.1 h
  rfl

/-- Settles O52: the messages by the branch that their conditions pick, a die's reset step by step, and the counts of soft errors by what a
changed core reads as. -/
theorem partitions : Obligations.Partitions :=
  ⟨answers_partset_create, fun b => ⟨rfl, rfl, rfl, rfl, fun _ h => List.eq_of_mem_replicate h, disposition_createPartition b⟩,
    answers_partset_change, answers_partset_malformed, answers_partset_quota, answers_compass, answers_partattr, answers_partattr_busy,
    answers_ringset, answers_partreset, fun _ _ _ _ _ hp hr hd _ hdone hs => exec_resetDone_spec hp hr hd hdone hs,
    fun _ _ _ _ _ hp hr hd hdone hlate ht => ⟨_, 114, exec_resetTimeout hp hr hd hdone hlate ht, rfl⟩,
    fun _ _ _ _ hp hd hc hpart => ⟨_, exec_softErrorCorrected hp hd hc hpart, State.errorCounts_softError ..⟩,
    fun _ _ _ hp hd hpart => ⟨exec_deviceStructureError true hp hd hpart, _, exec_deviceStructureError false hp hd hpart,
      fun _ hq => State.resetting_beginReset hq⟩⟩

end Sys2Proof.Machine
end

section
/-!
PROOF. Bring-up: power and reset, training, firmware, attestation, devtime and heat (O50).
-/

namespace Sys2Proof.Machine

variable {s : State}

/-! ## Rails and reset (R8) -/

theorem exec_powerRailEnable (h : s.rails = false) :
    exec .powerRailEnable s = .next (if s.hbmRails then { s with rails := true } else { s with hbmRails := true }) := by
  change execPowerRailEnable s = _
  rw [execPowerRailEnable, h]
  rfl

theorem exec_moduleReset_assert (h : s.rails = true) : exec (.moduleReset true) s = .next (s.cleared true true) := by
  change execModuleReset true s = _
  rw [execModuleReset, h]
  rfl

theorem exec_moduleReset_release (h : s.rails = true) (hr : s.resetHeld = true) :
    exec (.moduleReset false) s = .next { s with resetHeld := false, phase := 1 } := by
  change execModuleReset false s = _
  rw [execModuleReset, h, hr]
  rfl

theorem exec_powerDown (h : s.hbmRails = true) : exec .powerDown s = .next (s.cleared false false) := if_pos h

theorem State.part_cleared {hbm core : Bool} {p : Option Partition} (h : p ∈ (s.cleared hbm core).parts) : p = none :=
  List.eq_of_mem_replicate h

theorem State.secret_cleared {hbm core : Bool} {d : Die} (h : d ∈ (s.cleared hbm core).dies) : d.secret = none :=
  (List.eq_of_mem_replicate h) ▸ rfl

/-! ## Training (R10, R11) -/

/-- The best setting of a list is one of it, and none of it is higher. -/
theorem bestSetting_spec {xs : List LinkSetting} (h : xs ≠ []) : ∃ x, bestSetting xs = some x ∧ x ∈ xs ∧
    ∀ y ∈ xs, y.lanes < x.lanes ∨ (y.lanes = x.lanes ∧ y.rate ≤ x.rate) := by
  induction xs with
  | nil => exact absurd rfl h
  | cons a xs ih =>
    rcases eq_or_ne xs [] with rfl | hne
    · exact ⟨a, rfl, List.mem_cons_self, fun y hy => .inr (by simp [List.mem_singleton.1 hy])⟩
    · obtain ⟨b, hb, hmem, hbest⟩ := ih hne
      rw [bestSetting, hb]
      dsimp only
      by_cases hh : higher b a = true
      · simp only [higher, Bool.or_eq_true, Bool.and_eq_true, decide_eq_true_eq, beq_iff_eq] at hh
        rw [if_pos (by simpa [higher] using hh)]
        refine ⟨b, rfl, List.mem_cons_of_mem a hmem, fun y hy => ?_⟩
        rcases List.mem_cons.1 hy with rfl | hy
        · omega
        · exact hbest y hy
      · simp only [higher, Bool.or_eq_true, Bool.and_eq_true, decide_eq_true_eq, beq_iff_eq] at hh
        rw [if_neg (by simpa [higher] using hh)]
        refine ⟨a, rfl, List.mem_cons_self, fun y hy => ?_⟩
        rcases List.mem_cons.1 hy with rfl | hy
        · omega
        · have := hbest y hy
          omega

/-- Training sends again what was not acknowledged. -/
theorem Link.sent_prefix_train (l : Link) (x : LinkSetting) : l.sent ++ l.unacked <+: (l.train x).sent :=
  Link.sent_prefix_pump (Link.resend { l with trained := some x, degraded := x.lanes != 4 || x.rate != 100, resends := 0 })

@[simp] theorem Link.train_trained (l : Link) (x : LinkSetting) : (l.train x).trained = some x := Link.pump_trained _

@[simp] theorem Link.train_degraded (l : Link) (x : LinkSetting) : (l.train x).degraded = (x.lanes != 4 || x.rate != 100) := Link.pump_degraded _

theorem State.training_of (h : s.rails = true) (hr : s.resetHeld = false) (hf : s.failed = false) (ht : s.link.trained = none) :
    s.training = true := by
  simp [State.training, h, hr, hf, ht]

theorem exec_tikelTraining {passed : List LinkSetting} {x : LinkSetting} (ht : s.training = true)
    (hx : bestSetting (passed.filter settingOk) = some x) : exec (.tikelTraining passed) s =
      .next ({ s with link := s.link.train x, phase := max s.phase 2 }.send
        (.bringup 2 0 0 [x.order, x.polarity, x.lanes, x.rate, ofBool (s.link.train x).degraded])) := by
  change execTikelTraining passed s = _
  rw [execTikelTraining, ht, hx]
  rfl

theorem exec_tikelTraining_spec {passed : List LinkSetting} (ht : s.training = true) (hp : ∃ y ∈ passed, settingOk y = true) :
    ∃ t x, exec (.tikelTraining passed) s = .next t ∧ t.link.trained = some x ∧ x ∈ passed ∧ settingOk x = true ∧
      (∀ y ∈ passed, settingOk y = true → y.lanes < x.lanes ∨ (y.lanes = x.lanes ∧ y.rate ≤ x.rate)) ∧
      (t.link.degraded = true ↔ ¬ (x.lanes = 4 ∧ x.rate = 100)) ∧ t.phase = max s.phase 2 ∧
      s.link.sent ++ s.link.unacked <+: t.link.sent ∧
      t.out = s.out ++ [.bringup 2 0 0 [x.order, x.polarity, x.lanes, x.rate, if t.link.degraded then 1 else 0]] := by
  obtain ⟨y, hy, hok⟩ := hp
  obtain ⟨x, hx, hmem, hbest⟩ := bestSetting_spec (List.ne_nil_of_mem (List.mem_filter.2 ⟨hy, hok⟩))
  obtain ⟨hin, hxok⟩ := List.mem_filter.1 hmem
  refine ⟨_, x, exec_tikelTraining ht hx, ?_, hin, hxok, fun y hy hok => hbest y (List.mem_filter.2 ⟨hy, hok⟩), ?_, rfl, ?_, ?_⟩
  · exact (Link.post_trained ..).trans (Link.train_trained ..)
  · rw [State.send, Link.post_degraded, Link.train_degraded]
    simp only [Bool.or_eq_true, bne_iff_ne, ne_eq]
    omega
  · exact (Link.sent_prefix_train _ x).trans (Link.sent_prefix_post ..)
  · rw [State.send_out, State.send, Link.post_degraded]
    rfl

/-! ## Firmware, configuration and identity (R13–R15) -/

/-- Whether the boot ROM of a die accepts an image (R13). -/
def State.boots (s : State) (f : FwImage) (d : Nat) : Prop :=
  sha256 f.key = s.roms.getD d [] ∧ ecdsaVerify f.key f.sig (sha256 (imageBytes f)) = true ∧ s.flash.minRecord ≤ f.version

/-- Whether the firmware accepts the configuration (R14). -/
def State.configOk (s : State) (f : FwImage) : Prop :=
  ecdsaVerify f.key s.flash.sig (sha256 s.flash.config.bytes) = true ∧ s.flash.config.minVersion = s.flash.minRecord

/-- Whether the key that a die derives is the certified one (R15). -/
def State.known (s : State) (d : Nat) : Prop :=
  ∃ k, Config.pufSecret d s.flash.config.helper = some k ∧ s.flash.config.cert.keys[d]? = some (publicKey k)

theorem bootCheck_eq_zero {rom : List Byte} {n : Nat} {f : FwImage} : bootCheck rom n f = 0 ↔
    sha256 f.key = rom ∧ ecdsaVerify f.key f.sig (sha256 (imageBytes f)) = true ∧ n ≤ f.version := by
  unfold bootCheck
  split
  next h => exact iff_of_false (by decide) fun ⟨hk, _⟩ => (bne_iff_ne.1 h) hk
  next h =>
    have hk : sha256 f.key = rom := by simpa using h
    split
    next h => exact iff_of_false (by decide) fun ⟨_, hs, _⟩ => by simp [hs] at h
    next h =>
      have hs : ecdsaVerify f.key f.sig (sha256 (imageBytes f)) = true := by simpa using h
      split
      next h => exact iff_of_false (by decide) fun ⟨_, _, hv⟩ => absurd h (Nat.not_lt.2 hv)
      next h => exact iff_of_true rfl ⟨hk, hs, Nat.not_lt.1 h⟩

theorem configCheck_eq_zero {c : Flash} {n : Nat} {f : FwImage} : configCheck c n f = 0 ↔
    ecdsaVerify f.key c.sig (sha256 c.config.bytes) = true ∧ c.config.minVersion = n := by
  unfold configCheck
  split
  next h => exact iff_of_false (by decide) fun ⟨hs, _⟩ => by simp [hs] at h
  next h =>
    have hs : ecdsaVerify f.key c.sig (sha256 c.config.bytes) = true := by simpa using h
    split
    next h => exact iff_of_false (by decide) fun ⟨_, hv⟩ => (bne_iff_ne.1 h) hv
    next h => exact iff_of_true rfl ⟨hs, by simpa using h⟩

theorem identityCheck_eq_zero {d : Nat} : identityCheck s.flash.config d = 0 ↔ s.known d := by
  unfold identityCheck State.known identityKey
  split
  next k q hk hq =>
    split
    next h => exact iff_of_true rfl ⟨k, hk, hq.trans (congrArg some (beq_iff_eq.1 h).symm)⟩
    next h =>
      refine iff_of_false (by decide) fun ⟨k', hk', hq'⟩ => h (beq_iff_eq.2 ?_)
      obtain rfl := Option.some.inj (hk.symm.trans hk')
      exact Option.some.inj (hq'.symm.trans hq)
  next h => exact iff_of_false (by decide) fun ⟨k, hk, hq⟩ => h k _ hk hq

section Report

variable {ph : Nat} {msg : Nat → OutMsg} {why : Nat → Nat}

/-- What neither a message, nor the phase, nor a failure bears on is as it was after a report. -/
theorem State.report_field {α : Type} (p : State → α) (hsend : ∀ t m, p (State.send t m) = p t) (hphase : ∀ t : State, p { t with phase := ph } = p t)
    (hfailed : ∀ t : State, p { t with failed := true } = p t) : p (s.report ph msg why) = p s := by
  have hfold := foldl_field (f := fun s d => State.send s (if why d == 0 then msg d else .bringup ph d (why d) [])) p (fun _ _ => hsend ..) (List.range 8) s
  unfold State.report
  dsimp only
  split
  · exact (hphase _).trans hfold
  · exact (hfailed _).trans hfold

/-- A phase that every die reports without a failure is reached, with the dies' messages last. -/
theorem State.report_good (h : ∀ d < 8, why d = 0) : (s.report ph msg why).phase = ph ∧ (s.report ph msg why).failed = s.failed ∧
    (s.report ph msg why).out = s.out ++ (List.range 8).map msg := by
  have hall : (List.range 8).all (fun d => why d == 0) = true := List.all_eq_true.2 fun d hd => beq_iff_eq.2 (h d (List.mem_range.1 hd))
  have hmsg : (List.range 8).map (fun d => if why d == 0 then msg d else .bringup ph d (why d) []) = (List.range 8).map msg :=
    List.map_congr_left fun d hd => if_pos (beq_iff_eq.2 (h d (List.mem_range.1 hd)))
  rw [State.report, State.foldl_send, if_pos hall, hmsg]
  exact ⟨rfl, rfl, rfl⟩

/-- A die's failure stops bring-up in the phase before. -/
theorem State.report_bad (h : ∃ d < 8, why d ≠ 0) : (s.report ph msg why).phase = s.phase ∧ (s.report ph msg why).failed = true := by
  obtain ⟨d, hd, hw⟩ := h
  have hall : ¬ (List.range 8).all (fun d => why d == 0) = true := fun h => hw (beq_iff_eq.1 (List.all_eq_true.1 h d (List.mem_range.2 hd)))
  rw [State.report, State.foldl_send, if_neg hall]
  exact ⟨rfl, rfl⟩

theorem State.report_die (d : Nat) : (s.report ph msg why).die d = s.die d :=
  State.report_field (·.die d) (fun _ _ => rfl) (fun _ => rfl) (fun _ => rfl)

end Report

theorem State.die_mapDies {f : Nat → Die → Die} {d : Nat} (h : d < s.dies.length) : (s.mapDies f).die d = f d (s.die d) := by
  simp [State.die, State.mapDies, List.getD_eq_getElem?_getD, h]

theorem State.length_mapDies (f : Nat → Die → Die) : (s.mapDies f).dies.length = s.dies.length := by
  simp [State.mapDies]

/-- Why a die's boot ROM refuses an image: phase 3's reason for the die. -/
def State.bootWhy (s : State) (f : FwImage) (d : Nat) : Nat :=
  bootCheck (s.roms.getD d []) ((s.mapDies (fun _ x => { x with minRead := s.flash.minRecord })).die d).minRead f

theorem State.verifyImage_eq (f : FwImage) : s.verifyImage f =
    ((s.mapDies (fun _ x => { x with minRead := s.flash.minRecord })).mapDies (fun d x =>
      { x with fwStatus := if s.bootWhy f d == 0 then 1 else 2, fw := if s.bootWhy f d == 0 then some f else none })).report 3
      (fun d => .bringup 3 d 0 []) (s.bootWhy f) := rfl

theorem State.bootWhy_eq_zero {f : FwImage} {d : Nat} (hd : d < s.dies.length) : s.bootWhy f d = 0 ↔ s.boots f d := by
  rw [State.bootWhy, State.die_mapDies hd]
  exact bootCheck_eq_zero

/-- A die after phase 3. -/
theorem State.die_verifyImage {f : FwImage} {d : Nat} (hd : d < s.dies.length) : (s.verifyImage f).die d =
    { s.die d with minRead := s.flash.minRecord, fwStatus := if s.bootWhy f d == 0 then 1 else 2,
                   fw := if s.bootWhy f d == 0 then some f else none } := by
  rw [State.verifyImage_eq, State.report_die, State.die_mapDies (by rwa [State.length_mapDies]), State.die_mapDies hd]

theorem State.length_verifyImage (f : FwImage) : (s.verifyImage f).dies.length = s.dies.length := by
  rw [State.verifyImage_eq, State.report_field (·.dies) (fun _ _ => rfl) (fun _ => rfl) (fun _ => rfl), State.length_mapDies, State.length_mapDies]

theorem State.flash_verifyImage (f : FwImage) : (s.verifyImage f).flash = s.flash :=
  State.report_field (·.flash) (fun _ _ => rfl) (fun _ => rfl) (fun _ => rfl)

/-- Why phase 4 fails on a die. -/
def State.configWhy (s : State) (f : FwImage) (d : Nat) : Nat := configCheck s.flash (s.die d).minRead f

theorem State.configure_eq (f : FwImage) : s.configure f = (s.mapDies (fun d x =>
    { x with cfgStatus := if s.configWhy f d == 0 then 1 else 2,
             applied := if s.configWhy f d == 0 then some s.flash.config else none })).report 4
      (fun d => .bringup 4 d 0 []) (s.configWhy f) := rfl

/-- A die after phase 4. -/
theorem State.die_configure {f : FwImage} {d : Nat} (hd : d < s.dies.length) : (s.configure f).die d =
    { s.die d with cfgStatus := if s.configWhy f d == 0 then 1 else 2,
                   applied := if s.configWhy f d == 0 then some s.flash.config else none } := by
  rw [State.configure_eq, State.report_die, State.die_mapDies hd]

theorem State.length_configure (f : FwImage) : (s.configure f).dies.length = s.dies.length := by
  rw [State.configure_eq, State.report_field (·.dies) (fun _ _ => rfl) (fun _ => rfl) (fun _ => rfl), State.length_mapDies]

theorem State.flash_configure (f : FwImage) : (s.configure f).flash = s.flash :=
  State.report_field (·.flash) (fun _ _ => rfl) (fun _ => rfl) (fun _ => rfl)

theorem State.identify_eq : s.identify = (s.mapDies (fun d x =>
    { x with idStatus := if identityCheck s.flash.config d == 0 then 1 else 2, secret := identityKey s.flash.config d })).report 5
      (fun d => .identity d (publicKey ((identityKey s.flash.config d).getD 0)) s.flash.config.cert) (identityCheck s.flash.config) := rfl

/-- A die after phase 5. -/
theorem State.die_identify {d : Nat} (hd : d < s.dies.length) : s.identify.die d =
    { s.die d with idStatus := if identityCheck s.flash.config d == 0 then 1 else 2, secret := identityKey s.flash.config d } := by
  rw [State.identify_eq, State.report_die, State.die_mapDies hd]

/-! ### The three phases -/

section Phases

variable {f : FwImage}

theorem State.verifyImage_good (h8 : s.dies.length = 8) (hf : s.failed = false) (h : ∀ d < 8, s.boots f d) :
    (s.verifyImage f).phase = 3 ∧ (s.verifyImage f).failed = false := by
  obtain ⟨hp, hfail, _⟩ := State.report_good (s := (s.mapDies _).mapDies _) (ph := 3) (msg := fun d => .bringup 3 d 0 []) (why := s.bootWhy f)
    fun d hd => (State.bootWhy_eq_zero (h8 ▸ hd)).2 (h d hd)
  exact ⟨hp, hfail.trans hf⟩

theorem State.verifyImage_bad (h8 : s.dies.length = 8) (h : ∃ d < 8, ¬ s.boots f d) :
    (s.verifyImage f).phase = s.phase ∧ (s.verifyImage f).failed = true := by
  obtain ⟨d, hd, hb⟩ := h
  exact State.report_bad (s := (s.mapDies _).mapDies _) ⟨d, hd, fun hw => hb ((State.bootWhy_eq_zero (h8 ▸ hd)).1 hw)⟩

/-- The dies have read the record of the minimum version. -/
def State.minReads (s : State) : Prop := ∀ d < 8, (s.die d).minRead = s.flash.minRecord

theorem State.minReads_verifyImage (h8 : s.dies.length = 8) : (s.verifyImage f).minReads := fun d hd => by
  rw [State.die_verifyImage (h8 ▸ hd), State.flash_verifyImage]

theorem State.configWhy_eq_zero (hr : s.minReads) {d : Nat} (hd : d < 8) : s.configWhy f d = 0 ↔ s.configOk f := by
  rw [State.configWhy, hr d hd]
  exact configCheck_eq_zero

theorem State.configure_good (hr : s.minReads) (hf : s.failed = false) (h : s.configOk f) :
    (s.configure f).phase = 4 ∧ (s.configure f).failed = false := by
  obtain ⟨hp, hfail, _⟩ := State.report_good (s := s.mapDies _) (ph := 4) (msg := fun d => .bringup 4 d 0 []) (why := s.configWhy f)
    fun d hd => (State.configWhy_eq_zero hr hd).2 h
  exact ⟨hp, hfail.trans hf⟩

theorem State.configure_bad (hr : s.minReads) (h : ¬ s.configOk f) : (s.configure f).phase = s.phase ∧ (s.configure f).failed = true :=
  State.report_bad (s := s.mapDies _) ⟨0, by decide, fun hw => h ((State.configWhy_eq_zero hr (by decide)).1 hw)⟩

theorem State.identify_good (hf : s.failed = false) (h : ∀ d < 8, s.known d) : s.identify.phase = 5 ∧ s.identify.failed = false ∧
    s.identify.out = s.out ++ (List.range 8).map (fun d =>
      .identity d (publicKey ((identityKey s.flash.config d).getD 0)) s.flash.config.cert) := by
  obtain ⟨hp, hfail, hout⟩ := State.report_good (s := s.mapDies _) (ph := 5)
    (msg := fun d => .identity d (publicKey ((identityKey s.flash.config d).getD 0)) s.flash.config.cert)
    (why := identityCheck s.flash.config) fun d hd => identityCheck_eq_zero.2 (h d hd)
  exact ⟨hp, hfail.trans hf, hout⟩

theorem State.identify_bad (h : ∃ d < 8, ¬ s.known d) : s.identify.phase = s.phase ∧ s.identify.failed = true := by
  obtain ⟨d, hd, hk⟩ := h
  exact State.report_bad (s := s.mapDies _) ⟨d, hd, fun hw => hk (identityCheck_eq_zero.1 hw)⟩

theorem State.verify_of_imageFails (h : (s.verifyImage f).failed = true) : s.verify f = s.verifyImage f := if_pos h

theorem State.verify_of_configFails (h : (s.verifyImage f).failed = false) (hc : ((s.verifyImage f).configure f).failed = true) :
    s.verify f = (s.verifyImage f).configure f := by
  rw [State.verify, if_neg (by simp [h]), if_pos hc]

theorem State.verify_of_configured (h : (s.verifyImage f).failed = false) (hc : ((s.verifyImage f).configure f).failed = false) :
    s.verify f = ((s.verifyImage f).configure f).identify := by
  rw [State.verify, if_neg (by simp [h]), if_neg (by simp [hc])]

/-- What phase 3 found of a die's image stands after the phases. -/
theorem State.fw_verify (h8 : s.dies.length = 8) {d : Nat} (hd : d < 8) :
    ((s.verify f).die d).fw = (if s.bootWhy f d == 0 then some f else none) ∧
      ((s.verify f).die d).fwStatus = if s.bootWhy f d == 0 then 1 else 2 := by
  have hV : d < (s.verifyImage f).dies.length := by rwa [State.length_verifyImage, h8]
  have hC : d < ((s.verifyImage f).configure f).dies.length := by rwa [State.length_configure]
  have hs : d < s.dies.length := h8 ▸ hd
  unfold State.verify
  dsimp only
  split
  · rw [State.die_verifyImage hs]
    exact ⟨rfl, rfl⟩
  · split
    · rw [State.die_configure hV, State.die_verifyImage hs]
      exact ⟨rfl, rfl⟩
    · rw [State.die_identify hC, State.die_configure hV, State.die_verifyImage hs]
      exact ⟨rfl, rfl⟩

/-- What an image's FIRMWARE message leaves the module in: the phase reached, and what each die has found (R13–R15). -/
def State.Verified (s : State) (f : FwImage) (t : State) : Prop :=
  (t.failed = false ↔ (∀ d < 8, s.boots f d) ∧ s.configOk f ∧ ∀ d < 8, s.known d) ∧
  (∀ d < 8, (s.boots f d → (t.die d).fw = some f ∧ (t.die d).fwStatus = 1) ∧ (¬ s.boots f d → (t.die d).fw = none ∧ (t.die d).fwStatus = 2)) ∧
  ((∃ d < 8, ¬ s.boots f d) → t.phase = 2) ∧
  ((∀ d < 8, s.boots f d) → (¬ s.configOk f → t.phase = 3 ∧ ∀ d < 8, (t.die d).applied = none ∧ (t.die d).cfgStatus = 2) ∧
    (s.configOk f → (∀ d < 8, (t.die d).applied = some s.flash.config ∧ (t.die d).cfgStatus = 1 ∧
        (t.die d).secret = Config.pufSecret d s.flash.config.helper ∧ ((t.die d).idStatus = 1 ↔ s.known d)) ∧
      ((∃ d < 8, ¬ s.known d) → t.phase = 4) ∧
      ((∀ d < 8, s.known d) → t.phase = 5 ∧
        ∃ pre, t.out = pre ++ (List.range 8).map (fun d => .identity d (publicKey (((t.die d).secret).getD 0)) s.flash.config.cert))))

theorem State.fw_verify_iff (h8 : s.dies.length = 8) {d : Nat} (hd : d < 8) :
    (s.boots f d → ((s.verify f).die d).fw = some f ∧ ((s.verify f).die d).fwStatus = 1) ∧
      (¬ s.boots f d → ((s.verify f).die d).fw = none ∧ ((s.verify f).die d).fwStatus = 2) := by
  obtain ⟨hfw, hst⟩ := State.fw_verify (f := f) h8 hd
  have hwhy := State.bootWhy_eq_zero (f := f) (h8 ▸ hd : d < s.dies.length)
  rw [hfw, hst]
  exact ⟨fun hb => by simp [hwhy.2 hb], fun hb => by simp [mt hwhy.1 hb]⟩

/-- A die of which phase 4 has found the configuration good, or not. -/
theorem State.die_configure_verifyImage (h8 : s.dies.length = 8) {d : Nat} (hd : d < 8) :
    (s.configOk f → (((s.verifyImage f).configure f).die d).applied = some s.flash.config ∧
      (((s.verifyImage f).configure f).die d).cfgStatus = 1) ∧
    (¬ s.configOk f → (((s.verifyImage f).configure f).die d).applied = none ∧ (((s.verifyImage f).configure f).die d).cfgStatus = 2) := by
  have hwhy := State.configWhy_eq_zero (f := f) (State.minReads_verifyImage (f := f) h8) hd
  rw [State.configOk, State.flash_verifyImage, ← State.configOk] at hwhy
  rw [State.die_configure (by rwa [State.length_verifyImage, h8]), State.flash_verifyImage]
  exact ⟨fun hc => by simp [hwhy.2 hc], fun hc => by simp [mt hwhy.1 hc]⟩

theorem State.configOk_verifyImage : (s.verifyImage f).configOk f ↔ s.configOk f := by
  rw [State.configOk, State.flash_verifyImage]
  rfl

theorem State.flash_configured : ((s.verifyImage f).configure f).flash = s.flash := (State.flash_configure f).trans (State.flash_verifyImage f)

theorem State.known_configured (d : Nat) : ((s.verifyImage f).configure f).known d ↔ s.known d := by
  rw [State.known, State.flash_configured]
  rfl

/-- An image that a boot ROM refuses stops bring-up in phase 3. -/
theorem State.verify_bootsFail (h8 : s.dies.length = 8) (h : ∃ d < 8, ¬ s.boots f d) :
    (s.verify f).phase = s.phase ∧ (s.verify f).failed = true := by
  have hV := State.verifyImage_bad h8 h
  rwa [State.verify_of_imageFails hV.2]

/-- A configuration that the firmware refuses stops bring-up in phase 4. -/
theorem State.verify_configFails (h8 : s.dies.length = 8) (hf : s.failed = false) (hb : ∀ d < 8, s.boots f d) (hc : ¬ s.configOk f) :
    s.verify f = (s.verifyImage f).configure f ∧ (s.verify f).phase = 3 ∧ (s.verify f).failed = true := by
  obtain ⟨hp, hV⟩ := State.verifyImage_good h8 hf hb
  obtain ⟨hpC, hC⟩ := State.configure_bad (State.minReads_verifyImage h8) (mt State.configOk_verifyImage.1 hc)
  have he := State.verify_of_configFails hV hC
  rw [he]
  exact ⟨rfl, hpC.trans hp, hC⟩

/-- Firmware and configuration accepted, phase 5 follows. -/
theorem State.verify_configured (h8 : s.dies.length = 8) (hf : s.failed = false) (hb : ∀ d < 8, s.boots f d) (hc : s.configOk f) :
    s.verify f = ((s.verifyImage f).configure f).identify ∧ ((s.verifyImage f).configure f).phase = 4 ∧
      ((s.verifyImage f).configure f).failed = false := by
  obtain ⟨_, hV⟩ := State.verifyImage_good h8 hf hb
  obtain ⟨hpC, hC⟩ := State.configure_good (State.minReads_verifyImage h8) hV (State.configOk_verifyImage.2 hc)
  exact ⟨State.verify_of_configured hV hC, hpC, hC⟩

theorem State.verify_knownFails (h8 : s.dies.length = 8) (hf : s.failed = false) (hb : ∀ d < 8, s.boots f d) (hc : s.configOk f)
    (hk : ∃ d < 8, ¬ s.known d) : (s.verify f).phase = 4 ∧ (s.verify f).failed = true := by
  obtain ⟨he, hp, _⟩ := State.verify_configured h8 hf hb hc
  obtain ⟨hpI, hI⟩ := State.identify_bad (s := (s.verifyImage f).configure f) (hk.imp fun d h => ⟨h.1, mt (State.known_configured d).1 h.2⟩)
  rw [he]
  exact ⟨hpI.trans hp, hI⟩

theorem State.verify_known (h8 : s.dies.length = 8) (hf : s.failed = false) (hb : ∀ d < 8, s.boots f d) (hc : s.configOk f)
    (hk : ∀ d < 8, s.known d) : (s.verify f).phase = 5 ∧ (s.verify f).failed = false ∧
      ∃ pre, (s.verify f).out = pre ++ (List.range 8).map (fun d =>
        .identity d (publicKey ((identityKey s.flash.config d).getD 0)) s.flash.config.cert) := by
  obtain ⟨he, _, hC⟩ := State.verify_configured h8 hf hb hc
  obtain ⟨hpI, hI, hout⟩ := State.identify_good hC fun d hd => (State.known_configured d).2 (hk d hd)
  rw [State.flash_configured] at hout
  rw [he]
  exact ⟨hpI, hI, _, hout⟩

/-- Bring-up goes on exactly when every die has accepted the image, the configuration and its own key. -/
theorem State.failed_verify (h8 : s.dies.length = 8) (hf : s.failed = false) :
    (s.verify f).failed = false ↔ (∀ d < 8, s.boots f d) ∧ s.configOk f ∧ ∀ d < 8, s.known d := by
  refine ⟨fun h => ?_, fun ⟨hb, hc, hk⟩ => (State.verify_known h8 hf hb hc hk).2.1⟩
  have hno : (s.verify f).failed ≠ true := by simp [h]
  have hb : ∀ d < 8, s.boots f d := by
    by_contra hb
    exact hno (State.verify_bootsFail h8 (by simpa using hb)).2
  have hc : s.configOk f := by
    by_contra hc
    exact hno (State.verify_configFails h8 hf hb hc).2.2
  refine ⟨hb, hc, ?_⟩
  by_contra hk
  exact hno (State.verify_knownFails h8 hf hb hc (by simpa using hk)).2

/-- A die of a module whose configuration was accepted. -/
theorem State.die_verify_configured (h8 : s.dies.length = 8) (hf : s.failed = false) (hb : ∀ d < 8, s.boots f d) (hc : s.configOk f) {d : Nat}
    (hd : d < 8) : ((s.verify f).die d).applied = some s.flash.config ∧ ((s.verify f).die d).cfgStatus = 1 ∧
      ((s.verify f).die d).secret = Config.pufSecret d s.flash.config.helper ∧ (((s.verify f).die d).idStatus = 1 ↔ s.known d) := by
  have hin : d < ((s.verifyImage f).configure f).dies.length := by rwa [State.length_configure, State.length_verifyImage, h8]
  obtain ⟨happ, hst⟩ := (State.die_configure_verifyImage h8 hd).1 hc
  rw [(State.verify_configured h8 hf hb hc).1, State.die_identify hin, State.flash_configured]
  refine ⟨happ, hst, rfl, ?_⟩
  rw [← identityCheck_eq_zero]
  dsimp only
  split
  next h => exact iff_of_true rfl (beq_iff_eq.1 h)
  next h => exact iff_of_false (by decide) fun e => h (beq_iff_eq.2 e)

theorem State.verify_spec (h8 : s.dies.length = 8) (hf : s.failed = false) (hp : s.phase = 2) : s.Verified f (s.verify f) := by
  refine ⟨State.failed_verify h8 hf, fun d hd => State.fw_verify_iff h8 hd, fun h => (State.verify_bootsFail h8 h).1.trans hp,
    fun hb => ⟨fun hc => ?_, fun hc => ⟨fun d hd => State.die_verify_configured h8 hf hb hc hd,
      fun hk => (State.verify_knownFails h8 hf hb hc hk).1, fun hk => ?_⟩⟩⟩
  · obtain ⟨he, hph, _⟩ := State.verify_configFails h8 hf hb hc
    refine ⟨hph, fun d hd => ?_⟩
    rw [he]
    exact (State.die_configure_verifyImage h8 hd).2 hc
  · obtain ⟨hph, _, pre, hout⟩ := State.verify_known h8 hf hb hc hk
    refine ⟨hph, pre, hout.trans (congrArg (pre ++ ·) (List.map_congr_left fun d hd => ?_))⟩
    rw [(State.die_verify_configured h8 hf hb hc (List.mem_range.1 hd)).2.2.1]
    rfl

end Phases

theorem State.failed_of_linkUp (h : s.linkUp = true) : s.failed = false := by
  simp only [State.linkUp, Bool.and_eq_true, Bool.not_eq_true'] at h
  exact h.2

theorem exec_firmware (m : MsgId) (f : FwImage) (hl : s.linkUp = true) (hp : s.phase = 2) : exec (.firmware m f) s =
    .next (((s.received (((imageBytes f).length + f.sig.length + 255) / 256)).reply m 0).verify f) := by
  have hexec : exec (.firmware m f) s = execFirmware m f s := rfl
  have hphase (n : Nat) : (s.received n).phase = 2 := hp
  rw [hexec, execFirmware, hl]
  simp only [hphase, Bool.not_true, Bool.false_eq_true, if_false, beq_self_eq_true, if_true]

theorem exec_firmware_spec (m : MsgId) (f : FwImage) (hl : s.linkUp = true) (hp : s.phase = 2) (h8 : s.dies.length = 8) :
    ∃ t, exec (.firmware m f) s = .next t ∧ s.Verified f t :=
  have hfail : s.failed = false := State.failed_of_linkUp hl
  have hspec (n : Nat) : ((s.received n).reply m 0).Verified f (((s.received n).reply m 0).verify f) := State.verify_spec h8 hfail hp
  ⟨_, exec_firmware m f hl hp, hspec _⟩

/-! ## Attestation (R16) -/

theorem exec_attestReq (m : MsgId) {n : List Byte} (hl : s.linkUp = true) (hn : n.length = 32) (ha : s.attest.length < 4) :
    exec (.attestReq m n) s = .next { s.received 1 with attest := s.attest ++ [(m, n)] } := by
  change execAttestReq m n s = _
  have hheld : (s.received 1).attest = s.attest := rfl
  simp only [execAttestReq, hl, hn, hheld, Nat.not_le.2 ha, bne_self_eq_false, Bool.not_true, Bool.or_self, decide_false,
    Bool.false_eq_true, if_false]

theorem exec_attestReport {m : MsgId} {n : List Byte} {rest : List (MsgId × List Byte)} {f : FwImage} (hl : s.linkUp = true) (hp : 5 ≤ s.phase)
    (ha : s.attest = (m, n) :: rest) (hf : (s.die 0).fw = some f) : exec .attestReport s =
      .next ({ s with attest := rest, draws := s.draws + 1 }.send (.attest m (s.reportBody n f) (s.signReport (s.reportBody n f)))) := by
  change execAttestReport s = _
  rw [execAttestReport, if_neg (by simp [hl, Nat.not_lt.2 hp]), ha, hf]

/-! ## Devtime (R17) -/

theorem maxOf_le {xs : List Nat} {n : Nat} : maxOf xs ≤ n ↔ ∀ x ∈ xs, x ≤ n := by
  have hfold (xs : List Nat) : ∀ a, xs.foldl Nat.max a ≤ n ↔ a ≤ n ∧ ∀ x ∈ xs, x ≤ n := by
    induction xs with
    | nil => simp
    | cons x xs ih =>
      intro a
      rw [List.foldl_cons, ih, List.forall_mem_cons, ← and_assoc]
      exact and_congr_left' Nat.max_le
  exact (hfold xs 0).trans (and_iff_right n.zero_le)

/-- The offsets are within a distance when any two of them are. -/
theorem spread_le {offs : List Int} {n : Nat} : spread offs ≤ n ↔ ∀ a ∈ offs, ∀ b ∈ offs, (a - b).natAbs ≤ n := by
  simp only [spread, maxOf_le, List.mem_flatMap, List.mem_map]
  exact ⟨fun h a ha b hb => h _ ⟨a, ha, b, hb, rfl⟩, fun h _ ⟨a, ha, b, hb, e⟩ => e ▸ h a ha b hb⟩

theorem findIdx_isSome {α : Type} {p : α → Bool} {xs : List α} {x : α} (hx : x ∈ xs) (hp : p x = true) : (findIdx p xs).isSome = true := by
  obtain ⟨i, hi, rfl⟩ := List.mem_iff_getElem.1 hx
  refine List.find?_isSome.2 ⟨(i, xs[i]), List.mem_iff_getElem.2 ⟨i, by simpa using hi, by simp⟩, hp⟩

section DevtimeStart

variable {offs : List Int} (hp : s.phase = 5) (hf : s.failed = false) (hl : s.linkUp = true) (hlen : offs.length = 8)
  (hhead : offs.head? = some 0)

include hp hf hl hlen hhead

theorem exec_devtimeStart_close (h : ∀ a ∈ offs, ∀ b ∈ offs, (a - b).natAbs ≤ 4) : exec (.devtimeStart offs) s =
    .next ({ s with devRunning := true, devtime := 0, psRem := 0, phase := 6, dies := (s.dies.zip offs).map (fun (p : Die × Int) =>
      { p.1 with devOffset := p.2, lastCheck := 0, slew := none }) }.send (.bringup 6 0 0 [])) := by
  change execDevtimeStart offs s = _
  rw [execDevtimeStart, if_neg (by simp [hp, hf, hl, hlen, hhead]), if_pos (spread_le.2 h)]

/-- A die beyond 64 ns of CD0 stops bring-up in phase 6. -/
theorem exec_devtimeStart_far (h : ∃ a ∈ offs, 64 < a.natAbs) : ∃ t, exec (.devtimeStart offs) s = .next t ∧ t.failed = true ∧ t.phase = 5 := by
  obtain ⟨a, ha, hfar⟩ := h
  have hzero : (0 : Int) ∈ offs := List.mem_of_mem_head? hhead
  have hspread : ¬ spread offs ≤ 4 := fun h => by
    have := spread_le.1 h a ha 0 hzero
    omega
  obtain ⟨q, hq⟩ := Option.isSome_iff_exists.1 (findIdx_isSome (p := fun x : Int => x.natAbs > 64) ha (by simpa using hfar))
  change ∃ t, execDevtimeStart offs s = _ ∧ _
  rw [execDevtimeStart, if_neg (by simp [hp, hf, hl, hlen, hhead]), if_neg hspread, hq]
  exact ⟨_, rfl, rfl, hp⟩

end DevtimeStart

/-- The dies take the offsets in order. -/
theorem devOffsets_zip (dies : List Die) (offs : List Int) : ((dies.zip offs).map (fun (p : Die × Int) =>
    { p.1 with devOffset := p.2, lastCheck := 0, slew := none })).map Die.devOffset = offs.take dies.length := by
  rw [List.map_map]
  induction dies generalizing offs with
  | nil => rfl
  | cons d dies ih =>
    cases offs with
    | nil => rfl
    | cons a offs => exact congrArg (a :: ·) (ih offs)

theorem exec_devtimeCheck {die : Nat} {off : Int} (hr : s.devRunning = true) (h1 : 1 ≤ die) (h8 : die < 8) (ho : off = (s.die die).devOffset)
    (ht : (s.die die).lastCheck + 1000000 ≤ s.devtimeOf die) : exec (.devtimeCheck die off) s =
      .next (if off.natAbs > 64 then (s.modDie die (·.checkDevtime (s.devtimeOf die))).moduleError die 17 [off.natAbs]
        else s.modDie die (·.checkDevtime (s.devtimeOf die))) := by
  change execDevtimeCheck die off s = _
  rw [execDevtimeCheck, if_neg (by simp [hr, ← ho, Nat.not_le.2 h8, Nat.not_lt.2 ht, Nat.ne_of_gt h1])]

theorem Die.checkDevtime_near {d : Die} (now : Nat) (h : d.devOffset.natAbs ≤ 4) : d.checkDevtime now = { d with lastCheck := now } := by
  rw [Die.checkDevtime, if_neg (Nat.not_lt.2 h)]

theorem Die.checkDevtime_off {d : Die} (now : Nat) (h : 4 < d.devOffset.natAbs) :
    d.checkDevtime now = { d with lastCheck := now, slew := some (d.slew.getD 0) } := by
  rw [Die.checkDevtime, if_pos h]

theorem exec_devtimeCheck_spec {die : Nat} {off : Int} (hr : s.devRunning = true) (h1 : 1 ≤ die) (h8 : die < 8) (ho : off = (s.die die).devOffset)
    (ht : (s.die die).lastCheck + 1000000 ≤ s.devtimeOf die) :
    (off.natAbs ≤ 4 → exec (.devtimeCheck die off) s = .next (s.modDie die (fun d => { d with lastCheck := s.devtimeOf die }))) ∧
    (4 < off.natAbs → off.natAbs ≤ 64 → exec (.devtimeCheck die off) s =
      .next (s.modDie die (fun d => { d with lastCheck := s.devtimeOf die, slew := some (d.slew.getD 0) }))) ∧
    (64 < off.natAbs → ∃ t r, exec (.devtimeCheck die off) s = .next t ∧ t.out = s.out ++ [.bringup 9 die r [off.natAbs]]) := by
  have hexec := exec_devtimeCheck hr h1 h8 ho ht
  refine ⟨fun h => ?_, fun h h64 => ?_, fun h => ⟨_, 17, hexec.trans (congrArg _ (if_pos h)), rfl⟩⟩
  · have hsame : s.modDie die (·.checkDevtime (s.devtimeOf die)) = s.modDie die (fun d => { d with lastCheck := s.devtimeOf die }) :=
      State.modDie_congr (Die.checkDevtime_near _ (ho ▸ h))
    rw [hexec, if_neg (by omega), hsame]
  · have hsame : s.modDie die (·.checkDevtime (s.devtimeOf die)) =
        s.modDie die (fun d => { d with lastCheck := s.devtimeOf die, slew := some (d.slew.getD 0) }) :=
      State.modDie_congr (Die.checkDevtime_off _ (ho ▸ h))
    rw [hexec, if_neg (Nat.not_lt.2 h64), hsame]

/-- A die that is slewed comes nearer to CD0's devtime, never runs backward, and is moved by at most 1 ns in 1,000. -/
theorem Die.pass_slewed (d : Die) (ps ns : Nat) {r : Nat} (h : d.slew = some r) :
    (d.pass ps ns true 0).devOffset.natAbs ≤ d.devOffset.natAbs ∧ d.devOffset - (ns : Int) ≤ (d.pass ps ns true 0).devOffset ∧
      ((d.pass ps ns true 0).devOffset - d.devOffset).natAbs ≤ (r + ns) / 1000 := by
  have hoff : (d.pass ps ns true 0).devOffset = max (d.devOffset + 0 - (if d.devOffset > 0 then min (((r + ns) / 1000 : Nat) : Int) d.devOffset
      else max (-(((r + ns) / 1000 : Nat) : Int)) d.devOffset)) (d.devOffset - ns) := by
    simp only [Die.pass, h, Option.getD_some, Option.isNone_some, Bool.not_true, Bool.false_eq_true, if_false]
  rw [hoff]
  generalize (r + ns) / 1000 = k
  split <;> omega

/-! ## Memory and fabric, and heat (R8, R21) -/

theorem exec_memoryAndFabric_ready (hp : s.phase = 6) (hf : s.failed = false) (hl : s.linkUp = true) (ht : s.trainFault = none) :
    exec .memoryAndFabric s = .next (({ s with phase := 8 }.send (.bringup 7 0 0 [])).send (.bringup 8 0 0 [])) := by
  change execMemoryAndFabric s = _
  rw [execMemoryAndFabric, if_neg (by simp [hp, hf, hl]), ht]

theorem exec_memoryAndFabric_fault {d r : Nat} (hp : s.phase = 6) (hf : s.failed = false) (hl : s.linkUp = true) (ht : s.trainFault = some (d, r)) :
    exec .memoryAndFabric s = .next ({ s with failed := true }.send (.bringup 7 d r [])) := by
  change execMemoryAndFabric s = _
  rw [execMemoryAndFabric, if_neg (by simp [hp, hf, hl]), ht]

theorem exec_thermalLimit {die : Nat} (hr : s.rails = true) (hh : s.resetHeld = false) (hd : die < 8) (hc : 100 < (s.die die).clock) :
    exec (.thermalLimit die) s =
      .next ((s.modDie die (fun d => { d with clock := d.clock - 100 })).moduleError die 21 [(s.die die).clock - 100]) := by
  change execThermalLimit die s = _
  rw [execThermalLimit, if_neg (by simp [hr, hh, hd, hc])]

theorem exec_overtempShutdown {die : Nat} (hr : s.rails = true) (hh : s.resetHeld = false) (hd : die < 8) (hs : (s.die die).shutdown = false) :
    exec (.overtempShutdown die) s = .next ((s.modDie die (fun d => { d with shutdown := true })).moduleError die 22 []) := by
  change execOvertempShutdown die s = _
  rw [execOvertempShutdown, if_neg (by simp [hr, hh, hd, hs])]

/-- Settles O50: each event by the branch that its conditions pick, training by the best of a list, firmware phase by phase, and devtime by
the arithmetic of a slewed offset. -/
theorem bringUp : Obligations.BringUp :=
  ⟨fun s hb hr => (exec_powerRailEnable hr).trans (by rw [hb]; rfl), fun s hb hr => (exec_powerRailEnable hr).trans (by rw [hb]; rfl),
    fun s h => ⟨_, exec_moduleReset_assert h, rfl, rfl, rfl, rfl, rfl, rfl, rfl, rfl, rfl, fun _ hp => State.part_cleared hp⟩,
    fun _ h hr => exec_moduleReset_release h hr, fun _ h => ⟨_, exec_powerDown h, rfl, rfl, rfl, rfl, fun _ hd => State.secret_cleared hd⟩,
    fun _ _ h hr hf ht => exec_tikelTraining_spec (State.training_of h hr hf ht),
    fun s h hr hf ht => if_pos (State.training_of h hr hf ht),
    fun _ m f hl hp h8 => exec_firmware_spec m f hl hp h8,
    fun _ m _ hl hn ha => exec_attestReq m hl hn ha, fun _ _ _ _ _ hl hp ha hf => exec_attestReport hl hp ha hf,
    fun _ _ hp hf hl hlen hhead h => ⟨_, exec_devtimeStart_close hp hf hl hlen hhead h, rfl, rfl, rfl, devOffsets_zip .., rfl⟩,
    fun _ _ hp hf hl hlen hhead h => exec_devtimeStart_far hp hf hl hlen hhead h,
    fun _ _ _ hr h1 h8 ho ht => exec_devtimeCheck_spec hr h1 h8 ho ht, fun d ps ns _ h => Die.pass_slewed d ps ns h,
    fun s hp hf hl ht => ⟨_, exec_memoryAndFabric_ready hp hf hl ht, rfl, List.append_assoc s.out _ _⟩,
    fun _ _ _ hp hf hl ht => ⟨_, exec_memoryAndFabric_fault hp hf hl ht, rfl, hp, rfl⟩,
    fun _ die hr hh hd hin hc => ⟨_, exec_thermalLimit hr hh hd hc, congrArg Die.clock (State.die_modDie die _ hin), by simp [State.modDie]⟩,
    fun _ die hr hh hd hin hs => ⟨_, exec_overtempShutdown hr hh hd hs, congrArg Die.shutdown (State.die_modDie die _ hin), by simp [State.modDie]⟩⟩

end Sys2Proof.Machine
end

section
/-!
PROOF. The decoder and the encoder agree (O56, O57). The laws of Laws/PerInstr.lean read back what the encoder writes; here, each layout writes
back the words that its fields were read from, and so each reading of a format answers only a well-formed instruction that those words encode.
-/

namespace Sys2Proof.Laws

/-! ## The fields of a word, written back (R29–R34, R39, R151, R341, R371) -/

theorem lenField_opField_lt (w0 : W32) : Decode.lenField w0 < 4 ∧ Decode.opField w0 < 128 := by
  simp only [Decode.lenField, Decode.opField]; omega

theorem sWord_sFields (w0 : W32) :
    Encode.sWord (Decode.lenField w0) (Decode.opField w0) (Decode.sFields w0) = w0 := by
  have h := w0.isLt
  apply BitVec.eq_of_toNat_eq
  simp only [Encode.sWord, Decode.sFields, Decode.field, Decode.lenField, Decode.opField, BitVec.toNat_ofNat]
  omega

theorem xWords_xFields (w0 w1 w2 : W32) :
    Encode.xWords (Decode.lenField w0) (Decode.opField w0) (Decode.xFields w0 w1 w2) = [w0, w1, w2] := by
  have h0 := w0.isLt
  have h1 := w1.isLt
  simp only [Encode.xWords, Decode.xFields, Decode.field, Decode.lenField, Decode.opField, List.cons.injEq, and_true]
  constructor <;> apply BitVec.eq_of_toNat_eq <;> simp only [BitVec.toNat_ofNat] <;> omega

theorem litWords_literal (lo hi : W32) : Encode.litWords (Decode.literal lo hi) = [lo, hi] := by
  have h0 := lo.isLt
  have h1 := hi.isLt
  simp only [Encode.litWords, Decode.literal, List.cons.injEq, and_true]
  constructor <;> apply BitVec.eq_of_toNat_eq <;> simp only [BitVec.toNat_ofNat] <;> omega

theorem braWords_braFields {w0 w1 w2 : W32} (hl : Decode.lenField w0 = 1) (ho : Decode.opField w0 = 1) :
    Encode.braWords (Decode.braFields w0 w1 w2) = [w0, w1, w2] := by
  have h0 := w0.isLt
  simp only [Decode.lenField, Decode.opField] at hl ho
  simp only [Encode.braWords, Decode.braFields, Decode.field, List.cons.injEq, and_true]
  apply BitVec.eq_of_toNat_eq
  simp only [BitVec.toNat_ofNat]
  omega

theorem trapWord_trapFields {w0 : W32} (hl : Decode.lenField w0 = 0) (ho : Decode.opField w0 = 0x0A) :
    Encode.trapWord (Decode.trapFields w0) = w0 := by
  have h0 := w0.isLt
  simp only [Decode.lenField, Decode.opField] at hl ho
  apply BitVec.eq_of_toNat_eq
  simp only [Encode.trapWord, Decode.trapFields, Decode.field, BitVec.toNat_ofNat]
  omega

theorem fenceWord_fenceFields {w0 : W32} (hl : Decode.lenField w0 = 0) (ho : Decode.opField w0 = 0x0D) :
    Encode.fenceWord (Decode.fenceFields w0) = w0 := by
  have h0 := w0.isLt
  simp only [Decode.lenField, Decode.opField] at hl ho
  apply BitVec.eq_of_toNat_eq
  simp only [Encode.fenceWord, Decode.fenceFields, Decode.field, BitVec.toNat_ofNat]
  omega

/-- The low bits of a number below lo + n are those below lo and the field of n bits at lo. -/
theorem mod_two_pow_add (x lo n : Nat) : x % 2 ^ (lo + n) = x % 2 ^ lo + 2 ^ lo * (x / 2 ^ lo % 2 ^ n) := by
  rw [pow_add, Nat.mod_mul]

/-- The three words of a 96-bit instruction (R27). -/
theorem words96_eq {n : Nat} {w0 w1 w2 : W32} (h : n = w0.toNat + w1.toNat * 2 ^ 32 + w2.toNat * 2 ^ 64) :
    [BitVec.ofNat 32 n, BitVec.ofNat 32 (n / 2 ^ 32), BitVec.ofNat 32 (n / 2 ^ 64)] = [w0, w1, w2] := by
  have h0 := w0.isLt
  have h1 := w1.isLt
  have h2 := w2.isLt
  simp only [List.cons.injEq, and_true]
  refine ⟨?_, ?_, ?_⟩ <;> apply BitVec.eq_of_toNat_eq <;> simp only [BitVec.toNat_ofNat] <;> omega

theorem pairWords_pairFields {w0 w1 w2 : W32} (hl : Decode.lenField w0 = 1) (ho : Decode.opField w0 = 0x7F) :
    Encode.pairWords (Decode.pairFields w0 w1 w2) = [w0, w1, w2] := by
  apply words96_eq
  have h0 := w0.isLt
  have h1 := w1.isLt
  have h2 := w2.isLt
  simp only [Decode.lenField, Decode.opField] at hl ho
  simp only [Decode.pairFields, Decode.field96, BitVec.toNat_ofNat]
  generalize hN : w0.toNat + w1.toNat * 2 ^ 32 + w2.toNat * 2 ^ 64 = N
  have hhead : N % 2 ^ 9 = 1 + 2 ^ 2 * 0x7F := by omega
  have hlt : N < 2 ^ (9 + 3 + 1 + 1 + 7 + 1 + 9 + 9 + 9 + 1 + 7 + 1 + 9 + 9 + 9 + 11) := by omega
  rw [← hhead]
  refine Eq.trans ?_ (Nat.mod_eq_of_lt hlt)
  simp only [mod_two_pow_add]

/-! ## Readings of words (R43, R44) -/

/-- What a reading of words answers is well-formed, and those words are its encoding. -/
def ReadsBack (ws : List W32) (r : Except Reject Instr) : Prop :=
  ∀ i, r = .ok i → wellFormed i = true ∧ encode i = ws

variable {ws : List W32} {i : Instr}

@[simp] theorem readsBack_ok : ReadsBack ws (.ok i) ↔ wellFormed i = true ∧ encode i = ws :=
  ⟨fun h => h i rfl, fun h j e => by cases e; exact h⟩

@[simp] theorem readsBack_error (e : Reject) : ReadsBack ws (.error e) := fun _ h => nomatch h

@[simp] theorem noFormat_readsBack (op : Nat) : ReadsBack ws (Decode.noFormat op) := readsBack_error _

theorem readsBack_ite {c : Prop} [Decidable c] {a b : Except Reject Instr} (ha : c → ReadsBack ws a)
    (hb : ¬c → ReadsBack ws b) : ReadsBack ws (if c then a else b) := by
  split
  · exact ha ‹c›
  · exact hb ‹¬c›

/-! The reading of each format splits along its conditions: a branch refuses, or answers a row whose checks are the branch's conditions. -/

theorem decodeXControl_readsBack (op : Nat) (w : XWord) : ReadsBack (Encode.xWords 1 op w) (Decode.decodeXControl op w) := by
  unfold Decode.decodeXControl
  repeat' refine readsBack_ite (fun _ => ?_) (fun _ => ?_)
  all_goals simp [wellFormed, encode, BitVec.toNat_eq, *]

theorem decodeXScalar_readsBack (op : Nat) (w : XWord) : ReadsBack (Encode.xWords 1 op w) (Decode.decodeXScalar op w) := by
  unfold Decode.decodeXScalar
  repeat' refine readsBack_ite (fun _ => ?_) (fun _ => ?_)
  all_goals simp [wellFormed, encode, BitVec.toNat_eq, *]

theorem decodeXInt_readsBack (op : Nat) (w : XWord) : ReadsBack (Encode.xWords 1 op w) (Decode.decodeXInt op w) := by
  unfold Decode.decodeXInt
  repeat' refine readsBack_ite (fun _ => ?_) (fun _ => ?_)
  all_goals simp [wellFormed, encode, BitVec.toNat_eq, *]
  all_goals omega

theorem decodeXFloat_readsBack (op : Nat) (w : XWord) : ReadsBack (Encode.xWords 1 op w) (Decode.decodeXFloat op w) := by
  unfold Decode.decodeXFloat
  repeat' refine readsBack_ite (fun _ => ?_) (fun _ => ?_)
  all_goals simp [wellFormed, encode, *]

theorem decodeXMem_readsBack (op : Nat) (w : XWord) : ReadsBack (Encode.xWords 1 op w) (Decode.decodeXMem op w) := by
  unfold Decode.decodeXMem
  repeat' refine readsBack_ite (fun _ => ?_) (fun _ => ?_)
  all_goals simp [wellFormed, encode, BitVec.toNat_eq, *]

theorem decodeXSys_readsBack (op : Nat) (w : XWord) : ReadsBack (Encode.xWords 1 op w) (Decode.decodeXSys op w) := by
  unfold Decode.decodeXSys
  repeat' refine readsBack_ite (fun _ => ?_) (fun _ => ?_)
  all_goals simp [wellFormed, encode, BitVec.toNat_eq, *]
  simp_all [BitVec.toNat_eq]

theorem decodeSl_readsBack (op : Nat) (w : SWord) (lit : W64) :
    ReadsBack (Encode.sWord 2 op w :: Encode.litWords lit) (Decode.decodeSl op w lit) := by
  unfold Decode.decodeSl
  repeat' refine readsBack_ite (fun _ => ?_) (fun _ => ?_)
  all_goals simp [wellFormed, encode, *]

theorem decodeCpy_readsBack (w : XWord) : ReadsBack (Encode.xWords 1 0x74 w) (Decode.decodeCpy w) := by
  unfold Decode.decodeCpy
  repeat' refine readsBack_ite (fun _ => ?_) (fun _ => ?_)
  all_goals simp [wellFormed, encode, BitVec.toNat_eq, *]
  all_goals omega

theorem decodeMma_readsBack (w : XWord) : ReadsBack (Encode.xWords 1 0x75 w) (Decode.decodeMma w) := by
  unfold Decode.decodeMma
  repeat' refine readsBack_ite (fun _ => ?_) (fun _ => ?_)
  all_goals simp [wellFormed, encode, BitVec.toNat_eq, *]

theorem decodeXl_readsBack (op : Nat) (w : XWord) (lit : W64) :
    ReadsBack (Encode.xWords 3 op w ++ Encode.litWords lit) (Decode.decodeXl op w lit) := by
  unfold Decode.decodeXl
  repeat' refine readsBack_ite (fun _ => ?_) (fun _ => ?_)
  all_goals simp [wellFormed, encode, *]

theorem bare_readsBack {i : Instr} (op : Nat) (w : SWord) (hi : wellFormed i = true)
    (he : encode i = [Encode.sWord 0 op ⟨0, 0, 0, 0, 0, 0⟩]) : ReadsBack [Encode.sWord 0 op w] (Decode.bare i w) := by
  unfold Decode.bare
  refine readsBack_ite (fun _ => readsBack_error _) fun hnwb => ?_
  refine readsBack_ite (fun _ => readsBack_error _) fun hops => ?_
  refine readsBack_ite (fun _ => readsBack_error _) fun hguard => ?_
  have hw : w = ⟨0, 0, 0, 0, 0, 0⟩ := by
    cases w
    simp_all
  exact readsBack_ok.2 ⟨hi, hw ▸ he⟩

theorem fence_readsBack (w : FenceWord) :
    ReadsBack [Encode.fenceWord w] (.ok (if w.kind.toNat % 2 = 0 then .fence w else .fenceAlias w)) := by
  split
  · exact readsBack_ok.2 ⟨by simpa [wellFormed], rfl⟩
  · exact readsBack_ok.2 ⟨by simpa [wellFormed] using Nat.mod_two_ne_zero.1 ‹_›, rfl⟩

theorem decodeS_readsBack {op : Nat} {w0 : W32} (hl : Decode.lenField w0 = 0) (ho : Decode.opField w0 = op) :
    ReadsBack [w0] (Decode.decodeS op w0) := by
  have hs : Encode.sWord 0 op (Decode.sFields w0) = w0 := by rw [← hl, ← ho]; exact sWord_sFields w0
  have hword {w : W32} {i : Instr} (hi : wellFormed i = true) (he : encode i = [w]) :
      ReadsBack [w0] (if w0 = w then .ok i else .error .resbit) :=
    readsBack_ite (fun h => readsBack_ok.2 ⟨hi, h ▸ he⟩) fun _ => readsBack_error _
  have hbare {i : Instr} {n : Nat} (hi : wellFormed i = true) (he : encode i = [Encode.sWord 0 n ⟨0, 0, 0, 0, 0, 0⟩])
      (h : op = n) : ReadsBack [w0] (Decode.bare i (Decode.sFields w0)) := by
    simpa only [← h, hs] using bare_readsBack n (Decode.sFields w0) hi he
  unfold Decode.decodeS
  refine readsBack_ite (fun h => ?trap) fun _ => readsBack_ite (fun h => ?fence) fun _ => readsBack_ite (fun _ => hword rfl rfl)
    fun _ => readsBack_ite (hbare rfl rfl) fun _ => readsBack_ite (fun _ => hword rfl rfl)
    fun _ => readsBack_ite (hbare rfl rfl) fun _ => readsBack_ite (hbare rfl rfl) fun _ => ?fields
  case trap => exact readsBack_ok.2 ⟨rfl, congrArg (fun w => [w]) (trapWord_trapFields hl (ho.trans h))⟩
  case fence => simpa only [fenceWord_fenceFields hl (ho.trans h)] using fence_readsBack (Decode.fenceFields w0)
  case fields =>
    rw [← hs, sWord_fields 0 op _ (by decide) (ho ▸ (lenField_opField_lt w0).2)]
    repeat' refine readsBack_ite (fun _ => ?_) (fun _ => ?_)
    all_goals simp [wellFormed, encode, *]

theorem decodeX_readsBack {op : Nat} {w0 w1 w2 : W32} (hl : Decode.lenField w0 = 1) (ho : Decode.opField w0 = op) :
    ReadsBack [w0, w1, w2] (Decode.decodeX op w0 w1 w2) := by
  have hx : Encode.xWords 1 op (Decode.xFields w0 w1 w2) = [w0, w1, w2] := by rw [← hl, ← ho]; exact xWords_xFields w0 w1 w2
  have hbra (h : op = 1) : ReadsBack [w0, w1, w2] (.ok (.bra (Decode.braFields w0 w1 w2))) :=
    readsBack_ok.2 ⟨rfl, braWords_braFields hl (ho.trans h)⟩
  have hpair (h : op = 0x7F) : ReadsBack [w0, w1, w2] (.ok (.pair (Decode.pairFields w0 w1 w2))) :=
    readsBack_ok.2 ⟨rfl, pairWords_pairFields hl (ho.trans h)⟩
  unfold Decode.decodeX
  refine readsBack_ite hbra fun _ => readsBack_ite (fun _ => ?_) fun _ => readsBack_ite (fun _ => ?_)
    fun _ => readsBack_ite (fun _ => ?_) fun _ => readsBack_ite (fun _ => ?_) fun _ => readsBack_ite (fun _ => ?_)
    fun _ => readsBack_ite (fun h => ?_) fun _ => readsBack_ite (fun h => ?_) fun _ => readsBack_ite hpair fun _ => ?_ <;>
    rw [← hx]
  · exact decodeXControl_readsBack _ _
  · exact decodeXScalar_readsBack _ _
  · exact decodeXInt_readsBack _ _
  · exact decodeXFloat_readsBack _ _
  · exact decodeXMem_readsBack _ _
  · exact h ▸ decodeCpy_readsBack _
  · exact h ▸ decodeMma_readsBack _
  · exact decodeXSys_readsBack _ _

theorem decodeSl_readsBack_words {w0 lo hi : W32} (hl : Decode.lenField w0 = 2) :
    ReadsBack [w0, lo, hi] (Decode.decodeSl (Decode.opField w0) (Decode.sFields w0) (Decode.literal lo hi)) := by
  have hw := sWord_sFields w0
  have hr := decodeSl_readsBack (Decode.opField w0) (Decode.sFields w0) (Decode.literal lo hi)
  rw [hl] at hw
  rwa [hw, litWords_literal] at hr

theorem decodeXl_readsBack_words {w0 w1 w2 lo hi : W32} (hl : Decode.lenField w0 = 3) :
    ReadsBack [w0, w1, w2, lo, hi] (Decode.decodeXl (Decode.opField w0) (Decode.xFields w0 w1 w2) (Decode.literal lo hi)) := by
  have hw := xWords_xFields w0 w1 w2
  have hr := decodeXl_readsBack (Decode.opField w0) (Decode.xFields w0 w1 w2) (Decode.literal lo hi)
  rw [hl] at hw
  rwa [hw, litWords_literal] at hr

/-- What the words of an instruction decode to, with the words that follow them as the rest. -/
theorem readsBack_map {r : Except Reject Instr} {rest rest' : List W32} (hr : ReadsBack ws r) (hw : ws ≠ [])
    (h : r.map (fun i => (i, rest)) = .ok (i, rest')) : wellFormed i = true ∧ encode i ≠ [] ∧ ws ++ rest = encode i ++ rest' := by
  cases r with
  | error e => cases h
  | ok j =>
    cases h
    obtain ⟨hj, he⟩ := readsBack_ok.1 hr
    exact ⟨hj, he ▸ hw, by rw [he]⟩

theorem decodeWords_readsBack {rest : List W32} (h : decodeWords ws = .ok (i, rest)) :
    wellFormed i = true ∧ encode i ≠ [] ∧ ws = encode i ++ rest := by
  match ws with
  | [] => cases h
  | w0 :: tl =>
    simp only [decodeWords] at h
    split_ifs at h with h0 h1 h2
    · exact readsBack_map (decodeS_readsBack h0 rfl) (by simp) h
    · match tl with
      | w1 :: w2 :: _ => exact readsBack_map (decodeX_readsBack h1 rfl) (by simp) h
    · match tl with
      | lo :: hi :: _ => exact readsBack_map (decodeSl_readsBack_words h2) (by simp) h
    · match tl with
      | w1 :: w2 :: lo :: hi :: _ =>
        have h3 : Decode.lenField w0 = 3 := by have := (lenField_opField_lt w0).1; omega
        exact readsBack_map (decodeXl_readsBack_words h3) (by simp) h

/-! ## Both directions -/

namespace RoundTrip

/-- Every constructor round-trips, by the law of its name. -/
theorem statement (i : Instr) : Statement i :=
  i.casesOn bra brx bru call callIndirect planeSet planeMov planeGet planeBal yield trap barInit barArrive barWait barMeet
    barArriveRemote barRed barQuery waitTok waitTl fence fenceAlias grpJoin grpLeave grpQuery grpPublish saddSForm saddSlForm
    saddXForm ssubSForm ssubSlForm ssubXForm smulSForm smulSlForm smulXForm smulhSForm smulhSlForm smulhXForm smulhZ sdivS sdivZ
    sremS sremZ sandSForm sandSlForm sandXForm sorSForm sorSlForm sorXForm sxorSForm sxorSlForm sxorXForm sshlSForm sshlSlForm
    sshlXForm sshrSForm sshrSlForm sshrXForm ssraSForm ssraSlForm ssraXForm sminS sminZ smaxS smaxZ scmp ssel sli smov saddr
    sbitPopc sbitClz sbitCtz sbitBfx sbitBfi sbitBrev sbitBfxS srd vget vgetS sld sst satom vaddSForm vaddXForm vsubSForm
    vsubXForm vmulSForm vmulXForm vmulhSForm vmulhXForm vmad vdot4 vandSForm vandXForm vorSForm vorXForm vxorSForm vxorXForm
    vshlSForm vshlXForm vshrSForm vshrXForm vsraSForm vsraXForm vmin vmax vabs vneg vsel vcmp vmovSForm vmovSlForm vmovXForm
    vfsh vbitPopc vbitClz vbitCtz vbitBrev vbitBfx vbitBfi vrsh vpack vunpk vshfl vred vscn vbal plog vprm vlut vlutHi vlutP2
    pair faddSForm faddXForm fsubSForm fsubXForm fmulSForm fmulXForm ffmaSForm ffmaXForm fmin fmax fminn fmaxn fneg fabs fcpys
    fcmp fcvt frcpSForm frcpXForm frsqSForm frsqXForm fsqrtSForm fsqrtXForm fexp2SForm fexp2XForm flog2SForm flog2XForm
    fsinSForm fsinXForm fcosSForm fcosXForm ftanhSForm ftanhXForm fcls fscl fdot2 frnd bfpq bfpd ld st lds sts atom presClr
    presSet presTest tlocEnt tloc tbind tbindClr texp tenc ctld ctldSpm ctst cpyLinG2s cpyLinS2g cpyLinG2g cpyTileG2s
    cpyTileG2sCh cpyRowsG2s cpyMcastG2s cpyMcastS2s cpyFill mma mmaCrew mmaSp bload accWin accLd accSt accZero accOut scanOpdef
    scanBegin scanTile scanPub scanCarry scanFix scanEnd spawn launchInstruction jcInit jcAdd collRed collAr collBc dbgHread
    dbgHwrite dbgHstep dbgHresume dbgHstat dbgHalt watchSet watchClr watchGet watchArm perfRd perfSel perfSamp csrRd
    csrWrFaultact csrWrCecnt csrWrUecnt csrWrStopreq csrWr nop ret join regang exit powerRailEnable moduleReset powerDown
    tikelTraining trainingRetry ack ackOnlyTimer resendTimeout unlistedMessage firmware attestReq attestReport devtimeStart
    devtimeCheck memoryAndFabric thermalLimit overtempShutdown partset compass partattr partreset resetDone resetTimeout ringset
    memread memwrite launch resideOk resideFail resideTimeout leaseReady leaseFail crewPlace backfillTimeout late pinseg pinfree
    invalidate invalAck homeAgentRequest pageWalkComplete sliceAccess invalBatch loadDataReturn crewScratchpadAccess xvreg
    xvfree expandedViewRead collreg fabricFrame preempt wswitch wresume stopSave dump dumpDone dumpRelease sxentry sxprog attach
    debug perfset sampring pcSample waitTick copyChunk matrixKStep bloadSlotSwitch decoderResume texpDecodeDone tencPublish
    ctldFill scanTilePerform carryOutFormed scanFixPerform carryArrive remoteArrival collComplete collTimeout sextantProgramRun
    haltTakesEffect softErrorCorrected deviceStructureError gangRetire crewRetire frameCrcFail instructionCacheFill
    leaseShareReport

end RoundTrip

/-- Settles O56: what decodes is encoded by the words read, format by format, and what is encoded decodes, constructor by constructor. -/
theorem decodeEncode : Obligations.DecodeEncode := by
  unfold Obligations.DecodeEncode
  intro ws rest i
  constructor
  · exact decodeWords_readsBack
  · rintro ⟨hw, he, rfl⟩
    exact RoundTrip.statement i hw he rest

/-- A number whose words are the encoding of an instruction and zeros (R27) decodes to it. -/
theorem decodeTableWord_of_words {n w : Nat} {i : Instr} (hw : wellFormed i = true) (hi : encode i ≠ [])
    (h : tableWords (w % 2 ^ n) = encode i ++ List.replicate (5 - n / 32) 0) : decodeTableWord n w = some i := by
  rw [decodeTableWord, h, RoundTrip.statement i hw hi]

/-- Settles O57: each number holds the words that its instruction is encoded by. -/
theorem sampleWords : Obligations.SampleWords := by
  unfold Obligations.SampleWords
  refine ⟨?_, ?_, ?_, ?_, ?_, ?_, ?_, ?_, ?_, ?_, ?_, ?_, ?_, ?_, ?_, ?_⟩ <;>
    exact decodeTableWord_of_words (by decide) (by decide) (by decide)

end Sys2Proof.Laws
end

section
/-!
PROOF. A PAIR and nop (O12): each half computes what R40 names, on one 32-bit element, and a pass leaves each executing lane with both results
of the lane as before.
-/

namespace Sys2Proof.Machine

/-! ## One 32-bit element (R56) -/

theorem byElement_32 (g : Nat → Nat → Nat → Nat) (a b c : W32) :
    byElement 32 g a b c = BitVec.ofNat 32 (g a.toNat b.toNat c.toNat) := by
  have hbits (x : W32) : bits x.toNat 0 32 = x.toNat := by
    simpa [bits] using Nat.mod_eq_of_lt x.isLt
  apply BitVec.eq_of_toNat_eq
  simp [byElement, hbits]

theorem mapElems_32 (f : Nat → Nat → Nat → Nat × Exc) (a b c : W32) :
    (mapElems 32 f a b c).1 = BitVec.ofNat 32 (f a.toNat b.toNat c.toNat).1 := by
  rw [mapElems_eq (g := fun x y z => (f x y z).1) (fun _ _ _ _ _ _ => rfl), byElement_32]

/-! ## The halves of a PAIR (R40, R42) -/

theorem intVal_32 (a : W32) : intVal 32 false a.toNat = a.toInt := by
  rw [intVal_eq (by simp) false a.isLt, number]
  simp [BitVec.toInt_eq_toNat_bmod]

theorem ofNat_ofInt (v : Int) : BitVec.ofNat 32 (ofInt 32 v) = BitVec.ofInt 32 v := by
  apply BitVec.eq_of_toNat_eq
  simp only [ofInt, BitVec.toNat_ofNat, BitVec.toNat_ofInt]
  omega

theorem intArith_i32 (op : Int → Int → Int) (a b : W32) :
    (intArith op 0 false false a b).1 = BitVec.ofInt 32 (op a.toInt b.toInt) := by
  simp [intArith, tyBits, mapElems_32, intVal_32, deliverInt, ofNat_ofInt]

theorem floatArith_f32 (op : RMode → FVal → FVal → FVal → FVal × Bool) (a b c : W32) :
    (floatArith op 0 ⟨.rne, false, false⟩ a b c).1 =
      let r := op .rne (readFloat fp32 false a.toNat) (readFloat fp32 false b.toNat) (readFloat fp32 false c.toNat)
      BitVec.ofNat 32 (if r.2 then canonNaN fp32 else (roundTo fp32 .rne false false r.1).1) := by
  change (mapElems 32 _ a b c).1 = _
  rw [mapElems_32]
  simp only [deliverFloat, ftFmt, beq_self_eq_true, if_true]
  split <;> rfl

theorem floatSpecial_f32 (op : Nat) (a : W32) :
    (floatSpecial op 0 ⟨.rne, false, false⟩ a).1 = BitVec.ofNat 32 (specialBits op fp32 .rne false false a.toNat).1 :=
  mapElems_32 ..

theorem intShift_left (a b : W32) : (intShift 0 0 a b).1 = a <<< b := by
  simp only [intShift, tyBits, beq_self_eq_true, if_true, mapElems_32]
  apply BitVec.eq_of_toNat_eq
  by_cases hb : 32 ≤ b.toNat
  · simp [hb, BitVec.shiftLeft_eq_zero]
  · simp [hb]

theorem intShift_right (a b : W32) : (intShift 1 0 a b).1 = a >>> b := by
  simp only [intShift, tyBits, beq_self_eq_true, if_true, mapElems_32]
  apply BitVec.eq_of_toNat_eq
  by_cases hb : 32 ≤ b.toNat
  · simp [hb, BitVec.ushiftRight_eq_zero]
  · have hlt : a.toNat >>> b.toNat < 2 ^ 32 := Nat.lt_of_le_of_lt (Nat.shiftRight_le ..) a.isLt
    simpa [hb] using hlt

theorem toSigned_32 (a : W32) : toSigned 32 a.toNat = a.toInt := intVal_32 a

/-- A 32-bit integer shifted right by 31 is its sign, as by any larger distance. -/
theorem ediv_two_pow_min (x : Int) (hx : -2 ^ 31 ≤ x ∧ x < 2 ^ 31) (n : Nat) : x / 2 ^ min n 31 = x / 2 ^ n := by
  obtain hn | hn := Nat.le_total n 31
  · rw [Nat.min_eq_left hn]
  · rw [Nat.min_eq_right hn]
    have hpow : (2 : Int) ^ 31 ≤ 2 ^ n := by exact_mod_cast Nat.pow_le_pow_right (by decide) hn
    obtain hx0 | hx0 := Int.lt_or_le x 0
    · rw [Int.ediv_eq_neg_one_of_neg_of_le hx0 (by omega), Int.ediv_eq_neg_one_of_neg_of_le hx0 (by omega)]
    · rw [Int.ediv_eq_zero_of_lt hx0 hx.2, Int.ediv_eq_zero_of_lt hx0 (by omega)]

theorem intShift_arith (a b : W32) : (intShift 2 0 a b).1 = a.sshiftRight' b := by
  simp only [intShift, tyBits, beq_self_eq_true, if_true, mapElems_32, toSigned_32]
  have hmin : a.toInt / 2 ^ min b.toNat 31 = a.toInt >>> b.toNat := by
    rw [ediv_two_pow_min a.toInt ⟨a.le_toInt, a.toInt_lt⟩, Int.shiftRight_eq_div_pow]
    norm_cast
  simp [hmin, ofNat_ofInt, BitVec.sshiftRight]

/-- The model's result of a half is the arithmetic of R40. -/
theorem halfResult_eq (op : Nat) (a b : W32) : (halfResult op a b).1 = halfValue op a b := by
  unfold halfValue
  split
  · simpa [halfResult, BitVec.ofInt_add] using intArith_i32 (· + ·) a b
  · simpa [halfResult, Int.sub_eq_add_neg, BitVec.ofInt_add, BitVec.ofInt_neg, BitVec.sub_eq_add_neg] using intArith_i32 (· - ·) a b
  · simpa [halfResult, BitVec.ofInt_mul] using intArith_i32 (· * ·) a b
  · rfl
  · rfl
  · rfl
  · exact intShift_left a b
  · exact intShift_right a b
  · exact intShift_arith a b
  · rfl
  · exact floatArith_f32 (fun m a b _ => fsumExact m a b) a b 0
  · exact floatArith_f32 (fun m a b _ => fsumExact m a b.flip) a b 0
  · exact floatArith_f32 (fun _ a b _ => fmulExact a b) a b 0
  · simp only [imp_false] at *
    simp only [halfResult, beq_iff_eq, *, if_false, floatSpecial_f32]

theorem Lane.pairStep_eq (y : Lane) (w : PairWord) (l : Nat) : (y.pairStep w l).1 = y.afterPair w l := by
  simp only [Lane.pairStep, Lane.afterPair, halfIn, halfResult_eq, Lane.deliver]
  rfl

/-- The lanes that a PAIR leaves, delivered one by one: each from the lane as before the pass (R42). -/
theorem Bundle.foldl_pairStep {x : Ctx} {w : PairWord} {ls : List Nat} (b : Bundle) (hls : ∀ l ∈ ls, ∃ y, x.b.lanes[l]? = some y) :
    (ls.filterMap (fun l => (x.b.lanes[l]?).map (fun y => (l, y.pairStep w l)))).foldl
      (fun b r => b.modLane r.1 (fun _ => r.2.1)) b = b.eachLane ls (fun l y => x.ofLane y l (fun y0 => y0.afterPair w l)) := by
  induction ls generalizing b with
  | nil => rfl
  | cons l ls ih =>
    obtain ⟨y, hy⟩ := hls l List.mem_cons_self
    have hlane : (fun _ : Lane => (y.pairStep w l).1) = fun z => x.ofLane z l (fun y0 => y0.afterPair w l) := by
      funext z
      simp only [Ctx.ofLane, hy, Lane.pairStep_eq]
    rw [List.filterMap_cons, hy]
    exact (ih _ fun k hk => hls k (List.mem_cons_of_mem _ hk)).trans (by rw [Bundle.eachLane, Bundle.eachLane, List.foldl_cons, ← hlane])

theorem execPair_passes {w : PairWord} {s : State} {x : Ctx} (h : s.Issues x) (hw : s.watching = false) (hd : x.inTime)
    (hc : pairCheck x.g.kernel.v w = none) (hl : x.latchCheck x.c.plane (.pair w) = none) :
    ∃ t, exec (.pair w) s = .next t ∧ t.uncounted = s.uncounted.modBundle x.c.gid x.c.bundle (fun b =>
      x.afterPass s 12 (b.eachLane (x.lanesIn x.c.plane (w.pred.toNat, w.pn == 1)) (fun l y =>
        x.ofLane y l (fun y0 => y0.afterPair w l)))) := by
  change ∃ t, execPair w s = .next t ∧ _
  unfold execPair
  refine runLane_passes (f := fun ls b => b.eachLane ls fun l y => x.ofLane y l fun y0 => y0.afterPair w l) h hw hc hl hd
    fun t ht ls hls => ?_
  simp only [Bundle.foldl_pairStep _ hls]
  exact State.foldl_observe_unwatched (by simpa [State.watching] using ht) ..

theorem execNop_passes : Passes .nop 4 (fun _ => bareForm true true) (plainWord 0 0 0 268 268) (fun _ _ b => b) := by
  intro s x h hw hd _ hl
  change ∃ t, execNop s = .next t ∧ _
  unfold execNop
  exact runLane_passes (f := fun _ b => b) h hw rfl hl hd fun t _ _ _ => (State.modBundle_id t ..).symm

/-- Settles O12: a PAIR by what its pass leaves of each lane, nop by a pass that changes nothing. -/
theorem pairAndNop : Obligations.PairAndNop :=
  ⟨fun _ _ _ h hw hd hc hl => execPair_passes h hw hd hc hl, execNop_passes⟩

end Sys2Proof.Machine
end

section
/-!
PROOF. Taking a fault (O55): the record as a structure of fields, the dispositions, and what each of them leaves of the gangs, the crew and
the halts.
-/

namespace Sys2Proof.Machine

variable {s : State}

/-! ## The fields of a structure (R6) -/

/-- Fields, each a first bit, a width and a value, lie in order from bit n up and apart, and each value fits its width. -/
def Fits : Nat → List (Nat × Nat × Nat) → Prop
  | _, [] => True
  | n, (lo, w, v) :: fs => n ≤ lo ∧ v < 2 ^ w ∧ Fits (lo + w) fs

/-- The number that fields make. -/
def fieldSum (fs : List (Nat × Nat × Nat)) : Nat := (fs.map fun f => f.2.2 * 2 ^ f.1).sum

/-- Fields from bit n up make a multiple of 2^n. -/
theorem Fits.dvd_fieldSum {n : Nat} {fs : List (Nat × Nat × Nat)} (h : Fits n fs) : 2 ^ n ∣ fieldSum fs := by
  induction fs generalizing n with
  | nil => exact Nat.dvd_zero _
  | cons f fs ih =>
    obtain ⟨hlo, -, hfs⟩ := h
    refine Nat.dvd_add ((Nat.pow_dvd_pow 2 hlo).trans (Nat.dvd_mul_left ..)) ?_
    exact (Nat.pow_dvd_pow 2 (hlo.trans (Nat.le_add_right ..))).trans (ih hfs)

/-- What lies below a field adds less than one to its place, and what lies above adds a multiple of its span. -/
theorem Fits.fieldSum_field {n lo w v : Nat} {fs : List (Nat × Nat × Nat)} (h : Fits n fs) (hm : (lo, w, v) ∈ fs) :
    n ≤ lo ∧ fieldSum fs / 2 ^ lo % 2 ^ w = v := by
  induction fs generalizing n with
  | nil => cases hm
  | cons f fs ih =>
    obtain ⟨hlo, hv, hfs⟩ := h
    have hsum : fieldSum (f :: fs) = f.2.2 * 2 ^ f.1 + fieldSum fs := List.sum_cons
    obtain rfl | hm := List.mem_cons.1 hm
    · obtain ⟨k, hk⟩ := hfs.dvd_fieldSum
      refine ⟨hlo, ?_⟩
      rw [hsum, hk, Nat.pow_add, Nat.mul_assoc, Nat.mul_comm v, ← Nat.mul_add, Nat.mul_div_cancel_left _ (by positivity),
        Nat.add_mul_mod_self_left, Nat.mod_eq_of_lt hv]
    · obtain ⟨hle, hval⟩ := ih hfs hm
      obtain ⟨k, hk⟩ := hfs.dvd_fieldSum
      have hlow : f.2.2 * 2 ^ f.1 < 2 ^ (f.1 + f.2.1) := by
        rw [Nat.pow_add, Nat.mul_comm]
        exact Nat.mul_lt_mul_of_pos_left hv (by positivity)
      have hdiv : fieldSum (f :: fs) / 2 ^ lo = fieldSum fs / 2 ^ lo := by
        obtain ⟨d, rfl⟩ := Nat.exists_eq_add_of_le hle
        rw [hsum, hk, Nat.pow_add _ _ d, ← Nat.div_div_eq_div_mul, ← Nat.div_div_eq_div_mul, Nat.add_mul_div_left _ _ (by positivity),
          Nat.div_eq_of_lt hlow, Nat.zero_add, Nat.mul_div_cancel_left _ (by positivity)]
      exact ⟨hlo.trans ((Nat.le_add_right ..).trans hle), by rw [hdiv, hval]⟩

theorem packFields_fieldSum (n : Nat) (fs : List (Nat × Nat × Nat)) :
    packFields n (fs.map fun f => (f.1, f.2.2)) = leBytes n (fieldSum fs) := by
  simp [packFields, fieldSum, List.sum_eq_foldl, List.foldl_map, Nat.shiftLeft_eq]

/-- A field of a structure holds its value. -/
theorem fieldOf_packFields {n lo w v : Nat} {fs : List (Nat × Nat × Nat)} (h : Fits 0 fs) (hm : (lo, w, v) ∈ fs) (hn : lo + w ≤ 8 * n) :
    fieldOf (packFields n (fs.map fun f => (f.1, f.2.2))) lo w = v := by
  rw [packFields_fieldSum, ← List.append_nil (leBytes n (fieldSum fs)), fieldOf_leBytes_append [] hn]
  exact (h.fieldSum_field hm).2

/-! ## The fault record (R365) -/

/-- The fields of a fault record, each with its width. -/
def faultFields (g : Gang) (w : FaultAt) (f : FaultInfo) (time seq : Nat) : List (Nat × Nat × Nat) :=
  [(0, 8, f.cls), (8, 8, f.sub), (16, 2, f.plane.getD w.plane), (18, 6, f.lane.getD 0), (24, 1, ofBool f.lane.isSome),
    (25, 1, ofBool (f.engine == 0)), (26, 3, f.engine), (32, 32, f.detail % 2 ^ 32), (64, 32, f.offset.getD w.offset),
    (96, 5, w.bundle), (101, 6, g.rank), (107, 3, g.die), (110, 9, g.core), (119, 4, g.part), (128, 64, f.addr % 2 ^ 64),
    (192, 64, f.opnum), (256, 12, f.handle), (268, 1, ofBool f.xvf), (272, 16, f.trow), (288, 16, f.tcol), (304, 48, f.bitoff),
    (352, 32, f.progress), (384, 64, time % 2 ^ 64), (448, 64, seq % 2 ^ 64)]

theorem faultRecord_eq (g : Gang) (w : FaultAt) (f : FaultInfo) (time seq : Nat) :
    faultRecord g w f time seq = packFields 64 ((faultFields g w f time seq).map fun q => (q.1, q.2.2)) := rfl

/-- The sizes that the record's fields have room for. -/
structure FaultSizes (g : Gang) (w : FaultAt) (f : FaultInfo) : Prop where
  cls : f.cls < 256
  sub : f.sub < 256
  bundle : w.bundle < 32
  rank : g.rank < 64
  die : g.die < 8
  core : g.core < 512
  part : g.part < 16
  opnum : f.opnum < 2 ^ 64
  handle : f.handle < 2 ^ 12
  trow : f.trow < 2 ^ 16
  tcol : f.tcol < 2 ^ 16
  bitoff : f.bitoff < 2 ^ 48
  progress : f.progress < 2 ^ 32
  engine : f.engine < 8
  plane : f.plane.getD w.plane < 4
  lane : f.lane.getD 0 < 64
  offset : f.offset.getD w.offset < 2 ^ 32

theorem FaultSizes.fits {g : Gang} {w : FaultAt} {f : FaultInfo} (h : FaultSizes g w f) (time seq : Nat) :
    Fits 0 (faultFields g w f time seq) := by
  have h32 (n : Nat) : n % 2 ^ 32 < 2 ^ 32 := Nat.mod_lt _ (by decide)
  have h64 (n : Nat) : n % 2 ^ 64 < 2 ^ 64 := Nat.mod_lt _ (by decide)
  have hb (b : Bool) : ofBool b < 2 ^ 1 := by cases b <;> decide
  exact ⟨by decide, h.cls, by decide, h.sub, by decide, h.plane, by decide, h.lane, by decide, hb _, by decide, hb _, by decide, h.engine,
    by decide, h32 _, by decide, h.offset, by decide, h.bundle, by decide, h.rank, by decide, h.die, by decide, h.core, by decide, h.part,
    by decide, h64 _, by decide, h.opnum, by decide, h.handle, by decide, hb _, by decide, h.trow, by decide, h.tcol, by decide, h.bitoff,
    by decide, h.progress, by decide, h64 _, by decide, h64 _, trivial⟩

theorem FaultSizes.fieldOf_record {g : Gang} {w : FaultAt} {f : FaultInfo} (h : FaultSizes g w f) (time seq : Nat) {lo n v : Nat}
    (hm : (lo, n, v) ∈ faultFields g w f time seq) (hn : lo + n ≤ 512) : fieldOf (faultRecord g w f time seq) lo n = v := by
  rw [faultRecord_eq]
  exact fieldOf_packFields (h.fits time seq) hm hn

theorem FaultSizes.record_fields {g : Gang} {w : FaultAt} {f : FaultInfo} (h : FaultSizes g w f) (time seq : Nat) :
    let record := faultRecord g w f time seq
    record.length = 64 ∧ fieldOf record 0 8 = f.cls ∧ fieldOf record 8 8 = f.sub ∧
      fieldOf record 16 2 = f.plane.getD w.plane ∧ fieldOf record 64 32 = f.offset.getD w.offset ∧ fieldOf record 96 5 = w.bundle ∧
      fieldOf record 101 6 = g.rank ∧ fieldOf record 107 3 = g.die ∧ fieldOf record 110 9 = g.core ∧ fieldOf record 119 4 = g.part ∧
      fieldOf record 128 64 = f.addr % 2 ^ 64 ∧ fieldOf record 448 64 = seq % 2 ^ 64 := by
  have hf {lo n v : Nat} (hm : (lo, n, v) ∈ faultFields g w f time seq) (hn : lo + n ≤ 512) :
      fieldOf (faultRecord g w f time seq) lo n = v := h.fieldOf_record time seq hm hn
  refine ⟨leBytes_length .., hf ?_ ?_, hf ?_ ?_, hf ?_ ?_, hf ?_ ?_, hf ?_ ?_, hf ?_ ?_, hf ?_ ?_, hf ?_ ?_, hf ?_ ?_, hf ?_ ?_, hf ?_ ?_⟩ <;>
    simp [faultFields]

/-! ## Dispositions (R366) -/

theorem disposition_lease (p : Partition) (die : Nat) : disposition p die 4 = 1 := rfl

theorem disposition_uncorrectable (p : Partition) (die : Nat) : disposition p die 0x0D = 0 := rfl

/-- The disposition of a class that FAULTACT decides. -/
theorem disposition_faultact {p : Partition} {die cls : Nat} (h4 : cls ≠ 4) (hd : cls ≠ 0x0D) :
    disposition p die cls = match bits (p.faultact.getD die 0).toNat (2 * (cls - 1)) 2 with
      | 1 => 1
      | 2 => if p.session then 2 else 0
      | _ => 0 := by
  have hlt : bits (p.faultact.getD die 0).toNat (2 * (cls - 1)) 2 < 4 := bits_lt ..
  simp only [disposition, h4, hd, if_false]
  generalize bits (p.faultact.getD die 0).toNat (2 * (cls - 1)) 2 = d at *
  interval_cases d <;> cases p.session <;> rfl

theorem disposition_ne_halt {p : Partition} (die cls : Nat) (h : p.session = false) : disposition p die cls ≠ 2 := by
  unfold disposition
  simp only [h]
  split_ifs <;> simp_all

theorem disposition_createPartition_zero (b : PartSet) (die : Nat) {c : Nat} (h1 : 1 ≤ c) (h13 : c ≤ 0x13) (h4 : c ≠ 4) :
    disposition (createPartition b) die c = 0 := by
  by_cases hd : die < 8
  · rw [disposition_createPartition b die hd c h1 h13, if_neg h4]
  · have hact : (createPartition b).faultact.getD die 0 = 0 := by simp [createPartition, Nat.not_lt.1 hd, List.getD_eq_getElem?_getD]
    by_cases hu : c = 0x0D
    · rw [hu, disposition_uncorrectable]
    · rw [disposition_faultact h4 hu, hact]
      simp [bits]

/-! ## Gangs and crews that a change maps -/

theorem State.gang_of_map {t : State} {F : Gang → Gang} (h : t.gangs = s.gangs.map F) (hF : ∀ g, (F g).gid = g.gid) (gid : Nat) :
    t.gang gid = (s.gang gid).map F := by
  simp only [State.gang, h, List.find?_map, Function.comp_def, hF]

theorem State.crew_of_map {t : State} {F : Crew → Crew} (h : t.crews = s.crews.map F) (hF : ∀ c, (F c).cid = c.cid) (cid : Nat) :
    t.crew cid = (s.crew cid).map F := by
  simp only [State.crew, h, List.find?_map, Function.comp_def, hF]

theorem State.gang_gid {gid : Nat} {g : Gang} (h : s.gang gid = some g) : g.gid = gid := by
  simpa using List.find?_some h

theorem State.crew_cid {cid : Nat} {c : Crew} (h : s.crew cid = some c) : c.cid = cid := by
  simpa using List.find?_some h

theorem State.gang_modBundle (s : State) (gid b : Nat) (f : Bundle → Bundle) (i : Nat) :
    (s.modBundle gid b f).gang i = (s.gang i).map fun g => if g.gid == gid then { g with bundles := modNth g.bundles b f } else g :=
  State.gang_of_map rfl (fun g => by split <;> rfl) i

/-! ## The effects of the dispositions (R321, R366–R368) -/

/-- UECNT and the counters are of the cores alone. -/
theorem State.countUe_frame (s : State) (g : Gang) : ∃ cs, s.countUe g = { s with cores := cs } := by
  have hcore (s : State) (die core : Nat) (f : Core → Core) : ∃ cs, s.modCore die core f = { s with cores := cs } := by
    unfold State.modCore
    split <;> exact ⟨_, rfl⟩
  have hperf (s : State) (ev reason n : Nat) : ∃ cs, s.perfWith g ev reason n = { s with cores := cs } := by
    unfold State.perfWith
    dsimp only
    split
    · exact ⟨s.cores, rfl⟩
    · exact hcore ..
  obtain ⟨cs, h⟩ := hcore s g.die g.core (fun c =>
    if c.errors.any (fun e => e.1 == g.part) then
      { c with errors := c.errors.map (fun e => if e.1 == g.part then (e.1, e.2.1, e.2.2 + 1) else e) }
    else { c with errors := c.errors ++ [(g.part, 0, 1)] })
  obtain ⟨cs', h'⟩ := hperf { s with cores := cs } 10 0 1
  exact ⟨cs', by rw [State.countUe, h, State.perf, h']⟩

/-- The state in which the disposition of a fault is carried out: the fault is counted, its notice is sent and FSEQ has gone on. -/
def State.noted (s : State) (cores : List Core) (g : Gang) (msg : OutMsg) : State :=
  ({ s with cores := cores }.modPart g.part fun q => { q with fseq := modNth q.fseq g.die (· + 1) }).send msg

theorem State.part_noted {cs : List Core} {g : Gang} {p : Partition} (msg : OutMsg) (hp : s.part g.part = some p) :
    (s.noted cs g msg).part g.part = some { p with fseq := modNth p.fseq g.die (· + 1) } := by
  change ({ s with cores := cs }.modPart g.part _).part g.part = _
  rw [State.part_modPart, if_pos rfl]
  exact congrArg (Option.map _) hp

/-! ### BUNDLE -/

/-- Setting AB in every barrier of a gang touches, of its bundles, what their sub-bundles wait for alone. -/
theorem Gang.abandonBarriers_bundle {α : Type} (proj : Bundle → α) (hproj : ∀ (b : Bundle) qs, proj { b with subs := qs } = proj b) (g : Gang)
    (n : Nat) : (g.abandonBarriers.bundles[n]?).map proj = (g.bundles[n]?).map proj :=
  foldl_field (fun h : Gang => (h.bundles[n]?).map proj)
    (fun h p => by simp [Gang.putBarrier, Function.comp_def, hproj]) _ g

@[simp] theorem Gang.abandonBarriers_gid (g : Gang) : g.abandonBarriers.gid = g.gid :=
  foldl_field (f := fun h (p : Nat × Barrier) => Gang.putBarrier h p.1 p.2.abandon) Gang.gid (fun _ _ => rfl) _ g

@[simp] theorem Gang.abandonBarriers_crew (g : Gang) : g.abandonBarriers.crew = g.crew :=
  foldl_field (f := fun h (p : Nat × Barrier) => Gang.putBarrier h p.1 p.2.abandon) Gang.crew (fun _ _ => rfl) _ g

/-- Barriers put one by one: those put have AB set if each is put with it set. -/
theorem Gang.foldl_putBarrier_ab (ps : List (Nat × Barrier)) (h : Gang)
    (hb : ∀ i r, h.barriers[i]? = some r → r.ab = true ∨ i ∈ ps.map Prod.fst) :
    ∀ r ∈ (ps.foldl (fun h p => h.putBarrier p.1 p.2.abandon) h).barriers, r.ab = true := by
  induction ps generalizing h with
  | nil =>
    intro r hr
    obtain ⟨i, hi⟩ := List.mem_iff_getElem?.1 hr
    simpa using hb i r hi
  | cons p ps ih =>
    refine ih _ fun i r hi => ?_
    change (setNth h.barriers p.1 p.2.abandon)[i]? = some r at hi
    rw [setNth_eq_set, List.getElem?_set] at hi
    split at hi
    · split at hi
      · cases hi
        exact Or.inl rfl
      · cases hi
    next hne =>
      refine (hb i r hi).imp_right fun hm => ?_
      simpa [Ne.symm hne] using hm

theorem Gang.abandonBarriers_ab (g : Gang) : ∀ r ∈ g.abandonBarriers.barriers, r.ab = true := by
  refine Gang.foldl_putBarrier_ab _ g fun i r hi => Or.inr ?_
  obtain ⟨hlt, -⟩ := List.getElem?_eq_some_iff.1 hi
  simpa [List.map_fst_zip] using hlt

/-- Killing a bundle sets AB in the barriers of every gang of its crew. -/
theorem State.killBundle_gangs {gid b : Nat} {g : Gang} (hg : s.gang gid = some g) : (s.killBundle gid b).gangs =
    (s.modBundle gid b Bundle.kill).gangs.map fun h => if h.crew == g.crew then h.abandonBarriers else h := by
  have hk : (s.modBundle gid b Bundle.kill).gang gid = some { g with bundles := modNth g.bundles b Bundle.kill } := by
    rw [State.gang_modBundle, hg]
    simp [State.gang_gid hg]
  unfold State.killBundle
  dsimp only
  split
  next hnone => cases hk.symm.trans hnone
  next hsome =>
    cases hk.symm.trans hsome
    rfl

theorem State.killBundle_frame (s : State) (gid b : Nat) :
    (s.killBundle gid b).out = s.out ∧ (s.killBundle gid b).mem = s.mem ∧ (s.killBundle gid b).parts = s.parts := by
  unfold State.killBundle
  dsimp only
  split <;> exact ⟨rfl, rfl, rfl⟩

/-- The gang whose bundle is killed. -/
theorem State.gang_killBundle {gid b : Nat} {g : Gang} (hg : s.gang gid = some g) :
    (s.killBundle gid b).gang gid = some { g with bundles := modNth g.bundles b Bundle.kill }.abandonBarriers := by
  rw [State.gang_of_map (State.killBundle_gangs hg) (fun h => by split <;> simp), State.gang_modBundle, hg]
  simp [State.gang_gid hg]

/-- The killed bundle of a gang, and the others as they were but for their sub-bundles. -/
theorem State.killBundle_bundles {gid b : Nat} {g k : Gang} (hg : s.gang gid = some g) (hk : (s.killBundle gid b).gang gid = some k) :
    (∀ y, k.bundles[b]? = some y → y.killed = true) ∧
      ∀ n, n ≠ b → (k.bundles[n]?).map (fun y => (y.killed, y.s, y.lanes)) = (g.bundles[n]?).map fun y => (y.killed, y.s, y.lanes) := by
  rw [State.gang_killBundle hg, Option.some.injEq] at hk
  subst hk
  constructor
  · intro y hy
    have h := Gang.abandonBarriers_bundle Bundle.killed (fun _ _ => rfl) { g with bundles := modNth g.bundles b Bundle.kill } b
    rw [hy, getElem?_modNth, if_pos rfl, Option.map_map] at h
    obtain ⟨z, -, hz⟩ := Option.map_eq_some_iff.1 h.symm
    exact hz.symm
  · intro n hn
    rw [Gang.abandonBarriers_bundle _ (fun _ _ => rfl), getElem?_modNth, if_neg hn]

theorem State.killBundle_ab {gid b : Nat} {g k : Gang} (hg : s.gang gid = some g) (hk : k ∈ (s.killBundle gid b).gangs) (hc : k.crew = g.crew) :
    ∀ r ∈ k.barriers, r.ab = true := by
  rw [State.killBundle_gangs hg] at hk
  obtain ⟨h, -, rfl⟩ := List.mem_map.1 hk
  split at hc
  · rw [if_pos ‹_›]
    exact Gang.abandonBarriers_ab h
  · exact absurd (beq_iff_eq.2 hc) ‹_›

/-! ### CREW -/

theorem State.endCrew_gangs (s : State) (cid : Nat) : (s.endCrew cid).gangs = s.gangs.map fun g =>
    if g.crew == cid then { g with bundles := g.bundles.map fun b => if s.bundleAtBoundary b then b.kill else b } else g := rfl

theorem State.endCrew_bundles {cid : Nat} {k : Gang} (hk : k ∈ (s.endCrew cid).gangs) (hc : k.crew = cid) :
    ∀ b ∈ k.bundles, b.killed = true ∨ s.bundleAtBoundary b = false := by
  rw [State.endCrew_gangs] at hk
  obtain ⟨g, -, rfl⟩ := List.mem_map.1 hk
  split at hc
  · rw [if_pos ‹_›]
    intro b hb
    obtain ⟨y, -, rfl⟩ := List.mem_map.1 hb
    cases hy : s.bundleAtBoundary y
    · exact Or.inr hy
    · exact Or.inl rfl
  · exact absurd (beq_iff_eq.2 hc) ‹_›

theorem State.crew_endCrew {cid : Nat} {c : Crew} (h : s.crew cid = some c) :
    (s.endCrew cid).crew cid = some { c with faulted := true, ended := true, stop := none } := by
  rw [State.crew_of_map (s := s) (t := s.endCrew cid) rfl (fun c => by split <;> rfl), h]
  simp [State.crew_cid h]

/-! ### HALT -/

theorem State.gang_faultHalt {g : Gang} {w : FaultAt} {image : List Byte} (hg : s.gang w.gid = some g) :
    (s.faultHalt g w image).gang w.gid = some { g with bundles := modNth g.bundles w.bundle fun b => { b with faultRec := image } } := by
  rw [State.gang_of_map (s := s) (t := s.faultHalt g w image) rfl (fun h => by split <;> rfl), hg]
  simp

theorem State.faultHalt_halts (s : State) (g : Gang) (w : FaultAt) (image : List Byte) :
    ∃ h, (s.faultHalt g w image).halts = s.halts ++ [h] ∧ h.gid = g.gid ∧ h.bundle = w.bundle ∧ h.level = 3 :=
  ⟨_, rfl, rfl, rfl, rfl⟩

theorem State.faultHalt_bundle {g k : Gang} {w : FaultAt} {image : List Byte} (hg : s.gang w.gid = some g)
    (hk : (s.faultHalt g w image).gang w.gid = some k) : ∀ b, k.bundles[w.bundle]? = some b → b.faultRec = image := by
  rw [State.gang_faultHalt hg, Option.some.injEq] at hk
  subst hk
  intro b hb
  rw [getElem?_modNth, if_pos rfl] at hb
  obtain ⟨y, -, rfl⟩ := Option.map_eq_some_iff.1 hb
  rfl

/-! ### Every disposition -/

section Taken

variable {w : FaultAt} {f : FaultInfo} {g : Gang} {p : Partition}

/-- The record of a fault, as the die numbers it. -/
def State.recordOf (s : State) (w : FaultAt) (f : FaultInfo) (g : Gang) (p : Partition) : List Byte :=
  faultRecord g w f (f.time.getD (s.devtimeOf g.die)) (p.fseq.getD g.die 0)

/-- The notice of a fault. -/
def State.faultNotice (s : State) (w : FaultAt) (f : FaultInfo) (g : Gang) (p : Partition) : OutMsg :=
  .notice 5 g.part g.die f.cls (s.lidOf g.crew) (s.devtimeOf g.die) (s.recordOf w f g p)

/-- A fault is counted and noted, and then its disposition is carried out. -/
theorem State.takeFault_eq (hg : s.gang w.gid = some g) (hp : s.part g.part = some p) : ∃ cs, s.takeFault w f =
    if disposition p g.die f.cls = 1 then (s.noted cs g (s.faultNotice w f g p)).endCrew g.crew
    else if disposition p g.die f.cls = 2 then (s.noted cs g (s.faultNotice w f g p)).faultHalt g w (s.recordOf w f g p)
    else (s.noted cs g (s.faultNotice w f g p)).killBundle w.gid w.bundle := by
  obtain ⟨cs, hcs⟩ : ∃ cs, (if f.cls = 0x0D then s.countUe g else s) = { s with cores := cs } := by
    split
    · exact s.countUe_frame g
    · exact ⟨s.cores, rfl⟩
  refine ⟨cs, ?_⟩
  simp only [State.takeFault, hg, hp]
  rw [hcs]
  rfl

theorem State.takeFault_frame (hg : s.gang w.gid = some g) (hp : s.part g.part = some p) :
    (s.takeFault w f).out = s.out ++ [s.faultNotice w f g p] ∧ (s.takeFault w f).mem = s.mem ∧
      ((s.takeFault w f).part g.part).map (·.fseq) = some (modNth p.fseq g.die (· + 1)) := by
  obtain ⟨cs, ht⟩ := State.takeFault_eq (f := f) hg hp
  obtain ⟨hout, hmem, hparts⟩ : (s.takeFault w f).out = (s.noted cs g (s.faultNotice w f g p)).out ∧ (s.takeFault w f).mem = s.mem ∧
      (s.takeFault w f).parts = (s.noted cs g (s.faultNotice w f g p)).parts := by
    rw [ht]
    split
    · exact ⟨rfl, rfl, rfl⟩
    · split
      · exact ⟨rfl, rfl, rfl⟩
      · exact State.killBundle_frame ..
  refine ⟨hout, hmem, ?_⟩
  rw [State.part, hparts]
  exact congrArg (Option.map _) (State.part_noted _ hp)

theorem State.takeFault_bundle (hg : s.gang w.gid = some g) (hp : s.part g.part = some p) (hd : disposition p g.die f.cls = 0) :
    ∃ u : State, u.gang w.gid = some g ∧ s.takeFault w f = u.killBundle w.gid w.bundle := by
  obtain ⟨cs, ht⟩ := State.takeFault_eq (f := f) hg hp
  exact ⟨s.noted cs g (s.faultNotice w f g p), hg, by rw [ht, if_neg (by omega), if_neg (by omega)]⟩

theorem State.takeFault_crew (hg : s.gang w.gid = some g) (hp : s.part g.part = some p) (hd : disposition p g.die f.cls = 1) :
    ∃ u : State, u.memOps = s.memOps ∧ u.crews = s.crews ∧ s.takeFault w f = u.endCrew g.crew := by
  obtain ⟨cs, ht⟩ := State.takeFault_eq (f := f) hg hp
  exact ⟨s.noted cs g (s.faultNotice w f g p), rfl, rfl, by rw [ht, if_pos hd]⟩

theorem State.takeFault_halt (hg : s.gang w.gid = some g) (hp : s.part g.part = some p) (hd : disposition p g.die f.cls = 2) :
    ∃ u : State, u.gang w.gid = some g ∧ u.halts = s.halts ∧ s.takeFault w f = u.faultHalt g w (s.recordOf w f g p) := by
  obtain ⟨cs, ht⟩ := State.takeFault_eq (f := f) hg hp
  exact ⟨s.noted cs g (s.faultNotice w f g p), hg, rfl, by rw [ht, if_neg (by omega), if_pos hd]⟩

end Taken

/-- Settles O55: the record by its fields, each disposition by the state that it leaves. -/
theorem faultEntry : Obligations.FaultEntry := by
  intro s w f g p hg hp
  obtain ⟨hout, hmem, hfseq⟩ := State.takeFault_frame (f := f) hg hp
  refine ⟨hout, hmem, hfseq, ?record, ?killed, ?abandoned, ?stopped, ?ended, ?halted, fun h => h ▸ disposition_lease ..,
    fun h => h ▸ disposition_uncorrectable .., disposition_ne_halt _ _, fun _ _ => disposition_faultact,
    fun b _ => disposition_createPartition_zero b g.die⟩
  case record =>
    intro h1 h2 h3 h4 h5 h6 h7 h8 h9 h10 h11 h12 h13 h14 h15 h16 h17
    exact FaultSizes.record_fields ⟨h1, h2, h3, h4, h5, h6, h7, h8, h9, h10, h11, h12, h13, h14, h15, h16, h17⟩ ..
  case killed =>
    intro hd k hk
    obtain ⟨u, hu, ht⟩ := State.takeFault_bundle hg hp hd
    exact State.killBundle_bundles hu (ht ▸ hk)
  case abandoned =>
    intro hd k hk hc
    obtain ⟨u, hu, ht⟩ := State.takeFault_bundle hg hp hd
    exact State.killBundle_ab hu (ht ▸ hk) hc
  case stopped =>
    intro hd k hk hc b hb
    obtain ⟨u, hops, -, ht⟩ := State.takeFault_crew hg hp hd
    have hsame : u.bundleAtBoundary b = s.bundleAtBoundary b := by
      simp only [State.bundleAtBoundary, State.atBoundary, hops]
    exact hsame ▸ State.endCrew_bundles (ht ▸ hk) hc b hb
  case ended =>
    intro hd c hc
    obtain ⟨u, -, hcrews, ht⟩ := State.takeFault_crew hg hp hd
    rw [ht]
    exact ⟨_, State.crew_endCrew (by rwa [State.crew, hcrews]), rfl, rfl, rfl⟩
  case halted =>
    intro hd
    obtain ⟨u, hu, hhalts, ht⟩ := State.takeFault_halt hg hp hd
    obtain ⟨h, hadd, hgid, hbundle, hlevel⟩ := u.faultHalt_halts g w (s.recordOf w f g p)
    exact ⟨h, by rw [ht, hadd, hhalts], hgid, hbundle, hlevel, fun k hk => State.faultHalt_bundle hu (ht ▸ hk)⟩

end Sys2Proof.Machine
end

section
/-!
PROOF. Residency (O43) fails: the checks of R25 can take away what they rest on. The image of the state below passes them, though the code of
its anchor has no translation: the read of it is refused and logged (R19, R25), and the partition's log lies over the page table that maps the
image, so that the header, read again for check 23, is gone and the record stays as it was.
-/

namespace Sys2Proof.Machine

/-- The lease of a launch whose image at 0x10000 of CD0 spans two pages, and which every die holds ready. -/
def anchoredLease : Lease := { probeLease with imgLen := 0x10100 }

/-- Its record on CD0, still to be checked. -/
def uncheckedRecord : Record := { probeRecord with imageOk := false }

/-- A module whose page table of CD0 at physical address 0x20000 maps 0x10000 to 0x100000, for reads, and 0x30000 to the table itself, for
writes; the partition's log lies at 0x30000. The image's header names one anchor, the first word of its code, at 0x20000, which no entry maps. -/
def logOverTables : State :=
  { State.reset with
    parts := setNth State.reset.parts 0 (some { probePartition with vlog := 0x30000 })
    leases := [anchoredLease]
    dies := modNth State.reset.dies 0 (fun (d : Die) => { d with store := [uncheckedRecord] })
    mem := [(0, 1), (2, 0x10), (0x10000, 1), (0x10002, 0x20), (0x20008, 3), (0x2000B, 1), (0x20018, 5), (0x2001A, 0x20),
      (0x100000, 0x31), (0x100001, 0x4B), (0x100002, 0x48), (0x100003, 0x4D), (0x100004, 1), (0x100006, 1), (0x100008, 1), (0x100012, 2),
      (0x100018, 4), (0x100022, 1), (0x10002C, 0x80), (0x100030, 1), (0x100033, 1), (0x100034, 1)] }

set_option maxRecDepth 4000 in
theorem logOverTables_imageCheck : logOverTables.imageCheck anchoredLease.part anchoredLease.kva = none := by
  decide

/-- Once the checks have read the image, its header can be read no more. -/
theorem logOverTables_headerOf :
    (logOverTables.tookImage 0 anchoredLease.part anchoredLease.kva).headerOf anchoredLease.part anchoredLease.kva = none := by
  decide

/-- So the record is not made eligible. -/
theorem logOverTables_vetRecord :
    logOverTables.vetRecord 0 uncheckedRecord = logOverTables.tookImage 0 anchoredLease.part anchoredLease.kva := by
  have hl : logOverTables.lease uncheckedRecord.lkey = some anchoredLease := rfl
  have hr : (uncheckedRecord.imageOk || !(anchoredLease.holds.all (· == 1))) = false := rfl
  simp only [State.vetRecord, hl, hr, logOverTables_imageCheck, logOverTables_headerOf, Bool.false_eq_true, if_false]

theorem logOverTables_imageOk :
    ((logOverTables.tookImage 0 anchoredLease.part anchoredLease.kva).record 0 uncheckedRecord.arrival).map (·.imageOk) = some false := by
  decide

/-- Refutes O43: its fifth clause says that a record whose image passes the checks becomes eligible, and that of logOverTables does not. -/
theorem not_residency : ¬ Obligations.Residency := by
  unfold Obligations.Residency
  rintro ⟨-, -, -, -, hvet, -, -⟩
  have heligible := (hvet logOverTables 0 uncheckedRecord anchoredLease rfl rfl (by decide)).1 logOverTables_imageCheck fun _ => rfl
  have hbefore := logOverTables_imageOk
  rw [← logOverTables_vetRecord, heligible] at hbefore
  have hafter : (((logOverTables.tookImage 0 anchoredLease.part anchoredLease.kva).modRecord 0 uncheckedRecord.arrival
      (fun q => { q with imageOk := true })).record 0 uncheckedRecord.arrival).map (·.imageOk) = some true := by
    decide
  exact absurd (hbefore.symm.trans hafter) (by decide)

end Sys2Proof.Machine
end

section
/-!
PROOF. What an access made whole leaves (R136, R140, R216, R339): it is told to the home agents, the slices and the clocks of the dies, and to
nothing else.
-/

namespace Sys2Proof.Machine

variable {s t u : State}

/-- The second state is the first but for what its dies hold beside the time: their translations, lines and clocks. -/
structure State.Tells (s t : State) : Prop where
  rest : t = { s with dies := t.dies }
  cycles : ∀ d, (t.die d).cycles = (s.die d).cycles

namespace State.Tells

theorem refl (s : State) : s.Tells s := ⟨rfl, fun _ => rfl⟩

theorem trans (h : s.Tells t) (h' : t.Tells u) : s.Tells u :=
  ⟨by rw [h'.rest, h.rest], fun d => (h'.cycles d).trans (h.cycles d)⟩

theorem modDie (s : State) (d : Nat) {f : Die → Die} (hf : ∀ x, (f x).cycles = x.cycles) : s.Tells (s.modDie d f) := by
  refine ⟨rfl, fun e => ?_⟩
  by_cases he : e = d
  · subst he
    by_cases hd : e < s.dies.length
    · rw [State.die_modDie e f hd, hf]
    · rw [State.die_absent (by simpa [State.modDie] using hd), State.die_absent (by simpa using hd)]
  · rw [State.die_modDie_ne f he]

theorem foldl {α : Type} {f : State → α → State} (hf : ∀ (t : State) x, t.Tells (f t x)) (s : State) (xs : List α) : s.Tells (xs.foldl f s) := by
  induction xs generalizing s with
  | nil => exact refl s
  | cons x xs ih => exact (hf s x).trans (ih _)

theorem mem (h : s.Tells t) : t.mem = s.mem := by rw [h.rest]

theorem halts (h : s.Tells t) : t.halts = s.halts := by rw [h.rest]

theorem tick (h : s.Tells t) : t.tick = s.tick := by rw [h.rest]

theorem gang (h : s.Tells t) (gid : Nat) : t.gang gid = s.gang gid := by rw [h.rest]; rfl

theorem watching (h : s.Tells t) : t.watching = s.watching := by rw [h.rest]; rfl

theorem ending (h : s.Tells t) (gid : Nat) : t.ending gid = s.ending gid := by rw [h.rest]; rfl

end State.Tells

theorem Die.llcTouch_cycles (d : Die) (quota slice line cls : Nat) : (d.llcTouch quota slice line cls).cycles = d.cycles := by
  unfold Die.llcTouch
  dsimp only
  (repeat' split) <;> rfl

theorem Die.foldl_llcTouch_cycles (quota cls : Nat) (slice : Nat → Nat) (lines : List Nat) (d : Die) :
    (lines.foldl (fun d l => d.llcTouch quota (slice l) l cls) d).cycles = d.cycles := by
  induction lines generalizing d with
  | nil => rfl
  | cons l lines ih => exact (ih _).trans (Die.llcTouch_cycles ..)

theorem State.tells_carryClock (s : State) (src dst : Nat) : s.Tells (s.carryClock src dst) := by
  unfold State.carryClock
  split
  · exact .refl s
  · exact .modDie s dst fun _ => rfl

theorem State.tells_touchRange (s : State) (part cls fuel va n : Nat) : s.Tells (s.touchRange part cls fuel va n) := by
  induction fuel generalizing s va n with
  | zero => exact .refl s
  | succ fuel ih =>
    unfold State.touchRange
    split
    · exact .refl s
    · refine State.Tells.trans ?_ (ih ..)
      split
      · exact .refl s
      · exact .modDie s _ fun _ => Die.foldl_llcTouch_cycles ..

theorem State.tells_useRange (s : State) (die part cls va n : Nat) : s.Tells (s.useRange die part cls va n) := by
  unfold State.useRange
  split
  · exact .refl s
  · exact (State.tells_touchRange ..).trans (State.tells_carryClock ..)

theorem State.tells_hearRange (s : State) (die va : Nat) : s.Tells (s.hearRange die va) := State.tells_carryClock ..

theorem State.tells_xvUse (s : State) (part fuel va n : Nat) : s.Tells (s.xvUse part fuel va n) := by
  induction fuel generalizing s va n with
  | zero => exact .refl s
  | succ fuel ih =>
    unfold State.xvUse
    split
    · exact .refl s
    · split
      · exact .refl s
      · have took (s : State) (a n : Nat) : s.Tells ((s.useRange (vaDie va) part 0 a n).hearRange (vaDie va) a) :=
          (State.tells_useRange ..).trans (State.tells_hearRange ..)
        refine State.Tells.trans ?_ (ih ..)
        split
        · exact (took ..).trans (took ..)
        · exact took ..

theorem State.tells_tookAs (s : State) (die part cls va n : Nat) : s.Tells (s.tookAs die part cls va n) := by
  unfold State.tookAs
  split
  · exact .refl s
  · refine State.Tells.foldl (fun t r => State.Tells.trans ?_ (State.tells_hearRange ..)) s _
    split
    · exact (State.tells_carryClock ..).trans (State.tells_xvUse ..)
    · exact State.tells_useRange ..

theorem State.tells_tookRange (s : State) (g : Gang) (va n : Nat) : s.Tells (s.tookRange g va n) := State.tells_tookAs ..

end Sys2Proof.Machine
end

section
/-!
PROOF. Handles, index entries, slot states and look-ups (O30): what each instruction does once its checks have passed, and that a read made
whole on the way is only told to the dies.
-/

namespace Sys2Proof.Machine

variable {s : State} {x : Ctx}

/-! ## Handles (R93, R94) -/

/-- A change of gangs that leaves each its identity and its crew ends no crew. -/
theorem State.ending_modGang (s : State) (i gid : Nat) {f : Gang → Gang} (hf : ∀ g, (f g).gid = g.gid ∧ (f g).crew = g.crew) :
    (s.modGang i f).ending gid = s.ending gid := by
  refine State.ending_congr rfl ?_
  have hgid : (fun g : Gang => (if (g.gid == i) = true then f g else g).gid == gid) = fun g => g.gid == gid := by
    funext g
    split
    · rw [(hf g).1]
    · rfl
  have hcrew : (fun g : Gang => (if (g.gid == i) = true then f g else g).crew) = fun g => g.crew := by
    funext g
    split
    · exact (hf g).2
    · rfl
  simp only [State.gang, State.modGang, List.find?_map, Option.map_map, Function.comp_def, hgid, hcrew]

/-- A handle set after what is told to the dies leaves all that the end of an instruction depends on. -/
theorem State.Tells.modGang_bind {t : State} (h : s.Tells t) (i n d gid : Nat) (v : Option Handle) :
    (t.modGang i (fun g => g.bind n v)).halts = s.halts ∧ (t.modGang i (fun g => g.bind n v)).tick = s.tick ∧
      ((t.modGang i (fun g => g.bind n v)).die d).cycles = (s.die d).cycles ∧
      (t.modGang i (fun g => g.bind n v)).ending gid = s.ending gid :=
  ⟨h.halts, h.tick, h.cycles d, (State.ending_modGang t i gid (f := fun g => g.bind n v) fun _ => ⟨rfl, rfl⟩).trans (h.ending gid)⟩

/-- An instruction whose meaning is a uniform one that is done completes when all that it does beside its bundle is told to the dies. -/
theorem completes_of_tells {i : Instr} {control : Bool} {len : Nat} {form : Form} {w : XWord} {ok : Ctx → State → Prop}
    {took : Ctx → State → State} {f : Ctx → State → Bundle → Bundle} {act : Ctx → State → Eff}
    (he : ∀ s, exec i s = runUniform control len (fun _ => form) w noExtra act s) (ht : ∀ (s : State) x, s.Tells (took x s))
    (ha : ∀ s x, ok x s → act x s = .done ((took x s).modBundle x.c.gid x.c.bundle (f x s))) :
    Completes i control len form w ok took f :=
  completes_of he (fun _ _ _ _ => rfl) (fun s x _ => ha s x) fun s x =>
    ⟨(ht s x).halts, (ht s x).tick, (ht s x).cycles _, (ht s x).ending _⟩

/-- With nothing watched a read is not observed. -/
theorem State.seeRead_unwatched (h : s.watching = false) (x : Ctx) (view : Bool) (addr : Nat) (bs : List Byte) :
    s.seeRead x view addr bs = s := by
  simp [State.seeRead, h]

theorem execTbind_completes (w : XWord) (bs : List Byte) : Completes (.tbind w) false 12
    (opForm .handle .scalar .unused .unused true (w.m6 = 0 && w.nwb = 0)) w
    (fun x s => s.watching = false ∧ (x.s w.a9.toNat + w.imm.signExtend 64).toNat % 64 = 0 ∧
      s.acquireRead x (x.s w.a9.toNat + w.imm.signExtend 64).toNat 64 =
        .bytes bs (s.tookRange x.g (x.s w.a9.toNat + w.imm.signExtend 64).toNat 64) ∧ descOk bs x.g.kernel.atlas = true)
    (fun x s => (s.tookRange x.g (x.s w.a9.toNat + w.imm.signExtend 64).toNat 64).modGang x.c.gid
      (fun g => g.bind w.d9.toNat (some ⟨x.s w.a9.toNat + w.imm.signExtend 64, bs⟩)))
    (fun _ _ b => b) := by
  refine completes_of (fun _ => rfl) (fun _ _ _ _ => rfl) (fun s x _ ⟨hwatch, halign, hread, hdesc⟩ => ?_)
    fun s x => (State.tells_tookRange s ..).modGang_bind ..
  have hunwatched := (State.tells_tookRange s x.g (x.s w.a9.toNat + w.imm.signExtend 64).toNat 64).watching.trans hwatch
  rw [State.modBundle_id]
  simp only [Ctx.s] at *
  generalize x.b.readS w.a9.toNat + w.imm.signExtend 64 = va at *
  simp [halign, hread, hdesc, State.seeRead_unwatched hunwatched, State.setHandle, Gang.bind]

theorem execTbindClr_completes (w : XWord) : Completes (.tbindClr w) false 12
    (opForm .handle .unused .unused .unused true (w.m6 = 0 && w.nwb = 0 && w.imm = 0)) w (fun _ _ => True)
    (fun x s => s.modGang x.c.gid (fun g => g.bind w.d9.toNat none)) (fun _ _ b => b) :=
  completes_of (fun _ => rfl) (fun _ _ _ _ => rfl) (fun _ _ _ _ => congrArg Eff.done (State.modBundle_id ..).symm)
    fun s _ => (State.Tells.refl s).modGang_bind ..

/-! ## Index entries (R94) -/

/-- The entry of a named tile is at the address that its descriptor gives. -/
theorem Ctx.locate_of_tileOf {w : XWord} {h : Handle} (ht : x.tileOf w.a9.toNat h (x.sn w.b9.toNat) (x.sn w.c9.toNat)) :
    x.locate w = .ok ((descOf h.desc).entryVa (x.sn w.b9.toNat) (x.sn w.c9.toNat)) := by
  obtain ⟨hdamage, hhandle, hrow, hcol⟩ := ht
  simp [Ctx.locate, hdamage, hhandle, hrow, hcol]

/-- A pair delivered is a change of the issuing bundle. -/
theorem State.setPair_eq (s : State) (x : Ctx) (code v : Nat) :
    s.setPair x code v = s.modBundle x.c.gid x.c.bundle (fun b => b.writePair code v) := by
  simp only [State.setPair, State.setS, State.modBundle_modBundle, Bundle.writePair, Nat.shiftRight_eq_div_pow]

theorem execTlocEnt_completes (w : XWord) (h : Handle) : Completes (.tlocEnt w) false 12
    (opForm .scalar .handle .scalar .scalar true (w.m6 = 0 && w.nwb = 0 && w.imm = 0)) w
    (fun x _ => x.tileOf w.a9.toNat h (x.sn w.b9.toNat) (x.sn w.c9.toNat)) noEffect
    (fun x _ b => b.writeS w.d9.toNat (BitVec.ofNat 64 ((descOf h.desc).entryVa (x.sn w.b9.toNat) (x.sn w.c9.toNat)))) := by
  refine completes_of_tells (fun _ => rfl) (fun s _ => .refl s) fun s x ht => ?_
  simp only [Ctx.locate_of_tileOf ht]
  rfl

theorem execTloc_completes (w : XWord) (h : Handle) (bs : List Byte) : Completes (.tloc w) false 12
    (opForm .pair .handle .scalar .scalar true (w.m6 = 0 && w.nwb = 0 && w.imm = 0)) w
    (fun x s => x.tileOf w.a9.toNat h (x.sn w.b9.toNat) (x.sn w.c9.toNat) ∧
      s.acquireRead x ((descOf h.desc).entryVa (x.sn w.b9.toNat) (x.sn w.c9.toNat)) 16 =
        .bytes bs (s.tookRange x.g ((descOf h.desc).entryVa (x.sn w.b9.toNat) (x.sn w.c9.toNat)) 16))
    (fun x s => s.tookRange x.g ((descOf h.desc).entryVa (x.sn w.b9.toNat) (x.sn w.c9.toNat)) 16)
    (fun _ _ b => b.writePair w.d9.toNat (leNat bs)) := by
  refine completes_of_tells (fun _ => rfl) (fun s _ => State.tells_tookRange s ..) fun s x ⟨ht, hread⟩ => ?_
  simp only [Ctx.locate_of_tileOf ht, hread, State.setPair_eq]

/-! ## Slots and look-ups (R261, R262) -/

theorem execCtst_completes (w : XWord) : Completes (.ctst w) false 12
    (opForm .scalar .slot .unused .unused true (w.m6 = 0 && w.nwb = 0 && w.imm = 0)) w
    (fun x s => x.g.damaged 1 w.a9.toNat = none ∧ s.slotFilling x.c.gid w.a9.toNat = false) noEffect
    (fun x _ b => b.writeS w.d9.toNat (BitVec.ofNat 64 (((x.g.atlas[w.a9.toNat]?).getD AtlasSlot.empty).word))) := by
  refine completes_of_tells (fun _ => rfl) (fun s _ => .refl s) fun s x ⟨hdamage, hfilled⟩ => ?_
  simp [hdamage, hfilled, noEffect, State.setS]

/-- Own checks that raise nothing change nothing. -/
theorem runLane_noExtra {i : Instr} {len : Nat} {extra : Ctx → Option FaultInfo} {eff : Ctx → List Nat → State → State}
    (h : s.ctx = some x) (he : extra x = none) : runLane i len extra eff s = runLane i len noExtra eff s := by
  simp only [runLane, h, he, noExtra]

/-- Changes of lanes that agree on the lanes of a list. -/
theorem Bundle.eachLane_congr {ls : List Nat} {f g : Nat → Lane → Lane} (b : Bundle) (h : ∀ l ∈ ls, f l = g l) :
    b.eachLane ls f = b.eachLane ls g :=
  List.foldl_ext _ _ _ fun _ l hl => by rw [h l hl]

/-- What a lane that is there gives, changed. -/
theorem Ctx.ofLane_map {α β : Type} {l : Nat} (h : ∃ y, x.b.lanes[l]? = some y) (d : α) (e : β) (f : Lane → α) (k : α → β) :
    k (x.ofLane d l f) = x.ofLane e l (fun y => k (f y)) := by
  obtain ⟨y, hy⟩ := h
  simp only [Ctx.ofLane, hy]

/-- A bundle after a look-up has delivered to a list of lanes the pair that it finds for each in the slot that B names (R262). -/
def Ctx.lookedUp (x : Ctx) (w : XWord) (k : AtlasSlot → Nat → Nat × Nat) (ls : List Nat) (b : Bundle) : Bundle :=
  b.eachLane ls fun l y =>
    let r := k ((x.g.atlas[w.b9.toNat]?).getD AtlasSlot.empty) (x.ofLane 0 l fun y0 => (y0.read l w.a9.toNat).toNat)
    y.deliver w (BitVec.ofNat 32 (r.1 + r.2 * 65536))

theorem State.deliverPass_lookUp {ls : List Nat} {w : XWord} {f : AtlasSlot → Nat → Nat} {k : AtlasSlot → Nat → Nat × Nat}
    (hk : ∀ a y, f a y = (k a y).1 + (k a y).2 * 65536) (hs : s.watching = false) (hls : ∀ l ∈ ls, ∃ y, x.b.lanes[l]? = some y) :
    s.deliverPass x w ls (fun l y => (BitVec.ofNat 32 (f ((x.g.atlas[w.b9.toNat]?).getD AtlasSlot.empty) (argA w l y).toNat), 0)) =
      s.modBundle x.c.gid x.c.bundle (x.lookedUp w k ls) := by
  rw [State.deliverPass_eq hs hls]
  refine congrArg (s.modBundle x.c.gid x.c.bundle) (funext fun b => Bundle.eachLane_congr b fun l hl => funext fun y => ?_)
  dsimp only
  rw [← hk, Ctx.ofLane_map (hls l hl) 0 0 _ (fun n => BitVec.ofNat 32 (f ((x.g.atlas[w.b9.toNat]?).getD AtlasSlot.empty) n))]
  rfl

/-- A look-up whose passes need not wait delivers what its function finds: the low half of the result, and the high half. -/
theorem lookUp_passes {i : Instr} {w : XWord} {f : AtlasSlot → Nat → Nat} {k : AtlasSlot → Nat → Nat × Nat}
    (he : ∀ s, exec i s = runVlut i w f s) (hg : guardOf i = (w.pred.toNat, w.pn == 1))
    (hk : ∀ a y, f a y = (k a y).1 + (k a y).2 * 65536) : LooksUp i w k := by
  intro s x h hw hd hf hl hp hc
  have hgate : (if x.c.first then s.passGate x false x.c.words else none) = none := by
    simpa using hp
  have hslot : (if x.c.first then s.slotCheck x i else none) = none := by
    simpa using hc
  rw [he]
  simp only [runVlut, h.ctx, hf, hgate]
  rw [runLane_noExtra h.ctx hslot, ← hg]
  exact runLane_passes (f := x.lookedUp w k) h hw hf hl hd fun t ht ls hls => State.deliverPass_lookUp hk ht hls

theorem execVlut_looksUp (w : XWord) : LooksUp (.vlut w) w (fun a y => (a.look y 0, a.look y 1)) :=
  lookUp_passes (f := fun a y => a.look y 0 + a.look y 1 <<< 16) (fun _ => rfl) rfl fun _ _ => by rw [Nat.shiftLeft_eq]

theorem execVlutHi_looksUp (w : XWord) : LooksUp (.vlutHi w) w (fun a y => (a.look y 2, a.look y 3)) :=
  lookUp_passes (f := fun a y => a.look y 2 + a.look y 3 <<< 16) (fun _ => rfl) rfl fun _ _ => by rw [Nat.shiftLeft_eq]

theorem execVlutP2_looksUp (w : XWord) : LooksUp (.vlutP2 w) w (fun a y => (a.look y 0, a.look (y / 256) 0)) :=
  lookUp_passes (f := fun a y => a.look y 0 + a.look (y >>> 8) 0 <<< 16) (fun _ => rfl) rfl fun _ _ => by
    rw [Nat.shiftLeft_eq, Nat.shiftRight_eq_div_pow]

/-- Settles O30: each instruction by what it does once its checks have passed, each look-up by what a pass delivers to its lanes. -/
theorem handlesAndLookups : Obligations.HandlesAndLookups :=
  ⟨execTbind_completes, execTbindClr_completes, execTlocEnt_completes, execTloc_completes, execCtst_completes, execVlut_looksUp,
    execVlutHi_looksUp, execVlutP2_looksUp⟩

end Sys2Proof.Machine
end

section
/-!
PROOF. What the engines' steps leave of memory: only the bytes that they land. Watch events, clocks, lists of operations, presence and poison
are kept elsewhere.
-/

namespace Sys2Proof.Machine

variable {s t : State}

theorem State.foldl_mem {α : Type} {f : State → α → State} (hf : ∀ t x, (f t x).mem = t.mem) (s : State) (xs : List α) :
    (xs.foldl f s).mem = s.mem := by
  induction xs generalizing s with
  | nil => rfl
  | cons x xs ih => exact (ih _).trans (hf s x)

/-! ## Watch events (R382–R385) -/

@[simp] theorem State.countHit_mem (s : State) (g : Gang) (v : WatchEvent) (h : Hit) : (s.countHit g v h).mem = s.mem := by
  simp only [State.countHit]
  split
  · simp
  · exact State.perf_mem ..

@[simp] theorem State.noticeHit_mem (s : State) (g : Gang) (die entry : Nat) (report : List Byte) :
    (s.noticeHit g die entry report).mem = s.mem := by
  simp only [State.noticeHit]
  (repeat' split) <;> simp [State.modSextant]

@[simp] theorem State.askHalt_mem (s : State) (g : Gang) (v : WatchEvent) (ev : Nat) (hs : List Hit) : (s.askHalt g v ev hs).mem = s.mem := by
  simp only [State.askHalt]
  (repeat' split) <;> rfl

@[simp] theorem State.holdOp_mem (s : State) (op : Option Nat) : (s.holdOp op).mem = s.mem := by
  simp only [State.holdOp]
  (repeat' split) <;> rfl

@[simp] theorem State.observe_mem (s : State) (v : WatchEvent) (w : Option Nat) : (s.observe v w).mem = s.mem := by
  have hcount (s : State) (g : Gang) (hs : List Hit) : (hs.foldl (fun t h => t.countHit g v h) s).mem = s.mem :=
    State.foldl_mem (fun t h => t.countHit_mem g v h) s hs
  have hnotify (s : State) (g : Gang) (hs : List Hit) : (hs.foldl (fun t h => t.notifyHit g v h) s).mem = s.mem :=
    State.foldl_mem (fun t h => t.noticeHit_mem ..) s hs
  have hqueue (s : State) (g : Gang) (n : Nat) (hs : List Hit) : (hs.foldl (fun t h => t.queueRun g v n h w) s).mem = s.mem :=
    State.foldl_mem (f := fun t h => t.queueRun g v n h w) (fun _ _ => rfl) s hs
  simp only [State.observe]
  (repeat' split) <;> simp [hcount, hnotify, hqueue]

@[simp] theorem State.observeEach_mem (s : State) (v : WatchEvent) (step : Nat) (bs : List Byte) : (s.observeEach v step bs).mem = s.mem :=
  State.foldl_mem (fun t _ => t.observe_mem ..) s _

@[simp] theorem State.seeGlobal_mem (s : State) (v : WatchEvent) (step : Nat) (bs : List Byte) : (s.seeGlobal v step bs).mem = s.mem := by
  simp only [State.seeGlobal]
  split <;> simp

@[simp] theorem State.seeView_mem (s : State) (v : WatchEvent) (owner step : Nat) (bs : List Byte) :
    (s.seeView v owner step bs).mem = s.mem := by
  simp only [State.seeView]
  (repeat' split) <;> simp

/-! ## Poison, and the end of an operation (R264, R272, R369) -/

@[simp] theorem State.carryPoison_mem (s : State) (rs : List (Nat × Nat)) (bad : List Bool) : (s.carryPoison rs bad).mem = s.mem := by
  simp only [State.carryPoison]
  split <;> rfl

@[simp] theorem State.completeOp_mem (s : State) (o : EngOp) : (s.completeOp o).mem = s.mem := by
  have htl (s : State) (gid eng : Nat) : (s.updateTl gid eng).mem = s.mem := by
    simp only [State.updateTl]
    split <;> rfl
  simp only [State.completeOp]
  split <;> simp [htl, State.dropOp]

@[simp] theorem State.landed_mem (s : State) (before after : EngOp) : (s.landed before after).mem = s.mem := rfl

@[simp] theorem State.endCopy_mem (s : State) (o : EngOp) : (s.endCopy o).mem = s.mem := by
  simp only [State.endCopy]
  split <;> simp

/-! ## Bytes written over runs -/

/-- What runs hold once they are written depends on memory alone. -/
theorem State.putRuns_mem_congr (h : t.mem = s.mem) (rs : List (Nat × Nat)) (bs : List Byte) :
    (t.putRuns rs bs).mem = (s.putRuns rs bs).mem := by
  induction rs generalizing s t bs with
  | nil => exact h
  | cons r rs ih => exact ih (congrArg (writeBytes · r.1 (bs.take r.2)) h) _

/-- A write at the homes leaves the same bytes as one without invalidations. -/
theorem State.writeRuns_mem (s : State) (e : Option (Nat × Nat)) (rs : List (Nat × Nat)) (bs : List Byte) :
    (s.writeRuns e rs bs).mem = (s.putRuns rs bs).mem := by
  induction rs generalizing s bs with
  | nil => rfl
  | cons r rs ih => exact (ih _ _).trans (State.putRuns_mem_congr (State.writeHome_mem ..) rs _)

theorem State.readRuns_length (s : State) (rs : List (Nat × Nat)) : (s.readRuns rs).length = (rs.map (·.2)).sum := by
  simp [State.readRuns, List.length_flatMap, State.bytesAt, readBytes_length]

/-- The runs of a range of the view hold no more bytes than the range. -/
theorem Gang.viewRuns_sum_le (g : Gang) (a n : Nat) : ((g.viewRuns a n).map (·.2)).sum ≤ n := by
  have hlocated (rs : List (Nat × Nat)) :
      ((rs.filterMap fun r => (g.viewLoc r.1).map fun l => (l, r.2)).map (·.2)).sum ≤ (rs.map (·.2)).sum := by
    induction rs with
    | nil => exact Nat.le_refl _
    | cons r rs ih => cases hl : g.viewLoc r.1 <;> simp [hl] <;> omega
  refine (hlocated _).trans ((((List.filter_sublist).map _).sum_le_sum fun _ _ => Nat.zero_le _).trans ?_)
  simp only [List.map_cons, List.map_nil, List.sum_cons, List.sum_nil]
  split <;> omega

theorem State.readRuns_viewRuns_length_le (s : State) (g : Gang) (a n : Nat) : (s.readRuns (g.viewRuns a n)).length ≤ n :=
  (s.readRuns_length _).trans_le (g.viewRuns_sum_le a n)

end Sys2Proof.Machine
end

section
/-!
PROOF. A chunk of a linear copy and of a fill (O36): one range read and one range written, and nothing else of memory.
-/

namespace Sys2Proof.Machine

variable {s : State} {o : EngOp} {g : Gang}

/-! ## The ends of a chunk (R75, R272) -/

theorem EngOp.lt_chunkEnd {p : Nat} (h : p < o.total) : p < o.chunkEnd p := by
  simp only [EngOp.chunkEnd]
  omega

theorem State.le_writeEnd (s : State) (g : Gang) (o : EngOp) (q : Nat) : q ≤ s.writeEnd g o q := by
  unfold State.writeEnd
  dsimp only
  split
  · exact Nat.le_refl q
  next hcut =>
    simp only [Bool.or_eq_true, decide_eq_true_eq, not_or] at hcut
    obtain ⟨⟨-, hq⟩, -⟩ := hcut
    omega

theorem State.writeEnd_toPad (h : o.toPad = true) (q : Nat) : s.writeEnd g o q = q := by
  simp [State.writeEnd, h]

theorem State.le_readEnd (s : State) (g : Gang) (o : EngOp) (q : Nat) : q ≤ s.readEnd g o q := by
  unfold State.readEnd
  dsimp only
  split
  · exact Nat.le_refl q
  next hcut =>
    simp only [Bool.or_eq_true, decide_eq_true_eq, not_or] at hcut
    obtain ⟨⟨-, he⟩, -⟩ := hcut
    omega

theorem State.readEnd_fromPad (h : o.fromPad = true) (q : Nat) : s.readEnd g o q = q := by
  simp [State.readEnd, h]

/-- A fill reads nothing ahead. -/
theorem State.readEnd_fill (h : o.fn = 7) (q : Nat) : s.readEnd g o q = q := by
  simp [State.readEnd, EngOp.blockEnd, EngOp.sources, h]

/-! ## The ranges of a chunk (R270) -/

/-- A copy without rows goes on in one range. -/
theorem EngOp.ranges_linear (h : o.fn ≠ 4) (base : Nat) (pitch : Int) {p q : Nat} (hpq : p < q) :
    o.ranges base pitch p q = [((base + p) % 2 ^ 64, q - p)] := by
  simp [EngOp.ranges, h, Nat.not_le.2 hpq]

theorem EngOp.dst_chunk (h : o.fn ≠ 4) {q : Nat} (hq : o.pos < q) : o.dst o.pos q = [(o.chunkDst, q - o.pos)] :=
  EngOp.ranges_linear h _ _ hq

theorem EngOp.src_chunk (h : o.fn ≠ 4) {q : Nat} (hq : o.pos < q) : o.src o.pos q = [(o.chunkSrc, q - o.pos)] :=
  EngOp.ranges_linear h _ _ hq

/-- A copy that is no multicast writes the scratchpad of its own gang alone. -/
theorem State.copyTargets_own (hg : s.gang o.gid = some g) (h5 : o.fn ≠ 5) (h6 : o.fn ≠ 6) : s.copyTargets o = [g] := by
  simp [State.copyTargets, hg, h5, h6]

theorem State.gang_of_stepper (h : s.stepper o = some g) : s.gang o.gid = some g := by
  unfold State.stepper at h
  cases hg : s.gang o.gid with
  | none => simp [hg] at h
  | some k =>
    simp only [hg] at h
    split at h
    · exact nomatch h
    · exact h

/-! ## One range landed -/

theorem State.copyWrite_pad_mem {k : Gang} (hp : o.toPad = true) (ht : s.copyTargets o = [k]) (a n : Nat) (bs : List Byte)
    (bad : List Bool) : (s.copyWrite g o [(a, n)] bs bad).mem = (s.putRuns (k.viewRuns a n) bs).mem := by
  simp [State.copyWrite, hp, ht]

theorem State.copyWrite_global_mem {rs : List (Nat × Nat)} (hp : o.toPad = false) {a n : Nat} (hr : s.runs g.part 1 a n = some rs)
    (bs : List Byte) (bad : List Bool) : (s.copyWrite g o [(a, n)] bs bad).mem = (s.putRuns rs (bs.take n)).mem := by
  simp only [State.copyWrite, hp, Bool.false_eq_true, if_false, List.foldl_cons, List.foldl_nil, State.seeGlobal_mem, State.carryPoison_mem,
    (State.tells_hearRange ..).mem, hr, Option.getD_some, State.writeRuns_mem]
  exact State.putRuns_mem_congr (State.tells_useRange ..).mem _ _

/-! ## One chunk -/

theorem exec_copyChunk (h : s.Copying o g) (h3 : o.fn ≠ 3) : exec (.copyChunk o.id) s = .next (s.linearChunk g o) := by
  change execCopyChunk o.id s = _
  have h5 : o.state ≠ 5 := by have := h.started; omega
  have h2 : o.state ≠ 2 := by have := h.started; omega
  simp [execCopyChunk, h.op, h.steps, h.engine, h.prior, h5, h2, h3]

/-- The state after a chunk's reads of global memory. -/
def State.chunkTook (s : State) (g : Gang) (o : EngOp) (hi : Nat) : State :=
  if o.fromPad then s else (o.sources o.pos hi).foldl (fun s r => s.copyTook g o r) s

theorem State.tells_chunkTook (s : State) (g : Gang) (o : EngOp) (hi : Nat) : s.Tells (s.chunkTook g o hi) := by
  unfold State.chunkTook
  split
  · exact .refl s
  · exact .foldl (fun t r => t.tells_tookAs ..) s _

/-- A chunk whose checks pass, of a copy that has read nothing ahead, leaves the memory that the landing of its bytes leaves. -/
theorem State.linearChunk_mem {q hi : Nat} (h : s.Copying o g) (hf : s.chunkFault g o o.pos (o.chunkEnd o.pos) = none)
    (hq : s.chunkStop g o = q) (hhi : s.readEnd g o q = hi) :
    (s.linearChunk g o).mem = ((s.chunkTook g o hi).copyWrite g o (o.dst o.pos q) ((s.chunkBytes g o o.pos hi).1.take (q - o.pos))
      ((s.chunkBytes g o o.pos hi).2.take ((q - o.pos) / 4))).mem := by
  subst hq hhi
  have hreads : Nat.max o.pos (s.readEnd g o (s.chunkStop g o)) = s.readEnd g o (s.chunkStop g o) :=
    Nat.max_eq_right (((EngOp.lt_chunkEnd h.left).le.trans (s.le_writeEnd ..)).trans (s.le_readEnd ..))
  have hunwatched (rs : List (Nat × Nat)) : s.seeChunkReads g o rs = s := by simp [State.seeChunkReads, h.unwatched]
  rw [State.chunkStop] at hreads ⊢
  simp only [State.linearChunk, hf, h.ahead, List.flatMap_nil, List.map_nil, List.nil_append, List.length_nil, Nat.mul_zero, Nat.add_zero,
    hreads, hunwatched]
  split
  · exact State.perf_mem ..
  · split
    · exact (State.endCopy_mem ..).trans (State.perf_mem ..)
    · exact (State.landed_mem ..).trans (State.perf_mem ..)

/-- A chunk to the own scratchpad leaves its bytes in the view, up to the chunk's end. -/
theorem copyChunk_toPad {bs : List Byte} (h : s.Copying o g) (hpad : o.toPad = true) (hfn : o.fn < 3 ∨ o.fn = 7)
    (hf : s.chunkFault g o o.pos (o.chunkEnd o.pos) = none)
    (hbs : (s.chunkBytes g o o.pos (s.readEnd g o (o.chunkEnd o.pos))).1.take (o.chunkEnd o.pos - o.pos) = bs) :
    ∃ t, exec (.copyChunk o.id) s = .next t ∧
      t.mem = (s.putRuns (g.viewRuns o.chunkDst (o.chunkEnd o.pos - o.pos)) bs).mem := by
  have told := s.tells_chunkTook g o (s.readEnd g o (o.chunkEnd o.pos))
  have htargets := State.copyTargets_own ((told.gang o.gid).trans (State.gang_of_stepper h.steps)) (by omega) (by omega)
  refine ⟨_, exec_copyChunk h (by omega), ?_⟩
  rw [State.linearChunk_mem h hf (State.writeEnd_toPad hpad _) rfl, EngOp.dst_chunk (by omega) (EngOp.lt_chunkEnd h.left),
    State.copyWrite_pad_mem hpad htargets, hbs]
  exact State.putRuns_mem_congr told.mem _ _

/-! ## What a chunk reads -/

theorem State.chunkBytes_global {rs : List (Nat × Nat)} {hi : Nat} (h4 : o.fn ≠ 4) (h7 : o.fn ≠ 7) (hp : o.fromPad = false)
    (hhi : o.pos < hi) (hxv : vaIsXv o.chunkSrc = false) (hcut : cutXv (o.chunkSrc, hi - o.pos) = [(o.chunkSrc, hi - o.pos)])
    (hr : s.runs g.part 0 o.chunkSrc (hi - o.pos) = some rs) : (s.chunkBytes g o o.pos hi).1 = s.readRuns rs := by
  simp [State.chunkBytes, State.copyRead, EngOp.src_chunk h4 hhi, h7, hp, hcut, hxv, hr]

theorem State.chunkBytes_pad {hi : Nat} (h4 : o.fn ≠ 4) (h7 : o.fn ≠ 7) (hp : o.fromPad = true) (hhi : o.pos < hi) :
    (s.chunkBytes g o o.pos hi).1 = s.readRuns (g.viewRuns o.chunkSrc (hi - o.pos)) := by
  simp [State.chunkBytes, State.copyReadView, EngOp.src_chunk h4 hhi, h7, hp]

theorem State.chunkBytes_fill (h : o.fn = 7) (p q : Nat) :
    (s.chunkBytes g o p q).1 = (List.replicate ((q - p) / 4) (leBytes 4 (o.par 2 % 2 ^ 32))).flatten := by
  simp [State.chunkBytes, h, List.flatMap_def, List.map_const', bits]

/-- Whole words fill no more than the range that they are cut to. -/
theorem flatten_replicate_leBytes_length_le (n v : Nat) : ((List.replicate (n / 4) (leBytes 4 v)).flatten).length ≤ n := by
  simp only [List.length_flatten, List.map_replicate, leBytes_length, List.sum_replicate, smul_eq_mul]
  omega

/-! ## The copies -/

theorem copyChunk_globalToPad (h : s.Copying o g) (hfn : o.fn = 0) {rs : List (Nat × Nat)}
    (hread : s.copyReadFault g (o.chunkSrc, o.chunkEnd o.pos - o.pos) = none) (hxv : vaIsXv o.chunkSrc = false)
    (hcut : cutXv (o.chunkSrc, s.readEnd g o (o.chunkEnd o.pos) - o.pos) = [(o.chunkSrc, s.readEnd g o (o.chunkEnd o.pos) - o.pos)])
    (hr : s.runs g.part 0 o.chunkSrc (s.readEnd g o (o.chunkEnd o.pos) - o.pos) = some rs) :
    ∃ t, exec (.copyChunk o.id) s = .next t ∧
      t.mem = (s.putRuns (g.viewRuns o.chunkDst (o.chunkEnd o.pos - o.pos)) ((s.readRuns rs).take (o.chunkEnd o.pos - o.pos))).mem := by
  have hto : o.toPad = true := by simp [EngOp.toPad, hfn]
  have hfrom : o.fromPad = false := by simp [EngOp.fromPad, hfn]
  have h4 : o.fn ≠ 4 := by simp [hfn]
  have h7 : o.fn ≠ 7 := by simp [hfn]
  have hend := EngOp.lt_chunkEnd h.left
  refine copyChunk_toPad h hto (by omega) ?_ ?_
  · simp [State.chunkFault, hto, hfrom, h.ahead, EngOp.sources, h7, EngOp.src_chunk h4 hend, hread, firstFault]
  · rw [State.chunkBytes_global h4 h7 hfrom (hend.trans_le (s.le_readEnd ..)) hxv hcut hr]

theorem copyChunk_padToGlobal (h : s.Copying o g) (hfn : o.fn = 1) {rs : List (Nat × Nat)}
    (hfault : s.chunkFault g o o.pos (o.chunkEnd o.pos) = none) (hr : s.runs g.part 1 o.chunkDst (s.chunkStop g o - o.pos) = some rs) :
    ∃ t, exec (.copyChunk o.id) s = .next t ∧
      t.mem = (s.writeRuns none rs (s.readRuns (g.viewRuns o.chunkSrc (s.chunkStop g o - o.pos)))).mem := by
  have hto : o.toPad = false := by simp [EngOp.toPad, hfn]
  have hfrom : o.fromPad = true := by simp [EngOp.fromPad, hfn]
  have h4 : o.fn ≠ 4 := by simp [hfn]
  have hstop : o.pos < s.chunkStop g o := (EngOp.lt_chunkEnd h.left).trans_le (s.le_writeEnd ..)
  have htook : s.chunkTook g o (s.chunkStop g o) = s := by simp [State.chunkTook, hfrom]
  refine ⟨_, exec_copyChunk h (by simp [hfn]), ?_⟩
  rw [State.linearChunk_mem h hfault rfl (State.readEnd_fromPad hfrom _), htook, EngOp.dst_chunk h4 hstop,
    State.copyWrite_global_mem hto hr, State.chunkBytes_pad h4 (by simp [hfn]) hfrom hstop, List.take_take, Nat.min_self,
    List.take_of_length_le (s.readRuns_viewRuns_length_le ..), State.writeRuns_mem]

theorem copyChunk_fill (h : s.Copying o g) (hfn : o.fn = 7) (hpad : o.cw.testBit 12 = false) :
    ∃ t, exec (.copyChunk o.id) s = .next t ∧
      t.mem = (s.putRuns (g.viewRuns o.chunkDst (o.chunkEnd o.pos - o.pos))
        ((List.replicate ((o.chunkEnd o.pos - o.pos) / 4) (leBytes 4 (o.par 2 % 2 ^ 32))).flatten)).mem := by
  have hto : o.toPad = true := by
    simpa [EngOp.toPad, hfn, bit, Nat.testBit_eq_decide_div_mod_eq, Nat.shiftRight_eq_div_pow] using hpad
  refine copyChunk_toPad h hto (by omega) ?_ ?_
  · simp [State.chunkFault, hto, EngOp.sources, hfn, firstFault]
  · rw [State.readEnd_fill hfn, State.chunkBytes_fill hfn, List.take_of_length_le (flatten_replicate_leBytes_length_le ..)]

/-- Settles O36: a chunk reads one range and lands its bytes in one, and no other part of its step reaches memory. -/
theorem copiesMove : Obligations.CopiesMove :=
  fun _ _ _ h => ⟨fun _ hfn hread hxv hcut hr => copyChunk_globalToPad h hfn hread hxv hcut hr,
    fun _ hfn hfault hr => copyChunk_padToGlobal h hfn hfault hr, fun hfn hpad => copyChunk_fill h hfn hpad⟩

end Sys2Proof.Machine
end

section
/-!
PROOF. Launching (O41) fails: its last clause asks that the 512 bytes of a ring entry can be written, and an acceptance writes as many bytes as
the record takes (R102), which are more when its packet is longer than the 256 bytes of R95. The clause leaves the packet's length open.
-/

namespace Sys2Proof.Machine

/-- A record that is due to go to a ring whose entry cannot be written is not queued (R103; log 90). -/
theorem State.accept_of_unwritable {s : State} {d : Nat} {r : Record} {q : Partition} (hq : s.part (pkPart r.packet) = some q)
    (hfull : ¬ (s.storeRoom q (pkPart r.packet) d = true ∧ (q.ring d).count = 0)) (hring : (q.ring d).count < (q.ring d).entries)
    (hwrite : s.writeVa d (pkPart r.packet) 1 ((q.ring d).entryVa (q.ring d).count)
      { r with arrival := (s.die d).arrivals, next := r.from_ d 0 }.bytes = none) : s.accept d r false = (s, 2) := by
  have hstore : (s.storeRoom q (pkPart r.packet) d && (q.ring d).count == 0) = false := by simpa using hfull
  simp [State.accept, hq, hstore, hring, hwrite]

theorem Record.bytes_length (r : Record) : r.bytes.length = r.packet.length + r.wt.length + 248 := by
  simp only [Record.bytes, List.length_append, leBytes_length, List.length_map, List.length_replicate]
  omega

/-- A record whose packet has one byte more than the 256 of R95: it takes 513 bytes. -/
def longRecord : Record := { probeRecord with packet := List.replicate 257 0, wt := List.replicate 8 0 }

/-- A partition whose ring on CD0 holds one record of two; the place of the other is the last 512 bytes of the page at 0x10000. -/
def pageEndPartition : Partition := { probePartition with rings := [⟨0x1FE00, 2, 1, 1, [], []⟩] }

/-- A module whose page table of CD0 maps the page at 0x10000 alone, to 0x100000, for reads and writes. -/
def pageEnd : State :=
  { State.reset with
    parts := setNth State.reset.parts 0 (some pageEndPartition)
    mem := [(0, 1), (2, 0x10), (0x10000, 1), (0x10002, 0x20), (0x20008, 7), (0x2000B, 1)] }

theorem pageEnd_runs_entry : pageEnd.runs 0 1 0x1FE00 512 = some [(0x10FE00, 512)] := by
  decide

theorem pageEnd_runs_past_page : pageEnd.runs 0 1 0x1FE00 513 = none := by
  decide

theorem pageEnd_accept : pageEnd.accept 0 longRecord false = (pageEnd, 2) := by
  refine State.accept_of_unwritable (q := pageEndPartition) rfl (by decide) (by decide) ?_
  have hlen : { longRecord with arrival := (pageEnd.die 0).arrivals, next := longRecord.from_ 0 0 }.bytes.length = 513 :=
    (Record.bytes_length _).trans (congrArg (· + 8 + 248) List.length_replicate)
  change (pageEnd.runs 0 1 0x1FE00 _).map _ = none
  rw [hlen, pageEnd_runs_past_page, Option.map_none]

/-- Refutes O41: pageEnd maps the 512 bytes of its free ring entry, and yet takes a record of 513 bytes with status 2, not 1. -/
theorem not_launching : ¬ Obligations.Launching := by
  unfold Obligations.Launching
  rintro ⟨-, -, -, -, haccept⟩
  obtain ⟨-, -, hring⟩ := haccept pageEnd 0 longRecord pageEndPartition rfl (by decide)
  obtain ⟨hstatus, -⟩ := hring [(0x10FE00, 512)] (by decide) (by decide) pageEnd_runs_entry
  rw [pageEnd_accept] at hstatus
  exact absurd hstatus (by decide)

end Sys2Proof.Machine
end

section
/-!
PROOF. What the end of an instruction depends on (R149, R368, R384) stands as it did after a write to global memory, a message, a change of a
partition or a lease, and so after a record or a launch is queued and after a join counter is changed.
-/

namespace Sys2Proof.Machine

variable {s t : State}

/-- The second state has the halts, tick, gangs, crews, armed entries and cycles of the first. -/
structure State.Steady (s t : State) : Prop where
  halts : t.halts = s.halts
  tick : t.tick = s.tick
  gangs : t.gangs = s.gangs
  crews : t.crews = s.crews
  sxEntries : t.sxEntries = s.sxEntries
  watch : t.cores.map (·.watch) = s.cores.map (·.watch)
  cycles : ∀ d, (t.die d).cycles = (s.die d).cycles

namespace State.Steady

theorem refl (s : State) : s.Steady s := ⟨rfl, rfl, rfl, rfl, rfl, rfl, fun _ => rfl⟩

theorem watching (h : s.Steady t) : t.watching = s.watching := by
  have hany (u : State) : u.cores.any (fun c => c.watch.any (·.armed)) = (u.cores.map (·.watch)).any (fun w => w.any (·.armed)) := by
    rw [List.any_map]; rfl
  simp only [State.watching, h.sxEntries, hany, h.watch]

theorem ending (h : s.Steady t) (gid : Nat) : t.ending gid = s.ending gid := by
  simp only [State.ending, State.gang, State.crew, h.gangs, h.crews]

/-! ## What is told to the dies, sent or noted -/

theorem tells {u : State} (h : s.Steady t) (ht : t.Tells u) : s.Steady u :=
  ⟨ht.halts.trans h.halts, ht.tick.trans h.tick, by rw [ht.rest]; exact h.gangs, by rw [ht.rest]; exact h.crews,
    by rw [ht.rest]; exact h.sxEntries, by rw [ht.rest]; exact h.watch, fun d => (ht.cycles d).trans (h.cycles d)⟩

theorem foldl {α : Type} {f : State → α → State} (h : s.Steady t) (hf : ∀ u x, s.Steady u → s.Steady (f u x)) (xs : List α) :
    s.Steady (xs.foldl f t) := by
  induction xs generalizing t with
  | nil => exact h
  | cons x xs ih => exact ih (hf t x h)

theorem modDie {d : Nat} {f : Die → Die} (h : s.Steady t) (hf : ∀ x, (f x).cycles = x.cycles) : s.Steady (t.modDie d f) :=
  h.tells (.modDie t d hf)

theorem modPart (h : s.Steady t) (p : Nat) (f : Partition → Partition) : s.Steady (t.modPart p f) := { h with }

theorem modLease (h : s.Steady t) (k : Nat) (f : Lease → Lease) : s.Steady (t.modLease k f) := { h with }

theorem withLeases (h : s.Steady t) (ls : List Lease) : s.Steady { t with leases := ls } := { h with }

theorem withNextId (h : s.Steady t) (n : Nat) : s.Steady { t with nextId := n } := { h with }

theorem draw (h : s.Steady t) : s.Steady t.draw.2 := { h with }

theorem send (h : s.Steady t) (m : OutMsg) : s.Steady (t.send m) := { h with }

theorem notice (h : s.Steady t) (kind part die detail : Nat) (lid : W64) (body : List Byte) :
    s.Steady (t.notice kind part die detail lid body) := h.send _

theorem useRange (h : s.Steady t) (die part cls va n : Nat) : s.Steady (t.useRange die part cls va n) := h.tells (t.tells_useRange ..)

theorem hearRange (h : s.Steady t) (die va : Nat) : s.Steady (t.hearRange die va) := h.tells (t.tells_hearRange ..)

/-! ## Writes to global memory (R219, R236, R339) -/

/-- Lines dropped from some cores leave what every core watches. -/
theorem map_watch_l1 (cs : List Core) (hit : Core → Bool) (left : Core → List L1Line) :
    (cs.map fun c => if hit c then { c with l1 := left c } else c).map (·.watch) = cs.map (·.watch) := by
  rw [List.map_map]
  exact List.map_congr_left fun c _ => by dsimp only [Function.comp_apply]; split <;> rfl

theorem dropLines (h : s.Steady t) (d : Nat) (hit : Nat → Bool) (lines : List Nat) : s.Steady (t.dropLines d hit lines) :=
  { h with watch := (map_watch_l1 t.cores (fun c => c.die == d && hit c.core) _).trans h.watch }

theorem dropOwn (h : s.Steady t) (g : Gang) (rs : List (Nat × Nat)) : s.Steady (t.dropOwn g rs) :=
  { h with watch := (map_watch_l1 t.cores (fun c => c.die == g.die && c.core == g.core) _).trans h.watch }

theorem putBytes (h : s.Steady t) (a : Nat) (bs : List Byte) : s.Steady (t.putBytes a bs) := { h with }

theorem withBatches (h : s.Steady t) (bs : List InvalBatch) : s.Steady { t with batches := bs } := { h with }

theorem writeHome (h : s.Steady t) (e : Option (Nat × Nat)) (loc : Nat) (bs : List Byte) : s.Steady (t.writeHome e loc bs) := by
  unfold State.writeHome State.invalidate
  dsimp only
  split
  · exact (h.putBytes ..).dropLines ..
  · refine withBatches ?_ _
    exact modDie ((h.putBytes ..).dropLines ..) fun _ => rfl

theorem writeRuns (h : s.Steady t) (e : Option (Nat × Nat)) (rs : List (Nat × Nat)) (bs : List Byte) : s.Steady (t.writeRuns e rs bs) := by
  induction rs generalizing t bs with
  | nil => exact h
  | cons r rs ih => exact ih (h.writeHome ..) _

theorem writeVa {u : State} {die part kind va : Nat} {bs : List Byte} (h : s.Steady t) (hw : t.writeVa die part kind va bs = some u) :
    s.Steady u := by
  obtain ⟨rs, -, rfl⟩ := Option.map_eq_some_iff.1 hw
  exact (h.useRange ..).writeRuns ..

/-- An entry of a violation log is written, or lost and its loss reported (R19, R20). -/
theorem logViolation (h : s.Steady t) (part die va agentIdx agentType kind rdie : Nat) :
    s.Steady (t.logViolation part die va agentIdx agentType kind rdie) := by
  unfold State.logViolation
  dsimp only
  split
  next => exact h
  next =>
    split
    next hw => exact (h.modPart ..).writeVa hw
    next =>
      split
      · exact h.modPart ..
      · exact ((h.modPart ..).modPart ..).send _

theorem logAccess (h : s.Steady t) (part va agentIdx agentType kind rdie : Nat) :
    s.Steady (t.logAccess part va agentIdx agentType kind rdie) := h.logViolation ..

/-! ## Records and leases (R103, R121) -/

theorem accept (h : s.Steady t) (d : Nat) (r : Record) (reserve : Bool) : s.Steady (t.accept d r reserve).1 := by
  have counted {u : State} (hu : s.Steady u) :
      s.Steady ((u.modDie d fun x => { x with arrivals := x.arrivals + 1 }).countRecord r.lkey d (· + 1)) := by
    refine modLease ?_ ..
    exact hu.modDie fun _ => rfl
  have pushed (q : Record) : s.Steady (t.pushRecord d q) := h.modDie fun _ => rfl
  unfold State.accept
  dsimp only
  split
  next => exact h
  next =>
    split
    · exact counted (pushed _)
    · split
      · exact counted (pushed _)
      · split
        · split
          next => exact h
          next hw => exact counted ((h.writeVa hw).modPart ..)
        · exact h

theorem reside (h : s.Steady t) (l : Lease) (d : Nat) (spans : List (Nat × Nat)) : s.Steady (t.reside l d spans) := by
  unfold State.reside
  split
  · exact h
  · refine h.foldl (fun u q hu => foldl ?_ (fun v run hv => (hv.send _).modLease ..) _) spans
    split
    · exact hu.modLease ..
    · exact hu

theorem readHeader (h : s.Steady t) (lkey d : Nat) : s.Steady (t.readHeader lkey d) := by
  fun_cases State.readHeader t lkey d
  case case6 => exact (h.modLease ..).reside ..
  case case5 => exact h.modLease ..
  all_goals exact h

theorem openLease (h : s.Steady t) (lkey : Nat) (p : List Byte) : s.Steady (t.openLease lkey p) := by
  unfold State.openLease
  dsimp only
  refine foldl ?_ (fun u d hu => (hu.reside ..).readHeader ..) _
  exact h.withLeases _

theorem queueWhole (h : s.Steady t) (d : Nat) (p : List Byte) (reserve : Bool) : s.Steady (t.queueWhole d p reserve).1 := by
  unfold State.queueWhole
  dsimp only
  split
  · exact ((h.withNextId _).openLease ..).accept ..
  · exact h

/-! ## Join counters (R110, R111) -/

theorem contLost (h : s.Steady t) (part d va : Nat) (cont : W64) (detail : Nat) : s.Steady (t.contLost part d va cont detail) := h.notice ..

theorem continuation (h : s.Steady t) (part va : Nat) (cont : W64) : s.Steady (t.continuation part va cont) := by
  unfold State.continuation
  -- what is read does not matter; left in place, it would be evaluated when the proof is checked
  generalize t.readAny part 1 cont.toNat 256 = packet
  cases packet with
  | error f =>
    dsimp only
    split
    · exact h.draw.contLost ..
    · split
      · exact (h.logAccess ..).draw.contLost ..
      · exact h.draw.contLost ..
  | ok p =>
    dsimp only
    have heard := (h.useRange (vaDie va) part 0 cont.toNat 256).hearRange (vaDie va) cont.toNat
    generalize (t.useRange (vaDie va) part 0 cont.toNat 256).hearRange (vaDie va) cont.toNat = u at heard ⊢
    split
    · exact h.draw.contLost ..
    · split
      next => exact heard.contLost ..
      next =>
        split
        · exact heard.contLost ..
        · split
          next => exact heard.queueWhole ..
          next => exact (heard.queueWhole ..).contLost ..

theorem jcApply {u : State} {die part va : Nat} {delta old : W64} (h : s.Steady t) (hj : t.jcApply die part va delta = some (u, old)) :
    s.Steady u := by
  unfold State.jcApply at hj
  split at hj
  next => cases hj
  next rs _ =>
    obtain ⟨rfl, -⟩ := Prod.mk.inj (Option.some.inj hj)
    have written (bs : List Byte) := (h.useRange die part 0 va 16).writeRuns none rs bs
    split
    · refine notice ?_ ..
      split
      · exact (written _).continuation ..
      · exact written _
    · split
      · exact (written _).continuation ..
      · exact written _

end State.Steady

end Sys2Proof.Machine
end

section
/-!
PROOF. spawn, launch and the join counter instructions (O42).
-/

namespace Sys2Proof.Machine

variable {s t : State} {x : Ctx}

/-! ## Records under reads made whole -/

theorem State.die_modDie_field {α : Type} (p : Die → α) {f : Die → Die} (hf : ∀ x, p (f x) = p x) (e d : Nat) :
    p ((s.modDie e f).die d) = p (s.die d) := by
  by_cases he : d = e
  · subst he
    by_cases hd : d < s.dies.length
    · rw [State.die_modDie d f hd, hf]
    · rw [State.die_absent (by simpa [State.modDie] using hd), State.die_absent hd]
  · rw [State.die_modDie_ne f he]

theorem Die.llcTouch_store (d : Die) (quota slice line cls : Nat) : (d.llcTouch quota slice line cls).store = d.store := by
  unfold Die.llcTouch
  dsimp only
  (repeat' split) <;> rfl

/-- A read made whole leaves every die's records alone. -/
theorem State.store_tookRange (s : State) (g : Gang) (va n d : Nat) : ((s.tookRange g va n).die d).store = (s.die d).store := by
  have carry (t : State) (src dst : Nat) : ((t.carryClock src dst).die d).store = (t.die d).store := by
    unfold State.carryClock
    split
    · rfl
    · refine State.die_modDie_field Die.store (fun _ => ?_) ..
      rfl
  have touch (part cls fuel : Nat) : ∀ (t : State) (va n : Nat), ((t.touchRange part cls fuel va n).die d).store = (t.die d).store := by
    induction fuel with
    | zero => exact fun _ _ _ => rfl
    | succ fuel ih =>
      intro t va n
      unfold State.touchRange
      split
      · rfl
      · refine (ih ..).trans ?_
        split
        · rfl
        · refine State.die_modDie_field Die.store (fun x => ?_) ..
          exact foldl_field Die.store (fun y l => y.llcTouch_store ..) _ _
  have use (t : State) (die part cls va n : Nat) : ((t.useRange die part cls va n).die d).store = (t.die d).store := by
    unfold State.useRange
    split
    · rfl
    · exact (carry ..).trans (touch ..)
  have xv (part fuel : Nat) : ∀ (t : State) (va n : Nat), ((t.xvUse part fuel va n).die d).store = (t.die d).store := by
    induction fuel with
    | zero => exact fun _ _ _ => rfl
    | succ fuel ih =>
      intro t va n
      unfold State.xvUse
      split
      · rfl
      · split
        · rfl
        · refine (ih ..).trans ?_
          split
          · exact ((carry ..).trans (use ..)).trans ((carry ..).trans (use ..))
          · exact (carry ..).trans (use ..)
  unfold State.tookRange State.tookAs
  split
  · rfl
  · refine foldl_field (fun t : State => (t.die d).store) (fun t r => (carry ..).trans ?_) _ _
    split
    · exact (xv ..).trans (carry ..)
    · exact use ..

theorem State.taskOf_tookRange (s : State) (g h : Gang) (va n : Nat) : (s.tookRange g va n).taskOf h = s.taskOf h := by
  have hcrew : (s.tookRange g va n).crew h.crew = s.crew h.crew := by rw [(s.tells_tookRange g va n).rest]; rfl
  simp only [State.taskOf, State.record, hcrew, State.store_tookRange]

theorem State.Tells.packetCheck (h : s.Tells t) (p : List Byte) (die : Option Nat) : t.packetCheck p die = s.packetCheck p die := by
  rw [h.rest]; rfl

theorem State.Tells.pushable (h : s.Tells t) (part : Nat) : t.pushable part = s.pushable part := by
  rw [h.rest]; rfl

/-! ## Instructions that leave their bundle's surroundings -/

/-- An instruction whose meaning is a uniform one that is done completes when all that it does beside its bundle is steady. -/
theorem completes_of_steady {i : Instr} {control : Bool} {len : Nat} {form : Form} {w : XWord} {ok : Ctx → State → Prop}
    {eff : Ctx → State → State} {f : Ctx → State → Bundle → Bundle} {act : Ctx → State → Eff}
    (he : ∀ s, exec i s = runUniform control len (fun _ => form) w noExtra act s)
    (ha : ∀ s x, ok x s → act x s = .done ((eff x s).modBundle x.c.gid x.c.bundle (f x s)))
    (hh : ∀ s x, ok x s → s.Steady (eff x s)) : Completes i control len form w ok eff f := by
  classical
  have steady (s : State) (x : Ctx) : s.Steady (if ok x s then eff x s else s) := by
    split
    next ho => exact hh s x ho
    next => exact .refl s
  have h := completes_of (eff := fun x s => if ok x s then eff x s else s) he (fun _ _ _ _ => rfl)
    (fun s x _ ho => by rw [if_pos ho]; exact ha s x ho)
    fun s x => ⟨(steady s x).halts, (steady s x).tick, (steady s x).cycles _, (steady s x).ending _⟩
  intro s x hi hd hf ho
  have hc := h s x hi hd hf ho
  simpa only [if_pos ho] using hc

theorem State.unreleased_of_quiet (h : s.quiet x) : s.unreleased x = false := by
  obtain ⟨hpending, hsettled⟩ := h
  simp [State.unreleased, hpending, hsettled]

theorem State.seeGlobal_unwatched (h : s.watching = false) (v : WatchEvent) (step : Nat) (bs : List Byte) : s.seeGlobal v step bs = s := by
  simp [State.seeGlobal, h]

/-! ## spawn and launch (R116, R117) -/

/-- The record of a spawned launch before its acceptance. -/
def Ctx.childRecord (x : Ctx) (w : XWord) (r : Record) : Record :=
  newRecord (childPacket r.packet (x.sn w.a9.toNat) (x.s w.b9.toNat) (x.s w.c9.toNat)) r.lkey 0 (List.replicate 8 0) 1 0 (x.sn w.a9.toNat) true

theorem execSpawn_completes (w : XWord) (r : Record) : Completes (.spawn w) false 12
    (opForm .scalar .scalar .scalar .scalar true (w.m6 = 0 && w.nwb = 0 && w.imm = 0)) w
    (fun x s => 1 ≤ x.sn w.a9.toNat ∧ x.sn w.a9.toNat < 2 ^ 24 ∧ x.sn w.c9.toNat % 16 = 0 ∧
      s.quiet x ∧ s.taskOf x.g = some r ∧ s.pushable x.g.part = true)
    (fun x s => (s.accept x.g.die (x.childRecord w r) false).1)
    (fun x s b => b.writeS w.d9.toNat (BitVec.ofNat 64 (s.accept x.g.die (x.childRecord w r) false).2)) := by
  refine completes_of_steady (fun _ => rfl) (fun s x ⟨hlow, hhigh, halign, hquiet, htask, hpush⟩ => ?_)
    fun s x _ => (State.Steady.refl s).accept ..
  have hn : (x.sn w.a9.toNat == 0 || decide (x.sn w.a9.toNat > 0xFFFFFF)) = false := by
    rw [Bool.or_eq_false_iff, beq_eq_false_iff_ne, decide_eq_false_iff_not]
    omega
  simp only [hn, halign, State.unreleased_of_quiet hquiet, htask, hpush]
  rfl

theorem execSpawn_refuses (w : XWord) : Completes (.spawn w) false 12
    (opForm .scalar .scalar .scalar .scalar true (w.m6 = 0 && w.nwb = 0 && w.imm = 0)) w
    (fun x _ => x.sn w.a9.toNat = 0 ∨ 2 ^ 24 ≤ x.sn w.a9.toNat) noEffect (fun _ _ b => b.writeS w.d9.toNat 3) := by
  refine completes_of_steady (fun _ => rfl) (fun s x h => ?_) fun s x _ => .refl s
  have hn : (x.sn w.a9.toNat == 0 || decide (x.sn w.a9.toNat > 0xFFFFFF)) = true := by
    rw [Bool.or_eq_true, beq_iff_eq, decide_eq_true_iff]
    omega
  simp only [hn]
  rfl

/-- The address that launch, jc.init and jc.add form of a scalar and their immediate. -/
def Ctx.immVa (x : Ctx) (w : XWord) : Nat := (x.s w.a9.toNat + w.imm.signExtend 64).toNat

theorem execLaunchInstruction_completes (w : XWord) (p : List Byte) : Completes (.launchInstruction w) false 12
    (opForm .scalar .scalar .unused .unused true (w.m6 = 0 && w.nwb = 0)) w
    (fun x s => s.watching = false ∧ x.immVa w % 64 = 0 ∧
      s.acquireRead x (x.immVa w) 256 = .bytes p (s.tookRange x.g (x.immVa w) 256) ∧ s.packetCheck p (some x.g.die) = none ∧
      pkPart p = x.g.part ∧ (∃ r, s.taskOf x.g = some r ∧ pkClass p ≤ pkClass r.packet) ∧ s.pushable x.g.part = true)
    (fun x s => ((s.tookRange x.g (x.immVa w) 256).queueWhole x.g.die p false).1)
    (fun x s b => b.writeS w.d9.toNat (BitVec.ofNat 64 ((s.tookRange x.g (x.immVa w) 256).queueWhole x.g.die p false).2)) := by
  refine completes_of_steady (fun _ => rfl) (fun s x ⟨hwatch, halign, hread, hcheck, hpart, ⟨r, htask, hclass⟩, hpush⟩ => ?_)
    fun s x _ => ((State.Steady.refl s).tells (s.tells_tookRange ..)).queueWhole ..
  have took := s.tells_tookRange x.g (x.immVa w) 256
  simp only [Ctx.immVa, Ctx.s] at *
  generalize (x.b.readS w.a9.toNat + w.imm.signExtend 64).toNat = va at *
  simp [halign, hread, State.seeRead_unwatched (took.watching.trans hwatch), took.packetCheck, hcheck, hpart, State.taskOf_tookRange, htask,
    hclass, took.pushable, hpush, State.setS]

theorem execLaunchInstruction_refuses (w : XWord) (p : List Byte) : Completes (.launchInstruction w) false 12
    (opForm .scalar .scalar .unused .unused true (w.m6 = 0 && w.nwb = 0)) w
    (fun x s => s.watching = false ∧ x.immVa w % 64 = 0 ∧
      s.acquireRead x (x.immVa w) 256 = .bytes p (s.tookRange x.g (x.immVa w) 256) ∧
      (s.packetCheck p (some x.g.die) ≠ none ∨ pkPart p ≠ x.g.part))
    (fun x s => s.tookRange x.g (x.immVa w) 256) (fun _ _ b => b.writeS w.d9.toNat 3) := by
  refine completes_of_tells (fun _ => rfl) (fun s x => s.tells_tookRange ..) (fun s x ⟨hwatch, halign, hread, hbad⟩ => ?_)
  have took := s.tells_tookRange x.g (x.immVa w) 256
  have hrefused : ((s.packetCheck p (some x.g.die)).isSome || pkPart p != x.g.part) = true := by
    simpa [Option.isSome_iff_ne_none] using hbad
  simp only [Ctx.immVa, Ctx.s] at *
  generalize (x.b.readS w.a9.toNat + w.imm.signExtend 64).toNat = va at *
  simp [halign, hread, State.seeRead_unwatched (took.watching.trans hwatch), took.packetCheck, hrefused, State.setS]

/-! ## Join counters (R110, R118, R119) -/

theorem State.jcFault_none {va kind : Nat} (ha : va % 16 = 0) (hc : s.checkAccess x.g kind va 16 = none) : s.jcFault x kind va = none := by
  simp [State.jcFault, ha, hc, failIf, firstFault]

theorem State.writeGang_ok {g : Gang} {kind va : Nat} {bs : List Byte} {rs : List (Nat × Nat)}
    (hc : s.checkAccess g kind va bs.length = none) (hr : s.runs g.part kind va bs.length = some rs) :
    s.writeGang g kind va bs =
      .ok ((((s.useRange g.die g.part 0 va bs.length).writeRuns none rs bs).dropOwn g rs).hearRange g.die va) := by
  simp [State.writeGang, State.writeVa, hc, hr]

theorem execJcInit_completes (w : XWord) (rs : List (Nat × Nat)) : Completes (.jcInit w) false 12
    (opForm .unused .scalar .scalar .scalar true (w.m6 = 0 && w.nwb = 0)) w
    (fun x s => s.watching = false ∧ x.immVa w % 16 = 0 ∧ s.checkAccess x.g 1 (x.immVa w) 16 = none ∧
      s.runs x.g.part 1 (x.immVa w) 16 = some rs ∧ s.quiet x)
    (fun x s => (((s.useRange x.g.die x.g.part 0 (x.immVa w) 16).writeRuns none rs
      (leBytes 8 (x.sn w.b9.toNat) ++ leBytes 8 (x.sn w.c9.toNat))).dropOwn x.g rs).hearRange x.g.die (x.immVa w)) (fun _ _ b => b) := by
  have steady (s : State) (x : Ctx) (bs : List Byte) :=
    ((((State.Steady.refl s).useRange x.g.die x.g.part 0 (x.immVa w) 16).writeRuns none rs bs).dropOwn x.g rs).hearRange x.g.die (x.immVa w)
  refine completes_of_steady (fun _ => rfl) (fun s x ⟨hwatch, halign, hcheck, hruns, hquiet⟩ => ?_) fun s x _ => steady ..
  have hlen : (leBytes 8 (x.sn w.b9.toNat) ++ leBytes 8 (x.sn w.c9.toNat)).length = 16 := by simp
  have hwrite := State.writeGang_ok (hlen.symm ▸ hcheck) (hlen.symm ▸ hruns)
  have hunseen := State.seeGlobal_unwatched ((steady s x (leBytes 8 (x.sn w.b9.toNat) ++ leBytes 8 (x.sn w.c9.toNat))).watching.trans hwatch)
  rw [hlen] at hwrite
  rw [State.modBundle_id]
  simp only [Ctx.immVa, Ctx.s] at *
  generalize (x.b.readS w.a9.toNat + w.imm.signExtend 64).toNat = va at *
  simp only [State.jcFault_none halign hcheck, State.unreleased_of_quiet hquiet, hwrite, hunseen, Bool.false_eq_true, if_false]

theorem execJcAdd_completes (w : XWord) (t : State) (old : W64) (rs : List (Nat × Nat)) : Completes (.jcAdd w) false 12
    (opForm .scalar .scalar .scalar .unused true (w.m6 = 0 && w.nwb = 0)) w
    (fun x s => s.watching = false ∧ x.immVa w % 16 = 0 ∧ s.checkAccess x.g 2 (x.immVa w) 16 = none ∧ s.poison = [] ∧
      s.runs x.g.part 2 (x.immVa w) 16 = some rs ∧ s.quiet x ∧ s.settled (vaDie (x.immVa w)) = true ∧
      s.jcApply x.g.die x.g.part (x.immVa w) (x.s w.b9.toNat) = some (t, old))
    (fun x _ => (t.dropOwn x.g rs).hearRange x.g.die (x.immVa w)) (fun _ _ b => b.writeS w.d9.toNat old) := by
  have steady {s : State} {x : Ctx} (h : s.jcApply x.g.die x.g.part (x.immVa w) (x.s w.b9.toNat) = some (t, old)) :=
    (((State.Steady.refl s).jcApply h).dropOwn x.g rs).hearRange x.g.die (x.immVa w)
  refine completes_of_steady (fun _ => rfl)
    (fun s x ⟨hwatch, halign, hcheck, hpoison, hruns, hquiet, hsettled, hjc⟩ => ?_)
    fun s x ⟨_, _, _, _, _, _, _, hjc⟩ => steady hjc
  have hunseen := State.seeGlobal_unwatched ((steady hjc).watching.trans hwatch)
  have hclean : s.poisonedRuns rs = false := by simp [State.poisonedRuns, State.poisoned, hpoison]
  simp only [Ctx.immVa] at *
  generalize hva : (x.s w.a9.toNat + w.imm.signExtend 64).toNat = va at *
  rw [Ctx.s] at hva
  simp [hva, State.jcFault_none halign hcheck, State.unreleased_of_quiet hquiet, hsettled, hruns, hclean, hjc, hunseen, State.setS]

/-- What a join counter's change does, by its condition: the continuation starts, nothing more, or the underflow is noticed. -/
theorem State.jcApply_cases {die part va : Nat} {rs : List (Nat × Nat)} (delta : W64) (hr : s.runs part 2 va 16 = some rs) :
    let old := BitVec.ofNat 64 (leAt (s.readRuns rs) 0 8)
    let cont := BitVec.ofNat 64 (leAt (s.readRuns rs) 8 8)
    let t := (s.useRange die part 0 va 16).writeRuns none rs (leBytes 8 (old + delta).toNat ++ leBytes 8 cont.toNat)
    (0 < old.toInt → old + delta = 0 → cont ≠ 0 → s.jcApply die part va delta = some (t.continuation part va cont, old)) ∧
    (¬ (0 < old.toInt ∧ old + delta = 0 ∧ cont ≠ 0) → ¬ (0 ≤ old.toInt ∧ (old + delta).toInt < 0) →
      s.jcApply die part va delta = some (t, old)) ∧
    (0 ≤ old.toInt → (old + delta).toInt < 0 → s.jcApply die part va delta =
      some (t.notice 9 part (vaDie va) 0 0 (leBytes 8 va ++ leBytes 8 old.toNat ++ leBytes 8 delta.toNat), old)) := by
  intro old cont t
  have happly : s.jcApply die part va delta =
      some (if 0 ≤ old.toInt ∧ (old + delta).toInt < 0 then
          (if 0 < old.toInt ∧ old + delta = 0 ∧ cont ≠ 0 then t.continuation part va cont else t).notice 9 part (vaDie va) 0 0
            (leBytes 8 va ++ leBytes 8 old.toNat ++ leBytes 8 delta.toNat)
        else if 0 < old.toInt ∧ old + delta = 0 ∧ cont ≠ 0 then t.continuation part va cont else t, old) := by
    simp only [State.jcApply, hr, BitVec.slt_eq_decide, Bool.and_eq_true, decide_eq_true_eq, beq_iff_eq, bne_iff_ne,
      Bool.not_eq_true', decide_eq_false_iff_not, Int.not_lt, and_assoc]
    rfl
  refine ⟨fun hold hnew hcont => ?_, fun hstart hunder => ?_, fun hold hnew => ?_⟩
  · rw [happly, if_neg (by simp [hnew]), if_pos ⟨hold, hnew, hcont⟩]
  · rw [happly, if_neg hunder, if_neg hstart]
  · rw [happly, if_pos ⟨hold, hnew⟩, if_neg fun ⟨_, hzero, _⟩ => by simp [hzero] at hnew]

/-! ## The packet of a spawned launch (R116) -/

theorem setBits_eq (n lo len v : Nat) : setBits n lo len v = 2 ^ lo * (2 ^ len * (n / 2 ^ (lo + len)) + v % 2 ^ len) + n % 2 ^ lo := by
  rw [setBits, Nat.shiftLeft_eq, Nat.shiftLeft_eq, Nat.shiftRight_eq_div_pow, Nat.pow_add]
  ring

/-- A field set holds the value's low bits, and every other bit is as it was. -/
theorem testBit_setBits (n lo len v i : Nat) :
    (setBits n lo len v).testBit i = if lo ≤ i ∧ i < lo + len then v.testBit (i - lo) else n.testBit i := by
  have hlow : n % 2 ^ lo < 2 ^ lo := Nat.mod_lt _ (by positivity)
  have hmid : v % 2 ^ len < 2 ^ len := Nat.mod_lt _ (by positivity)
  rw [setBits_eq, Nat.testBit_two_pow_mul_add _ hlow, Nat.testBit_two_pow_mul_add _ hmid, Nat.testBit_mod_two_pow, Nat.testBit_mod_two_pow,
    Nat.testBit_div_two_pow]
  by_cases h1 : i < lo
  · simp [h1, Nat.not_le.2 h1]
  · by_cases h2 : i - lo < len
    · have : lo ≤ i ∧ i < lo + len := by omega
      simp [h1, h2, this]
    · have hn : ¬ (lo ≤ i ∧ i < lo + len) := by omega
      have hi : i - lo - len + (lo + len) = i := by omega
      simp [h1, h2, hn, hi]

theorem setBits_lt {n lo len v k : Nat} (hn : n < 2 ^ k) (hk : lo + len ≤ k) : setBits n lo len v < 2 ^ k := by
  refine Nat.lt_pow_two_of_testBit _ fun i hi => ?_
  rw [testBit_setBits, if_neg (by omega)]
  exact Nat.testBit_lt_two_pow (hn.trans_le (Nat.pow_le_pow_right (by decide) hi))

@[simp] theorem pkSet_length (p : List Byte) (lo len v : Nat) : (pkSet p lo len v).length = p.length := leBytes_length ..

theorem leNat_pkSet {p : List Byte} {lo len : Nat} (v : Nat) (h : lo + len ≤ 8 * p.length) :
    leNat (pkSet p lo len v) = setBits (leNat p) lo len v := by
  have hp : 256 ^ p.length = 2 ^ (8 * p.length) := by rw [Nat.pow_mul]
  refine leNat_leBytes_of_lt ?_
  rw [hp]
  exact setBits_lt (hp ▸ leNat_lt p) h

theorem testBit_fieldOf (bs : List Byte) (lo len i : Nat) : (fieldOf bs lo len).testBit i = (decide (i < len) && (leNat bs).testBit (lo + i)) := by
  rw [fieldOf_eq, Nat.testBit_mod_two_pow, Nat.testBit_div_two_pow, Nat.add_comm]

theorem fieldOf_pkSet_same {p : List Byte} {lo len : Nat} (v : Nat) (h : lo + len ≤ 8 * p.length) :
    fieldOf (pkSet p lo len v) lo len = v % 2 ^ len := by
  refine Nat.eq_of_testBit_eq fun i => ?_
  rw [testBit_fieldOf, leNat_pkSet v h, testBit_setBits, Nat.testBit_mod_two_pow]
  by_cases hi : i < len
  · simp [hi]
  · simp [hi]

theorem fieldOf_pkSet_other {p : List Byte} {lo len lo' len' : Nat} (v : Nat) (h : lo + len ≤ 8 * p.length)
    (hd : lo' + len' ≤ lo ∨ lo + len ≤ lo') : fieldOf (pkSet p lo len v) lo' len' = fieldOf p lo' len' := by
  refine Nat.eq_of_testBit_eq fun i => ?_
  rw [testBit_fieldOf, testBit_fieldOf, leNat_pkSet v h, testBit_setBits]
  by_cases hi : i < len'
  · rw [if_neg (by omega)]
  · simp [hi]

/-- A field of a child's packet that spawn does not set is its task's. -/
theorem fieldOf_childPacket_other {p : List Byte} {lo len : Nat} (hp : p.length = 256) (n : Nat) (a j : W64)
    (hd : ∀ r ∈ [(128, 24), (384, 64), (256, 64), (59, 2), (160, 16)], lo + len ≤ r.1 ∨ r.1 + r.2 ≤ lo) :
    fieldOf (childPacket p n a j) lo len = fieldOf p lo len := by
  simp only [List.forall_mem_cons] at hd
  obtain ⟨hcrews, harg, hjc, hmode, hbase, -⟩ := hd
  simp (disch := simp [hp]) only [childPacket, fieldOf_pkSet_other _ _ hcrews, fieldOf_pkSet_other _ _ harg, fieldOf_pkSet_other _ _ hjc,
    fieldOf_pkSet_other _ _ hmode, fieldOf_pkSet_other _ _ hbase]

theorem childPacket_fields {p : List Byte} {n : Nat} (a j : W64) (hp : p.length = 256) (hn : n < 2 ^ 24) :
    let c := childPacket p n a j
    pkCrews c = n ∧ wordOf c 384 = a ∧ pkJc c = j.toNat ∧ pkPinMode c = 0 ∧ pkPinBase c = 0 ∧ pkPart c = pkPart p ∧
      pkKva c = pkKva p ∧ pkLid c = pkLid p ∧ pkClass c = pkClass p ∧ pkRanks c = pkRanks p ∧ pkDeadline c = pkDeadline p := by
  have hcrews : fieldOf (childPacket p n a j) 128 24 = n % 2 ^ 24 := by
    simp (disch := simp [hp]) only [childPacket, fieldOf_pkSet_other, fieldOf_pkSet_same]
  have harg : fieldOf (childPacket p n a j) 384 64 = a.toNat % 2 ^ 64 := by
    simp (disch := simp [hp]) only [childPacket, fieldOf_pkSet_other, fieldOf_pkSet_same]
  have hjc : fieldOf (childPacket p n a j) 256 64 = j.toNat % 2 ^ 64 := by
    simp (disch := simp [hp]) only [childPacket, fieldOf_pkSet_other, fieldOf_pkSet_same]
  have hmode : fieldOf (childPacket p n a j) 59 2 = 0 % 2 ^ 2 := by
    simp (disch := simp [hp]) only [childPacket, fieldOf_pkSet_other, fieldOf_pkSet_same]
  have hbase : fieldOf (childPacket p n a j) 160 16 = 0 := fieldOf_pkSet_same _ (by simp [hp])
  refine ⟨hcrews.trans (Nat.mod_eq_of_lt hn), ?_, hjc.trans (Nat.mod_eq_of_lt j.isLt), hmode, hbase, ?_, ?_, ?_, ?_, ?_, ?_⟩
  · rw [wordOf, harg, Nat.mod_eq_of_lt a.isLt, BitVec.ofNat_toNat, BitVec.setWidth_eq]
  · exact fieldOf_childPacket_other hp n a j (by decide)
  · exact congrArg (BitVec.ofNat 64) (fieldOf_childPacket_other hp n a j (by decide))
  · exact congrArg (BitVec.ofNat 64) (fieldOf_childPacket_other hp n a j (by decide))
  · exact fieldOf_childPacket_other hp n a j (by decide)
  · exact congrArg (· + 1) (fieldOf_childPacket_other hp n a j (by decide))
  · exact fieldOf_childPacket_other hp n a j (by decide)

/-- Settles O42: each instruction by what it does once its checks have passed, a child's packet field by field, and a counter's change by the
value that it falls to. -/
theorem launchInstructions : Obligations.LaunchInstructions :=
  ⟨execSpawn_completes, execSpawn_refuses, fun _ _ a j hp hn => childPacket_fields a j hp hn, execLaunchInstruction_completes,
    execLaunchInstruction_refuses, execJcInit_completes, execJcAdd_completes, fun _ _ _ _ delta _ hr => State.jcApply_cases delta hr⟩

end Sys2Proof.Machine
end

section
/-!
PROOF. Placement (O44): a crew placed with its registers 0, a record that waits and the crews that are stopped for it, LATE, and pinned
segments.
-/

namespace Sys2Proof.Machine

variable {s : State}

/-! ## A crew placed (R127, R128, R144) -/

/-- A gang as it stands at its start: every handle is unbound, and every timeline, accumulator and register is 0. -/
structure Gang.Fresh (g : Gang) : Prop where
  bundles : g.bundles.length ≤ g.kernel.bundles
  tl : g.tl = [0, 0, 0, 0]
  handles : ∀ h ∈ g.handles, h = none
  acc : ∀ row ∈ g.acc, ∀ e ∈ row, e = 0
  regs : ∀ b ∈ g.bundles, (∀ v ∈ b.s, v = 0) ∧ b.ycount = g.kernel.yieldMax ∧
    ∀ y ∈ b.lanes, (∀ v ∈ y.v, v = 0) ∧ (∀ v ∈ y.o, v = 0) ∧ y.p = 0 ∧ y.plane = 0

theorem State.startGang_fresh (s : State) (o : Offer) (gid cid d core rank : Nat) : (s.startGang o gid cid d core rank).Fresh where
  bundles := by simp [State.startGang, lowestFree]
  tl := rfl
  handles _ h := List.eq_of_mem_replicate h
  acc row hrow e he := by
    rw [List.eq_of_mem_replicate hrow] at he
    exact List.eq_of_mem_replicate he
  regs b hb := by
    obtain ⟨slot, -, rfl⟩ := List.mem_map.1 hb
    refine ⟨fun _ h => List.eq_of_mem_replicate h, rfl, fun y hy => ?_⟩
    obtain rfl : y = Lane.start o.kernel.v := List.eq_of_mem_replicate hy
    exact ⟨fun _ h => List.eq_of_mem_replicate h, fun _ h => List.eq_of_mem_replicate h, rfl, rfl⟩

/-- Every gang of a list is started on its core, and those that were there stay. -/
theorem State.mem_startGangs {o : Offer} {cid d : Nat} (xs : List (Nat × Nat × Nat)) (s : State) :
    (∀ g ∈ s.gangs, g ∈ (s.startGangs o cid d xs).gangs) ∧
      ∀ x ∈ xs, ∃ t : State, t.startGang o x.2.2 cid d x.2.1 x.1 ∈ (s.startGangs o cid d xs).gangs := by
  induction xs generalizing s with
  | nil => exact ⟨fun _ h => h, fun _ h => nomatch h⟩
  | cons x xs ih =>
    obtain ⟨hold, hnew⟩ := ih (({ s with gangs := s.gangs ++ [s.startGang o x.2.2 cid d x.2.1 x.1] }).clearPad
      (padLoc d x.2.1 (s.startGang o x.2.2 cid d x.2.1 x.1).scratchBase) (alignUp o.kernel.scratch 128))
    refine ⟨fun g hg => hold g (List.mem_append_left _ hg), fun y hy => ?_⟩
    rcases List.mem_cons.1 hy with rfl | hy
    · exact ⟨s, hold _ (List.mem_append_right _ List.mem_cons_self)⟩
    · exact hnew y hy

theorem State.clusterCores_length {d cluster : Nat} {gone cores : List Nat} {o : Offer} (hseg : o.seg = none)
    (h : s.clusterCores d cluster gone o = some cores) : cores.length = o.ranks.length := by
  simp only [State.clusterCores, hseg] at h
  split at h
  next => cases h
  next hroom =>
    obtain rfl := Option.some.inj h
    exact List.length_take_of_le (Nat.not_lt.1 hroom)

theorem State.chooseCores_length {d c : Nat} {cores : List Nat} {o : Offer} (hseg : o.seg = none)
    (h : s.chooseCores d o = some (c, cores)) : cores.length = o.ranks.length := by
  unfold State.chooseCores at h
  split at h
  next a b ha hb =>
    split at h
    · exact (Prod.mk.inj (Option.some.inj h)).2 ▸ State.clusterCores_length hseg ha
    · exact (Prod.mk.inj (Option.some.inj h)).2 ▸ State.clusterCores_length hseg hb
  next a ha _ => exact (Prod.mk.inj (Option.some.inj h)).2 ▸ State.clusterCores_length hseg ha
  next b _ hb => exact (Prod.mk.inj (Option.some.inj h)).2 ▸ State.clusterCores_length hseg hb
  next => cases h

@[simp] theorem State.takeTurn_gangs (s before : State) (d : Nat) (r : Record) : (s.takeTurn before d r).gangs = s.gangs := by
  unfold State.takeTurn
  dsimp only
  split <;> rfl

@[simp] theorem State.takeTurn_crews (s before : State) (d : Nat) (r : Record) : (s.takeTurn before d r).crews = s.crews := by
  unfold State.takeTurn
  dsimp only
  split <;> rfl

/-- The gangs that an offer of a crew never placed before starts, as rank, core and identity. -/
def Offer.seats (o : Offer) (cid : Nat) (cores : List Nat) : List (Nat × Nat × Nat) :=
  o.ranks.zip (cores.zip ((List.range o.ranks.length).map (fun i => cid + 1 + i)))

theorem State.placeCrew_gangs {d c : Nat} {cores : List Nat} {o : Offer} (hsaved : o.saved = []) :
    ∃ t : State, (s.placeCrew d c cores o).gangs = (t.startGangs o s.nextId d (o.seats s.nextId cores)).gangs := by
  unfold State.placeCrew
  simp only [hsaved, List.isEmpty_nil, if_true, State.modDie_gangs, State.modRecord]
  split <;> exact ⟨_, rfl⟩

theorem State.placeCrew_crews {d c : Nat} {cores : List Nat} {o : Offer} (hsaved : o.saved = []) :
    ∃ q ∈ (s.placeCrew d c cores o).crews,
      q.cid = s.nextId ∧ q.die = d ∧ q.cluster = c ∧ q.arrival = o.rec_.arrival ∧ q.index = o.index := by
  unfold State.placeCrew
  simp only [hsaved, List.isEmpty_nil, if_true, State.modDie_crews, State.modRecord]
  refine ⟨_, List.mem_append_right _ List.mem_cons_self, ?_, rfl, rfl, rfl, rfl⟩
  dsimp only
  split <;> rfl

theorem Offer.seat_mem {o : Offer} {n k : Nat} {cores : List Nat} (cid : Nat) (hr : o.ranks = List.range n) (hc : cores.length = n)
    (hk : k < n) : (k, cores.getD k 0, cid + 1 + k) ∈ o.seats cid cores := by
  refine List.mem_iff_getElem.2 ⟨k, by simp [Offer.seats, hr, hc, hk], ?_⟩
  simp [Offer.seats, hr, hc, hk]

/-- What a record none of whose crews is stopped offers (R102, R107). -/
theorem State.offer_next {r : Record} {o : Offer} (h : s.offer r = some o) (hstop : r.stoppedCrews = []) :
    o.rec_ = r ∧ o.index = r.next ∧ o.ranks = List.range (pkRanks r.packet) := by
  unfold State.offer at h
  dsimp only at h
  split at h
  next => cases h
  next =>
    simp only [hstop] at h
    obtain rfl := Option.some.inj h
    exact ⟨rfl, rfl, rfl⟩

theorem State.tryPlace_chosen {d c : Nat} {r : Record} {o : Offer} {cores : List Nat} (ho : s.offer r = some o) (hseg : o.seg = none)
    (hc : s.chooseCores d o = some (c, cores)) : s.tryPlace d r = some (s.placeCrew d c cores o) := by
  simp [State.tryPlace, ho, hseg, hc]

theorem exec_crewPlace_first {die : Nat} {r : Record} {rest : List Record} {t : State} (hd : die < 8) (hf : s.failed = false)
    (horder : s.placeOrder die = r :: rest) (hplace : s.tryPlace die r = some t) : exec (.crewPlace die) s = .next (t.takeTurn s die r) := by
  change execCrewPlace die s = _
  simp [execCrewPlace, Nat.not_le.2 hd, hf, horder, hplace]

theorem crewPlace_places {die c : Nat} {r : Record} {rest : List Record} {o : Offer} {cores : List Nat} (hd : die < 8) (hf : s.failed = false)
    (horder : s.placeOrder die = r :: rest) (ho : s.offer r = some o) (hsaved : o.saved = []) (hseg : o.seg = none)
    (hstop : r.stoppedCrews = []) (hc : s.chooseCores die o = some (c, cores)) :
    ∃ t q, exec (.crewPlace die) s = .next t ∧ q ∈ t.crews ∧ q.cid = s.nextId ∧ q.die = die ∧ q.cluster = c ∧
      q.arrival = r.arrival ∧ q.index = r.next ∧ cores.length = pkRanks r.packet ∧
      ∀ k < pkRanks r.packet, ∃ g ∈ t.gangs, g.crew = q.cid ∧ g.rank = k ∧ g.die = die ∧ g.core = cores.getD k 0 ∧
        g.part = pkPart r.packet ∧ g.kernel = o.kernel ∧ g.bundles.length ≤ o.kernel.bundles ∧ g.tl = [0, 0, 0, 0] ∧
        (∀ h ∈ g.handles, h = none) ∧ (∀ row ∈ g.acc, ∀ e ∈ row, e = 0) ∧
        ∀ b ∈ g.bundles, (∀ v ∈ b.s, v = 0) ∧ b.ycount = o.kernel.yieldMax ∧
          ∀ y ∈ b.lanes, (∀ v ∈ y.v, v = 0) ∧ (∀ v ∈ y.o, v = 0) ∧ y.p = 0 ∧ y.plane = 0 := by
  obtain ⟨rfl, hindex, hranks⟩ := State.offer_next ho hstop
  have hcores : cores.length = pkRanks o.rec_.packet := by rw [State.chooseCores_length hseg hc, hranks, List.length_range]
  obtain ⟨q, hq, hcid, hdie, hcluster, harrival, hnext⟩ := s.placeCrew_crews (d := die) (c := c) (cores := cores) hsaved
  obtain ⟨u, hgangs⟩ := s.placeCrew_gangs (d := die) (c := c) (cores := cores) hsaved
  refine ⟨_, q, exec_crewPlace_first hd hf horder (State.tryPlace_chosen ho hseg hc), by rwa [State.takeTurn_crews], hcid, hdie, hcluster,
    harrival, hnext.trans hindex, hcores, fun k hk => ?_⟩
  obtain ⟨t, ht⟩ := (State.mem_startGangs _ u).2 _ (Offer.seat_mem s.nextId hranks hcores hk)
  have hfresh := t.startGang_fresh o (s.nextId + 1 + k) s.nextId die (cores.getD k 0) k
  exact ⟨_, by rwa [State.takeTurn_gangs, hgangs], hcid.symm, rfl, rfl, rfl, rfl, rfl, hfresh.bundles, hfresh.tl, hfresh.handles, hfresh.acc,
    hfresh.regs⟩

/-! ## A record that waits (R106, R107) -/

theorem crewPlace_waits {die : Nat} {r : Record} {rest : List Record} (hd : die < 8) (hf : s.failed = false)
    (horder : s.placeOrder die = r :: rest) (hplace : s.tryPlace die r = none) (hback : rest = [] ∨ s.waitedLong die r = true) :
    let vs := (s.withoutCrews (s.leaving die)).planVictims die (r :: rest)
    (vs ≠ [] ∨ r.waitSince = none) →
    exec (.crewPlace die) s = .next (vs.foldl (fun s c => s.requestStop c 0)
      (s.modRecord die r.arrival (fun q => { q with waitSince := some (q.waitSince.getD (s.devtimeOf die)) }))) := by
  intro vs hnews
  have hlater : (if s.holdsBack die r then [] else s.fillable die rest) = [] := by
    rcases hback with rfl | hlong
    · split <;> rfl
    · simp [State.holdsBack, hlong]
  have hmoves : (vs.isEmpty && r.waitSince.isSome) = false := by
    rcases hnews with h | h <;> simp [h]
  change execCrewPlace die s = _
  simp only [execCrewPlace, hf, horder, hplace, hlater, State.placeFirst]
  rw [if_neg (by simpa using hd)]
  change (if vs.isEmpty && r.waitSince.isSome then _ else _) = _
  rw [hmoves]
  rfl

theorem State.planVictims_singleton (s : State) (die : Nat) (r : Record) :
    (pkClass r.packet < 2 → s.planVictims die [r] = []) ∧
    ((∃ t, s.tryPlace die r = some t) → s.planVictims die [r] = []) ∧
    ∀ o, 2 ≤ pkClass r.packet → s.tryPlace die r = none → s.offer r = some o → s.planVictims die [r] = s.chooseVictims die o := by
  refine ⟨fun h => ?_, fun ⟨t, h⟩ => ?_, fun o hc h ho => ?_⟩
  · simp [State.planVictims, h]
  · simp [State.planVictims, h]
  · simp [State.planVictims, Nat.not_lt.2 hc, h, ho]

theorem exec_backfillTimeout {die t : Nat} {r : Record} {rest : List Record} (horder : s.placeOrder die = r :: rest)
    (hw : r.waitSince = some t) (ht : t + 100000 ≤ s.devtimeOf die) (hb : (s.die die).backfillStop ≠ some r.arrival) :
    exec (.backfillTimeout die) s = .next (s.modDie die (fun x => { x with backfillStop := some r.arrival })) := by
  change execBackfillTimeout die s = _
  simp [execBackfillTimeout, horder, State.waitedLong, hw, ht, hb]

/-! ## LATE (R108) -/

theorem State.lateDue_of {die : Nat} {r : Record} (h0 : pkDeadline r.packet ≠ 0) (hd : pkDeadline r.packet < s.devtimeOf die)
    (hp : r.placedAny = false) (hl : r.lateSent = false) : s.lateDue die r = true := by
  simp [State.lateDue, h0, hd, hp, hl]

theorem exec_late_stored {die arrival : Nat} {r : Record} (hr : s.record die arrival = some r) (hdue : s.lateDue die r = true) :
    exec (.late die arrival) s = .next (s.sendLate die r) := by
  change execLate die arrival s = _
  simp [execLate, hr, hdue]

theorem exec_late_ringed {die arrival part : Nat} {r : Record} (hn : s.record die arrival = none)
    (hr : (s.ringRecords die).find? (fun p => p.2.arrival == arrival) = some (part, r)) (hdue : s.lateDue die r = true) :
    exec (.late die arrival) s = .next (s.sendRingLate part die r) := by
  change execLate die arrival s = _
  simp [execLate, hn, hr, hdue]

/-! ## Pinned segments (R131, R132) -/

theorem answers_pinseg (m : MsgId) (b : PinSet) : Answers (.pinseg m b) 1
    (fun s => (s.part b.part).isSome = true ∧ b.seg < 65536 ∧ b.die < 8 ∧ b.cluster < 2 ∧ 1 ≤ b.n ∧ b.n ≤ 64 ∧ b.ps % 128 = 0 ∧
      b.ps ≤ 0x40000 ∧ s.segment b.part b.seg = none ∧ (s.segs.filter (fun g => g.part == b.part)).length < 256 ∧
      b.n ≤ (s.roomyCores b.die b.cluster b.ps).length)
    (fun s => ((List.range b.n).foldl (fun (s : State) r => s.clearPad (pinLoc b.part b.seg r) b.ps) { s with segs := s.segs ++
        [(⟨b.part, b.seg, b.die, b.cluster, b.ps, (s.roomyCores b.die b.cluster b.ps).take b.n, none, false⟩ : Segment)] }).send
      (.cores m ((s.roomyCores b.die b.cluster b.ps).take b.n))) := by
  refine answers_of_act (execPinseg m b) (fun _ => rfl) (fun _ => rfl)
    fun s ⟨hpart, hseg, hdie, hcluster, hlow, hhigh, halign, hsize, hnew, hfew, hroom⟩ => ?_
  have hpart' : (s.part b.part).isNone = false := by simpa using hpart
  have hlow' : (b.n == 0) = false := by simpa using Nat.ne_of_gt hlow
  simp [hpart', Nat.not_le.2 hseg, Nat.not_le.2 hdie, Nat.not_le.2 hcluster, hlow', Nat.not_lt.2 hhigh, halign, Nat.not_lt.2 hsize, hnew,
    Nat.not_le.2 hfew, Nat.not_lt.2 hroom]

theorem answers_pinfree_free (m : MsgId) (part seg : Nat) (g : Segment) : Answers (.pinfree m part seg) 1
    (fun s => s.segment part seg = some g ∧ g.holder = none)
    (fun s => { s with segs := s.segs.filter (fun q => !(q.part == part && q.seg == seg)) }.reply m 0) :=
  answers_of_act (execPinfree m part seg) (fun _ => rfl) (fun _ => rfl) fun s ⟨hseg, hholder⟩ => by
    simp only [hseg, hholder, Option.isSome_none, Bool.false_eq_true, if_false]

theorem answers_pinfree_held (m : MsgId) (part seg h : Nat) (g : Segment) : Answers (.pinfree m part seg) 1
    (fun s => s.segment part seg = some g ∧ g.holder = some h)
    (fun s => { s with segs := s.segs.map (fun (q : Segment) =>
      if q.part = part ∧ q.seg = seg then { q with freePending := true } else q) }.reply m 0) :=
  answers_of_act (execPinfree m part seg) (fun _ => rfl) (fun _ => rfl) fun s ⟨hseg, hholder⟩ => by
    simp only [hseg, hholder, Option.isSome_some, if_true, Bool.and_eq_true, beq_iff_eq]

/-- Settles O44: each event by the branch that its conditions pick, a crew's gangs by what they are started with. -/
theorem placement : Obligations.Placement :=
  ⟨fun _ _ _ _ _ _ _ hd hf horder ho hsaved hseg hstop hc => crewPlace_places hd hf horder ho hsaved hseg hstop hc,
    fun _ _ _ _ hd hf horder hplace hback => crewPlace_waits hd hf horder hplace hback, State.planVictims_singleton,
    fun _ _ _ _ _ horder hw ht hb => exec_backfillTimeout horder hw ht hb,
    fun _ _ _ _ hr h0 hd hp hl => exec_late_stored hr (State.lateDue_of h0 hd hp hl),
    fun _ _ _ _ _ hn hr h0 hd hp hl => exec_late_ringed hn hr (State.lateDue_of h0 hd hp hl),
    answers_pinseg, answers_pinfree_free, answers_pinfree_held⟩

end Sys2Proof.Machine
end

section
/-!
PROOF. Sharing groups (O22): every gang holds the mask and the windows, and no access that is pending or planned depends on them.
-/

namespace Sys2Proof.Machine

variable {s : State} {x : Ctx} {F : Gang → Gang}

/-! ## What the masks and windows of gangs leave alone (R133) -/

/-- A gang changed in nothing but its mask and its windows. -/
def Gang.Regrouped (g h : Gang) : Prop := ∃ mask windows, h = { g with group := mask, windows := windows }

/-- Gangs that a change maps to gangs with other masks and windows. -/
def State.regroup (s : State) (F : Gang → Gang) : State := { s with gangs := s.gangs.map F }

/-- Translation reads no gang. -/
theorem State.locateRun_regroup (part kind fuel va n : Nat) :
    (s.regroup F).locateRun part kind fuel va n = s.locateRun part kind fuel va n := by
  induction fuel generalizing va n with
  | zero => rfl
  | succ fuel ih =>
    have hlocate (a : Nat) : (s.regroup F).locate part kind a = s.locate part kind a := rfl
    simp only [State.locateRun, hlocate, ih]

theorem State.runs_regroup (part kind va n : Nat) : (s.regroup F).runs part kind va n = s.runs part kind va n :=
  State.locateRun_regroup ..

section
variable (hF : ∀ g : Gang, g.Regrouped (F g))
include hF

theorem State.gang_regroup (gid : Nat) : (s.regroup F).gang gid = (s.gang gid).map F :=
  State.gang_of_map rfl (fun g => by obtain ⟨_, _, h⟩ := hF g; rw [h]) gid

theorem State.codeWords_regroup (g : Gang) (plane off : Nat) : (s.regroup F).codeWords (F g) plane off = s.codeWords g plane off := by
  obtain ⟨_, _, h⟩ := hF g
  rw [h]
  simp only [State.codeWords, State.runs_regroup]
  rfl

theorem State.restAccesses_regroup (g : Gang) (bi : Nat) (b : Bundle) :
    (s.regroup F).restAccesses (F g) bi b = s.restAccesses g bi b := by
  have hwords := State.codeWords_regroup (s := s) hF g
  obtain ⟨_, _, h⟩ := hF g
  simp only [State.restAccesses, hwords]
  rw [h]
  rfl

theorem State.accessesPending_regroup (gid b : Nat) : (s.regroup F).accessesPending gid b = s.accessesPending gid b := by
  have hrest : (s.regroup F).restPending gid b (fun _ _ _ => true) = s.restPending gid b (fun _ _ _ => true) := by
    unfold State.restPending
    rw [State.gang_regroup hF]
    cases s.gang gid with
    | none => rfl
    | some g =>
      have hbundles : (F g).bundles = g.bundles := by obtain ⟨_, _, h⟩ := hF g; rw [h]
      simp only [Option.map_some, hbundles, State.restAccesses_regroup hF]
  exact congrArg (_ || ·) hrest

theorem State.fenced_regroup (x : Ctx) : (s.regroup F).fenced x = s.fenced x := by
  simp only [State.fenced, State.accessesPending_regroup hF]
  rfl

theorem State.ending_regroup (gid : Nat) : (s.regroup F).ending gid = s.ending gid := by
  refine State.ending_congr rfl ?_
  rw [State.gang_regroup hF, Option.map_map]
  congr 1
  funext g
  obtain ⟨_, _, h⟩ := hF g
  rw [Function.comp_apply, h]

theorem State.accessesTo_regroup (cid rank : Nat) (out : LaneReq → Bool) :
    (s.regroup F).accessesTo cid rank out = s.accessesTo cid rank out := by
  unfold State.accessesTo
  refine List.filter_congr fun o _ => ?_
  rw [State.gang_regroup hF]
  cases s.gang o.gid with
  | none => rfl
  | some g =>
    obtain ⟨_, _, h⟩ := hF g
    rw [Option.map_some, h]

theorem State.multicastsTo_regroup (cid rank : Nat) : (s.regroup F).multicastsTo cid rank = s.multicastsTo cid rank := by
  unfold State.multicastsTo
  refine List.filter_congr fun o _ => ?_
  rw [State.gang_regroup hF]
  cases s.gang o.gid with
  | none => rfl
  | some g =>
    obtain ⟨_, _, h⟩ := hF g
    rw [Option.map_some, h]

theorem State.plannedTo_regroup (cid rank : Nat) : (s.regroup F).plannedTo cid rank = s.plannedTo cid rank := by
  have hpicked : (fun g : Gang => g.crew == cid && !g.retired) ∘ F = fun g => g.crew == cid && !g.retired := by
    funext g
    obtain ⟨_, _, h⟩ := hF g
    rw [Function.comp_apply, h]
  unfold State.plannedTo
  rw [State.regroup, List.filter_map, List.flatMap_map, hpicked]
  congr 1
  funext g
  have hwords := State.codeWords_regroup (s := s) hF g
  rw [State.regroup] at hwords
  simp only [hwords]
  obtain ⟨_, _, h⟩ := hF g
  rw [h]
  rfl

theorem State.plansCrew_regroup (g : Gang) : (s.regroup F).plansCrew g = s.plansCrew g := by
  simp only [State.plansCrew, State.plannedTo_regroup hF]
  rfl

theorem State.noCrewAccess_regroup (h : s.noCrewAccess x) : (s.regroup F).noCrewAccess x where
  landed := (State.accessesTo_regroup hF ..).trans h.landed
  planned := (State.plannedTo_regroup hF ..).trans h.planned
  multicast := (State.multicastsTo_regroup hF ..).trans h.multicast
  own := h.own
  ownPlanned := (State.plansCrew_regroup hF _).trans h.ownPlanned

end

/-! ## The members of the issuing crew -/

theorem State.modMembers_eq_eachMember (s : State) (x : Ctx) (f : Gang → Gang) : s.modMembers x.g.crew f = x.eachMember s f := by
  simp only [State.modMembers, Ctx.eachMember, beq_iff_eq]

/-- The change of the members' gangs. -/
def Ctx.member (x : Ctx) (f : Gang → Gang) (g : Gang) : Gang := if g.crew = x.g.crew then f g else g

theorem Ctx.eachMember_eq_regroup (x : Ctx) (s : State) (f : Gang → Gang) : x.eachMember s f = s.regroup (x.member f) := rfl

theorem Ctx.member_regrouped (x : Ctx) {f : Gang → Gang} (hf : ∀ g : Gang, g.Regrouped (f g)) (g : Gang) : g.Regrouped (x.member f g) := by
  unfold Ctx.member
  split
  next => exact hf g
  next => exact ⟨g.group, g.windows, rfl⟩

/-- The mask after a change of the members is that after any other change that gives them the same masks. -/
theorem State.groupOf_eachMember_congr (s : State) (x : Ctx) {f f' : Gang → Gang} (hf : ∀ g : Gang, g.Regrouped (f g))
    (hf' : ∀ g : Gang, g.Regrouped (f' g)) (h : ∀ g, (f g).group = (f' g).group) :
    (x.eachMember s f).groupOf x = (x.eachMember s f').groupOf x := by
  have hmask (g : Gang) : (x.member f g).group = (x.member f' g).group := by
    unfold Ctx.member
    split
    next => exact h g
    next => rfl
  simp only [State.groupOf, Ctx.eachMember_eq_regroup, State.gang_regroup (x.member_regrouped hf),
    State.gang_regroup (x.member_regrouped hf'), Option.map_map, Function.comp_def, hmask]

theorem State.fenced_of_quiet (h : s.quiet x) : s.fenced x = true := by
  obtain ⟨hpending, hsettled⟩ := h
  simp [State.fenced, hpending, hsettled]

/-! ## The ends of grp.leave and grp.publish (R135) -/

/-- Fewer accesses are outside a window than there are. -/
theorem State.accessesTo_nil_of_landed {cid rank : Nat} (h : s.accessesTo cid rank (fun _ => true) = []) (out : LaneReq → Bool) :
    s.accessesTo cid rank out = [] := by
  simp only [State.accessesTo, List.filter_eq_nil_iff, Bool.and_eq_true, not_and, List.any_eq_true, forall_exists_index, and_imp] at h ⊢
  intro o ho hspace hrank r hr hstatus _
  exact h o ho hspace hrank r hr hstatus trivial

theorem leaveEnd_of_noCrewAccess {w : XWord} (h : s.noCrewAccess x) : leaveEnd w x s = .done (s.setS x w.d9.toNat (s.groupOf x)) := by
  have hunpark : s.unpark x.g = s := by simp [State.unpark, h.landed]
  have hown : s.memOps.any (fun o => o.gid == x.c.gid && o.space == 2) = false := by
    simpa using h.own
  simp only [leaveEnd, hunpark, h.landed, h.planned, h.multicast, hown, h.ownPlanned]
  rfl

theorem publishEnd_of_noCrewAccess {a n : Nat} (h : s.noCrewAccess x) : publishEnd a n x s = .done s := by
  simp only [publishEnd, State.accessesTo_nil_of_landed h.landed, h.planned, h.multicast]
  rfl

/-! ## The instructions -/

section
variable {control : Bool} {len : Nat} {form : Form} {w : XWord} {i : Instr} {ok : Ctx → State → Prop} {f : Ctx → Gang → Gang}
  {b : Ctx → State → Bundle → Bundle} {extra : Ctx → Option FaultInfo} {act : Ctx → State → Eff}

/-- An instruction whose meaning is a uniform one that changes masks and windows alone completes. -/
theorem completes_of_eachMember (he : ∀ s, exec i s = runUniform control len (fun _ => form) w extra act s)
    (hf : ∀ (x : Ctx) (g : Gang), g.Regrouped (f x g)) (hx : ∀ s x, ok x s → extra x = none)
    (ha : ∀ s x, ok x s → act x s = .done ((x.eachMember s (f x)).modBundle x.c.gid x.c.bundle (b x s))) :
    Completes i control len form w ok (fun x s => x.eachMember s (f x)) b :=
  completes_of he (fun s x _ ho => hx s x ho) (fun s x _ ho => ha s x ho)
    fun _ x => ⟨rfl, rfl, rfl, State.ending_regroup (x.member_regrouped (hf x)) _⟩

end

/-- The gang of a member after the issuing gang has joined the group. -/
def Ctx.joined (x : Ctx) (g : Gang) : Gang :=
  { g with group := g.group ||| 2 ^ x.g.rank, windows := setNth g.windows x.g.rank (0, 0x40000) }

theorem Ctx.joined_regrouped (x : Ctx) (g : Gang) : g.Regrouped (x.joined g) := ⟨_, _, rfl⟩

theorem grpJoin_joins (w : XWord) : Completes (.grpJoin w) true 12
    (opForm .scalar .unused .unused .unused true (w.m6 = 0 && w.nwb = 0 && w.imm = 0)) w
    (fun x s => s.quiet x ∧ x.updating = false ∧ bit x.g.group x.g.rank = false)
    (fun x s => x.eachMember s (fun g =>
      { g with group := g.group ||| 2 ^ x.g.rank, windows := setNth g.windows x.g.rank (0, 0x40000) }))
    (fun x s b => b.writeS w.d9.toNat ((x.eachMember s (fun g => { g with group := g.group ||| 2 ^ x.g.rank })).groupOf x)) := by
  refine completes_of_eachMember (extra := noExtra) (fun _ => rfl) (fun _ _ => ⟨_, _, rfl⟩) (fun _ _ _ => rfl) fun s x ⟨hquiet, hfresh, hout⟩ => ?_
  have hfenced : (x.eachMember s x.joined).fenced x = true := by
    rw [x.eachMember_eq_regroup, State.fenced_regroup (x.member_regrouped x.joined_regrouped), State.fenced_of_quiet hquiet]
  have hmask : (x.eachMember s (fun g => { g with group := g.group ||| 2 ^ x.g.rank })).groupOf x = (x.eachMember s x.joined).groupOf x :=
    State.groupOf_eachMember_congr s x (fun g => ⟨_, g.windows, rfl⟩) x.joined_regrouped fun _ => rfl
  simp only [hmask, hout, hfresh, Nat.one_shiftLeft, State.modMembers_eq_eachMember]
  exact if_pos hfenced

theorem grpJoin_member (w : XWord) : Completes (.grpJoin w) true 12
    (opForm .scalar .unused .unused .unused true (w.m6 = 0 && w.nwb = 0 && w.imm = 0)) w
    (fun x s => s.quiet x ∧ x.updating = false ∧ bit x.g.group x.g.rank = true) noEffect
    (fun x s b => b.writeS w.d9.toNat (s.groupOf x)) := by
  refine completes_of (fun _ => rfl) (fun _ _ _ _ => rfl) (fun s x _ ⟨hquiet, hfresh, hin⟩ => ?_) fun _ _ => ⟨rfl, rfl, rfl, rfl⟩
  simp only [hin, hfresh, State.fenced_of_quiet hquiet]
  rfl

theorem grpLeave_leaves (w : XWord) : Completes (.grpLeave w) true 12
    (opForm .scalar .unused .unused .unused true (w.m6 = 0 && w.nwb = 0 && w.imm = 0)) w
    (fun x s => s.quiet x ∧ x.updating = false ∧ bit x.g.group x.g.rank = true ∧ s.noCrewAccess x)
    (fun x s => x.eachMember s (fun g => { g with group := g.group &&& (2 ^ 64 - 1 - 2 ^ x.g.rank) }))
    (fun x s b => b.writeS w.d9.toNat
      ((x.eachMember s (fun g => { g with group := g.group &&& (2 ^ 64 - 1 - 2 ^ x.g.rank) })).groupOf x)) := by
  refine completes_of_eachMember (extra := noExtra) (fun _ => rfl) (fun _ g => ⟨_, g.windows, rfl⟩) (fun _ _ _ => rfl)
    fun s x ⟨hquiet, hfresh, hin, hnone⟩ => ?_
  simp only [hin, hfresh, State.fenced_of_quiet hquiet, Nat.one_shiftLeft, State.modMembers_eq_eachMember]
  exact leaveEnd_of_noCrewAccess (State.noCrewAccess_regroup (x.member_regrouped fun g => ⟨_, g.windows, rfl⟩) hnone)

theorem grpLeave_stranger (w : XWord) : Completes (.grpLeave w) true 12
    (opForm .scalar .unused .unused .unused true (w.m6 = 0 && w.nwb = 0 && w.imm = 0)) w
    (fun x s => s.quiet x ∧ x.updating = false ∧ bit x.g.group x.g.rank = false) noEffect
    (fun x s b => b.writeS w.d9.toNat (s.groupOf x)) := by
  refine completes_of (fun _ => rfl) (fun _ _ _ _ => rfl) (fun s x _ ⟨hquiet, hfresh, hout⟩ => ?_) fun _ _ => ⟨rfl, rfl, rfl, rfl⟩
  simp only [hout, hfresh, State.fenced_of_quiet hquiet]
  rfl

theorem grpQuery_completes (w : XWord) : Completes (.grpQuery w) true 12
    (opForm .scalar .unused .unused .unused true (w.m6 = 0 && w.nwb = 0 && w.imm = 0)) w
    (fun _ _ => True) noEffect (fun x s b => b.writeS w.d9.toNat (s.groupOf x)) :=
  completes_of (fun _ => rfl) (fun _ _ _ _ => rfl) (fun _ _ _ _ => rfl) fun _ _ => ⟨rfl, rfl, rfl, rfl⟩

theorem grpPublish_completes (w : XWord) : Completes (.grpPublish w) true 12
    (opForm .unused .scalar .scalar .unused true (w.m6 = 0 && w.nwb = 0 && w.imm = 0)) w
    (fun x s => s.quiet x ∧ x.updating = false ∧ x.sn w.a9.toNat % 128 = 0 ∧ x.sn w.b9.toNat % 128 = 0 ∧
      x.sn w.a9.toNat + x.sn w.b9.toNat ≤ 0x40000 ∧ s.noCrewAccess x)
    (fun x s => x.eachMember s (fun g => { g with windows := setNth g.windows x.g.rank (x.sn w.a9.toNat, x.sn w.b9.toNat) }))
    (fun _ _ b => b) := by
  refine completes_of_eachMember (fun _ => rfl) (fun _ g => ⟨g.group, _, rfl⟩) (fun s x ⟨_, _, ha, hb, hsum, _⟩ => ?_)
    fun s x ⟨hquiet, hfresh, _, _, _, hnone⟩ => ?_
  · simp [firstFault_eq_none, ha, hb, hsum]
  · simp only [hfresh, State.fenced_of_quiet hquiet, State.modMembers_eq_eachMember, State.modBundle_id]
    exact publishEnd_of_noCrewAccess (State.noCrewAccess_regroup (x.member_regrouped fun g => ⟨g.group, _, rfl⟩) hnone)

/-- Settles O22: each instruction by the branch that its conditions pick; what is pending or planned reads neither masks nor windows. -/
theorem sharingGroups : Obligations.SharingGroups :=
  ⟨grpJoin_joins, grpJoin_member, grpLeave_leaves, grpLeave_stranger, grpQuery_completes, grpPublish_completes⟩

end Sys2Proof.Machine
end

section
/-!
PROOF. A write to a gang's view (O25): the runs of locations that a range inside the view names, and bytes written over runs.
-/

namespace Sys2Proof.Machine

variable {s : State} {g : Gang}

/-! ## Bytes written over runs -/

/-- The locations of runs. -/
def runBytes (rs : List (Nat × Nat)) : List Nat := rs.flatMap (fun r => (List.range r.2).map (fun i => r.1 + i))

theorem runBytes_cons (r : Nat × Nat) (rs : List (Nat × Nat)) :
    runBytes (r :: rs) = (List.range r.2).map (fun i => r.1 + i) ++ runBytes rs := List.flatMap_cons

theorem runBytes_length (rs : List (Nat × Nat)) : (runBytes rs).length = (rs.map (·.2)).sum := by
  simp [runBytes, List.length_flatMap]

theorem mem_range_map_add {a n c : Nat} : c ∈ (List.range n).map (fun i => a + i) ↔ a ≤ c ∧ c < a + n := by
  simp only [List.mem_map, List.mem_range]
  constructor
  · rintro ⟨i, hi, rfl⟩
    omega
  · rintro ⟨hlow, hhigh⟩
    exact ⟨c - a, by omega, by omega⟩

theorem readBytes_congr {m m' : List Host.Cell} {a n : Nat} (h : ∀ c, a ≤ c → c < a + n → memRead m c = memRead m' c) :
    readBytes m a n = readBytes m' a n := by
  induction n generalizing a with
  | zero => rfl
  | succ n ih => rw [readBytes, readBytes, h a (by omega) (by omega), ih fun c hlow hhigh => h c (by omega) (by omega)]

theorem State.memRead_putRuns_other (rs : List (Nat × Nat)) (bs : List Byte) (hwf : Memory.wf s.mem = true) {c : Nat}
    (hc : c ∉ runBytes rs) : memRead (s.putRuns rs bs).mem c = memRead s.mem c := by
  induction rs generalizing s bs with
  | nil => rfl
  | cons r rs ih =>
    rw [runBytes_cons, List.mem_append, mem_range_map_add, not_or] at hc
    rw [State.putRuns, ih _ (State.putBytes_wf hwf ..) hc.2]
    refine memRead_writeBytes_other hwf fun ⟨hlow, hhigh⟩ => hc.1 ⟨hlow, ?_⟩
    have := List.length_take_le r.2 bs
    omega

/-- Runs that do not meet hold what was written over them. -/
theorem State.readRuns_putRuns (rs : List (Nat × Nat)) (bs : List Byte) (hwf : Memory.wf s.mem = true) (hnd : (runBytes rs).Nodup)
    (hlen : (rs.map (·.2)).sum = bs.length) : (s.putRuns rs bs).readRuns rs = bs := by
  induction rs generalizing s bs with
  | nil => exact (List.eq_nil_of_length_eq_zero hlen.symm).symm
  | cons r rs ih =>
    rw [runBytes_cons] at hnd
    obtain ⟨-, hrest, hapart⟩ := List.nodup_append.1 hnd
    simp only [List.map_cons, List.sum_cons] at hlen
    have hwf' : Memory.wf (s.putBytes r.1 (bs.take r.2)).mem = true := State.putBytes_wf hwf ..
    have hfirst : (s.putRuns (r :: rs) bs).bytesAt r.1 r.2 = bs.take r.2 := by
      have hkept : (s.putRuns (r :: rs) bs).bytesAt r.1 r.2 = readBytes (writeBytes s.mem r.1 (bs.take r.2)) r.1 r.2 :=
        readBytes_congr fun c hlow hhigh => State.memRead_putRuns_other rs _ hwf' fun hc =>
          hapart c (mem_range_map_add.2 ⟨hlow, hhigh⟩) c hc rfl
      have htake : (bs.take r.2).length = r.2 := List.length_take_of_le (by omega)
      have hsame := readBytes_writeBytes_same hwf r.1 (bs.take r.2)
      rw [htake] at hsame
      exact hkept.trans hsame
    calc (s.putRuns (r :: rs) bs).readRuns (r :: rs)
        = (s.putRuns (r :: rs) bs).bytesAt r.1 r.2 ++ ((s.putBytes r.1 (bs.take r.2)).putRuns rs (bs.drop r.2)).readRuns rs :=
          List.flatMap_cons
      _ = bs.take r.2 ++ bs.drop r.2 := by rw [hfirst, ih _ hwf' hrest (by rw [List.length_drop]; omega)]
      _ = bs := List.take_append_drop ..

theorem State.putRuns_gangs (s : State) (rs : List (Nat × Nat)) (bs : List Byte) : (s.putRuns rs bs).gangs = s.gangs := by
  induction rs generalizing s bs with
  | nil => rfl
  | cons r rs ih => exact ih ..

/-! ## The runs of a range inside the view (R130) -/

/-- The regions of a gang's view. -/
def Gang.regions (g : Gang) : List (Nat × Nat) := [(0, g.kernel.scratch), (2 ^ 18 - g.pinSize, g.pinSize)]

/-- Bytes that the regions cover begin in one of them. -/
theorem Gang.region_of_covered {a n fuel : Nat} (h : covered g.regions (fuel + 1) a n = true) (hn : n ≠ 0) :
    a < g.kernel.scratch ∨ 2 ^ 18 - g.pinSize ≤ a := by
  have hfound : (g.regions.find? (fun r => r.1 ≤ a && a < r.1 + r.2)).isSome = true := by
    cases hf : g.regions.find? (fun r => r.1 ≤ a && a < r.1 + r.2) with
    | none => simp [covered, hn, hf] at h
    | some r => rfl
  simp only [Gang.regions, List.find?_isSome, List.mem_cons, List.not_mem_nil, or_false, exists_eq_or_imp, exists_eq_left, Bool.and_eq_true,
    decide_eq_true_eq] at hfound
  omega

/-- Bytes that begin in the first region and reach past it go on at its end. -/
theorem Gang.covered_past_first {a n fuel : Nat} (h : covered g.regions (fuel + 1) a n = true) (ha : a < g.kernel.scratch)
    (hn : g.kernel.scratch - a < n) : covered g.regions fuel g.kernel.scratch (n - (g.kernel.scratch - a)) = true := by
  have hn0 : n ≠ 0 := by omega
  have hmin : min n (g.kernel.scratch - a) = g.kernel.scratch - a := by omega
  have hend : a + (g.kernel.scratch - a) = g.kernel.scratch := by omega
  have hfound : g.regions.find? (fun r => r.1 ≤ a && a < r.1 + r.2) = some (0, g.kernel.scratch) := by
    simp [Gang.regions, ha]
  simpa [covered, hn0, hfound, hmin, hend] using h

theorem Gang.covered_of_inView {a n : Nat} (h : g.inView a n = true) (hn : n ≠ 0) :
    a + n ≤ 2 ^ 18 ∧ covered g.regions 3 a n = true := by
  simpa only [Gang.inView, Gang.regions, Bool.or_eq_true, beq_iff_eq, hn, false_or, Bool.and_eq_true, decide_eq_true_eq] using h

theorem Gang.viewLoc_isSome {a : Nat} (ha : a < 2 ^ 18) (h : a < g.kernel.scratch ∨ 2 ^ 18 - g.pinSize ≤ a) : (g.viewLoc a).isSome = true := by
  unfold Gang.viewLoc
  split
  next => rfl
  next hlow => rw [if_pos (by rw [decide_eq_true (h.resolve_left hlow), decide_eq_true ha]; rfl)]; rfl

theorem Gang.viewLoc_of_inView {a n : Nat} (h : g.inView a n = true) (hn : n ≠ 0) : (g.viewLoc a).isSome = true := by
  obtain ⟨htop, hcov⟩ := Gang.covered_of_inView h hn
  exact Gang.viewLoc_isSome (by omega) (Gang.region_of_covered hcov hn)

theorem Gang.viewLoc_scratch_of_inView {a n : Nat} (h : g.inView a n = true) (ha : a < g.kernel.scratch)
    (hn : g.kernel.scratch - a < n) : (g.viewLoc g.kernel.scratch).isSome = true := by
  obtain ⟨htop, hcov⟩ := Gang.covered_of_inView h (by omega)
  exact Gang.viewLoc_isSome (by omega) (Gang.region_of_covered (Gang.covered_past_first hcov ha hn) (by omega))

/-- Ranges that begin in the view keep their lengths as runs. -/
theorem Gang.runBytes_length_of_located {rs : List (Nat × Nat)} (h : ∀ r ∈ rs, r.2 ≠ 0 → (g.viewLoc r.1).isSome = true) :
    (runBytes ((rs.filter (fun r => r.2 != 0)).filterMap (fun r => (g.viewLoc r.1).map (fun l => (l, r.2))))).length =
      (rs.map (·.2)).sum := by
  rw [runBytes_length]
  induction rs with
  | nil => rfl
  | cons r rs ih =>
    rw [List.forall_mem_cons] at h
    by_cases hr : r.2 = 0
    · simpa [hr] using ih h.2
    · obtain ⟨l, hl⟩ := Option.isSome_iff_exists.1 (h.1 hr)
      simpa [hr, hl] using ih h.2

/-- The runs of a range inside the view hold every byte of it. -/
theorem Gang.viewBytes_length {a n : Nat} (h : g.inView a n = true) : (g.viewBytes a n).length = n := by
  refine (Gang.runBytes_length_of_located fun r hr hr0 => ?_).trans ?_
  · rw [List.mem_pair] at hr
    by_cases ha : a < g.kernel.scratch
    · simp only [ha, if_true] at hr
      rcases hr with rfl | rfl
      · exact Gang.viewLoc_of_inView h (n := n) (by dsimp only at hr0; omega)
      · have hend : a + min n (g.kernel.scratch - a) = g.kernel.scratch := by dsimp only at hr0; omega
        simp only [hend]
        exact Gang.viewLoc_scratch_of_inView h ha (by dsimp only at hr0; omega)
    · simp only [ha, if_false, Nat.sub_self] at hr
      rcases hr with rfl | rfl
      · exact Gang.viewLoc_of_inView h hr0
      · exact absurd rfl hr0
  · simp only [List.map_cons, List.map_nil, List.sum_cons, List.sum_nil]
    split <;> omega

/-- Settles O25: the bytes of the runs and no other byte are written, and runs that do not meet hold what was written. -/
theorem scratchpadMemory : Obligations.ScratchpadMemory := by
  intro s g a bs hwf hin
  refine ⟨g.viewBytes_length hin, fun c hc => State.memRead_putRuns_other _ _ hwf hc, fun hnd => ?_, s.putRuns_gangs ..⟩
  refine State.readRuns_putRuns _ _ hwf hnd ?_
  exact (runBytes_length _).symm.trans (g.viewBytes_length hin)

end Sys2Proof.Machine
end

section
/-!
PROOF. The scalar accesses to the gang's own scratchpad (O23), and what a write to the view leaves alone.
-/

namespace Sys2Proof.Machine

variable {s : State} {x : Ctx}

/-! ## What a write to the view leaves alone -/

/-- A write to runs of the scratchpad changes memory and its poison alone. -/
theorem State.putRuns_frame (s : State) (rs : List (Nat × Nat)) (bs : List Byte) :
    ∃ m p, s.putRuns rs bs = { s with mem := m, poison := p } := by
  induction rs generalizing s bs with
  | nil => exact ⟨s.mem, s.poison, rfl⟩
  | cons r rs ih =>
    obtain ⟨m, p, h⟩ := ih (s.putBytes r.1 (bs.take r.2)) (bs.drop r.2)
    exact ⟨m, p, h⟩

theorem State.steady_writeView (s : State) (g : Gang) (a : Nat) (bs : List Byte) : s.Steady (s.writeView g a bs) := by
  obtain ⟨m, p, h⟩ := s.putRuns_frame (g.viewRuns a bs.length) bs
  rw [State.writeView, h]
  exact ⟨rfl, rfl, rfl, rfl, rfl, rfl, fun _ => rfl⟩

/-- An access to a view is steady: it changes memory alone. -/
theorem State.steady_padAccess (s : State) (g : Gang) (m : MemInfo) (a : Nat) (data cmp : List Byte) :
    s.Steady (s.padAccess g m a data cmp).1 := by
  unfold State.padAccess
  split
  · exact .refl s
  · split
    · exact s.steady_writeView ..
    · exact s.steady_writeView ..

/-! ## The scalar accesses (R221, R228, R235) -/

/-- A scalar access that is ready is performed at the gang's own view, and its result is delivered. -/
theorem State.scalarMem_of_ready {m : MemInfo} {w : XWord} (h : s.scalarReady x m w) :
    let r := s.padAccess x.g m (x.scalarEa m w).toNat (x.scalarData m w).1 (x.scalarData m w).2
    s.scalarMem x m w = .done (r.1.deliverScalar x m.kind m.wd w.d9.toNat r.2.1) := by
  intro r
  obtain ⟨hwatch, hspace, horder, hmeets, -, hpresent, hclean⟩ := h
  have hawake : (r.1.deliverScalar x m.kind m.wd w.d9.toNat r.2.1).watching = false := by
    have hr : r.1.watching = false := (s.steady_padAccess ..).watching.trans hwatch
    unfold State.deliverScalar
    split
    · exact hr
    · exact hr
  have hthere : (1 == 1 && m.kind != 1 && !s.viewPresent x.g (x.scalarEa m w).toNat m.size) = false := by
    by_cases hk : m.kind = 1
    · simp [hk]
    · simp [hpresent hk]
  simp only [Ctx.s] at hspace hmeets
  simp only [State.scalarMem, hspace, horder, hmeets, hthere, hclean]
  exact congrArg Eff.done (State.observe_unwatched hawake ..)

section
variable {w : XWord} {op : Nat} {i : Instr} {eff : Ctx → State → State} {f : Ctx → State → Bundle → Bundle}

/-- A scalar access instruction completes as the access to the gang's own view does. -/
theorem completes_of_scalarReady (he : ∀ s, exec i s = runScalarMem op w s)
    (ha : ∀ s x, let m := scalarMemInfo op w
      let r := s.padAccess x.g m (x.scalarEa m w).toNat (x.scalarData m w).1 (x.scalarData m w).2
      r.1.deliverScalar x m.kind m.wd w.d9.toNat r.2.1 = (eff x s).modBundle x.c.gid x.c.bundle (f x s))
    (hs : ∀ (s : State) x, s.Steady (eff x s)) :
    Completes i false 12 (scalarMemForm op w) w (fun x s => s.scalarReady x (scalarMemInfo op w) w) eff f := by
  refine completes_of_steady he (fun s x hready => ?_) fun s x _ => hs s x
  obtain ⟨-, -, -, -, hchecked, -, -⟩ := id hready
  rw [Ctx.s] at hchecked
  simp only [hchecked, State.scalarMem_of_ready hready]
  exact congrArg Eff.done (ha s x)

end

theorem execSld_completes (w : XWord) : Completes (.sld w) false 12 (scalarMemForm 0x24 w) w
    (fun x s => s.scalarReady x (scalarMemInfo 0x24 w) w) noEffect
    (fun x s b => b.writeS w.d9.toNat (scalarLoad (w.fn.toNat % 8)
      (s.readView x.g (x.scalarEa (scalarMemInfo 0x24 w) w).toNat (wdBytes (w.fn.toNat % 8))))) :=
  completes_of_scalarReady (fun _ => rfl) (fun _ _ => rfl) fun s _ => .refl s

theorem execSst_completes (w : XWord) : Completes (.sst w) false 12 (scalarMemForm 0x25 w) w
    (fun x s => s.scalarReady x (scalarMemInfo 0x25 w) w)
    (fun x s => s.writeView x.g (x.scalarEa (scalarMemInfo 0x25 w) w).toNat
      (leBytes (wdBytes (w.fn.toNat % 8)) (x.sn w.c9.toNat))) (fun _ _ b => b) :=
  completes_of_scalarReady (fun _ => rfl) (fun _ _ => (State.modBundle_id ..).symm) fun s _ => s.steady_writeView ..

theorem execSatom_completes (w : XWord) : Completes (.satom w) false 12 (scalarMemForm 0x26 w) w
    (fun x s => s.scalarReady x (scalarMemInfo 0x26 w) w)
    (fun x s =>
      let m := scalarMemInfo 0x26 w
      let a := (x.scalarEa m w).toNat
      s.writeView x.g a (atomicResult m (s.readView x.g a m.size) (leBytes m.size (x.sn w.c9.toNat))
        (leBytes m.size (x.sn w.d9.toNat))))
    (fun x s b =>
      let m := scalarMemInfo 0x26 w
      b.writeS w.d9.toNat (BitVec.ofNat 64 (leNat (s.readView x.g (x.scalarEa m w).toNat m.size)))) :=
  completes_of_scalarReady (fun _ => rfl) (fun _ _ => rfl) fun s _ => s.steady_writeView ..

/-- A load one of whose lines is absent does not issue, under reason 6. -/
theorem execSld_holds (w : XWord) : Holds (.sld w) (scalarMemForm 0x24 w) w (fun x s =>
      let m := scalarMemInfo 0x24 w
      m.spaceOf x.g (x.s w.b9.toNat) = 1 ∧ s.orderWait x m = none ∧
        s.meetsRest x [(m, x.s w.b9.toNat, [x.scalarEa m w])] = false ∧
        s.accessFault x.g m (x.s w.b9.toNat) (x.scalarEa m w) = none ∧ s.viewPresent x.g (x.scalarEa m w).toNat m.size = false)
    (fun _ _ => 6) := by
  refine holds_of (fun _ => rfl) (fun _ _ _ => rfl) fun s x ⟨hspace, horder, hmeets, hchecked, habsent⟩ => ?_
  have hload : (scalarMemInfo 0x24 w).kind = 0 := rfl
  simp only [Ctx.s] at hspace hmeets hchecked
  simp only [hchecked, State.scalarMem, hspace, horder, hmeets, habsent, hload]
  rfl

/-- Settles O23: an access that is ready by what it does at the view, one whose line is absent by what it waits for. -/
theorem scratchpadScalar : Obligations.ScratchpadScalar := ⟨execSld_completes, execSst_completes, execSatom_completes, execSld_holds⟩

end Sys2Proof.Machine
end

section
/-!
PROOF. The per-lane accesses to the gang's own scratchpad (O24): a pass is its lanes' accesses in ascending order.
-/

namespace Sys2Proof.Machine

variable {s t : State} {x : Ctx}

/-! ## One lane of a pass (R230, R232) -/

/-- One lane's access at the gang's own view, with its result. -/
def State.padLane (s : State) (x : Ctx) (m : MemInfo) (w : XWord) (l : Nat) : State :=
  let r := s.padAccess x.g m (x.laneEa m w l).toNat (if m.kind = 0 then [] else x.storedBytes m w l)
    (if m.kind = 2 then x.comparand m w l else [])
  if m.kind = 1 then r.1
  else r.1.modBundle x.c.gid x.c.bundle (fun b => b.modLane l (fun y =>
    y.deliverGroup w.d9.toNat (w.nwb == 1) (loadWords m.wd r.2.1)))

/-- A state changed in nothing but memory and the issuing bundle. -/
def State.PadChanged (s : State) (x : Ctx) (t : State) : Prop :=
  ∃ m p f, t = { s with mem := m, poison := p }.modBundle x.c.gid x.c.bundle f

namespace State.PadChanged

theorem refl (s : State) (x : Ctx) : s.PadChanged x s := ⟨s.mem, s.poison, fun b => b, (State.modBundle_id s ..).symm⟩

theorem trans {u : State} (h : s.PadChanged x t) (h' : t.PadChanged x u) : s.PadChanged x u := by
  obtain ⟨m, p, f, rfl⟩ := h
  obtain ⟨m', p', f', rfl⟩ := h'
  exact ⟨m', p', fun b => f' (f b), State.modBundle_modBundle { s with mem := m', poison := p' } ..⟩

theorem around (h : s.PadChanged x t) (gid : Nat) :
    t.halts = s.halts ∧ t.tick = s.tick ∧ t.dies = s.dies ∧ t.watching = s.watching ∧ t.ending gid = s.ending gid := by
  obtain ⟨m, p, f, rfl⟩ := h
  exact ⟨rfl, rfl, rfl, rfl, State.ending_modBundle ..⟩

theorem padLane (s : State) (x : Ctx) (m : MemInfo) (w : XWord) (l : Nat) : s.PadChanged x (s.padLane x m w l) := by
  have haccess (a : Nat) (data cmp : List Byte) : s.PadChanged x (s.padAccess x.g m a data cmp).1 := by
    have hwrite (bs : List Byte) : s.PadChanged x (s.writeView x.g a bs) := by
      obtain ⟨m, p, h⟩ := s.putRuns_frame (x.g.viewRuns a bs.length) bs
      exact ⟨m, p, fun b => b, h.trans (State.modBundle_id ..).symm⟩
    unfold State.padAccess
    split
    · exact refl s x
    · split <;> exact hwrite _
  unfold State.padLane
  dsimp only
  split
  · exact haccess ..
  · exact (haccess ..).trans ⟨_, _, _, rfl⟩

theorem foldl {f : State → Nat → State} (hf : ∀ (s : State) l, s.PadChanged x (f s l)) (s : State) (ls : List Nat) :
    s.PadChanged x (ls.foldl f s) := by
  induction ls generalizing s with
  | nil => exact refl s x
  | cons l ls ih => exact (hf s l).trans (ih _)

end State.PadChanged

/-- With no entry armed, a pass on the gang's own view is its lanes' accesses one after the other. -/
theorem State.padPass_eq {m : MemInfo} {w : XWord} {ls : List Nat} (hw : s.watching = false) (hl : ∀ l ∈ ls, ∃ y, x.b.lanes[l]? = some y) :
    s.padPass x m w ls = ls.foldl (fun s l => s.padLane x m w l) s := by
  induction ls generalizing s with
  | nil => rfl
  | cons l ls ih =>
    rw [List.forall_mem_cons] at hl
    obtain ⟨⟨y, hy⟩, hl⟩ := hl
    have hlane := ((State.PadChanged.padLane s x m w l).around 0).2.2.2.1.trans hw
    rw [List.foldl_cons, ← ih hlane hl]
    have hstored : x.storedBytes m w l = (y.group l w.c9.toNat (wdGroup m.wd)).take m.size := by simp [Ctx.storedBytes, Ctx.ofLane, hy]
    have hcmp : (if m.kind = 2 then x.comparand m w l else []) =
        if m.kind == 2 && m.aop == 9 then (y.group l w.d9.toNat (wdGroup m.wd)).take m.size else [] := by
      by_cases hk : m.kind = 2 <;> by_cases ha : m.aop = 9 <;> simp [Ctx.comparand, Ctx.ofLane, hy, hk, ha]
    have hcons : ∃ v, s.padPass x m w (l :: ls) = ((s.padLane x m w l).observe v x.q.slices.head?).padPass x m w ls := by
      apply Exists.intro
      simp only [State.padPass, Ctx.laneAccesses, List.filterMap_cons, hy, Option.map_some, List.foldl_cons, State.padLane, hstored, hcmp,
        beq_iff_eq]
      rfl
    obtain ⟨v, hcons⟩ := hcons
    rw [hcons, State.observe_unwatched hlane]

/-! ## What a pass does not see -/

/-- A change of the state that no access to the view sees and that leaves the lanes to it. -/
structure PadUnseen (x : Ctx) (H : State → State) : Prop where
  mem : ∀ s, (H s).mem = s.mem
  put : ∀ s a bs, H (s.putBytes a bs) = (H s).putBytes a bs
  lane : ∀ s l f, H (s.modBundle x.c.gid x.c.bundle (fun b => b.modLane l f)) =
    (H s).modBundle x.c.gid x.c.bundle (fun b => b.modLane l f)

namespace PadUnseen

variable {H : State → State} (h : PadUnseen x H)
include h

theorem writeView (s : State) (g : Gang) (a : Nat) (bs : List Byte) : H (s.writeView g a bs) = (H s).writeView g a bs := by
  have hruns (rs : List (Nat × Nat)) : ∀ (s : State) (bs : List Byte), H (s.putRuns rs bs) = (H s).putRuns rs bs := by
    induction rs with
    | nil => exact fun _ _ => rfl
    | cons r rs ih => exact fun s bs => (ih ..).trans (congrArg (fun t : State => t.putRuns rs _) (h.put ..))
  exact hruns ..

theorem padAccess (s : State) (g : Gang) (m : MemInfo) (a : Nat) (data cmp : List Byte) :
    (H s).padAccess g m a data cmp = (H (s.padAccess g m a data cmp).1, (s.padAccess g m a data cmp).2) := by
  have hread : (H s).readView g a m.size = s.readView g a m.size := by simp only [State.readView, State.readRuns, State.bytesAt, h.mem]
  unfold State.padAccess
  split
  · simp only [hread]
  · split
    · simp only [h.writeView]
    · simp only [hread, h.writeView]

theorem padLane (s : State) (m : MemInfo) (w : XWord) (l : Nat) : (H s).padLane x m w l = H (s.padLane x m w l) := by
  simp only [State.padLane, h.padAccess]
  split
  · rfl
  · exact (h.lane ..).symm

end PadUnseen

theorem padUnseen_uncounted (x : Ctx) : PadUnseen x State.uncounted := ⟨fun _ => rfl, fun _ _ _ => rfl, fun _ _ _ => rfl⟩

theorem Ctx.conflicted_modLane (x : Ctx) (m : MemInfo) (w : XWord) (ls : List Nat) (b : Bundle) (l : Nat) (f : Lane → Lane) :
    x.conflicted m w ls (b.modLane l f) = (x.conflicted m w ls b).modLane l f := by
  generalize hn : bankExtra (ls.map (fun l => (l, (x.laneEa m w l).toNat, m.size))) = n
  simp only [Ctx.conflicted, hn]
  by_cases h0 : n = 0
  · simp only [h0, if_true]
  · simp only [h0, if_false]
    rfl

theorem Ctx.conflicted_eachLane (x : Ctx) (m : MemInfo) (w : XWord) (ls : List Nat) (b : Bundle) (ks : List Nat) (f : Nat → Lane → Lane) :
    x.conflicted m w ls (b.eachLane ks f) = (x.conflicted m w ls b).eachLane ks f := by
  unfold Bundle.eachLane
  induction ks generalizing b with
  | nil => rw [List.foldl_nil, List.foldl_nil]
  | cons k ks ih => rw [List.foldl_cons, ih, Ctx.conflicted_modLane, List.foldl_cons]

/-- A pass does not see the cycles that its bank conflicts will cost (R220). -/
theorem padUnseen_conflicted (x : Ctx) (m : MemInfo) (w : XWord) (ls : List Nat) :
    PadUnseen x (fun s => s.modBundle x.c.gid x.c.bundle (x.conflicted m w ls)) where
  mem _ := rfl
  put _ _ _ := rfl
  lane s l f := by simp only [State.modBundle_modBundle, Ctx.conflicted_modLane]

/-- The cycles of bank conflicts are counted, and the issuing sub-bundle owes them. -/
theorem State.uncounted_countConflicts {m : MemInfo} {w : XWord} (ls : List Nat) (hg : x.g.gid = x.c.gid) :
    (s.countConflicts x.g x.c.bundle x.c.sub (bankExtra (ls.map (fun l => (l, (x.laneEa m w l).toNat, m.size))))).uncounted =
      s.uncounted.modBundle x.c.gid x.c.bundle (x.conflicted m w ls) := by
  generalize hn : bankExtra (ls.map (fun l => (l, (x.laneEa m w l).toNat, m.size))) = n
  simp only [State.countConflicts, beq_iff_eq]
  split
  next h0 => rw [show x.conflicted m w ls = fun b => b from funext fun b => by simp [Ctx.conflicted, hn, h0], State.modBundle_id]
  next h0 =>
    rw [show x.conflicted m w ls = fun b => b.modSub x.c.sub (fun q => { q with conflict := q.conflict + n }) from
      funext fun b => by simp [Ctx.conflicted, hn, h0], State.uncounted_modBundle, State.uncounted_perfWith, hg]

/-! ## The per-lane accesses (R227, R230, R232, R233) -/

theorem State.Issues.gid (h : s.Issues x) : x.g.gid = x.c.gid := by
  have hctx := h.ctx
  unfold State.ctx at hctx
  split at hctx
  · exact nomatch hctx
  next c _ =>
    split at hctx
    · exact nomatch hctx
    next g hg =>
      split at hctx
      · exact nomatch hctx
      · split at hctx
        · exact nomatch hctx
        · split at hctx
          · exact nomatch hctx
          · obtain rfl := Option.some.inj hctx
            exact State.gang_gid hg

/-- Nothing keeps an access from issuing whose lines are present. -/
theorem State.Accesses.passGate_none {i : Instr} {m : MemInfo} (h : s.Accesses x i m) (hf : x.c.first = true) (crewFirst : Bool)
    (hlines : ∀ r ∈ s.padRanges x.g (x.planeAccesses x.c.words), s.gatePresent r = true) : s.passGate x crewFirst x.c.words = none := by
  have horder : (x.planeAccesses x.c.words).filterMap (fun a => s.orderWait x a.1) = [] :=
    List.filterMap_eq_nil_iff.2 (h.order hf)
  have hthere : s.linesAbsent x.g crewFirst (x.planeAccesses x.c.words) = false := by
    simp only [State.linesAbsent, Bool.not_eq_false', List.all_eq_true]
    intro r hr
    rw [hlines r hr, Bool.or_true]
  simp [State.passGate, horder, h.apart hf, hthere, h.unfilled hf, leastReason]

/-- A pass of an access to the gang's own view, once nothing stops it. -/
theorem State.memPass_own {m : MemInfo} {w : XWord} {ls : List Nat} (hs : m.spaceOf x.g (x.base w.b9.toNat) = 1) :
    s.memPass x m w ls = ((s.countConflicts x.g x.c.bundle x.c.sub
      (bankExtra (ls.map (fun l => (l, (x.laneEa m w l).toNat, m.size))))).padPass x m w ls).finishPass x 12 := by
  cases ls with
  | nil =>
    have hnone : bankExtra [] = 0 := by decide
    simp only [State.memPass, List.isEmpty_nil, if_true, List.map_nil, hnone, State.countConflicts, beq_self_eq_true]
    rfl
  | cons l ls => simp only [State.memPass, hs, List.isEmpty_cons, Bool.false_eq_true, if_false, beq_self_eq_true, if_true]

/-- A per-lane access whose lines are present and hold no error is performed. -/
theorem runMem_own {i : Instr} {op : Nat} {w : XWord} (h : s.Accesses x i (memInfo op w))
    (hr : s.padReady x (memInfo op w) w (x.lanesIn x.c.plane (guardOf i))) :
    let ls := x.lanesIn x.c.plane (guardOf i)
    runMem i op w s = .next (((s.countPass x ls.length).countBank x i).memPass x (memInfo op w) w ls) := by
  intro ls
  have hdog : watchdogIssue x = none := h.inTime
  obtain ⟨hlines, hclean⟩ := hr
  have hcheck : (if x.c.first then s.memPrecheck x i else none) = none := by
    split
    next hf => exact h.address hf
    next => rfl
  have hgate (crewFirst : Bool) : (if x.c.first then s.passGate x crewFirst x.c.words else none) = none := by
    split
    next hf => exact h.passGate_none hf crewFirst (hlines hf)
    next => rfl
  have hdamage : s.padDamage x (memInfo op w) w ls = none := by
    have hfind : ls.find? (fun l => s.padPoisoned x.g (memInfo op w) (x.laneEa (memInfo op w) w l).toNat) = none :=
      List.find?_eq_none.2 fun l hl => by rw [hclean l hl]; exact Bool.false_ne_true
    unfold State.padDamage
    rw [hfind]
    split <;> rfl
  simp only [ls] at hdamage
  simp only [runMem, h.issues.ctx, h.form, h.latch, hcheck, hgate, hdog, hdamage, firstFault, ls]

/-- A pass that is counted and whose bank conflicts are counted is, but for its counts, one whose bundle owes the conflicts' cycles. -/
theorem State.padCounted_eq {i : Instr} {m : MemInfo} {w : XWord} (h : s.Issues x) (ls : List Nat) :
    (((s.countPass x ls.length).countBank x i).countConflicts x.g x.c.bundle x.c.sub
      (bankExtra (ls.map (fun l => (l, (x.laneEa m w l).toNat, m.size))))).uncounted =
      (s.modBundle x.c.gid x.c.bundle (x.conflicted m w ls)).uncounted := by
  rw [State.uncounted_countConflicts ls h.gid, State.uncounted_countBank, State.uncounted_countPass]
  rfl

/-- The end of a pass of an access to the gang's own view, from a state that differs from one in counts alone: the lanes' accesses, one after
the other, and the bundle after the pass. -/
theorem State.finishPass_padPass {m : MemInfo} {w : XWord} {ls : List Nat} {v : State} (h : s.Issues x) (hw : s.watching = false)
    (hl : ∀ l ∈ ls, ∃ y, x.b.lanes[l]? = some y) {f : Bundle → Bundle}
    (hv : v.uncounted = (s.modBundle x.c.gid x.c.bundle f).uncounted) :
    ((v.padPass x m w ls).finishPass x 12).uncounted =
      (ls.foldl (fun s l => s.padLane x m w l) (s.modBundle x.c.gid x.c.bundle f)).uncounted.modBundle x.c.gid x.c.bundle
        (x.afterPass s 12) := by
  have hawake : v.watching = false := by
    rw [← State.watching_uncounted, hv, State.watching_uncounted]
    exact hw
  have hvhalts : v.uncounted.halts = s.halts := by rw [hv]; rfl
  have hvtick : v.uncounted.tick = s.tick := by rw [hv]; rfl
  have hvdies : v.uncounted.dies = s.dies := by rw [hv]; rfl
  have hvending : v.uncounted.ending x.c.gid = s.ending x.c.gid := by
    rw [hv]
    exact State.ending_modBundle ..
  rw [State.padPass_eq hawake hl]
  obtain ⟨hhalts, htick, hdies, -, hending⟩ := (State.PadChanged.foldl (fun s l => .padLane s x m w l) v ls).around x.c.gid
  have hcycles : ((ls.foldl (fun s l => s.padLane x m w l) v).die x.g.die).cycles = (s.die x.g.die).cycles := by
    simp only [State.die, hdies, ← hvdies]
    rfl
  rw [State.finishPass_uncounted h.free (hhalts.trans (hvhalts.trans h.calm)) (hending.trans (hvending.trans h.alive)),
    (Ctx.after_congr hcycles (htick.trans hvtick)).2.2.2]
  have hlanes (v : State) : ls.foldl (fun s l => s.padLane x m w l) v.uncounted = (ls.foldl (fun s l => s.padLane x m w l) v).uncounted :=
    List.foldl_hom State.uncounted fun s l => (padUnseen_uncounted x).padLane s m w l
  rw [← hlanes, hv, hlanes]

/-- A pass of an access to the gang's own view leaves its lanes' accesses, one after the other, and the bundle after it. -/
theorem runMem_padLanes {i : Instr} {op : Nat} {w : XWord} (h : s.Accesses x i (memInfo op w))
    (hs : (memInfo op w).spaceOf x.g (x.base w.b9.toNat) = 1) (hr : s.padReady x (memInfo op w) w (x.lanesIn x.c.plane (guardOf i))) :
    let ls := x.lanesIn x.c.plane (guardOf i)
    ∃ t, runMem i op w s = .next t ∧ t.uncounted =
      (ls.foldl (fun s l => s.padLane x (memInfo op w) w l) (s.modBundle x.c.gid x.c.bundle (x.conflicted (memInfo op w) w ls))).uncounted.modBundle
        x.c.gid x.c.bundle (x.afterPass s 12) := by
  intro ls
  refine ⟨_, runMem_own h hr, ?_⟩
  rw [State.memPass_own hs]
  exact State.finishPass_padPass h.issues h.calm (fun _ hl => Ctx.lanesIn_lt hl) (State.padCounted_eq h.issues ls)

/-- A load's lanes leave memory, so that each reads what the first would (R227, R230). -/
theorem State.foldl_padLane_load {m : MemInfo} (hm : m.kind = 0) (w : XWord) (ls : List Nat) (s : State) :
    ls.foldl (fun s l => s.padLane x m w l) s = s.modBundle x.c.gid x.c.bundle (fun b => b.eachLane ls (fun l y =>
      y.deliverGroup w.d9.toNat (w.nwb == 1) (loadWords m.wd (s.readView x.g (x.laneEa m w l).toNat m.size)))) := by
  induction ls generalizing s with
  | nil => exact (State.modBundle_id ..).symm
  | cons l ls ih =>
    have hlane : s.padLane x m w l = s.modBundle x.c.gid x.c.bundle (fun b => b.modLane l (fun y =>
        y.deliverGroup w.d9.toNat (w.nwb == 1) (loadWords m.wd (s.readView x.g (x.laneEa m w l).toNat m.size)))) := by
      simp only [State.padLane, State.padAccess, hm]
      rfl
    rw [List.foldl_cons, ih, hlane, State.modBundle_modBundle]
    rfl

/-- A store's lane writes its bytes. -/
theorem State.padLane_store {m : MemInfo} (hm : m.kind = 1) (s : State) (w : XWord) (l : Nat) :
    s.padLane x m w l = s.writeView x.g (x.laneEa m w l).toNat (x.storedBytes m w l) := by
  simp only [State.padLane, State.padAccess, hm]
  rfl

theorem State.padLane_atomic {m : MemInfo} (hm : m.kind = 2) (s : State) (w : XWord) (l : Nat) :
    s.padLane x m w l = x.atomLane m w s l := by
  simp only [State.padLane, State.padAccess, hm]
  rfl

/-- A pass that owes the cycles of its bank conflicts before its lanes' accesses owes them after. -/
theorem State.foldl_padLane_conflicted {m : MemInfo} {w : XWord} (ks ls : List Nat) (s : State) :
    ls.foldl (fun s l => s.padLane x m w l) (s.modBundle x.c.gid x.c.bundle (x.conflicted m w ks)) =
      (ls.foldl (fun s l => s.padLane x m w l) s).modBundle x.c.gid x.c.bundle (x.conflicted m w ks) :=
  List.foldl_hom (fun s : State => s.modBundle x.c.gid x.c.bundle (x.conflicted m w ks)) fun s l =>
    (padUnseen_conflicted x m w ks).padLane s m w l

theorem execLds_passes (w : XWord) : PadPass (.lds w) (memInfo 0x6A w) w (fun _ _ s => s) (fun x ls s b => b.eachLane ls (fun l y =>
    y.deliverGroup w.d9.toNat (w.nwb == 1) (loadWords (w.fn.toNat % 8)
      (s.readView x.g (x.laneEa (memInfo 0x6A w) w l).toNat (wdBytes (w.fn.toNat % 8)))))) := by
  intro s x h hs hr ls
  obtain ⟨t, hnext, hleft⟩ := runMem_padLanes h hs hr
  refine ⟨t, hnext, hleft.trans ?_⟩
  rw [State.foldl_padLane_load rfl, State.modBundle_modBundle, State.uncounted_modBundle, State.modBundle_modBundle]
  rfl

theorem execSts_passes (w : XWord) : PadPass (.sts w) (memInfo 0x6B w) w (fun x ls s => ls.foldl (fun s l =>
    s.writeView x.g (x.laneEa (memInfo 0x6B w) w l).toNat (x.storedBytes (memInfo 0x6B w) w l)) s) (fun _ _ _ b => b) := by
  intro s x h hs hr ls
  obtain ⟨t, hnext, hleft⟩ := runMem_padLanes h hs hr
  refine ⟨t, hnext, hleft.trans ?_⟩
  rw [State.foldl_padLane_conflicted, State.uncounted_modBundle, State.modBundle_modBundle]
  simp only [State.padLane_store (show (memInfo 0x6B w).kind = 1 from rfl)]
  rfl

theorem execAtom_passes (w : XWord) : PadPass (.atom w) (memInfo 0x6C w) w (fun x ls s => ls.foldl (x.atomLane (memInfo 0x6C w) w) s)
    (fun _ _ _ b => b) := by
  intro s x h hs hr ls
  obtain ⟨t, hnext, hleft⟩ := runMem_padLanes h hs hr
  refine ⟨t, hnext, hleft.trans ?_⟩
  rw [State.foldl_padLane_conflicted, State.uncounted_modBundle, State.modBundle_modBundle]
  simp only [State.padLane_atomic (show (memInfo 0x6C w).kind = 2 from rfl)]
  rfl

/-- Settles O24: a pass is its lanes' accesses in ascending order, each by its kind. -/
theorem scratchpadLanes : Obligations.ScratchpadLanes := ⟨execLds_passes, execSts_passes, execAtom_passes⟩

end Sys2Proof.Machine
end

section
/-!
PROOF. Translation (O27): a request by the TLB of its home agent, or by a walk.
-/

namespace Sys2Proof.Machine

variable {s : State} {o : MemOp} {r : LaneReq} {g : Gang}

/-- A translation that permits the access sends the request on to its slice, unless it confirms a read that was made early (R140, R141). -/
theorem State.translated_eq_sentOn {leaf base size : Nat} (hperm : bit leaf (o.kind + 1) = true)
    (hstops : s.resetStops g (vaDie r.va.toNat) (base + r.va.toNat % size) = false)
    (hunread : r.status = 0 ∨ r.data = [] ∨ o.kind ≠ 0) : s.translated o r g leaf base size = s.sentOn o r g.part leaf base size := by
  have hread (p : Bool) : (r.status == 1 && p && !r.data.isEmpty && o.kind == 0) = false := by
    rcases hunread with h | h | h <;> simp [h]
  have hgoes : (bit leaf (permBit o.kind) && !(s.modDie (vaDie r.va.toNat) (fun d => d.keepTranslation g.part r.va.toNat leaf base size)).resetStops
      g (vaDie r.va.toNat) (base + r.va.toNat % size)) = true := by
    rw [permBit, hperm]
    exact congrArg (fun b => true && !b) hstops
  simp only [State.translated, hgoes, hread, State.sentOn, if_true, Bool.false_eq_true, if_false, Bool.not_false, Bool.and_true, beq_iff_eq]

theorem exec_homeAgentRequest_hit {e : TlbEnt} (h : s.Request o r g) (hnew : r.status = 0) (hxv : vaIsXv r.va.toNat = false)
    (hit : (s.die (vaDie r.va.toNat)).tlbFind g.part r.va.toNat = some e) (hperm : bit e.leaf.toNat (o.kind + 1) = true)
    (hstops : s.resetStops g (vaDie r.va.toNat) (entryPa e.leaf.toNat + r.va.toNat % e.size) = false) :
    exec (.homeAgentRequest o.id r.lane) s = .next (s.sentOn o r g.part e.leaf.toNat (entryPa e.leaf.toNat) e.size) := by
  rw [← State.translated_eq_sentOn hperm hstops (.inl hnew)]
  change execHomeAgentRequest o.id r.lane s = _
  simp [execHomeAgentRequest, h.op, h.lane, h.gang, h.global, h.unheld, hnew, hxv, hit]

theorem exec_homeAgentRequest_miss (h : s.Request o r g) (hnew : r.status = 0) (hxv : vaIsXv r.va.toNat = false)
    (hmiss : (s.die (vaDie r.va.toNat)).tlbFind g.part r.va.toNat = none) :
    ∃ p, exec (.homeAgentRequest o.id r.lane) s = .next (s.modReq o.id r.lane (fun r =>
      { r with status := 1, predicted := p, data := if o.kind = 0 then [] else r.data })) := by
  refine ⟨if o.kind = 0 then ((s.die (vaDie r.va.toNat)).predict g.part r.va.toNat).map (hbmLoc (vaDie r.va.toNat)) else none, ?_⟩
  change execHomeAgentRequest o.id r.lane s = _
  simp [execHomeAgentRequest, h.op, h.lane, h.gang, h.global, h.unheld, hnew, hxv, hmiss]

theorem exec_pageWalkComplete_leaf {p : Partition} {e base size : Nat} (h : s.Request o r g) (hwalks : r.status = 1)
    (hunread : r.data = [] ∨ o.kind ≠ 0) (hp : s.part g.part = some p) (hleaf : s.walk p r.va.toNat = .leaf e base size)
    (hperm : bit e (o.kind + 1) = true) (hstops : s.resetStops g (vaDie r.va.toNat) (base + r.va.toNat % size) = false) :
    exec (.pageWalkComplete o.id r.lane) s = .next (s.sentOn o r g.part e base size) := by
  rw [← State.translated_eq_sentOn hperm hstops (.inr hunread)]
  change execPageWalkComplete o.id r.lane s = _
  simp [execPageWalkComplete, h.op, h.lane, h.gang, hwalks, hp, hleaf]

theorem exec_pageWalkComplete_invalid {p : Partition} (h : s.Request o r g) (hwalks : r.status = 1) (hp : s.part g.part = some p)
    (hinvalid : s.walk p r.va.toNat = .invalid) : exec (.pageWalkComplete o.id r.lane) s = .next (s.failReq o r [5, 0]) := by
  change execPageWalkComplete o.id r.lane s = _
  simp [execPageWalkComplete, h.op, h.lane, h.gang, hwalks, hp, hinvalid]

/-- Settles O27: a request by whether its TLB holds the page, a walk by what it finds. -/
theorem translation : Obligations.Translation :=
  ⟨fun _ _ _ _ _ h hnew hxv hit hperm hstops => exec_homeAgentRequest_hit h hnew hxv hit hperm hstops,
    fun _ _ _ _ h hnew hxv hmiss => exec_homeAgentRequest_miss h hnew hxv hmiss,
    fun _ _ _ _ _ _ _ _ h hwalks hunread hp hleaf hperm hstops => exec_pageWalkComplete_leaf h hwalks hunread hp hleaf hperm hstops,
    fun _ _ _ _ _ h hwalks hp hinvalid => exec_pageWalkComplete_invalid h hwalks hp hinvalid⟩

end Sys2Proof.Machine
end

section
/-!
PROOF. Retirement (O45): what a gang leaves when it retires, and what a crew leaves, its record's last crew and a join counter among them.
-/

namespace Sys2Proof.Machine

variable {s t u : State}

/-! ## A gang retires (R397) -/

/-- The news of a gang's end is in the frames alone. -/
theorem State.endedNews_frame (s : State) (g : Gang) : { s.endedNews g with fabric := s.fabric } = s := by
  have hsend (t : State) (part die : Nat) (gid : W32) (k : Nat) (body : FabricBody) (e : Nat) :
      { t.sendFrame part die gid k body e with fabric := s.fabric } = { t with fabric := s.fabric } := by
    unfold State.sendFrame
    split <;> rfl
  have htell (t : State) (part die : Nat) (gid : W32) (k : Nat) (body : FabricBody) :
      { t.tellPeers part die gid k body with fabric := s.fabric } = { t with fabric := s.fabric } := by
    unfold State.tellPeers
    split
    next => rfl
    next => exact foldl_field (fun t : State => { t with fabric := s.fabric }) (fun t e => hsend t ..) _ _
  exact foldl_field (fun t : State => { t with fabric := s.fabric })
    (fun t c => foldl_field (fun t : State => { t with fabric := s.fabric }) (fun t p => htell t ..) _ _) _ _

/-- Carries that are abandoned leave every gang as far gone as it was. -/
theorem State.gang_abandonCarries {gid : Nat} {g : Gang} (h : s.gang gid = some g) :
    ∃ g', s.abandonCarries.gang gid = some g' ∧ g'.retired = g.retired := by
  rw [State.gang_of_map (t := s.abandonCarries) rfl (fun g => by split <;> rfl), h]
  refine ⟨_, rfl, ?_⟩
  dsimp only
  split <;> rfl

theorem State.mayRetire_of {g : Gang} {c : Crew} (hc : s.crew g.crew = some c) (hr : g.retired = false) (hdone : ∀ b ∈ g.bundles, b.done = true)
    (hops : ∀ o ∈ s.ops, o.gid = g.gid → o.state = 4) (hcarry : s.carryReady g.gid = false) (howes : g.scan.owes = 0)
    (hmem : ∀ o ∈ s.memOps, o.gid ≠ g.gid) (hreached : s.reached g = false) (hcap : c.captured = false) : s.mayRetire g = true := by
  have hbundles : g.bundles.all Bundle.done = true := List.all_eq_true.2 hdone
  have hops' : s.ops.all (fun o => o.gid != g.gid || o.state == 4) = true := List.all_eq_true.2 fun o ho => by
    simpa [imp_iff_not_or] using hops o ho
  have hmem' : s.memOps.all (fun o => o.gid != g.gid || o.kind == 0 || s.parked o) = true := List.all_eq_true.2 fun o ho => by
    simp [hmem o ho]
  simp [State.mayRetire, hr, hbundles, hops', hcarry, howes, hmem', hreached, hc, hcap]

/-- A state in which a gang has retired, its operations and accesses gone. -/
def State.retireGang (s : State) (gid : Nat) : State :=
  ({ s with ops := s.ops.filter (fun o => o.gid != gid), memOps := s.memOps.filter (fun o => o.gid != gid) }.modGang gid
    (fun g => { g with retired := true, sampling := none })).abandonCarries

theorem State.gang_retireGang {gid : Nat} {g : Gang} (h : s.gang gid = some g) :
    ∃ g', (s.retireGang gid).gang gid = some g' ∧ g'.retired = true := by
  refine State.gang_abandonCarries (g := { g with retired := true, sampling := none }) ?_
  rw [State.gang_of_map (s := s) rfl (fun g => by split <;> rfl), h, Option.map_some, if_pos (beq_iff_eq.2 (State.gang_gid h))]

theorem execGangRetire_eq {g : Gang} (hg : s.gang g.gid = some g) (hmay : s.mayRetire g = true) :
    exec (.gangRetire g.gid) s = .next (((s.releaseWatch g).endedNews g).retireGang g.gid) := by
  change execGangRetire g.gid s = _
  simp only [execGangRetire, hg, hmay, Bool.not_true, Bool.false_eq_true, if_false]
  rfl

theorem exec_gangRetire_retires {g : Gang} (hg : s.gang g.gid = some g) (hmay : s.mayRetire g = true) :
    ∃ t g', exec (.gangRetire g.gid) s = .next t ∧ t.gang g.gid = some g' ∧ g'.retired = true ∧ t.mem = s.mem ∧
      t.crews = s.crews ∧ ∀ o ∈ t.ops, o.gid ≠ g.gid := by
  have hframe := (s.releaseWatch g).endedNews_frame g
  have hgangs : ((s.releaseWatch g).endedNews g).gangs = s.gangs := (congrArg State.gangs hframe).trans (State.modCore_gangs ..)
  have hmem : ((s.releaseWatch g).endedNews g).mem = s.mem := (congrArg State.mem hframe).trans (State.modCore_mem ..)
  have hcrews : ((s.releaseWatch g).endedNews g).crews = s.crews := (congrArg State.crews hframe).trans (State.modCore_crews ..)
  have hgang : ((s.releaseWatch g).endedNews g).gang g.gid = some g := by rw [← hg, State.gang, hgangs, State.gang]
  obtain ⟨g', hg', hretired⟩ := State.gang_retireGang hgang
  refine ⟨_, g', execGangRetire_eq hg hmay, hg', hretired, hmem, hcrews, fun o ho => ?_⟩
  simpa using (List.mem_filter.1 ho).2

/-! ## Records under what a join counter's change does (R101, R110, R111) -/

/-- Every die of the second state holds the first one's records, in their order, and perhaps more after them. -/
structure State.Grows (s t : State) : Prop where
  stores : ∀ d, (s.die d).store <+: (t.die d).store

namespace State.Grows

theorem refl (s : State) : s.Grows s := ⟨fun _ => List.prefix_rfl⟩

theorem trans (h : s.Grows t) (h' : t.Grows u) : s.Grows u := ⟨fun d => (h.stores d).trans (h'.stores d)⟩

theorem modDie (h : s.Grows t) (e : Nat) {f : Die → Die} (hf : ∀ x : Die, x.store <+: (f x).store) : s.Grows (t.modDie e f) := by
  refine h.trans ⟨fun d => ?_⟩
  by_cases he : d = e
  · subst he
    by_cases hd : d < t.dies.length
    · rw [State.die_modDie d f hd]
      exact hf _
    · rw [State.die_absent hd]
      exact List.nil_prefix
  · rw [State.die_modDie_ne f he]

theorem record {d arrival : Nat} {r : Record} (h : s.Grows t) (hr : s.record d arrival = some r) : t.record d arrival = some r :=
  (h.stores d).find?_eq_some hr

theorem foldl {α : Type} {f : State → α → State} (h : s.Grows t) (hf : ∀ u x, s.Grows u → s.Grows (f u x)) (xs : List α) :
    s.Grows (xs.foldl f t) := by
  induction xs generalizing t with
  | nil => exact h
  | cons x xs ih => exact ih (hf t x h)

theorem withBatches (h : s.Grows t) (bs : List InvalBatch) : s.Grows { t with batches := bs } := ⟨h.stores⟩

theorem withNextId (h : s.Grows t) (n : Nat) : s.Grows { t with nextId := n } := ⟨h.stores⟩

theorem modPart (h : s.Grows t) (p : Nat) (f : Partition → Partition) : s.Grows (t.modPart p f) := ⟨h.stores⟩

theorem modLease (h : s.Grows t) (k : Nat) (f : Lease → Lease) : s.Grows (t.modLease k f) := ⟨h.stores⟩

theorem withLeases (h : s.Grows t) (ls : List Lease) : s.Grows { t with leases := ls } := ⟨h.stores⟩

theorem draw (h : s.Grows t) : s.Grows t.draw.2 := ⟨h.stores⟩

theorem send (h : s.Grows t) (m : OutMsg) : s.Grows (t.send m) := ⟨h.stores⟩

theorem notice (h : s.Grows t) (kind part die detail : Nat) (lid : W64) (body : List Byte) :
    s.Grows (t.notice kind part die detail lid body) := h.send _

theorem carryClock (h : s.Grows t) (src dst : Nat) : s.Grows (t.carryClock src dst) := by
  unfold State.carryClock
  split
  · exact h
  · exact h.modDie dst fun _ => List.prefix_rfl

theorem touchRange (h : s.Grows t) (part cls fuel va n : Nat) : s.Grows (t.touchRange part cls fuel va n) := by
  induction fuel generalizing t va n with
  | zero => exact h
  | succ fuel ih =>
    unfold State.touchRange
    split
    · exact h
    · refine ih ?_ ..
      split
      · exact h
      · refine h.modDie _ fun x => ?_
        rw [foldl_field Die.store fun y l => y.llcTouch_store ..]
        exact List.prefix_rfl

theorem useRange (h : s.Grows t) (die part cls va n : Nat) : s.Grows (t.useRange die part cls va n) := by
  unfold State.useRange
  split
  · exact h
  · exact (h.touchRange ..).carryClock ..

theorem putBytes (h : s.Grows t) (a : Nat) (bs : List Byte) : s.Grows (t.putBytes a bs) := ⟨h.stores⟩

theorem dropLines (h : s.Grows t) (d : Nat) (hit : Nat → Bool) (lines : List Nat) : s.Grows (t.dropLines d hit lines) := ⟨h.stores⟩

theorem writeHome (h : s.Grows t) (e : Option (Nat × Nat)) (loc : Nat) (bs : List Byte) : s.Grows (t.writeHome e loc bs) := by
  have hdropped := (h.putBytes loc bs).dropLines (loc / 2 ^ 37) (fun c => e != some (loc / 2 ^ 37, c)) (linesOf loc bs.length)
  unfold State.writeHome State.invalidate
  dsimp only
  split
  · exact hdropped
  · refine withBatches ?_ _
    exact hdropped.modDie _ fun _ => List.prefix_rfl

theorem writeRuns (h : s.Grows t) (e : Option (Nat × Nat)) (rs : List (Nat × Nat)) (bs : List Byte) : s.Grows (t.writeRuns e rs bs) := by
  induction rs generalizing t bs with
  | nil => exact h
  | cons r rs ih => exact ih (h.writeHome ..) _

theorem writeVa {die part kind va : Nat} {bs : List Byte} (h : s.Grows t) (hw : t.writeVa die part kind va bs = some u) : s.Grows u := by
  obtain ⟨rs, -, rfl⟩ := Option.map_eq_some_iff.1 hw
  exact (h.useRange ..).writeRuns ..

theorem logViolation (h : s.Grows t) (part die va agentIdx agentType kind rdie : Nat) :
    s.Grows (t.logViolation part die va agentIdx agentType kind rdie) := by
  unfold State.logViolation
  dsimp only
  split
  next => exact h
  next =>
    split
    next hw => exact (h.modPart ..).writeVa hw
    next =>
      split
      · exact h.modPart ..
      · exact ((h.modPart ..).modPart ..).send _

theorem accept (h : s.Grows t) (d : Nat) (r : Record) (reserve : Bool) : s.Grows (t.accept d r reserve).1 := by
  have counted {u : State} (hu : s.Grows u) :
      s.Grows ((u.modDie d fun x => { x with arrivals := x.arrivals + 1 }).countRecord r.lkey d (· + 1)) := by
    refine modLease ?_ ..
    exact hu.modDie _ fun _ => List.prefix_rfl
  have pushed (q : Record) : s.Grows (t.pushRecord d q) := h.modDie _ fun _ => List.prefix_append ..
  unfold State.accept
  dsimp only
  split
  next => exact h
  next =>
    split
    · exact counted (pushed _)
    · split
      · exact counted (pushed _)
      · split
        · split
          next => exact h
          next hw => exact counted ((h.writeVa hw).modPart ..)
        · exact h

theorem reside (h : s.Grows t) (l : Lease) (d : Nat) (spans : List (Nat × Nat)) : s.Grows (t.reside l d spans) := by
  unfold State.reside
  split
  · exact h
  · refine h.foldl (fun u q hu => foldl ?_ (fun v run hv => (hv.send _).modLease ..) _) spans
    split
    · exact hu.modLease ..
    · exact hu

theorem readHeader (h : s.Grows t) (lkey d : Nat) : s.Grows (t.readHeader lkey d) := by
  fun_cases State.readHeader t lkey d
  case case6 => exact (h.modLease ..).reside ..
  case case5 => exact h.modLease ..
  all_goals exact h

theorem queueWhole (h : s.Grows t) (d : Nat) (p : List Byte) (reserve : Bool) : s.Grows (t.queueWhole d p reserve).1 := by
  have opened {u : State} (hu : s.Grows u) (lkey : Nat) : s.Grows (u.openLease lkey p) :=
    foldl (hu.withLeases _) (fun v d hv => (hv.reside ..).readHeader ..) _
  unfold State.queueWhole
  dsimp only
  split
  · exact (opened (h.withNextId _) _).accept ..
  · exact h

theorem continuation (h : s.Grows t) (part va : Nat) (cont : W64) : s.Grows (t.continuation part va cont) := by
  unfold State.continuation
  -- what is read does not matter; left in place, it would be evaluated when the proof is checked
  generalize t.readAny part 1 cont.toNat 256 = packet
  cases packet with
  | error f =>
    dsimp only
    split
    · exact h.draw.notice ..
    · split
      · exact (h.logViolation ..).draw.notice ..
      · exact h.draw.notice ..
  | ok p =>
    dsimp only
    have heard : s.Grows ((t.useRange (vaDie va) part 0 cont.toNat 256).hearRange (vaDie va) cont.toNat) :=
      (h.useRange (vaDie va) part 0 cont.toNat 256).carryClock ..
    generalize (t.useRange (vaDie va) part 0 cont.toNat 256).hearRange (vaDie va) cont.toNat = u at heard ⊢
    split
    · exact h.draw.notice ..
    · split
      next => exact heard.notice ..
      next =>
        split
        · exact heard.notice ..
        · split
          next => exact heard.queueWhole ..
          next => exact (heard.queueWhole ..).notice ..

theorem jcApply {die part va : Nat} {delta old : W64} (h : s.Grows t) (hj : t.jcApply die part va delta = some (u, old)) : s.Grows u := by
  unfold State.jcApply at hj
  split at hj
  next => cases hj
  next rs _ =>
    obtain ⟨rfl, -⟩ := Prod.mk.inj (Option.some.inj hj)
    have written (bs : List Byte) := (h.useRange die part 0 va 16).writeRuns none rs bs
    split
    · refine notice ?_ ..
      split
      · exact (written _).continuation ..
      · exact written _
    · split
      · exact (written _).continuation ..
      · exact written _

end State.Grows

/-! ## A crew retires (R398, R399) -/

/-- A record that is changed, its arrival number kept, is the changed one. -/
theorem State.record_modRecord {d arrival : Nat} {f : Record → Record} (hf : ∀ r, (f r).arrival = r.arrival) :
    (s.modRecord d arrival f).record d arrival = (s.record d arrival).map f := by
  by_cases hd : d < s.dies.length
  · rw [State.record, State.modRecord, State.die_modDie d _ hd]
    have hkept : (fun r : Record => (if r.arrival == arrival then f r else r).arrival == arrival) = fun r => r.arrival == arrival := by
      funext r
      split
      · rw [hf]
      · rfl
    simp only [List.find?_map, Function.comp_def, hkept]
    cases hr : (s.die d).store.find? (fun r => r.arrival == arrival) with
    | none => simp [State.record, hr]
    | some r =>
      have harrival : (r.arrival == arrival) = true := List.find?_some (p := fun r : Record => r.arrival == arrival) hr
      simp only [State.record, hr, Option.map_some, harrival, if_true]
  · have hd' : ¬ d < (s.modRecord d arrival f).dies.length := by simpa [State.modRecord, State.modDie] using hd
    rw [State.record, State.record, State.die_absent hd, State.die_absent hd']
    rfl

/-- A record counted down by a crew that retires. -/
def Record.retireCrew (faulted : Bool) (r : Record) : Record :=
  { r with left := r.left - 1, retired := r.retired + 1, faulted := r.faulted + if faulted then 1 else 0 }

/-- A state that a crew has left, its record counted down and its segment freed. -/
def State.leaveCrew (s : State) (c : Crew) : State :=
  let t := (s.modRecord c.die c.arrival (Record.retireCrew c.faulted)).freeSegment c
  { t with gangs := t.gangs.filter (fun g => g.crew != c.cid), crews := t.crews.filter (fun q => q.cid != c.cid) }

theorem State.freeSegment_frame (s : State) (c : Crew) : ∃ lines segs, s.freeSegment c = { s with absent := lines, segs := segs } := by
  unfold State.freeSegment
  split
  next => exact ⟨s.absent, s.segs, rfl⟩
  next =>
    dsimp only
    split <;> exact ⟨_, _, rfl⟩

theorem State.leaveCrew_mem (s : State) (c : Crew) : (s.leaveCrew c).mem = s.mem := by
  obtain ⟨_, _, h⟩ := (s.modRecord c.die c.arrival (Record.retireCrew c.faulted)).freeSegment_frame c
  simp only [State.leaveCrew, h]
  rfl

theorem State.record_leaveCrew {c : Crew} {r : Record} (hr : s.record c.die c.arrival = some r) :
    (s.leaveCrew c).record c.die c.arrival = some (r.retireCrew c.faulted) := by
  obtain ⟨_, _, h⟩ := (s.modRecord c.die c.arrival (Record.retireCrew c.faulted)).freeSegment_frame c
  have hcounted : (s.modRecord c.die c.arrival (Record.retireCrew c.faulted)).record c.die c.arrival = some (r.retireCrew c.faulted) := by
    rw [State.record_modRecord (f := Record.retireCrew c.faulted) fun _ => rfl, hr, Option.map_some]
  simp only [State.leaveCrew, h]
  exact hcounted

theorem State.closeRecord_of_left {d arrival : Nat} {r : Record} (hr : s.record d arrival = some r) (hleft : r.left ≠ 0) :
    s.closeRecord d arrival = s := by
  simp [State.closeRecord, hr, hleft]

section
variable {c : Crew} {r : Record} (hc : s.crew c.cid = some c) (hdone : s.crewDone c = true) (hr : s.record c.die c.arrival = some r)
include hc hdone hr

/-- A crew that may retire decrements its join counter and leaves its record. -/
theorem exec_crewRetire (hjc : pkJc r.packet = 0 ∨ s.settled (vaDie (pkJc r.packet)) = true) :
    exec (.crewRetire c.cid) s = .next (((s.retireJc c (pkJc r.packet)).leaveCrew c).closeRecord c.die c.arrival) := by
  have hmay : (!s.crewDone c || (pkJc r.packet != 0 && !s.settled (vaDie (pkJc r.packet)))) = false := by
    rcases hjc with h | h <;> simp [hdone, h]
  change execCrewRetire c.cid s = _
  simp only [execCrewRetire, hc, hr, hmay]
  rfl

/-- A crew without a join counter leaves its record, which is closed when no other is left. -/
theorem exec_crewRetire_without_counter (hjc : pkJc r.packet = 0) :
    exec (.crewRetire c.cid) s = .next ((s.leaveCrew c).closeRecord c.die c.arrival) := by
  rw [exec_crewRetire hc hdone hr (.inl hjc), hjc]
  rfl

/-- While other crews of its record are left, a crew with a join counter changes memory by the counter's decrement alone. -/
theorem exec_crewRetire_with_counter {old : W64} (hjc : pkJc r.packet ≠ 0) (hleft : 2 ≤ r.left)
    (hsettled : s.settled (vaDie (pkJc r.packet)) = true) (happly : s.jcApply c.die c.part (pkJc r.packet) (-1) = some (t, old)) :
    ∃ u, exec (.crewRetire c.cid) s = .next u ∧ u.mem = t.mem := by
  have hcounter : s.retireJc c (pkJc r.packet) = t := by
    simp only [State.retireJc, happly, beq_eq_false_iff_ne.2 hjc, Bool.false_eq_true, if_false]
  have hrt : t.record c.die c.arrival = some r := ((State.Grows.refl s).jcApply happly).record hr
  have hothers : (r.retireCrew c.faulted).left ≠ 0 := by
    show r.left - 1 ≠ 0
    omega
  refine ⟨t.leaveCrew c, ?_, t.leaveCrew_mem c⟩
  rw [exec_crewRetire hc hdone hr (.inr hsettled), hcounter, State.closeRecord_of_left (State.record_leaveCrew hrt) hothers]

end

/-- A crew without a segment frees none. -/
theorem State.leaveCrew_of_no_segment {c : Crew} (hseg : c.seg = none) : s.leaveCrew c =
    { s.modRecord c.die c.arrival (Record.retireCrew c.faulted) with
      gangs := s.gangs.filter (fun g => g.crew != c.cid), crews := s.crews.filter (fun q => q.cid != c.cid) } := by
  simp only [State.leaveCrew, State.freeSegment, hseg]
  rfl

/-- Settles O45: a gang by what it is freed of, a crew by what is left of its record. -/
theorem retirement : Obligations.Retirement := by
  refine ⟨fun s g c hg hc hr hdone hops hcarry howes hmem hreached hcap =>
      exec_gangRetire_retires hg (State.mayRetire_of hc hr hdone hops hcarry howes hmem hreached hcap),
    fun s c r hc hdone hr hjc hseg hleft => ?_, fun s c r hc hdone hr hjc hseg hleft => ?_,
    fun s c r t old hc hdone hr hjc hleft hsettled happly => exec_crewRetire_with_counter hc hdone hr hjc hleft hsettled happly⟩
  · have hothers : (r.retireCrew c.faulted).left ≠ 0 := by
      show r.left - 1 ≠ 0
      omega
    rw [exec_crewRetire_without_counter hc hdone hr hjc, State.closeRecord_of_left (State.record_leaveCrew hr) hothers,
      State.leaveCrew_of_no_segment hseg]
    rfl
  · have hlast : (r.retireCrew c.faulted).left = 0 := by
      show r.left - 1 = 0
      omega
    rw [exec_crewRetire_without_counter hc hdone hr hjc, State.closeRecord, State.record_leaveCrew hr, State.leaveCrew_of_no_segment hseg]
    simp only [hlast]
    rfl

end Sys2Proof.Machine
end

section
/-!
PROOF. Branches and calls (O13): targets, the lanes that a bra parts, and what each instruction makes of a slice.
-/

namespace Sys2Proof.Machine

variable {s : State} {x : Ctx}

/-! ## Targets and conditions (R150, R154) -/

theorem Ctx.dispTarget_offset (x : Ctx) (d : W32) : dispTarget x.offset d = x.targetOf d := by
  rw [dispTarget, toSigned_32, Ctx.targetOf]

theorem targetFault_eq_none {t : Int} : targetFault x.g.kernel.codeLen t = none ↔ x.inCode t := by
  simp [targetFault, firstFault_eq_none, Ctx.inCode]

theorem scalarCond_toNat (fn : BitVec 8) (a b : W64) : scalarCond fn.toNat a b = condition fn a b := by
  have hfn (k : BitVec 8) : (fn.toNat == k.toNat) = decide (fn = k) := by
    rw [Bool.eq_iff_iff, beq_iff_eq, decide_eq_true_eq, BitVec.toNat_inj]
  have h0 : (fn.toNat == 0) = decide (fn = 0) := hfn 0
  have h1 : (fn.toNat == 1) = decide (fn = 1) := hfn 1
  have h2 : (fn.toNat == 2) = decide (fn = 2) := hfn 2
  have h3 : (fn.toNat == 3) = decide (fn = 3) := hfn 3
  have h4 : (fn.toNat == 4) = decide (fn = 4) := hfn 4
  simp only [scalarCond, condition, h0, h1, h2, h3, h4, decide_eq_true_eq]
  split_ifs
  · rfl
  · exact (decide_not ..).symm
  · rfl
  · simp [BitVec.slt, ← decide_not]
  · rfl
  · simp [BitVec.ult, ← decide_not]

/-! ## The lanes of a slice as masks (R143, R151) -/

theorem ofNat_listMask : ∀ ls ∈ (List.range 4).sublists, BitVec.ofNat 4 (listMask ls) = laneMask ls := by decide

theorem getLsbD_laneMask : ∀ ls ∈ (List.range 4).sublists, ∀ i < 4, (laneMask ls).getLsbD i = decide (i ∈ ls) := by decide

theorem laneMask_eq_zero : ∀ ls ∈ (List.range 4).sublists, laneMask ls = 0 ↔ ls = [] := by decide

theorem laneMask_diff : ∀ ls ∈ (List.range 4).sublists, ∀ ts ∈ ls.sublists,
    laneMask ls &&& ~~~laneMask ts = laneMask (ls.filter (fun i => i ∉ ts)) := by decide

theorem laneMask_union : ∀ ls ∈ (List.range 4).sublists, ∀ ts ∈ ls.sublists,
    laneMask ts ||| laneMask (ls.filter (fun i => i ∉ ts)) = laneMask ls := by decide

/-- The active lanes of a slice whose guard fails (R151). -/
def Ctx.untaken (x : Ctx) (p : Nat) (pn : Bool) (sl : Slice) : List Nat :=
  (x.sliceLanes sl).filter (fun i => i ∉ x.taken p pn sl)

theorem Ctx.sliceLanes_mem (x : Ctx) (sl : Slice) : x.sliceLanes sl ∈ (List.range 4).sublists :=
  List.mem_sublists.2 List.filter_sublist

theorem Ctx.taken_mem (x : Ctx) (p : Nat) (pn : Bool) (sl : Slice) : x.taken p pn sl ∈ (x.sliceLanes sl).sublists :=
  List.mem_sublists.2 List.filter_sublist

theorem Ctx.taken_mem_range (x : Ctx) (p : Nat) (pn : Bool) (sl : Slice) : x.taken p pn sl ∈ (List.range 4).sublists :=
  List.mem_sublists.2 (List.filter_sublist.trans List.filter_sublist)

theorem Ctx.untaken_mem_range (x : Ctx) (p : Nat) (pn : Bool) (sl : Slice) : x.untaken p pn sl ∈ (List.range 4).sublists :=
  List.mem_sublists.2 (List.filter_sublist.trans List.filter_sublist)

theorem Ctx.untaken_eq_nil {p : Nat} {pn : Bool} {sl : Slice} : x.untaken p pn sl = [] ↔ x.taken p pn sl = x.sliceLanes sl := by
  simp only [Ctx.untaken, List.filter_eq_nil_iff, decide_not, Bool.not_eq_true', decide_eq_false_iff_not, not_not]
  refine ⟨fun h => ?_, fun h i hi => h ▸ hi⟩
  exact List.filter_eq_self.2 fun i hi => (List.mem_filter.1 (h i hi)).2

theorem Ctx.activeMask_eq (x : Ctx) (sl : Slice) : x.b.activeMask x.q.stepping sl = laneMask (x.sliceLanes sl) := by
  rw [← ofNat_listMask _ (x.sliceLanes_mem sl)]
  simp only [Bundle.activeMask, BitVec.getLsbD_and, Ctx.sliceLanes]

theorem Ctx.guardMask_eq (x : Ctx) (sl : Slice) (p : Nat) (pn : Bool) :
    x.b.guardMask sl (laneMask (x.sliceLanes sl)) p pn = laneMask (x.taken p pn sl) := by
  have hlanes : (List.range 4).filter (fun i => (laneMask (x.sliceLanes sl)).getLsbD i &&
      x.ofLane false (4 * sl.home + i) (fun y => y.readP p != pn)) = x.taken p pn sl := by
    rw [Ctx.taken]
    conv_rhs => rw [Ctx.sliceLanes]
    rw [List.filter_filter]
    refine List.filter_congr fun i hi => ?_
    rw [getLsbD_laneMask _ (x.sliceLanes_mem sl) i (List.mem_range.1 hi), Bool.and_comm]
    congr 1
    simp [Ctx.sliceLanes, hi, List.mem_range.1 hi]
  rw [← ofNat_listMask _ (x.taken_mem_range p pn sl), ← hlanes]
  rfl

theorem Ctx.braSplit_eq (x : Ctx) (w : BraWord) (sl : Slice) : x.braSplit w sl =
    (laneMask (x.taken w.pred.toNat (w.pn == 1) sl), laneMask (x.untaken w.pred.toNat (w.pn == 1) sl)) := by
  simp only [Ctx.braSplit, Ctx.activeMask_eq, Ctx.guardMask_eq, laneMask_diff _ (x.sliceLanes_mem sl) _ (x.taken_mem ..)]
  rfl

/-- The masks of a slice's lanes at a bra are both set just where the lanes part. -/
theorem Ctx.braSplit_parts {w : BraWord} {sl : Slice} :
    ((x.braSplit w sl).1 = 0 ∨ (x.braSplit w sl).2 = 0) ↔ ¬ x.parts w sl := by
  rw [Ctx.braSplit_eq, laneMask_eq_zero _ (x.taken_mem_range ..), laneMask_eq_zero _ (x.untaken_mem_range ..), Ctx.untaken_eq_nil,
    Ctx.parts]
  tauto

theorem Ctx.braSlice_eq (x : Ctx) (w : BraWord) : x.braSlice w = x.branched w := by
  funext sl
  simp only [Ctx.braSlice, Ctx.braSplit_eq, laneMask_eq_zero _ (x.taken_mem_range ..), laneMask_eq_zero _ (x.untaken_mem_range ..),
    Ctx.dispTarget_offset]
  unfold Ctx.untaken
  rw [laneMask_union _ (x.sliceLanes_mem sl) _ (x.taken_mem ..)]
  rfl

/-! ## The checks of branches and calls (R150, R151, R155) -/

/-- The stack checks of bra on a slice whose lanes part (R151). -/
def stackFault (w : BraWord) (sl : Slice) : Option FaultInfo :=
  firstFault [failIf (w.w1 = 0) { cls := 0x0C, sub := 4 }, failIf (sl.join.length ≥ 8) { cls := 0x0C, sub := 3 }]

/-- The stack checks of bra on one slice (R151). -/
def Ctx.partFault (x : Ctx) (w : BraWord) (sl : Slice) : Option FaultInfo :=
  if (x.braSplit w sl).1 = 0 ∨ (x.braSplit w sl).2 = 0 then none else stackFault w sl

theorem Ctx.partFault_of_parts {w : BraWord} {sl : Slice} (h : x.parts w sl) : x.partFault w sl = stackFault w sl :=
  if_neg (mt Ctx.braSplit_parts.1 (not_not.2 h))

theorem Ctx.partFault_of_whole {w : BraWord} {sl : Slice} (h : ¬ x.parts w sl) : x.partFault w sl = none :=
  if_pos (Ctx.braSplit_parts.2 h)

theorem braFault_eq (x : Ctx) (w : BraWord) : braFault x w =
    firstFault ([targetFault x.g.kernel.codeLen (x.targetOf w.w2),
      if w.w1 = 0 then none else targetFault x.g.kernel.codeLen (x.targetOf w.w1)] ++ (x.b.slicesOf x.q).map (x.partFault w)) := by
  rw [← Ctx.dispTarget_offset, ← Ctx.dispTarget_offset]
  rfl

theorem Ctx.partFault_eq_none {w : BraWord} {sl : Slice} :
    x.partFault w sl = none ↔ (x.parts w sl → w.w1 ≠ 0 ∧ sl.join.length < 8) := by
  by_cases h : x.parts w sl
  · simp [Ctx.partFault_of_parts h, stackFault, firstFault_eq_none, h]
  · simp [Ctx.partFault_of_whole h, h]

theorem joinTargetFault_eq_none {w : BraWord} : (if w.w1 = 0 then none else targetFault x.g.kernel.codeLen (x.targetOf w.w1)) = none ↔
    w.w1 = 0 ∨ x.inCode (x.targetOf w.w1) := by
  split
  next h => exact iff_of_true rfl (.inl h)
  next h => exact targetFault_eq_none.trans (or_iff_right h).symm

theorem braFault_eq_none {w : BraWord} : braFault x w = none ↔ x.inCode (x.targetOf w.w2) ∧ (w.w1 = 0 ∨ x.inCode (x.targetOf w.w1)) ∧
    ∀ sl ∈ x.b.slicesOf x.q, x.parts w sl → w.w1 ≠ 0 ∧ sl.join.length < 8 := by
  simp only [braFault_eq, firstFault_eq_none, List.forall_mem_append, List.forall_mem_cons, List.forall_mem_map, List.not_mem_nil,
    false_imp_iff, implies_true, and_true, targetFault_eq_none, joinTargetFault_eq_none, Ctx.partFault_eq_none, and_assoc]

theorem callFault_eq_none {t : Int} :
    callFault x t = none ↔ x.inCode t ∧ ∀ sl ∈ x.b.slicesOf x.q, sl.call.length < 16 := by
  simp [callFault, firstFault_eq_none, targetFault_eq_none]

/-! ## The meanings of branches and calls (R151, R154, R155) -/

theorem exec_bra (w : BraWord) (s : State) : exec (.bra w) s =
    runUniform true 12 (fun _ => bareForm true (w.nwb = 0)) (plainWord 0 0 0 w.d9 w.a9) (fun x => braFault x w)
      (fun x s => .moved (s.modIssuing x (x.branched w))) s := by
  simp only [← Ctx.braSlice_eq]
  rfl

theorem exec_bru (w : XWord) (s : State) : exec (.bru w) s =
    runUniform true 12 (fun _ => { bareForm (w.fn.toNat ≤ 5) (w.m6 = 0 && w.nwb = 0) with a := .scalar, b := .scalar }) w
      (fun x => targetFault x.g.kernel.codeLen (x.targetOf w.imm))
      (fun x s => .moved (s.goto x (if condition w.fn (x.s w.a9.toNat) (x.s w.b9.toNat) then (x.targetOf w.imm).toNat
        else x.offset + 12))) s := by
  simp only [← Ctx.dispTarget_offset, ← scalarCond_toNat]
  rfl

theorem exec_call (w : XWord) (s : State) : exec (.call w) s =
    runUniform true 12 (fun _ => bareForm true (w.m6 = 0 && w.nwb = 0)) w (fun x => callFault x (x.targetOf w.imm))
      (fun x s => .moved (s.doCall x (x.targetOf w.imm).toNat)) s := by
  simp only [← Ctx.dispTarget_offset]
  rfl

theorem exec_ret (s : State) : exec .ret s =
    runUniform true 4 (fun _ => bareForm true true) (plainWord 0 0 0 268 268)
      (fun x => failIf ((x.b.slicesOf x.q).any (fun sl => sl.call.isEmpty)) { cls := 0x0C, sub := 2 })
      (fun x s => .moved (s.modIssuing x (fun sl => { sl with offset := sl.call.headD 0, call := sl.call.tail }))) s := rfl

/-- Settles O13: each instruction's checks pass under its premises, and its effect is the change of each slice. -/
theorem branches : Obligations.Branches :=
  ⟨fun w => moves_of (exec_bra w) (fun _ => braFault_eq_none.2) fun _ _ _ _ => rfl,
    fun _ => moves_of (fun _ => rfl) (fun _ => targetFault_eq_none.2) fun _ _ _ _ => rfl,
    fun w => moves_of (exec_bru w) (fun _ => targetFault_eq_none.2) fun _ _ _ _ => rfl,
    fun w => moves_of (exec_call w) (fun _ => callFault_eq_none.2) fun _ _ _ _ => rfl,
    fun _ => moves_of (fun _ => rfl) (fun _ => callFault_eq_none.2) fun _ _ _ _ => rfl,
    moves_of exec_ret (fun _ ok => by simpa using ok) fun _ _ _ _ => rfl⟩

end Sys2Proof.Machine
end

section
/-!
PROOF. Branches that fault (O14): which of an instruction's checks comes first.
-/

namespace Sys2Proof.Machine

variable {s : State} {x : Ctx}

/-! ## Faults of uniform instructions (R44, R160, R363) -/

section Uniform

variable {i : Instr} {control : Bool} {len : Nat} {form : Form} {w : XWord} {extra dog : Ctx → Option FaultInfo} {act : Ctx → State → Eff}
  {f : FaultInfo}

/-- A uniform instruction raises the first fault that its checks find. -/
theorem runUniformWith_checked (h : s.ctx = some x)
    (hf : firstFault [{ form with uniform := true, result := false }.check x.g.kernel.v x.g.kernel.atlas w, extra x] = some f) :
    runUniformWith dog control len (fun _ => form) w extra act s = .next (s.takeFault x.faultAt f) := by
  rw [runUniformWith, h]
  simp only [hf]
  rfl

/-- A uniform instruction that no check stops and that would issue raises what the yield deadline finds (R160). -/
theorem runUniformWith_late {t : State} (h : s.ctx = some x) (hp : x.passesForm form w) (he : extra x = none) (ha : act x s = .done t)
    (hd : dog x = some f) : runUniformWith dog control len (fun _ => form) w extra act s = .next (s.takeFault x.faultAt f) := by
  rw [runUniformWith, h]
  simp only [show Form.check _ _ _ w = none from hp, he, firstFault, ha, hd]
  rfl

/-- A uniform instruction whose word passes the checks of R44 raises what its own checks find. -/
theorem raises_of_extra {ok : Ctx → Prop} {f : Ctx → FaultInfo}
    (he : ∀ s, exec i s = runUniform control len (fun _ => form) w extra act s) (hx : ∀ x, ok x → extra x = some (f x)) :
    Raises i form w ok f := by
  intro s x h hp ho
  exact (he s).trans (runUniformWith_checked h.ctx (by rw [show Form.check _ _ _ w = none from hp, hx x ho]; rfl))

/-- A uniform instruction whose word fails the checks of R44 under its own form raises what they find. -/
theorem raises_of_form {ok : Ctx → Prop} {f : Ctx → FaultInfo} {form' : Form}
    (he : ∀ s, exec i s = runUniform control len (fun _ => form') w extra act s)
    (hx : ∀ x : Ctx, x.passesForm form w → ok x →
      { form' with uniform := true, result := false }.check x.g.kernel.v x.g.kernel.atlas w = some (f x)) : Raises i form w ok f := by
  intro s x h hp ho
  exact (he s).trans (runUniformWith_checked h.ctx (by rw [hx x hp ho]; rfl))

end Uniform

/-- Where every check that fails finds one fault, the checks of a list find that fault. -/
theorem firstFault_eq_some {cs : List (Option FaultInfo)} {f : FaultInfo} (hall : ∀ c ∈ cs, c = none ∨ c = some f) (hf : some f ∈ cs) :
    firstFault cs = some f := by
  induction cs with
  | nil => cases hf
  | cons c cs ih =>
    obtain rfl | rfl := hall c List.mem_cons_self
    · exact ih (fun d hd => hall d (List.mem_cons_of_mem _ hd)) (by simpa using hf)
    · rfl

theorem targetFault_misaligned {t : Int} (h : t % 4 ≠ 0) : targetFault x.g.kernel.codeLen t = some { cls := 1, sub := 18 } := by
  simp [targetFault, failIf, firstFault, h, illegal]

theorem targetFault_outside {t : Int} (h : t % 4 = 0) (hout : ¬ x.inCode t) :
    targetFault x.g.kernel.codeLen t = some { cls := 1, sub := 10 } := by
  have hrange : (decide (t < 0) || decide (t ≥ x.g.kernel.codeLen)) = true := by
    by_contra hin
    exact hout (by simpa [Ctx.inCode, h] using hin)
  rw [targetFault, h, hrange]
  rfl

theorem callFault_of_target {t : Int} {f : FaultInfo} (h : targetFault x.g.kernel.codeLen t = some f) : callFault x t = some f := by
  rw [callFault, h]
  rfl

theorem callFault_full {t : Int} (h : x.inCode t) (hfull : ∃ sl ∈ x.b.slicesOf x.q, 16 ≤ sl.call.length) :
    callFault x t = some { cls := 0x0C, sub := 1 } := by
  have hany : (x.b.slicesOf x.q).any (fun sl => sl.call.length ≥ 16) = true := by simpa using hfull
  rw [callFault, targetFault_eq_none.2 h, hany]
  rfl

/-- With its targets in the code, bra raises what a slice that parts finds, where no slice finds anything else. -/
theorem braFault_eq_some {w : BraWord} {f : FaultInfo} (h2 : x.inCode (x.targetOf w.w2)) (h1 : w.w1 = 0 ∨ x.inCode (x.targetOf w.w1))
    (hall : ∀ sl, stackFault w sl = none ∨ stackFault w sl = some f)
    (hf : ∃ sl ∈ x.b.slicesOf x.q, x.parts w sl ∧ stackFault w sl = some f) : braFault x w = some f := by
  rw [braFault_eq, targetFault_eq_none.2 h2, joinTargetFault_eq_none.2 h1]
  refine firstFault_eq_some (fun c hc => ?_) ?_
  · simp only [List.cons_append, List.nil_append, List.mem_cons, List.mem_map] at hc
    obtain rfl | rfl | ⟨sl, -, rfl⟩ := hc
    · exact .inl rfl
    · exact .inl rfl
    · by_cases hp : x.parts w sl
      · rw [Ctx.partFault_of_parts hp]
        exact hall sl
      · exact .inl (Ctx.partFault_of_whole hp)
  · obtain ⟨sl, hsl, hp, h⟩ := hf
    exact List.mem_append_right _ (List.mem_map.2 ⟨sl, hsl, (Ctx.partFault_of_parts hp).trans h⟩)

theorem stackFault_no_join {w : BraWord} (h : w.w1 = 0) (sl : Slice) : stackFault w sl = some { cls := 0x0C, sub := 4 } := by
  rw [stackFault, decide_eq_true h]
  rfl

theorem stackFault_join {w : BraWord} (h : w.w1 ≠ 0) (sl : Slice) :
    stackFault w sl = if 8 ≤ sl.join.length then some { cls := 0x0C, sub := 3 } else none := by
  rw [stackFault, decide_eq_false h]
  by_cases h8 : 8 ≤ sl.join.length
  · rw [decide_eq_true h8, if_pos h8]
    rfl
  · rw [decide_eq_false h8, if_neg h8]
    rfl

theorem braFault_no_join {w : BraWord} (h2 : x.inCode (x.targetOf w.w2)) (h1 : w.w1 = 0)
    (hparts : ∃ sl ∈ x.b.slicesOf x.q, x.parts w sl) : braFault x w = some { cls := 0x0C, sub := 4 } := by
  obtain ⟨sl, hsl, hp⟩ := hparts
  exact braFault_eq_some h2 (.inl h1) (fun sl => .inr (stackFault_no_join h1 sl)) ⟨sl, hsl, hp, stackFault_no_join h1 sl⟩

theorem braFault_full {w : BraWord} (h2 : x.inCode (x.targetOf w.w2)) (h0 : w.w1 ≠ 0) (h1 : x.inCode (x.targetOf w.w1))
    (hfull : ∃ sl ∈ x.b.slicesOf x.q, x.parts w sl ∧ 8 ≤ sl.join.length) : braFault x w = some { cls := 0x0C, sub := 3 } := by
  obtain ⟨sl, hsl, hp, h8⟩ := hfull
  refine braFault_eq_some h2 (.inr h1) (fun sl => ?_) ⟨sl, hsl, hp, by rw [stackFault_join h0, if_pos h8]⟩
  rw [stackFault_join h0]
  split
  · exact .inr rfl
  · exact .inl rfl

theorem retFault_empty (h : ∃ sl ∈ x.b.slicesOf x.q, sl.call = []) :
    failIf ((x.b.slicesOf x.q).any (fun sl => sl.call.isEmpty)) { cls := 0x0C, sub := 2 } = some { cls := 0x0C, sub := 2 } := by
  have hany : (x.b.slicesOf x.q).any (fun sl => sl.call.isEmpty) = true := by simpa using h
  rw [hany]
  rfl

/-- Settles O14: the target of a call before its stack, and the slices of a bra after both targets. -/
theorem branchFaults : Obligations.BranchFaults :=
  ⟨fun w => raises_of_extra (exec_call w) fun _ ⟨_, h⟩ => callFault_of_target (targetFault_misaligned h),
    fun w => raises_of_extra (exec_call w) fun _ ⟨_, h, hout⟩ => callFault_of_target (targetFault_outside h hout),
    fun w => raises_of_extra (exec_call w) fun _ ⟨_, h, hfull⟩ => callFault_full h hfull,
    raises_of_extra exec_ret fun _ ⟨_, hempty⟩ => retFault_empty hempty,
    fun w => raises_of_extra (exec_bra w) fun _ ⟨_, h2, h1, hparts⟩ => braFault_no_join h2 h1 hparts,
    fun w => raises_of_extra (exec_bra w) fun _ ⟨_, h2, h0, h1, hfull⟩ => braFault_full h2 h0 h1 hfull⟩

end Sys2Proof.Machine
end

section
/-!
PROOF. Planes (O16): the immediates' fields, the planes of lanes as numbers, and pairs of scalars that are none.
-/

namespace Sys2Proof.Machine

variable {s : State} {x : Ctx}

/-! ## Fields of an immediate (R157, R158) -/

/-- The bits of a number from a place up are 0 where it lies below that place. -/
theorem bits_beq_zero {n lo len : Nat} (h : n < 2 ^ (lo + len)) : (bits n lo len == 0) = decide (n < 2 ^ lo) := by
  have hdiv : n / 2 ^ lo < 2 ^ len := by
    rw [Nat.div_lt_iff_lt_mul (by positivity), Nat.mul_comm, ← Nat.pow_add]
    exact h
  rw [Bool.eq_iff_iff]
  simp [bits, Nat.shiftRight_eq_div_pow, Nat.mod_eq_of_lt hdiv, Nat.div_eq_zero_iff]

theorem bit_toNat {n : Nat} (v : BitVec n) (i : Nat) : bit v.toNat i = v.getLsbD i := by
  rw [bit, BitVec.getLsbD, Nat.testBit_eq_decide_div_mod_eq, Nat.shiftRight_eq_div_pow]
  rfl

/-! ## Lanes as bits of a number -/

theorem testBit_listMask (ls : List Nat) (i : Nat) : (listMask ls).testBit i = decide (i ∈ ls) := by
  have hfold (m : Nat) : (ls.foldl (fun m i => m ||| 1 <<< i) m).testBit i = (m.testBit i || decide (i ∈ ls)) := by
    induction ls generalizing m with
    | nil => simp
    | cons l ls ih =>
      rw [List.foldl_cons, ih, Nat.testBit_or, Nat.one_shiftLeft, Nat.testBit_two_pow, Bool.or_assoc]
      simp [eq_comm]
  rw [listMask, hfold 0, Nat.zero_testBit, Bool.false_or]

/-- The sum of the powers of two that a condition picks below n, bit by bit. -/
theorem testBit_sum_powers (p : Nat → Prop) [DecidablePred p] (n i : Nat) :
    (((List.range n).map (fun l => if p l then 2 ^ l else 0)).sum).testBit i = (decide (i < n) && decide (p i)) := by
  have hlt (n : Nat) : ((List.range n).map (fun l => if p l then 2 ^ l else 0)).sum < 2 ^ n := by
    induction n with
    | zero => simp
    | succ n ih =>
      rw [List.range_succ, List.map_append, List.sum_append, Nat.pow_succ]
      simp only [List.map_cons, List.map_nil, List.sum_cons, List.sum_nil]
      split <;> omega
  induction n with
  | zero => simp
  | succ n ih =>
    rw [List.range_succ, List.map_append, List.sum_append]
    simp only [List.map_cons, List.map_nil, List.sum_cons, List.sum_nil, Nat.add_zero]
    obtain h | rfl | h := Nat.lt_trichotomy i n
    · split
      · rw [Nat.add_comm, Nat.testBit_two_pow_add_gt h, ih]
        simp [h, Nat.lt_succ_of_lt h]
      · rw [Nat.add_zero, ih]
        simp [h, Nat.lt_succ_of_lt h]
    · split
      next hp => rw [Nat.add_comm, Nat.testBit_two_pow_add_eq, ih]; simp [hp]
      next hp => rw [Nat.add_zero, ih]; simp [hp]
    · have hsum := hlt (n + 1)
      rw [List.range_succ, List.map_append, List.sum_append] at hsum
      simp only [List.map_cons, List.map_nil, List.sum_cons, List.sum_nil, Nat.add_zero] at hsum
      rw [Nat.testBit_lt_two_pow (hsum.trans_le (Nat.pow_le_pow_right (by decide) h))]
      simp [Nat.not_lt.2 h]

/-- The mask of the lanes of a list that a condition picks. -/
theorem ofNat_listMask_filter (ls : List Nat) (q : Nat → Bool) (p : Nat → Prop) [DecidablePred p]
    (h : ∀ l, (l ∈ ls ∧ q l = true) ↔ p l) : BitVec.ofNat 64 (listMask (ls.filter q)) =
      BitVec.ofNat 64 (((List.range 64).map (fun l => if p l then 2 ^ l else 0)).sum) := by
  refine BitVec.eq_of_getLsbD_eq fun i hi => ?_
  rw [BitVec.getLsbD_ofNat, BitVec.getLsbD_ofNat, testBit_listMask, testBit_sum_powers]
  simp [hi, h]

theorem Ctx.pairVal_eq (x : Ctx) (code : Nat) : x.pairVal code = x.sn code + x.sn (code + 1) * 2 ^ 64 := by
  unfold Ctx.pairVal
  generalize x.sn code = low, x.sn (code + 1) = high
  rw [Nat.shiftLeft_eq]

/-- Lane l's plane in a scalar pair (R157). -/
theorem bits_plane (n l : Nat) : bits n (2 * l) 2 = n / 4 ^ l % 4 := by
  simp only [bits, Nat.shiftRight_eq_div_pow, Nat.pow_mul, Nat.reducePow]

/-- The planes of a bundle's lanes, two bits each (R157). -/
theorem packed_planes (x : Ctx) :
    ((List.range x.b.lanes.length).zip x.b.lanes).foldl (fun v p => v + (p.2.plane % 4) <<< (2 * p.1)) 0 =
      ((List.range x.b.lanes.length).map (fun l => x.ofLane 0 l (fun y => y.plane) % 4 * 4 ^ l)).sum := by
  have hmap : (List.range x.b.lanes.length).map (fun l => x.ofLane 0 l (fun y => y.plane) % 4 * 4 ^ l) =
      ((List.range x.b.lanes.length).zip x.b.lanes).map (fun p => (p.2.plane % 4) <<< (2 * p.1)) := by
    refine List.ext_getElem (by simp) fun i h _ => ?_
    have hi : i < x.b.lanes.length := by simpa using h
    simp [Ctx.ofLane, List.getElem?_eq_getElem hi, Nat.shiftLeft_eq, Nat.pow_mul]
  rw [hmap, List.sum_eq_foldl, List.foldl_map]

/-! ## The plane instructions (R157) -/

theorem exec_planeSet (w : XWord) (s : State) : exec (.planeSet w) s =
    runUniform true 12 (fun _ => bareForm true (w.m6 = 0 && w.imm.toNat < 64 && w.nwb = 0)) w
      (fun x => failIf (w.imm.toNat % 4 ≥ x.g.kernel.planes) (illegal 19))
      (fun x s => .done (s.setPlanes x (fun _ y => if y.readP (w.imm.toNat / 4 % 8) ≠ w.imm.getLsbD 5 then w.imm.toNat % 4 else y.plane))) s := by
  have hplane : bits w.imm.toNat 0 2 = w.imm.toNat % 4 := rfl
  have hpred : bits w.imm.toNat 2 3 = w.imm.toNat / 4 % 8 := by simp only [bits, Nat.shiftRight_eq_div_pow, Nat.reducePow]
  change execPlaneSet w s = _
  simp only [execPlaneSet, bits_beq_zero (n := w.imm.toNat) (lo := 6) (len := 26) w.imm.isLt, hplane, hpred, bit_toNat, bne_iff_ne]
  rfl

theorem exec_planeMov (w : XWord) (s : State) : exec (.planeMov w) s =
    runUniform true 12 (fun _ => { bareForm true (w.m6 = 0 && w.imm = 0 && w.nwb = 0) with a := .pair }) w
      (fun x => failIf ((x.b.activeLanes x.q).any (fun l => (x.sn w.a9.toNat + x.sn (w.a9.toNat + 1) * 2 ^ 64) / 4 ^ l % 4 ≥ x.g.kernel.planes))
        { cls := 0x0B, sub := 4 })
      (fun x s => .done (s.setPlanes x (fun l _ => (x.sn w.a9.toNat + x.sn (w.a9.toNat + 1) * 2 ^ 64) / 4 ^ l % 4))) s := by
  change execPlaneMov w s = _
  simp only [execPlaneMov, Ctx.pairVal_eq, bits_plane]
  rfl

theorem exec_planeGet (w : XWord) (s : State) : exec (.planeGet w) s =
    runUniform true 12 (fun _ => { bareForm true (w.m6 = 0 && w.imm = 0 && w.nwb = 0) with d := .pair }) w noExtra
      (fun x s => .done (s.modBundle x.c.gid x.c.bundle (fun b => b.writePair w.d9.toNat
        (((List.range x.b.lanes.length).map (fun l => x.ofLane 0 l (fun y => y.plane) % 4 * 4 ^ l)).sum)))) s := by
  simp only [← packed_planes, ← State.setPair_eq]
  rfl

theorem exec_planeBal (w : XWord) (s : State) : exec (.planeBal w) s =
    runUniform true 12 (fun _ => { bareForm true (w.m6 = 0 && w.imm.toNat < 4 && w.nwb = 0) with d := .scalar }) w noExtra
      (fun x s => .done (s.setS x w.d9.toNat (BitVec.ofNat 64 (listMask ((x.b.activeLanes x.q).filter (fun l =>
        x.ofLane false l (fun y => y.plane == w.imm.toNat % 4))))))) s := by
  change execPlaneBal w s = _
  simp only [execPlaneBal, bits_beq_zero (n := w.imm.toNat) (lo := 2) (len := 30) w.imm.isLt]
  rfl

theorem State.setPlanes_eq (s : State) (x : Ctx) (f : Nat → Lane → Nat) :
    s.setPlanes x f = s.modBundle x.c.gid x.c.bundle (fun b => b.eachLane (x.b.activeLanes x.q) (fun l y => { y with plane := f l y })) := rfl

/-- An active lane is a lane of the bundle. -/
theorem Ctx.activeLanes_lt {l : Nat} (h : l ∈ x.b.activeLanes x.q) : ∃ y, x.b.lanes[l]? = some y := by
  have hawake := (List.mem_filter.1 h).2
  unfold laneAwake at hawake
  cases hy : x.b.lanes[l]? with
  | none => simp [hy] at hawake
  | some y => exact ⟨y, rfl⟩

theorem planeSet_completes (w : XWord) :
    Completes (.planeSet w) true 12 (bareForm true (w.m6 = 0 && w.imm.toNat < 64 && w.nwb = 0)) w
      (fun x _ => w.imm.toNat % 4 < x.g.kernel.planes) (fun _ s => s)
      (fun x _ b => b.eachLane (x.b.activeLanes x.q) (fun _ y =>
        if y.readP (w.imm.toNat / 4 % 8) ≠ w.imm.getLsbD 5 then { y with plane := w.imm.toNat % 4 } else y)) := by
  refine completes_of (exec_planeSet w) (fun _ _ _ ok => by simpa using ok) (fun s x _ _ => ?_) fun _ _ => ⟨rfl, rfl, rfl, rfl⟩
  rw [State.setPlanes_eq]
  refine congrArg (fun f => Eff.done (s.modBundle x.c.gid x.c.bundle f)) (funext fun b => congrArg (b.eachLane _) (funext fun _ => funext fun y => ?_))
  split <;> rfl

theorem planeMov_completes (w : XWord) :
    Completes (.planeMov w) true 12 { bareForm true (w.m6 = 0 && w.imm = 0 && w.nwb = 0) with a := .pair } w
      (fun x _ => ∀ l ∈ x.b.activeLanes x.q, (x.sn w.a9.toNat + x.sn (w.a9.toNat + 1) * 2 ^ 64) / 4 ^ l % 4 < x.g.kernel.planes)
      (fun _ s => s)
      (fun x _ b => b.eachLane (x.b.activeLanes x.q) (fun l y =>
        { y with plane := (x.sn w.a9.toNat + x.sn (w.a9.toNat + 1) * 2 ^ 64) / 4 ^ l % 4 })) :=
  completes_of (exec_planeMov w) (fun _ _ _ ok => by simpa using ok) (fun _ _ _ _ => rfl) fun _ _ => ⟨rfl, rfl, rfl, rfl⟩

theorem planeGet_completes (w : XWord) :
    Completes (.planeGet w) true 12 { bareForm true (w.m6 = 0 && w.imm = 0 && w.nwb = 0) with d := .pair } w
      (fun _ _ => True) (fun _ s => s)
      (fun x _ b => b.writePair w.d9.toNat (((List.range x.b.lanes.length).map (fun l =>
        x.ofLane 0 l (fun y => y.plane) % 4 * 4 ^ l)).sum)) :=
  completes_of (exec_planeGet w) (fun _ _ _ _ => rfl) (fun _ _ _ _ => rfl) fun _ _ => ⟨rfl, rfl, rfl, rfl⟩

/-- The lanes of a plane among the active ones, where the plane is one of the four. -/
theorem planeBal_mask {j : Nat} (hj : j < 4) : BitVec.ofNat 64 (listMask ((x.b.activeLanes x.q).filter (fun l =>
      x.ofLane false l (fun y => y.plane == j % 4)))) =
    BitVec.ofNat 64 (((List.range 64).map (fun l =>
      if l ∈ x.b.activeLanes x.q ∧ x.ofLane 4 l (fun y => y.plane) = j then 2 ^ l else 0)).sum) := by
  refine ofNat_listMask_filter _ _ _ fun l => and_congr_right fun hl => ?_
  obtain ⟨y, hy⟩ := Ctx.activeLanes_lt hl
  simp [Ctx.ofLane, hy, Nat.mod_eq_of_lt hj]

theorem planeBal_completes (w : XWord) :
    Completes (.planeBal w) true 12 { bareForm true (w.m6 = 0 && w.imm.toNat < 4 && w.nwb = 0) with d := .scalar } w
      (fun _ _ => True) (fun _ s => s)
      (fun x _ b => b.writeS w.d9.toNat (BitVec.ofNat 64 (((List.range 64).map (fun l =>
        if l ∈ x.b.activeLanes x.q ∧ x.ofLane 4 l (fun y => y.plane) = w.imm.toNat then 2 ^ l else 0)).sum))) := by
  by_cases hj : w.imm.toNat < 4
  · refine completes_of (exec_planeBal w) (fun _ _ _ _ => rfl) (fun s x _ _ => ?_) fun _ _ => ⟨rfl, rfl, rfl, rfl⟩
    rw [planeBal_mask hj]
    rfl
  · intro s x _ _ hp _
    have hres := (Form.check_none.1 hp).2.1
    simp [bareForm, hj] at hres

/-! ## Operands that are no pair (R44, R157) -/

/-- The kind that asks for a pair of scalars where one is named. -/
def Kind.paired : Kind → Kind
  | .named => .pair
  | k => k

theorem Kind.codeLegal_paired {atlas c : Nat} {k : Kind} (h : codeLegal atlas k c = true) : codeLegal atlas k.paired c = true := by
  cases k
  case named => exact Bool.or_eq_true_iff.2 (.inl h)
  all_goals exact h

theorem Kind.kindIsLane_paired (k : Kind) : kindIsLane k.paired = kindIsLane k := by
  cases k <;> rfl

/-- A word that passes all of R44 with one scalar named where a form asks for a pair fails the last check alone, that on groups of scalars. -/
theorem Form.check_paired {f : Form} {v atlas : Nat} {w : XWord} (h : f.check v atlas w = none)
    (hbad : (groupBad f.group f.d.paired w.d9.toNat || groupBad 1 f.a.paired w.a9.toNat) = true) :
    { f with d := f.d.paired, a := f.a.paired }.check v atlas w = some { cls := 1, sub := 16 } := by
  simp only [Form.check, firstFault_eq_none, List.forall_mem_cons, failIf_eq_none, Bool.not_eq_false', Bool.and_eq_true] at h
  obtain ⟨hfn, hres, ⟨⟨⟨⟨hd, ha⟩, hb⟩, hc⟩, hop⟩, hguard, hpast, hlit, -⟩ := h
  have hgroup : (groupBad f.group f.d.paired w.d9.toNat || groupBad 1 f.a.paired w.a9.toNat || groupBad 1 f.b w.b9.toNat ||
      groupBad f.group f.c w.c9.toNat) = true := by rw [hbad, Bool.true_or, Bool.true_or]
  simp only [Form.check, Kind.codeLegal_paired hd, Kind.codeLegal_paired ha, Kind.kindIsLane_paired, hfn, hres, hb, hc, hop, hguard, hpast,
    hlit, hgroup]
  rfl

/-- A code that is odd or below 2 is no pair. -/
theorem groupBad_pair {n c : Nat} (h : c % 2 = 1 ∨ c < 2) : groupBad n .pair c = true := by
  simp only [groupBad, Bool.or_eq_true, beq_iff_eq, decide_eq_true_eq]
  exact .inl h

theorem planeMov_odd (w : XWord) : Raises (.planeMov w) { bareForm true (w.m6 = 0 && w.imm = 0 && w.nwb = 0) with a := .named } w
    (fun x => x.inTime ∧ (w.a9.toNat % 2 = 1 ∨ w.a9.toNat < 2)) (fun _ => { cls := 1, sub := 16 }) :=
  raises_of_form (exec_planeMov w) fun _ hp ⟨_, h⟩ => Form.check_paired hp (Bool.or_eq_true_iff.2 (.inr (groupBad_pair h)))

theorem planeGet_odd (w : XWord) : Raises (.planeGet w) { bareForm true (w.m6 = 0 && w.imm = 0 && w.nwb = 0) with d := .named } w
    (fun x => x.inTime ∧ (w.d9.toNat % 2 = 1 ∨ w.d9.toNat < 2)) (fun _ => { cls := 1, sub := 16 }) :=
  raises_of_form (exec_planeGet w) fun _ hp ⟨_, h⟩ => Form.check_paired hp (Bool.or_eq_true_iff.2 (.inl (groupBad_pair h)))

/-! ## Planes that the kernel does not have, and the reserved FN (R157) -/

theorem planeSet_outside (w : XWord) : Raises (.planeSet w) (bareForm true (w.m6 = 0 && w.imm.toNat < 64 && w.nwb = 0)) w
    (fun x => x.inTime ∧ x.g.kernel.planes ≤ w.imm.toNat % 4) (fun _ => { cls := 1, sub := 19 }) :=
  raises_of_extra (exec_planeSet w) fun _ ⟨_, h⟩ => if_pos (decide_eq_true h)

theorem planeMov_outside (w : XWord) : Raises (.planeMov w) { bareForm true (w.m6 = 0 && w.imm = 0 && w.nwb = 0) with a := .pair } w
    (fun x => x.inTime ∧ ∃ l ∈ x.b.activeLanes x.q,
      x.g.kernel.planes ≤ (x.sn w.a9.toNat + x.sn (w.a9.toNat + 1) * 2 ^ 64) / 4 ^ l % 4) (fun _ => { cls := 0x0B, sub := 4 }) :=
  raises_of_extra (exec_planeMov w) fun _ ⟨_, h⟩ => if_pos (by simpa using h)

theorem decodeWords_plane_reserved (w : XWord) (rest : List W32) (h : 4 ≤ w.fn.toNat) :
    decodeWords (Encode.xWords 1 0x07 w ++ rest) = .error .fn := by
  have hfn (n : Nat) (hn : n < 4) : w.fn.toNat ≠ n := by omega
  rw [Laws.decode_x 0x07 w rest (by decide) (by decide) (by decide)]
  simp [Laws.decodeXWord, Decode.decodeXControl, Except.map, hfn]

/-- Settles O16: each instruction by its meaning in the statement's terms, its faults by the check that comes first. -/
theorem planes : Obligations.Planes :=
  ⟨planeSet_completes, planeMov_completes, planeGet_completes, planeBal_completes, planeSet_outside, planeMov_outside, planeMov_odd,
    planeGet_odd, decodeWords_plane_reserved⟩

end Sys2Proof.Machine
end

section
/-!
PROOF. The yield deadline (O17): yield, trap, an instruction that would issue at 0, and the count of waiting.
-/

namespace Sys2Proof.Machine

variable {s : State} {x : Ctx}

theorem exec_yield (w : XWord) (s : State) : exec (.yield w) s =
    runUniformWith noExtra true 12 (fun _ => bareForm (w.fn = 0) (w.m6 = 0 && w.imm.toNat < 2 ^ 23 && w.nwb = 0)) w
      (fun x => failIf (!(1 ≤ w.imm.toNat % 2 ^ 14 && w.imm.toNat % 2 ^ 14 ≤ x.g.kernel.yieldMax &&
        w.imm.toNat / 2 ^ 14 % 2 ^ 9 ≤ x.g.kernel.v)) (illegal 17))
      (fun x s => .yielded (w.imm.toNat % 2 ^ 14) (w.imm.toNat / 2 ^ 14 % 2 ^ 9) (s.stopPending x.g) s) s := by
  have hdl : bits w.imm.toNat 0 14 = w.imm.toNat % 2 ^ 14 := rfl
  have hlive : bits w.imm.toNat 14 9 = w.imm.toNat / 2 ^ 14 % 2 ^ 9 := by rw [bits, Nat.shiftRight_eq_div_pow]
  change execYield w s = _
  simp only [execYield, bits_beq_zero (n := w.imm.toNat) (lo := 23) (len := 9) w.imm.isLt, hdl, hlive]

/-- A bundle after a yield (R158): its counter loaded, its live count set, and a stop point reached (R353). -/
def Ctx.yieldedBundle (x : Ctx) (s : State) (deadline live : Nat) (stop : Bool) (b : Bundle) : Bundle :=
  ({ (x.latched true b).advance x.q 12 with
      ycount := deadline, lastCycle := (s.die x.g.die).cycles, issues := b.issues + 1 }).modSub x.c.sub (fun q =>
    { q.issued s.tick with live := some live, yielded := true, atYield := true, stopped := stop, issuedIn := some (s.die x.g.die).cycles })

/-- A yield that completes. -/
theorem State.finishUniform_yielded (h : s.Issues x) (deadline live : Nat) (stop : Bool) :
    (s.finishUniform x true 12 (.yielded deadline live stop s)).uncounted =
      s.uncounted.modBundle x.c.gid x.c.bundle (x.yieldedBundle s deadline live stop) := by
  simp only [State.finishUniform, State.endStep_free h.free, if_true]
  rw [State.dueHalts_calm]
  · simp only [State.completeSub, State.uncounted_modBundle, State.modBundle_modBundle, State.uncounted_countIssue]
    refine congrArg (s.uncounted.modBundle _ _) (funext fun b => ?_)
    simp only [Ctx.yieldedBundle, Ctx.latched, if_true, Bundle.modSub_modSub, State.modBundle_tick, State.countIssue_tick]
    rfl
  · simpa using h.calm
  · simpa using h.alive

theorem yield_completes (w : XWord) (h : s.Issues x)
    (hp : x.passesForm (bareForm (w.fn = 0) (w.m6 = 0 && w.imm.toNat < 2 ^ 23 && w.nwb = 0)) w)
    (h1 : 1 ≤ w.imm.toNat % 2 ^ 14) (hmax : w.imm.toNat % 2 ^ 14 ≤ x.g.kernel.yieldMax) (hv : w.imm.toNat / 2 ^ 14 ≤ x.g.kernel.v) :
    ∃ t, exec (.yield w) s = .next t ∧ t.uncounted = s.uncounted.modBundle x.c.gid x.c.bundle
      (x.yieldedBundle s (w.imm.toNat % 2 ^ 14) (w.imm.toNat / 2 ^ 14) (s.stopPending x.g)) := by
  have hlive : w.imm.toNat / 2 ^ 14 % 2 ^ 9 = w.imm.toNat / 2 ^ 14 := by
    have hlt := (Form.check_none.1 hp).2.1
    simp [bareForm] at hlt
    omega
  refine ⟨_, ?_, State.finishUniform_yielded h ..⟩
  rw [exec_yield, runUniformWith, h.ctx]
  simp only [show Form.check _ _ _ w = none from hp, h1, hmax, hv, hlive, decide_true, Bool.and_self, Bool.not_true, failIf, firstFault,
    noExtra, Bool.false_eq_true, if_false]

theorem exec_saddXForm (w : XWord) (s : State) : exec (.saddXForm w) s =
    runScalar 12 (opForm .scalar .scalar .scalar .unused (w.fn = 0) (w.m6 = 0 && (w.b9 = 268 || w.imm = 0) && w.nwb = 0)) w
      (fun x _ => x.s w.a9.toNat + scalarB x w) s := rfl

theorem saddXForm_watchdog (w : XWord) : Raises (.saddXForm w)
    (opForm .scalar .scalar .scalar .unused (w.fn = 0) (w.m6 = 0 && (w.b9 = 268 || w.imm = 0) && w.nwb = 0)) w
    (fun x => x.b.ycount = 0 ∧ x.q.charged = false ∧ x.c.first = true) (fun _ => { cls := 0x0A, sub := 1 }) := by
  intro s x h hp ⟨hcount, hcharged, hfirst⟩
  have hdog : watchdogIssue x = some { cls := 0x0A, sub := 1 } := by simp [watchdogIssue, hcount, hcharged, hfirst, failIf]
  rw [exec_saddXForm, runScalar, runUniform]
  exact runUniformWith_late h.ctx hp rfl rfl hdog

theorem exec_trap (w : TrapWord) (s : State) : exec (.trap w) s =
    runUniform true 4 (fun _ => bareForm true (w.rsv = 0 && w.nwb = 0)) (plainWord w.pred w.pn 0 268 268) noExtra
      (fun _ s => .fault { cls := 0x0E, detail := w.code.toNat } s) s := rfl

theorem trap_raises (w : TrapWord) : Raises (.trap w) (bareForm true (w.rsv = 0 && w.nwb = 0)) (plainWord w.pred w.pn 0 268 268) Ctx.inTime
    (fun _ => { cls := 0x0E, detail := w.code.toNat }) :=
  fun s _ h hp hd => (exec_trap w s).trans (runUniform_next h.ctx hp rfl hd)

theorem exec_waitTick {gid b k : Nat} {g : Gang} {y : Bundle} {q : Sub} (hg : s.gang gid = some g) (hb : g.bundles[b]? = some y)
    (hw : y.firstWaiting = some (k, q)) (hret : g.retired = false) (hdone : y.done = false) (hhalt : y.anyHalted = false)
    (hup : (s.die g.die).shutdown = false) (hfail : s.failed = false) (hstop : s.bundleStopped g b y = false)
    (hdue : y.lastCycle + 256 ≤ (s.die g.die).cycles) :
    exec (.waitTick gid b) s =
      let t := s.modBundle gid b (fun y => { y with lastCycle := y.lastCycle + 256 })
      if y.ycount ≠ 0 then .next (t.modBundle gid b (fun y => { y with ycount := y.ycount - 1 }))
      else .next ((t.unissue g b k y q).takeFault ⟨gid, b, y.offsetOf q, (y.planesOf q).headD 0⟩ { cls := 0x0A, sub := 2 }) := by
  change execWaitTick gid b s = _
  simp [execWaitTick, hg, hb, hw, hret, hdone, hhalt, hup, hfail, hstop, Nat.not_lt.2 hdue]

/-- Settles O17: yield past the deadline's check, the others by it or by what they raise. -/
theorem yieldWatchdogTrap : Obligations.YieldWatchdogTrap :=
  ⟨fun w _ _ h hp h1 hmax hv => yield_completes w h hp h1 hmax hv, saddXForm_watchdog, trap_raises,
    fun _ _ _ _ _ _ _ hg hb hw hret hdone hhalt hup hfail hstop hdue =>
      ⟨fun hcount => by rw [exec_waitTick hg hb hw hret hdone hhalt hup hfail hstop hdue, if_pos (Nat.one_le_iff_ne_zero.1 hcount)],
        fun hcount => by rw [exec_waitTick hg hb hw hret hdone hhalt hup hfail hstop hdue, if_neg (not_not.2 hcount)]⟩⟩

end Sys2Proof.Machine
end

section
/-!
PROOF. join, regang and exit (O15) fails: a join is tried again, under reason 17, while each slice of its sub-bundle waits for a detached lane
(R388), and of a sub-bundle that holds no slice that is so of each. The clause on join, unlike that on regang, leaves such sub-bundles in.
-/

namespace Sys2Proof.Machine

/-- A sub-bundle that holds no slice does not get past a join. -/
theorem execJoin_of_no_slices {s : State} {x : Ctx} (h : s.ctx = some x) (hq : x.q.slices = []) :
    exec .join s = .next (s.hold x 17) := by
  change execJoin s = _
  unfold execJoin
  simp only [h]
  rw [runUniform_hold (r := 17) h rfl rfl (by simp [hq])]
  simp [hq]

/-- The gang of the placed launch as its sub-bundle would issue when it held no slice. -/
def slicelessGang : Gang :=
  { State.reset.startGang ⟨probeRecord, 0, probeKernel, none, [0], []⟩ 0 0 0 0 0 with
    bundles := [(Bundle.start probeKernel 0).modSub 0 fun q => { q with slices := [] }] }

/-- A module in which that sub-bundle issues. -/
def sliceless : State := { State.reset with gangs := [slicelessGang], cur := some ⟨0, 0, 0, 0, [], true, [], [], []⟩ }

/-- The issuing sub-bundle. -/
def slicelessCtx : Ctx :=
  ⟨⟨0, 0, 0, 0, [], true, [], [], []⟩, slicelessGang, (Bundle.start probeKernel 0).modSub 0 fun q => { q with slices := [] }, Sub.free⟩

theorem sliceless_issues : sliceless.Issues slicelessCtx := ⟨rfl, rfl, rfl, rfl⟩

theorem sliceless_whole : slicelessCtx.whole := by
  have hslices : ∀ k < 8, 4 ≤ k → ∀ sl ∈ slicelessCtx.b.slices[k]?, sl.own = 0 ∧ sl.join = [] := by decide
  refine ⟨fun k hk => absurd hk List.not_mem_nil, fun k sl hsl hdet => ?_⟩
  have hk : k < 8 := (List.getElem?_eq_some_iff.1 hsl).1
  exact hslices k hk (of_decide_eq_true hdet) sl hsl

/-- Refutes O15: in sliceless the sub-bundle stays at the join, where the clause on join lets it move on. -/
theorem not_joinRegangExit : ¬ Obligations.JoinRegangExit := by
  unfold Obligations.JoinRegangExit
  rintro ⟨hjoin, -⟩
  obtain ⟨t, hnext, ht⟩ := hjoin sliceless slicelessCtx sliceless_issues rfl sliceless_whole
  rw [execJoin_of_no_slices sliceless_issues.ctx rfl] at hnext
  obtain rfl := Host.Outcome.next.inj hnext
  have hwait := congrArg (fun t : State => (t.waitAt 0 0 0).map (·.1)) ht
  exact absurd hwait (by decide)

end Sys2Proof.Machine
end

section
/-!
PROOF. A step and what it fetches (O58): the words that the cache holds are those of the bytes, so that the sub-bundle whose turn it is runs the
instruction that they decode to; what a fill brings; and what the time of a step leaves.
-/

namespace Sys2Proof.Machine

variable {s : State} {x : Ctx}

/-! ## Bytes and words (R27, R143) -/

/-- Bytes that hold an instruction are those that a fetch reads, and its words are theirs. -/
theorem State.codeWords_eq_wordsOfBytes {p n : Nat} {i : Instr} (h : decodeBytes (s.bytesFor x p) = .ok (i, n)) :
    s.codeWords x.g p x.offset = wordsOfBytes (s.bytesFor x p) := by
  unfold State.bytesFor at h ⊢
  unfold State.codeWords
  dsimp only
  cases hr : s.runs x.g.part 0 (x.g.kernel.codeAt p x.offset) (4 * min 5 ((x.g.kernel.codeLen - x.offset) / 4)) with
  | none => rw [hr] at h; cases h
  | some rs => rfl

theorem decodeWords_of_decodeBytes {bs : List Byte} {n : Nat} {i : Instr} (h : decodeBytes bs = .ok (i, n)) :
    ∃ rest, decodeWords (wordsOfBytes bs) = .ok (i, rest) := by
  unfold decodeBytes at h
  cases hd : decodeWords (wordsOfBytes bs) with
  | error e => rw [hd] at h; cases h
  | ok r =>
    rw [hd] at h
    obtain ⟨rfl, -⟩ := Prod.mk.inj (Except.ok.inj h)
    exact ⟨r.2, rfl⟩

/-- The major of an instruction's first word, from its bytes (R28). -/
theorem opField_of_decodeBytes {bs : List Byte} {n : Nat} {i : Instr} (h : decodeBytes bs = .ok (i, n)) :
    Decode.opField ((wordsOfBytes bs).headD 0) = leNat bs / 4 % 128 := by
  obtain ⟨rest, hd⟩ := decodeWords_of_decodeBytes h
  match bs, hd with
  | b0 :: b1 :: b2 :: b3 :: bs, _ =>
    have h0 := b0.isLt
    have h1 := b1.isLt
    have h2 := b2.isLt
    have h3 := b3.isLt
    simp only [wordsOfBytes, List.headD_cons, Decode.opField, BitVec.toNat_ofNat, leNat]
    omega

/-! ## The turn of a sub-bundle (R146–R149, R167) -/

section Fetch

variable {gid b k n : Nat} {i : Instr}

/-- What a sub-bundle that may issue prepares is what its fetch finds. -/
theorem State.MayIssue.prepare_eq (h : s.MayIssue gid b k x) : s.prepare gid b k = s.fetchFirst x := by
  have hstop : (s.stopPending x.g && s.atStop x.g b k x.b x.q) = false := by
    cases hp : s.stopPending x.g with
    | false => rfl
    | true => exact h.going hp
  unfold State.prepare
  rw [h.ctx]
  simp only [h.ready, h.up.1, h.up.2, h.resident, hstop, h.free, h.sound, h.starts, Bool.not_true, Bool.or_self, Bool.and_false,
    Bool.false_eq_true, if_false]

/-- A sub-bundle that its scheduler may choose runs what it has prepared. -/
theorem State.issueTurn_eq {s' : State} (hp : s.prepare gid b k = .run i s') (hc : s.chosen gid b k = true) :
    State.issueTurn gid b k s = exec i s' := by
  unfold State.issueTurn
  rw [hp]
  dsimp only
  cases exec i s' <;> simp [hc]

/-- The first occupied plane of a sub-bundle is its lowest, and its words are fetched first. -/
theorem State.fetched_eq_cons (hplanes : x.b.planesOf x.q ≠ []) :
    ∃ ps, x.b.planesOf x.q = x.lowPlane :: ps ∧
      s.fetched x = (x.lowPlane, s.codeWords x.g x.lowPlane x.offset) :: ps.map (fun p => (p, s.codeWords x.g p x.offset)) := by
  unfold Ctx.lowPlane State.fetched
  cases hp : x.b.planesOf x.q with
  | nil => exact absurd hp hplanes
  | cons p ps => exact ⟨ps, rfl, rfl⟩

/-- The words of a sub-bundle that may issue are there to be checked. -/
structure State.Fetches (s : State) (x : Ctx) (i : Instr) (n : Nat) : Prop where
  cached : s.cached x
  inside : x.offset < x.g.kernel.codeLen
  readable : ∀ p ∈ x.b.planesOf x.q, s.codeRefused x.g p x.offset = none
  agree : planeCheck (s.fetched x) = none
  unheld : s.regHeld x (s.fetched x) = false
  occupied : x.b.planesOf x.q ≠ []
  decodes : decodeBytes (s.bytesFor x x.lowPlane) = .ok (i, n)

/-- The issuer of a first pass in the lowest plane. -/
def State.firstIssuer (s : State) (x : Ctx) (ps : List Nat) : Issuer :=
  { x.c with plane := x.lowPlane, rest := ps, first := true, words := s.fetched x, snap := x.b.lanes, base := x.b.s }

theorem State.Fetches.head_words (h : s.Fetches x i n) :
    ((s.fetched x).head?.map (·.2)).getD [] = wordsOfBytes (s.bytesFor x x.lowPlane) := by
  obtain ⟨ps, -, hws⟩ := State.fetched_eq_cons (s := s) h.occupied
  rw [hws, ← State.codeWords_eq_wordsOfBytes h.decodes]
  rfl

theorem State.Fetches.find_words (h : s.Fetches x i n) :
    (((s.fetched x).find? (fun w => w.1 == x.lowPlane)).map (·.2)).getD [] = wordsOfBytes (s.bytesFor x x.lowPlane) := by
  obtain ⟨ps, -, hws⟩ := State.fetched_eq_cons (s := s) h.occupied
  rw [hws, List.find?_cons_of_pos (by simp), ← State.codeWords_eq_wordsOfBytes h.decodes]
  rfl

/-- None of the words that a fetch finds is refused. -/
theorem State.Fetches.unrefused (h : s.Fetches x i n) :
    (x.b.planesOf x.q).findSome? (fun p => (s.codeRefused x.g p x.offset).map (fun a => (p, a))) = none :=
  List.findSome?_eq_none_iff.2 fun p hp => by rw [h.readable p hp]; rfl

theorem State.Fetches.present (h : s.Fetches x i n) : (x.q.wait == .none &&
    !(((x.b.planesOf x.q).flatMap (fun p => codeLines x.g p x.offset)).all (s.core x.g.die x.g.core).icache.contains)) = false := by
  obtain hwait | hlines := h.cached
  · simp [hwait]
  · have hall : ((x.b.planesOf x.q).flatMap (fun p => codeLines x.g p x.offset)).all (s.core x.g.die x.g.core).icache.contains = true :=
      List.all_eq_true.2 fun l hl => List.contains_iff_mem.2 (hlines l hl)
    rw [hall, Bool.not_true, Bool.and_false]

theorem State.Fetches.fetchFirst_uniform (h : s.Fetches x i n) (hu : uniformClass (leNat (s.bytesFor x x.lowPlane) / 4 % 128) = true) :
    s.fetchFirst x = .run i { s with cur := some (s.firstIssuer x []) } := by
  obtain ⟨rest, hd⟩ := decodeWords_of_decodeBytes h.decodes
  have hagree := h.agree
  have hunheld := h.unheld
  have hhead := h.head_words
  have hop := opField_of_decodeBytes h.decodes
  unfold State.fetched at hagree hunheld hhead
  simp only [State.fetchFirst, ge_iff_le, Nat.not_le.2 h.inside, if_false, h.unrefused, h.present, Bool.false_eq_true, hagree, hunheld,
    hhead, hop, hu, if_true, hd]
  rfl

theorem State.Fetches.fetchFirst_lanes {ps : List Nat} (h : s.Fetches x i n)
    (hu : uniformClass (leNat (s.bytesFor x x.lowPlane) / 4 % 128) = false)
    (hfields : sweepPlanes x s (fun x' i => laneFieldCheck x'.g.kernel i) (s.fetched x) = none) (hlanes : laneChecks x s (s.fetched x) = none)
    (hpasses : passPlanes (s.fetched x) = x.lowPlane :: ps)
    (hgate : (memWord i).isSome = true ∨ s.passGate { x with c := s.firstIssuer x ps } false (s.fetched x) = none) :
    s.fetchFirst x = .run i { s with cur := some (s.firstIssuer x ps) } := by
  obtain ⟨rest, hd⟩ := decodeWords_of_decodeBytes h.decodes
  have hgate' : (if (memWord i).isSome then none else s.passGate { x with c := s.firstIssuer x ps } false (s.fetched x)) = none := by
    obtain hm | hp := hgate
    · rw [hm]; rfl
    · rw [hp, ite_self]
  have hagree := h.agree
  have hunheld := h.unheld
  have hhead := h.head_words
  have hfind := h.find_words
  have hop := opField_of_decodeBytes h.decodes
  unfold State.firstIssuer at hgate' ⊢
  unfold State.fetched at *
  simp only [State.fetchFirst, ge_iff_le, Nat.not_le.2 h.inside, if_false, h.unrefused, h.present, Bool.false_eq_true, hagree, hunheld,
    hhead, hop, hu, hfields, hlanes, hpasses, hfind, hd, hgate']

end Fetch

/-! ## What a fill brings (R148) -/

theorem length_eraseDups_le {α : Type} [BEq α] (xs : List α) : xs.eraseDups.length ≤ xs.length := by
  match xs with
  | [] => exact Nat.le_refl 0
  | x :: xs =>
    rw [List.eraseDups_cons, List.length_cons, List.length_cons]
    exact Nat.succ_le_succ ((length_eraseDups_le _).trans (List.length_filter_le ..))
termination_by xs.length
decreasing_by exact Nat.lt_succ_of_le (List.length_filter_le ..)

/-- Of the lines of a fill that are new, none is dropped while they are no more than the cache holds. -/
theorem Core.mem_fillCode {c : Core} {lines : List (Nat × Nat)} {l : Nat × Nat} (hlen : lines.length ≤ 256) (hl : l ∈ lines)
    (hnew : l ∉ c.icache) : l ∈ (c.fillCode lines).icache := by
  have hcount : (lines.filter (fun l => !c.icache.contains l)).length ≤ 256 := (List.length_filter_le ..).trans hlen
  have hkept : l ∈ lines.filter (fun l => !c.icache.contains l) := List.mem_filter.2 ⟨hl, by simpa using hnew⟩
  simp only [Core.fillCode, List.length_append]
  rw [List.drop_append_of_le_length (by omega)]
  exact List.mem_append_right _ hkept

theorem State.core_fillCode (s : State) (d c : Nat) (lines : List (Nat × Nat)) :
    (s.modCore d c (fun k => k.fillCode lines)).core d c = (s.core d c).fillCode lines := by
  have hplace (k : Core) : (k.fillCode lines).die = k.die ∧ (k.fillCode lines).core = k.core := by
    unfold Core.fillCode
    exact ⟨rfl, rfl⟩
  exact State.core_modCore hplace

theorem State.core_modBundle (s : State) (gid b : Nat) (f : Bundle → Bundle) (d c : Nat) :
    (s.modBundle gid b f).core d c = s.core d c := rfl

theorem State.tells_tookCode (s : State) (g : Gang) (planes : List Nat) (off : Nat) : s.Tells (s.tookCode g planes off) :=
  State.Tells.foldl (fun t _ => t.tells_useRange ..) s planes

theorem exec_instructionCacheFill {gid b k : Nat} {g : Gang} {y : Bundle} {q : Sub} (hg : s.gang gid = some g) (hb : g.bundles[b]? = some y)
    (hq : y.subs[k]? = some q) (hwait : q.wait = .fetch) (hlive : q.isLive = true) (hkilled : y.killed = false) :
    exec (.instructionCacheFill gid b k) s = .next (((s.tookCode g (y.planesOf q) (y.offsetOf q)).modCore g.die g.core
      (fun c => c.fillCode ((y.planesOf q).flatMap (fun p => codeLines g p (y.offsetOf q))).eraseDups)).modBundle gid b
        (fun y => y.modSub k (fun q => { q with wait := .retry 1 }))) := by
  change execInstructionCacheFill gid b k s = _
  simp [execInstructionCacheFill, hg, hb, hq, hwait, hlive, hkilled]

theorem instructionCacheFill_brings {gid b k : Nat} {g : Gang} {y : Bundle} {q : Sub} (hg : s.gang gid = some g)
    (hb : g.bundles[b]? = some y) (hq : y.subs[k]? = some q) (hwait : q.wait = .fetch) (hlive : q.isLive = true) (hkilled : y.killed = false)
    (hlen : ((y.planesOf q).flatMap (fun p => codeLines g p (y.offsetOf q))).length ≤ 256) :
    ∃ t, exec (.instructionCacheFill gid b k) s = .next t ∧ t.mem = s.mem ∧
      t.gangs = (s.modBundle gid b (fun y => y.modSub k (fun q => { q with wait := .retry 1 }))).gangs ∧
      ∀ p ∈ y.planesOf q, ∀ l ∈ codeLines g p (y.offsetOf q), l ∉ (s.core g.die g.core).icache →
        l ∈ (t.core g.die g.core).icache := by
  have ht := s.tells_tookCode g (y.planesOf q) (y.offsetOf q)
  refine ⟨_, exec_instructionCacheFill hg hb hq hwait hlive hkilled, ?mem, ?gangs, fun p hp l hl hnew => ?lines⟩
  case mem => exact (State.modCore_mem ..).trans ht.mem
  case gangs =>
    simp only [State.modBundle, State.modGang, State.modCore_gangs]
    rw [ht.rest]
  case lines =>
    have hcore : (s.tookCode g (y.planesOf q) (y.offsetOf q)).core g.die g.core = s.core g.die g.core := by rw [ht.rest]; rfl
    have hfilled (u : State) := u.core_fillCode g.die g.core ((y.planesOf q).flatMap (fun p => codeLines g p (y.offsetOf q))).eraseDups
    rw [State.core_modBundle, hfilled, hcore]
    exact Core.mem_fillCode ((length_eraseDups_le _).trans hlen)
      (List.mem_eraseDups.2 (List.mem_flatMap.2 ⟨p, hp, hl⟩)) hnew

/-! ## The time of a step (R5, R402) -/

/-- A state without its cores, where the cycles are counted. -/
def State.coreless (s : State) : State := { s with cores := [] }

theorem State.eq_withCores {s t : State} (h : t.coreless = s.coreless) : t = { s with cores := t.cores } :=
  calc t = { t.coreless with cores := t.cores } := rfl
    _ = { s.coreless with cores := t.cores } := by rw [h]

theorem State.coreless_modCore (s : State) (d c : Nat) (f : Core → Core) : (s.modCore d c f).coreless = s.coreless := by
  unfold State.modCore
  split <;> rfl

theorem State.coreless_perfWith (s : State) (g : Gang) (ev r n : Nat) : (s.perfWith g ev r n).coreless = s.coreless := by
  unfold State.perfWith
  dsimp only
  split
  · rfl
  · exact State.coreless_modCore ..

theorem State.coreless_countCore (s : State) (c : Core) (n : Nat) : (s.countCore c n).coreless = s.coreless := by
  unfold State.countCore
  dsimp only
  split
  · rfl
  · refine (foldl_field State.coreless (fun t g => ?_) _ _).trans (State.coreless_modCore ..)
    refine (foldl_field State.coreless (fun u p => State.coreless_perfWith ..) _ _).trans ?_
    split
    · exact State.coreless_perfWith ..
    · rfl

theorem Gang.unconflicted_setConflicts (g : Gang) (f : Sub → Nat) :
    Gang.unconflicted { g with bundles := g.bundles.map (fun (b : Bundle) =>
      { b with subs := b.subs.map (fun (q : Sub) => { q with conflict := f q }) }) } = g.unconflicted := by
  simp [Gang.unconflicted, Function.comp_def]

/-- Counting the cycles of a step changes the cores, and of the gangs the cycles that they owe. -/
theorem State.countCycles_frame (s : State) (n : Nat → Nat) : (s.countCycles n).mem = s.mem ∧
    (s.countCycles n).gangs.map Gang.unconflicted = s.gangs.map Gang.unconflicted ∧ (s.countCycles n).tick = s.tick ∧
    (s.countCycles n).parts = s.parts ∧ (s.countCycles n).out = s.out := by
  obtain ⟨cs, hcount⟩ : ∃ cs, s.cores.foldl (fun s c => s.countCore c (n c.die)) s = { s with cores := cs } :=
    ⟨_, State.eq_withCores (foldl_field State.coreless (fun t c => t.coreless_countCore c (n c.die)) _ _)⟩
  unfold State.countCycles
  rw [hcount]
  dsimp only
  split
  · refine ⟨rfl, ?_, rfl, rfl, rfl⟩
    rw [State.passConflicts, List.map_map]
    exact List.map_congr_left fun g _ => g.unconflicted_setConflicts _
  · exact ⟨rfl, rfl, rfl, rfl, rfl⟩

theorem State.passTime_frame (s : State) : s.passTime.mem = s.mem ∧ s.passTime.gangs.map Gang.unconflicted = s.gangs.map Gang.unconflicted ∧
    s.passTime.tick = s.tick + 1 ∧ s.passTime.parts = s.parts ∧ s.passTime.out = s.out := by
  unfold State.passTime
  dsimp only
  split
  · exact State.countCycles_frame ..
  · exact ⟨rfl, rfl, rfl, rfl, rfl⟩

/-- Settles O58: an issue by what its fetch finds, a fill by its lines, an event by the step's definition, and the time by what is counted. -/
theorem stepRunsDecoded : Obligations.StepRunsDecoded := by
  refine ⟨?issue, fun s gid b k g y q hg hb hq hwait hlive hkilled hlen => instructionCacheFill_brings hg hb hq hwait hlive hkilled hlen,
    fun s i rest hin => by unfold step; rw [hin], fun s => ⟨rfl, s.passTime_frame⟩⟩
  rintro s s0 gid b k n rest x i hin rfl hmay hcached hinside hagree hunheld hoccupied hdecodes
  have hfetch : State.Fetches { s with inputs := rest } x i n :=
    ⟨hcached, hinside, hmay.fetchable, hagree, hunheld, hoccupied, hdecodes⟩
  have hstep : step s = endStep (State.issueTurn gid b k { s with inputs := rest }) := by unfold step; rw [hin]
  refine ⟨fun hu => ?_, fun ps hu hfields hlanes hpasses => ?_⟩
  · rw [hstep, State.issueTurn_eq (hmay.prepare_eq.trans (hfetch.fetchFirst_uniform hu)) hmay.turn]
    rfl
  · intro c hgate
    rw [hstep, State.issueTurn_eq (hmay.prepare_eq.trans (hfetch.fetchFirst_lanes hu hfields hlanes hpasses hgate)) hmay.turn]
    rfl

end Sys2Proof.Machine
end

section
/-!
PROOF. The scalar instructions (O1–O4): each format is one computation on the scalars that its word names, and what it computes is what the
rules give.
-/

namespace Sys2Proof.Machine

/-! ## From meanings to statements (R175, R176) -/

/-- A scalar instruction gives the value that its meaning computes wherever its word passes the checks. -/
theorem scalarGives_of {i : Instr} {len : Nat} {form : Form} {w : XWord} {f value : Ctx → State → W64}
    (he : ∀ s, exec i s = runScalar len form w f s) (hv : ∀ (x : Ctx) (s : State), x.passesForm form w → f x s = value x s) :
    ScalarGives i len form w value := by
  intro s x h hd hp _
  obtain ⟨t, hrun, ht⟩ := runScalar_next (f := f) (len := len) h hp hd
  exact ⟨t, (he s).trans hrun, by rw [ht, hv x s hp]⟩

/-- A 6-bit code keeps its number in a 9-bit field (R36). -/
theorem toNat_mod_512 (c : BitVec 6) : c.toNat % 512 = c.toNat := Nat.mod_eq_of_lt (by omega)

theorem runScalarS_eq (f : W64 → W64 → W64) (w : SWord) (s : State) : runScalarS f w s =
    runScalar 4 (opForm .scalar .scalar .scalar .unused true (w.nwb = 0)) (scalarS true true w)
      (fun x _ => f (x.s w.a6.toNat) (x.s w.b6.toNat)) s := by
  simp [runScalarS, scalarForm, scalarS, immB, toNat_mod_512]

theorem runScalarSl_eq (f : W64 → W64 → W64) (w : SWord) (lit : W64) (s : State) : runScalarSl f w lit s =
    runScalar 12 (opForm .scalar .scalar .unused .unused true (w.b6 = 0 && w.nwb = 0)) (scalarSl true w)
      (fun x _ => f (x.s w.a6.toNat) lit) s := by
  simp [runScalarSl, scalarSl, toNat_mod_512]

theorem scalarX_of {i : XWord → Instr} {fnOk : XWord → Bool} {f g : XWord → W64 → W64 → W64}
    (he : ∀ w s, exec (i w) s = runScalarX (fnOk w) (f w) w s) (hfg : ∀ w a b, f w a b = g w a b) : ScalarX i fnOk g :=
  fun w => scalarGives_of (he w) fun _ _ _ => hfg w ..

theorem scalarAll_of {i1 : SWord → Instr} {i2 : SWord → W64 → Instr} {i3 : XWord → Instr} {f g : W64 → W64 → W64}
    (h1 : ∀ w s, exec (i1 w) s = runScalarS f w s) (h2 : ∀ w lit s, exec (i2 w lit) s = runScalarSl f w lit s)
    (h3 : ∀ w s, exec (i3 w) s = runScalarX (w.fn = 0) f w s) (hfg : ∀ a b, f a b = g a b) : ScalarAll i1 i2 i3 g :=
  ⟨fun w => scalarGives_of (fun s => (h1 w s).trans (runScalarS_eq ..)) fun _ _ _ => hfg ..,
    fun w lit => scalarGives_of (fun s => (h2 w lit s).trans (runScalarSl_eq ..)) fun _ _ _ => hfg ..,
    scalarX_of h3 fun _ => hfg⟩

/-- Settles O1: each operation by its three formats, what it computes by the laws of the scalar functions. -/
theorem scalarArithmetic : Obligations.ScalarArithmetic :=
  ⟨scalarAll_of (fun _ _ => rfl) (fun _ _ _ => rfl) (fun _ _ => rfl) fun _ _ => rfl,
    scalarAll_of (fun _ _ => rfl) (fun _ _ _ => rfl) (fun _ _ => rfl) fun _ _ => rfl,
    scalarAll_of (fun _ _ => rfl) (fun _ _ _ => rfl) (fun _ _ => rfl) fun _ _ => rfl,
    scalarAll_of (fun _ _ => rfl) (fun _ _ _ => rfl) (fun _ _ => rfl) mulHigh_signed,
    scalarAll_of (fun _ _ => rfl) (fun _ _ _ => rfl) (fun _ _ => rfl) fun _ _ => rfl,
    scalarAll_of (fun _ _ => rfl) (fun _ _ _ => rfl) (fun _ _ => rfl) fun _ _ => rfl,
    scalarAll_of (fun _ _ => rfl) (fun _ _ _ => rfl) (fun _ _ => rfl) fun _ _ => rfl,
    scalarAll_of (fun _ _ => rfl) (fun _ _ _ => rfl) (fun _ _ => rfl) shiftL64_eq,
    scalarAll_of (fun _ _ => rfl) (fun _ _ _ => rfl) (fun _ _ => rfl) shiftR64_eq,
    scalarAll_of (fun _ _ => rfl) (fun _ _ _ => rfl) (fun _ _ => rfl) shiftRA64_eq,
    scalarX_of (fun _ _ => rfl) fun _ => mulHigh_unsigned, scalarX_of (fun _ _ => rfl) fun _ => minS64_eq,
    scalarX_of (fun _ _ => rfl) fun _ => minU64_eq, scalarX_of (fun _ _ => rfl) fun _ => maxS64_eq,
    scalarX_of (fun _ _ => rfl) fun _ => maxU64_eq⟩

/-! ## Division, comparison, selection, moves (R177–R179) -/

theorem scalarDiv_of {i : XWord → Instr} {f g : W64 → W64 → W64} (he : ∀ w s, exec (i w) s = runDivide f w s)
    (hfg : ∀ a b, f a b = g a b) : ScalarDiv i g :=
  fun w => scalarGives_of (he w) fun _ _ _ => hfg ..

/-- A word whose FN is reserved fails the first of the checks (R44, order 6). -/
theorem Form.check_fn {f : Form} (v atlas : Nat) (w : XWord) (h : f.fnOk = false) : f.check v atlas w = some { cls := 1, sub := 3 } := by
  simp [Form.check, h, failIf, firstFault, illegal]

theorem exec_scmp (w : XWord) (s : State) : exec (.scmp w) s =
    runScalarX (w.fn.toNat ≤ 5) (fun a b => if scalarCond w.fn.toNat a b then 1 else 0) w s := rfl

theorem scmp_reserved (w : XWord) (s : State) (x : Ctx) (h : s.Issues x) (hfn : 6 ≤ w.fn.toNat) :
    exec (.scmp w) s = .next (s.takeFault x.faultAt { cls := 1, sub := 3 }) := by
  rw [exec_scmp, runScalarX, runScalar, runUniform]
  have hno : (scalarForm (w.fn.toNat ≤ 5) w).fnOk = false := decide_eq_false (by omega)
  exact runUniformWith_checked h.ctx (by
    rw [Form.check_fn (f := { scalarForm (w.fn.toNat ≤ 5) w with uniform := true, result := false }) _ _ w hno]
    rfl)

theorem exec_smov (w : SWord) (s : State) : exec (.smov w) s =
    runScalar 4 (opForm .scalar .scalar .unused .unused true (w.nwb = 0)) (scalarS true false w) (fun x _ => x.s w.a6.toNat) s := by
  change execSmov w s = _
  simp [execSmov, scalarS, toNat_mod_512]

theorem exec_saddr (w : XWord) (s : State) : exec (.saddr w) s =
    runScalar 12 (opForm .scalar .scalar .named .unused (w.fn = 0) (w.m6.toNat < 8 && w.nwb = 0)) w
      (fun x _ => x.s w.a9.toNat + (x.s w.b9.toNat <<< bits w.m6.toNat 0 3) + w.imm.signExtend 64) s := by
  change execSaddr w s = _
  rw [execSaddr, bits_beq_zero (n := w.m6.toNat) (lo := 3) (len := 3) w.m6.isLt]
  rfl

theorem exec_ssel (w : XWord) (s : State) : exec (.ssel w) s =
    runScalar 12 (opForm .scalar .named .named .named (w.fn = 0) (w.m6 = 0 && w.imm = 0 && w.nwb = 0)) w
      (fun x _ => if x.s w.c9.toNat ≠ 0 then x.s w.a9.toNat else x.s w.b9.toNat) s := rfl

theorem exec_sli (w : SWord) (lit : W64) (s : State) : exec (.sli w lit) s =
    runScalar 12 (opForm .scalar .unused .unused .unused true (w.b6 = 0 && w.nwb = 0)) (scalarSl false w) (fun _ _ => lit) s := rfl

/-- Settles O2: each instruction by its meaning, the reserved comparisons by the check that comes first. -/
theorem scalarDivideSelectMove : Obligations.ScalarDivideSelectMove := by
  refine ⟨scalarDiv_of (fun _ _ => rfl) divS64_eq, scalarDiv_of (fun _ _ => rfl) divU64_eq, scalarDiv_of (fun _ _ => rfl) remS64_eq,
    scalarDiv_of (fun _ _ => rfl) fun _ _ => rfl, scalarX_of exec_scmp fun w a b => by rw [scalarCond_toNat], scmp_reserved,
    fun w => scalarGives_of (exec_ssel w) fun x _ _ => ?ssel, fun w lit => scalarGives_of (exec_sli w lit) fun _ _ _ => rfl,
    fun w => scalarGives_of (exec_smov w) fun _ _ _ => rfl, fun w => scalarGives_of (exec_saddr w) fun x _ hp => ?saddr⟩
  case ssel => exact ite_not ..
  case saddr =>
    have hm6 : w.m6.toNat < 8 ∧ w.nwb = 0 := by simpa [opForm] using (Form.check_none.1 hp).2.1
    rw [show bits w.m6.toNat 0 3 = w.m6.toNat from Nat.mod_eq_of_lt hm6.1, BitVec.shiftLeft_eq_mul_twoPow,
      show BitVec.twoPow 64 w.m6.toNat = BitVec.ofNat 64 (2 ^ w.m6.toNat) from BitVec.eq_of_toNat_eq (by simp)]

/-! ## The bits of a value (R180, R188) -/

section Bits

variable {n : Nat}

theorem popCount_toNat (a : BitVec n) (m : Nat) : popCount m a.toNat = (List.range m).countP (fun i => a.getLsbD i) := by
  simp only [popCount, bit_toNat, List.countP_eq_length_filter]

theorem clz_toNat (a : BitVec n) : clz n a.toNat = if a = 0 then n else n - 1 - a.toNat.log2 := by
  simp only [clz, Nat.mod_eq_of_lt a.isLt, beq_iff_eq, ← BitVec.toNat_inj, BitVec.ofNat_eq_ofNat, BitVec.toNat_zero]

/-- The first number that a condition picks counts those up to which it picks none. -/
theorem find_range_getD (p : Nat → Bool) (m : Nat) :
    ((List.range m).find? p).getD m = (List.range m).countP (fun i => decide (∀ j ≤ i, p j = false)) := by
  induction m with
  | zero => rfl
  | succ m ih =>
    rw [List.range_succ, List.find?_append, List.countP_append, ← ih]
    cases hfound : (List.range m).find? p with
    | some k =>
      have hk := List.find?_some hfound
      have hlt : k < m := List.mem_range.1 (List.mem_of_find?_eq_some hfound)
      have hnot : ¬ ∀ j ≤ m, p j = false := fun h => by simp [h k hlt.le] at hk
      simp [hnot]
    | none =>
      have hnone : ∀ j < m, p j = false := by simpa using hfound
      cases hm : p m with
      | true =>
        have hnot : ¬ ∀ j ≤ m, p j = false := fun h => by simp [h m le_rfl] at hm
        simp [hm, hnot]
      | false =>
        have hall : ∀ j ≤ m, p j = false := fun j hj => (Nat.lt_or_eq_of_le hj).elim (hnone j) (fun h => h ▸ hm)
        simpa [hm] using hall

/-- The low bits of a number are 0 where each of them is. -/
theorem mod_two_pow_succ_eq_zero (x i : Nat) : x % 2 ^ (i + 1) = 0 ↔ ∀ j ≤ i, x.testBit j = false := by
  constructor
  · intro h j hj
    have hbit := Nat.testBit_mod_two_pow x (i + 1) j
    rwa [h, Nat.zero_testBit, decide_eq_true (Nat.lt_succ_of_le hj), Bool.true_and, eq_comm] at hbit
  · intro h
    refine Nat.eq_of_testBit_eq fun j => ?_
    rw [Nat.testBit_mod_two_pow, Nat.zero_testBit]
    by_cases hj : j ≤ i
    · rw [h j hj, Bool.and_false]
    · rw [decide_eq_false (by omega), Bool.false_and]

theorem ctz_toNat (a : BitVec n) (m : Nat) : ctz m a.toNat = (List.range m).countP (fun i => a.toNat % 2 ^ (i + 1) = 0) := by
  rw [ctz, find_range_getD]
  simp only [mod_two_pow_succ_eq_zero, bit_toNat, BitVec.getLsbD]

theorem brev_toNat (a : BitVec n) : BitVec.ofNat n (brev n a.toNat) = a.reverse := by
  have hmask : brev n a.toNat = listMask (((List.range n).filter (fun k => a.getLsbD k)).map (fun k => n - 1 - k)) := by
    rw [listMask, List.foldl_map, List.foldl_filter]
    simp only [brev, bit_toNat]
  refine BitVec.eq_of_getLsbD_eq fun i hi => ?_
  rw [hmask, BitVec.getLsbD_ofNat, testBit_listMask, BitVec.getLsbD_reverse, BitVec.getMsbD, Bool.eq_iff_iff]
  simp only [hi, decide_true, Bool.true_and, decide_eq_true_eq, List.mem_map, List.mem_filter, List.mem_range]
  constructor
  · rintro ⟨k, ⟨hk, hbit⟩, rfl⟩
    rwa [show n - 1 - (n - 1 - k) = k by omega]
  · exact fun hbit => ⟨n - 1 - i, ⟨by omega, hbit⟩, by omega⟩

/-! ## Fields of a value (R57, R180, R188) -/

theorem toSigned_eq_bmod (len x : Nat) (h : 0 < len) : toSigned len x = Int.bmod x (2 ^ len) := by
  obtain ⟨k, rfl⟩ := Nat.exists_eq_add_of_lt h
  have hpow : 2 ^ (0 + k + 1) = 2 * 2 ^ k := by ring
  have hhalf : 0 + k + 1 - 1 = k := by omega
  simp only [toSigned, Int.bmod, hpow, hhalf]
  generalize 2 ^ k = m
  omega

theorem bits_eq_div (x lo len : Nat) : bits x lo len = x / 2 ^ lo % 2 ^ len := by
  rw [bits, Nat.shiftRight_eq_div_pow]

/-- A field of a value in two's complement; one of no bits is 0. -/
theorem ofInt_signed_field (a pos len : Nat) : (if len = 0 then 0 else BitVec.ofInt n (toSigned len (bits a pos len))) =
    BitVec.ofInt n (Int.bmod (a / 2 ^ pos : Nat) (2 ^ len)) := by
  by_cases h : len = 0
  · subst h
    simp
  · rw [if_neg h, toSigned_eq_bmod _ _ (Nat.pos_of_ne_zero h), bits_eq_div]
    rw [Int.natCast_mod, Int.emod_bmod]

theorem ofNat_unsigned_field (a pos len : Nat) : (if len = 0 then 0 else BitVec.ofNat n (bits a pos len)) =
    BitVec.ofNat n (a / 2 ^ pos % 2 ^ len) := by
  by_cases h : len = 0
  · subst h
    simp [Nat.mod_one]
  · rw [if_neg h, bits_eq_div]

/-- A field replaced, by its mask. -/
theorem ofNat_setBits (a b : BitVec n) (pos len : Nat) : BitVec.ofNat n (setBits a.toNat pos len b.toNat) =
    (a &&& ~~~BitVec.ofNat n ((2 ^ len - 1) * 2 ^ pos)) ||| ((b <<< pos) &&& BitVec.ofNat n ((2 ^ len - 1) * 2 ^ pos)) := by
  refine BitVec.eq_of_getLsbD_eq fun i hi => ?_
  simp only [BitVec.getLsbD_ofNat, BitVec.getLsbD_or, BitVec.getLsbD_and, BitVec.getLsbD_not, BitVec.getLsbD_shiftLeft, testBit_setBits,
    Nat.testBit_mul_two_pow, Nat.testBit_two_pow_sub_one, hi, decide_true, Bool.true_and]
  by_cases hlo : pos ≤ i
  · by_cases hhi : i < pos + len
    · have : i - pos < len := by omega
      simp [hlo, hhi, this, BitVec.getLsbD]
    · have : ¬ i - pos < len := by omega
      simp [hlo, hhi, this, BitVec.getLsbD]
  · simp [hlo, BitVec.getLsbD]

end Bits

/-! ## The scalar bit instructions (R180) -/

theorem bitExtract_false (a : W64) (pos len : Nat) : bitExtract false a pos len = BitVec.ofNat 64 (a.toNat / 2 ^ pos % 2 ^ len) := by
  simpa [bitExtract] using ofNat_unsigned_field (n := 64) a.toNat pos len

theorem bitExtract_true (a : W64) (pos len : Nat) :
    bitExtract true a pos len = BitVec.ofInt 64 (Int.bmod (a.toNat / 2 ^ pos : Nat) (2 ^ len)) := by
  simpa [bitExtract] using ofInt_signed_field (n := 64) a.toNat pos len

theorem sbit_of {i : Instr} {w : XWord} {f : Nat → Nat} {value : Ctx → State → W64} (he : ∀ s, exec i s = runSbit f w s)
    (hv : ∀ x s, BitVec.ofNat 64 (f (x.sn w.a9.toNat)) = value x s) : ScalarGives i 12 (sbitForm .unused (w.imm = 0) w) w value :=
  scalarGives_of he fun x s _ => hv x s

section Field

variable {i : Instr} {w : XWord} {b : Kind} {f g : W64 → W64 → Nat → Nat → W64}

theorem runSbitField_eq (b : Kind) (f : W64 → W64 → Nat → Nat → W64) (w : XWord) (s : State) : runSbitField b f w s =
    runUniform false 12 (fun _ => sbitForm b (w.imm.toNat < 8192) w) w
      (fun _ => failIf (64 < w.imm.toNat % 64 + w.imm.toNat / 64 % 128) { cls := 1, sub := 20 })
      (fun x s => .done (s.setS x w.d9.toNat (f (x.s w.a9.toNat) (x.s w.b9.toNat) (w.imm.toNat % 64) (w.imm.toNat / 64 % 128)))) s := by
  rw [runSbitField, bits_beq_zero (n := w.imm.toNat) (lo := 13) (len := 19) w.imm.isLt]
  simp only [sbitField, bits_eq_div, Nat.pow_zero, Nat.div_one]
  rfl

theorem scalarField_of (he : ∀ s, exec i s = runSbitField b f w s) (hfg : ∀ a c pos len, f a c pos len = g a c pos len) :
    ScalarField i b w g :=
  completes_of (fun s => (he s).trans (runSbitField_eq ..)) (fun _ _ _ h => if_neg (by simpa using h))
    (fun _ _ _ _ => by simp only [State.setS, hfg]) fun _ _ => ⟨rfl, rfl, rfl, rfl⟩

theorem fieldTooLong_of (he : ∀ s, exec i s = runSbitField b f w s) : FieldTooLong i b w :=
  raises_of_extra (fun s => (he s).trans (runSbitField_eq ..)) fun _ ⟨_, h⟩ => if_pos (decide_eq_true h)

end Field

theorem decodeWords_sbit_reserved (w : XWord) (rest : List W32) (h : 7 ≤ w.fn.toNat) :
    decodeWords (Encode.xWords 1 0x21 w ++ rest) = .error .fn := by
  have hfn (n : Nat) (hn : n < 7) : w.fn.toNat ≠ n := by omega
  rw [Laws.decode_x 0x21 w rest (by decide) (by decide) (by decide)]
  simp [Laws.decodeXWord, Decode.decodeXScalar, Except.map, hfn]

theorem exec_sbitBfx (w : XWord) (s : State) : exec (.sbitBfx w) s = runSbitField .unused (fun a _ => bitExtract false a) w s := rfl

theorem exec_sbitBfxS (w : XWord) (s : State) : exec (.sbitBfxS w) s = runSbitField .unused (fun a _ => bitExtract true a) w s := rfl

theorem exec_sbitBfi (w : XWord) (s : State) : exec (.sbitBfi w) s = runSbitField .scalar bitInsert w s := rfl

/-- Settles O3: the counts, the reversal and the fields by the bits of the value, the reserved FN by the decoder. -/
theorem scalarBits : Obligations.ScalarBits := by
  refine ⟨fun w => sbit_of (f := popCount 64) (fun _ => rfl) fun x _ => congrArg _ (popCount_toNat (x.s w.a9.toNat) 64),
    fun w => sbit_of (f := clz 64) (fun _ => rfl) fun x _ => ?clz,
    fun w => sbit_of (f := ctz 64) (fun _ => rfl) fun x _ => congrArg _ (ctz_toNat (x.s w.a9.toNat) 64),
    fun w => sbit_of (f := brev 64) (fun _ => rfl) fun x _ => brev_toNat (x.s w.a9.toNat),
    fun w => scalarField_of (exec_sbitBfx w) fun a _ => bitExtract_false a,
    fun w => scalarField_of (exec_sbitBfxS w) fun a _ => bitExtract_true a, fun w => scalarField_of (exec_sbitBfi w) ofNat_setBits,
    fun w => ⟨fieldTooLong_of (exec_sbitBfx w), fieldTooLong_of (exec_sbitBfxS w), fieldTooLong_of (exec_sbitBfi w)⟩, decodeWords_sbit_reserved⟩
  case clz =>
    exact (congrArg _ (clz_toNat (x.s w.a9.toNat))).trans (apply_ite (BitVec.ofNat 64) ..)

/-! ## Reads (R181, R182) -/

theorem State.packetOf_eq (s : State) (g : Gang) :
    s.packetOf g = (((s.crew g.crew).bind (fun c => s.record c.die c.arrival)).map (fun r => r.packet)).getD [] := by
  unfold State.packetOf
  cases s.crew g.crew <;> rfl

theorem State.srdValue_eq (s : State) (x : Ctx) {name : Nat} (h : name < 24) : s.srdValue x name = (s.deviceValues x).getD name 0 := by
  simp only [State.srdValue, State.deviceValues, State.packetOf_eq]
  interval_cases name <;> rfl

theorem exec_srd (w : XWord) (s : State) : exec (.srd w) s =
    runScalar 12 (opForm .scalar .unused .unused .unused (w.fn = 0 && w.imm.toNat < 24) (w.m6 = 0 && w.nwb = 0)) w
      (fun x s => s.srdValue x w.imm.toNat) s := rfl

theorem Ctx.vgetValue_eq (x : Ctx) (w : XWord) : x.vgetValue w = x.ofLane 0 (x.sn w.b9.toNat % x.g.kernel.width)
    (fun y => y.read (x.sn w.b9.toNat % x.g.kernel.width) w.a9.toNat) := rfl

theorem vgetForm_eq (w : XWord) : vgetForm w =
    opForm .scalar .vfield .scalar .unused (w.fn.toNat < 2) (w.m6 = 0 && w.imm = 0 && w.nwb = 0) := by
  simp [vgetForm, noImm]

theorem exec_vget (w : XWord) (s : State) : exec (.vget w) s = runScalar 12 (vgetForm w) w (fun x _ => (x.vgetValue w).setWidth 64) s := rfl

theorem exec_vgetS (w : XWord) (s : State) : exec (.vgetS w) s = runScalar 12 (vgetForm w) w (fun x _ => (x.vgetValue w).signExtend 64) s := rfl

/-- Settles O4: a device value by its name, a lane's register by what the lane reads. -/
theorem scalarReads : Obligations.ScalarReads := by
  refine ⟨fun w => scalarGives_of (exec_srd w) fun x s hp => State.srdValue_eq s x ?_,
    fun w => vgetForm_eq w ▸ scalarGives_of (exec_vget w) fun _ _ _ => rfl,
    fun w => vgetForm_eq w ▸ scalarGives_of (exec_vgetS w) fun _ _ _ => rfl⟩
  have hfn : w.fn = 0 ∧ w.imm.toNat < 24 := by simpa [opForm] using (Form.check_none.1 hp).1
  exact hfn.2

end Sys2Proof.Machine
end

section
/-!
PROOF. The per-lane integer arithmetic (O5): what an instruction's word must pass, what a pass delivers, and the results element by element.
-/

namespace Sys2Proof.Machine

/-! ## Instructions that compute lane by lane (R44, R183) -/

/-- A form asks no less of a word than another. -/
def Form.Within (f f' : Form) : Prop := f.fnOk = true → f.resOk = true →
  { f with fnOk := true, resOk := true } = { f' with fnOk := true, resOk := true } ∧ f'.fnOk = true ∧ f'.resOk = true

theorem Form.Within.check {f f' : Form} {v atlas : Nat} {w : XWord} (h : f.Within f') (hf : f.check v atlas w = none) :
    f'.check v atlas w = none := by
  obtain ⟨hfn, hres, -⟩ := Form.check_none.1 hf
  obtain ⟨heq, hok⟩ := h hfn hres
  exact Form.check_mono hf heq fun _ _ => hok

theorem Form.within_of {f f' : Form} (hkinds : { f with fnOk := true, resOk := true } = { f' with fnOk := true, resOk := true })
    (hfn : f.fnOk = true → f'.fnOk = true) (hres : f.resOk = true → f'.resOk = true) : f.Within f' :=
  fun h1 h2 => ⟨hkinds, hfn h1, hres h2⟩

/-- The form of a per-lane word as R44 checks it, outside vmov in format SL. -/
def checkedForm (op width : Nat) (w : XWord) : Form :=
  { laneForm op width w with litOk := true, resOk := (laneForm op width w).resOk && true }

/-- An instruction of a major that delivers f of each executing lane, under its X word. -/
structure DeliversLane (i : Instr) (op len : Nat) (w : XWord) (f : Nat → Lane → LaneResult) : Prop where
  run : ∀ s, exec i s = runLane i len noExtra (fun x ls s => s.deliverPass x w ls f) s := by intros; rfl
  guard : guardOf i = (w.pred.toNat, w.pn == 1) := by rfl
  check : ∀ k, laneFieldCheck k i = (checkedForm op k.width w).check k.v k.atlas w := by intros; rfl

theorem laneGives_of {i : Instr} {op len : Nat} {w : XWord} {form : Form} {f : Nat → Lane → LaneResult} {value : Nat → Lane → W32}
    (h : DeliversLane i op len w f) (hform : ∀ width, form.Within (checkedForm op width w))
    (hv : form.fnOk = true → form.resOk = true → ∀ l y, (f l y).1 = value l y) :
    LaneGives i len (fun _ => form) w (fun _ _ => value) := by
  intro s x hs hw hd hx hl
  obtain ⟨hfn, hres, -⟩ := Form.check_none.1 hx
  obtain rfl : (fun l y => (f l y).1) = value := funext₂ (hv hfn hres)
  rw [h.run, ← h.guard]
  exact runLane_passes (eff := fun x ls s => s.deliverPass x w ls f)
    (f := fun ls b => b.eachLane ls (fun l y => y.deliver w (x.ofLane 0 l (fun y0 => (f l y0).1)))) hs hw
    ((h.check _).trans ((hform _).check hx)) hl hd fun _ ht _ hls => State.deliverPass_eq ht hls

/-- An instruction whose result depends on its lane's A, B and C. -/
abbrev ComputesLane (i : Instr) (op len : Nat) (w : XWord) (f : W32 → W32 → W32 → LaneResult) : Prop :=
  DeliversLane i op len w (fun l y => f (argA w l y) (argB w l y) (argC w l y))

theorem laneX_of {i : XWord → Instr} {op : Nat} {form : XWord → Form} {f : XWord → W32 → W32 → W32 → LaneResult}
    {g : XWord → W32 → W32 → W32 → W32} (h : ∀ w, ComputesLane (i w) op 12 w (f w))
    (hform : ∀ w width, (form w).Within (checkedForm op width w))
    (hv : ∀ w, (form w).fnOk = true → ∀ a b c, (f w a b c).1 = g w a b c) : LaneX i form g :=
  fun w => laneGives_of (h w) (hform w) fun hfn _ _ _ => hv w hfn ..

theorem Lane.read_none (y : Lane) (l : Nat) : y.read l 268 = 0 := rfl

/-- Without an immediate the B operand is what its field names, 0 where it names nothing. -/
theorem argB_no_imm {w : XWord} (h : w.imm = 0) (l : Nat) (y : Lane) : argB w l y = y.read l w.b9.toNat := by
  unfold argB
  split
  next hb =>
    rw [h, hb]
    exact (y.read_none l).symm
  next => rfl

theorem laneS_of {i : SWord → Instr} {op : Nat} {usesB : Bool} {f : XWord → W32 → W32 → W32 → LaneResult}
    {g : XWord → W32 → W32 → W32 → W32} (h : ∀ w, ComputesLane (i w) op 4 (laneS usesB w) (f (laneS usesB w)))
    (hform : ∀ w width, (opForm .dst .src (if usesB then .src else .unused) .unused true true).Within (checkedForm op width (laneS usesB w)))
    (hv : ∀ w : XWord, w.fn = 0 → ∀ a b c, (f w a b c).1 = g w a b c) : LaneS i usesB g :=
  fun w => laneGives_of (h w) (hform w) fun _ _ l y => by
    rw [argB_no_imm rfl]
    exact hv _ rfl ..

/-! ## The values that FN and M6 may hold (R32, R183) -/

theorem tyOk_of_lt : ∀ allowed ∈ [0, 1, 3], ∀ fn : BitVec 8, fn.toNat % 4 ≠ 3 → fn.toNat < 4 * (allowed + 1) →
    tyOk fn.toNat allowed = true := by decide

theorem m6Within_of_mask {w : XWord} {mask mx : Nat} (h : (w.m6.toNat &&& (63 - mask)) = 0) (hm : mask % 8 = 0) :
    m6Within w mask mx = true := by
  simp [m6Within, h, hm]

theorem m6Within_of_zero {w : XWord} (h : w.m6 = 0) (mask mx : Nat) : m6Within w mask mx = true := by
  simp [m6Within, h]

theorem intForm2_within {w : XWord} {op width allowed m6Mask mx : Nat} (ha : allowed ∈ [0, 1, 3]) (hm : m6Mask % 8 = 0)
    (hop : checkedForm op width w = form2 .src (tyOk w.fn.toNat allowed && m6Within w m6Mask mx) (immB w && true)) :
    (intForm2 (4 * (allowed + 1)) m6Mask w).Within (checkedForm op width w) := by
  rw [hop]
  refine Form.within_of rfl (fun hfn => ?_) (Bool.and_true _).trans
  simp only [intForm2, laneRule, opForm, Bool.and_eq_true, decide_eq_true_eq, beq_iff_eq] at hfn
  obtain ⟨⟨hty, hlt⟩, hm6⟩ := hfn
  exact Bool.and_eq_true_iff.2 ⟨tyOk_of_lt allowed ha w.fn hty hlt, m6Within_of_mask hm6 hm⟩

/-- The bitwise operations have no type (R184). -/
theorem intForm2_within_logic {w : XWord} {op width : Nat}
    (hop : checkedForm op width w = form2 .src (w.fn.toNat == 0 && m6Within w 0 0) (immB w && true)) :
    (intForm2 1 0 w).Within (checkedForm op width w) := by
  rw [hop]
  refine Form.within_of rfl (fun hfn => ?_) (Bool.and_true _).trans
  simp only [intForm2, laneRule, opForm, Bool.and_eq_true, decide_eq_true_eq, beq_iff_eq] at hfn
  obtain ⟨⟨-, hlt⟩, hm6⟩ := hfn
  exact Bool.and_eq_true_iff.2 ⟨beq_iff_eq.2 (Nat.lt_one_iff.1 hlt), m6Within_of_mask hm6 rfl⟩

/-- What format S fixes passes the checks of a two-operand instruction (R30). -/
theorem laneS_within {w : SWord} {op width fnLimit m6Mask : Nat} (h0 : 0 < fnLimit)
    (h : (intForm2 fnLimit m6Mask (laneS true w)).Within (checkedForm op width (laneS true w))) :
    (opForm .dst .src .src .unused true true).Within (checkedForm op width (laneS true w)) :=
  fun _ _ => h (by simp [intForm2, laneRule, opForm, laneS, h0]) (by simp [intForm2, laneRule, opForm, immIsB, laneS])

/-! ## Results by elements (R56, R57, R184) -/

/-- An element-wise result of two operands. -/
theorem mapElems_two {n : Nat} {f : Nat → Nat → Nat → Nat × Exc} {g : Nat → Nat → Nat}
    (h : ∀ x y z, x < 2 ^ n → y < 2 ^ n → (f x y z).1 % 2 ^ n = g x y % 2 ^ n) (a b c d : W32) :
    (mapElems n f a b c).1 = byElement n (fun x y _ => g x y) a b d :=
  mapElems_eq (fun x y z hx hy _ => h x y z hx hy) a b c

theorem mapElems_one {n : Nat} {f : Nat → Nat → Nat → Nat × Exc} {g : Nat → Nat}
    (h : ∀ x y z, x < 2 ^ n → (f x y z).1 % 2 ^ n = g x % 2 ^ n) (a b c d e : W32) :
    (mapElems n f a b c).1 = byElement n (fun x _ _ => g x) a d e :=
  mapElems_eq (fun x y z hx _ _ => h x y z hx) a b c

theorem ofInt_eq (n : Nat) (v : Int) : ofInt n v = (v % 2 ^ n).toNat := by
  rw [ofInt]
  push_cast
  rfl

section Elements

variable {w : XWord}

theorem wArith_eq (op : Int → Int → Int) (h : w.fn.toNat % 4 ≠ 3) (a b c : W32) :
    (wArith op w a b c).1 = intByElement (fun x y _ => op x y) w a b c := by
  obtain ⟨hn, hcases⟩ := tyBits_eq w h
  simp only [wArith, intArith, intByElement, hn, wZ_eq, wSat_eq]
  refine mapElems_two (fun x y _ hx hy => ?_) a b 0 c
  rw [deliverInt_eq hcases, intVal_eq hcases _ hx, intVal_eq hcases _ hy]

theorem wMad_eq (h : w.fn.toNat % 4 ≠ 3) (a b c : W32) : (wMad w a b c).1 = intByElement (fun x y z => x * y + z) w a b c := by
  obtain ⟨hn, hcases⟩ := tyBits_eq w h
  simp only [wMad, intMad, intByElement, hn, wZ_eq, wSat_eq]
  refine mapElems_eq (fun x y z hx hy hz => ?_) a b c
  rw [deliverInt_eq hcases, intVal_eq hcases _ hx, intVal_eq hcases _ hy, intVal_eq hcases _ hz]

theorem wAbs_eq (h : w.fn.toNat % 4 ≠ 3) (a b c : W32) :
    (wAbsNeg false w a b c).1 = intByElement (fun x _ _ => (x.natAbs : Int)) w a b c := by
  obtain ⟨hn, hcases⟩ := tyBits_eq w h
  simp only [wAbsNeg, intAbsNeg, intByElement, hn, wZ_eq, wSat_eq]
  refine mapElems_one (fun x _ _ hx => ?_) a 0 0 b c
  have habs (v : Int) : (if v < 0 then -v else v) = (v.natAbs : Int) := by omega
  rw [deliverInt_eq hcases, intVal_eq hcases _ hx, if_neg Bool.false_ne_true, habs]

theorem wNeg_eq (h : w.fn.toNat % 4 ≠ 3) (a b c : W32) : (wAbsNeg true w a b c).1 = intByElement (fun x _ _ => 0 - x) w a b c := by
  obtain ⟨hn, hcases⟩ := tyBits_eq w h
  simp only [wAbsNeg, intAbsNeg, intByElement, hn, wZ_eq, wSat_eq]
  refine mapElems_one (fun x _ _ hx => ?_) a 0 0 b c
  rw [deliverInt_eq hcases, intVal_eq hcases _ hx, if_true]

theorem wMulh_eq (h : w.fn.toNat % 4 ≠ 3) (a b c : W32) : (wMulh w a b c).1 = byElement (elementBits w) (fun a b _ =>
    (number (elementBits w) (unsignedType w) a * number (elementBits w) (unsignedType w) b / 2 ^ elementBits w
      % 2 ^ elementBits w).toNat) a b c := by
  obtain ⟨hn, hcases⟩ := tyBits_eq w h
  simp only [wMulh, intMulh, hn, wZ_eq, ofInt_eq]
  refine mapElems_two (fun x y _ hx hy => ?_) a b 0 c
  rw [intVal_eq hcases _ hx, intVal_eq hcases _ hy]
  push_cast
  rfl

theorem wMin_eq (h : w.fn.toNat % 4 ≠ 3) (a b c : W32) : (wMinMax false w a b c).1 = byElement (elementBits w) (fun a b _ =>
    if number (elementBits w) (unsignedType w) a < number (elementBits w) (unsignedType w) b then a else b) a b c := by
  obtain ⟨hn, hcases⟩ := tyBits_eq w h
  simp only [wMinMax, intMinMax, hn, wZ_eq]
  refine mapElems_two (fun x y _ hx hy => ?_) a b 0 c
  rw [intVal_eq hcases _ hx, intVal_eq hcases _ hy]
  by_cases hlt : number (elementBits w) (unsignedType w) x < number (elementBits w) (unsignedType w) y <;> simp [hlt]

theorem wMax_eq (h : w.fn.toNat % 4 ≠ 3) (a b c : W32) : (wMinMax true w a b c).1 = byElement (elementBits w) (fun a b _ =>
    if number (elementBits w) (unsignedType w) a < number (elementBits w) (unsignedType w) b then b else a) a b c := by
  obtain ⟨hn, hcases⟩ := tyBits_eq w h
  simp only [wMinMax, intMinMax, hn, wZ_eq]
  refine mapElems_two (fun x y _ hx hy => ?_) a b 0 c
  rw [intVal_eq hcases _ hx, intVal_eq hcases _ hy]
  by_cases hlt : number (elementBits w) (unsignedType w) x < number (elementBits w) (unsignedType w) y <;> simp [hlt]

theorem wShift_left (h : w.fn.toNat % 4 ≠ 3) (a b c : W32) : (wShift 0 w a b c).1 = byElement (elementBits w) (fun a b _ =>
    if b < elementBits w then a * 2 ^ b else 0) a b c := by
  simp only [wShift, intShift, (tyBits_eq w h).1]
  refine mapElems_two (fun x y _ _ _ => ?_) a b 0 c
  by_cases hy : y < elementBits w
  · simp [hy, Nat.not_le.2 hy, Nat.shiftLeft_eq]
  · simp [hy, Nat.not_lt.1 hy]

theorem wShift_right (h : w.fn.toNat % 4 ≠ 3) (a b c : W32) : (wShift 1 w a b c).1 = byElement (elementBits w) (fun a b _ =>
    if b < elementBits w then a / 2 ^ b else 0) a b c := by
  simp only [wShift, intShift, (tyBits_eq w h).1]
  refine mapElems_two (fun x y _ _ _ => ?_) a b 0 c
  by_cases hy : y < elementBits w
  · simp [hy, Nat.not_le.2 hy, Nat.shiftRight_eq_div_pow]
  · simp [hy, Nat.not_lt.1 hy]

theorem wShift_arith (h : w.fn.toNat % 4 ≠ 3) (a b c : W32) : (wShift 2 w a b c).1 = byElement (elementBits w) (fun a b _ =>
    (number (elementBits w) false a / 2 ^ min b (elementBits w - 1) % 2 ^ elementBits w).toNat) a b c := by
  obtain ⟨hn, hcases⟩ := tyBits_eq w h
  simp only [wShift, intShift, hn, ofInt_eq]
  refine mapElems_two (fun x y _ hx _ => ?_) a b 0 c
  rw [← intVal_eq hcases _ hx]
  simp [intVal]

end Elements

theorem foldl_add_eq_sum (f : Nat → Int) (xs : List Nat) : xs.foldl (fun acc i => acc + f i) 0 = (xs.map f).sum := by
  rw [List.sum_eq_foldl, List.foldl_map]

theorem wDot4_eq (w : XWord) (a b c : W32) : (wDot4 w a b c).1 = dotOfBytes w a b c := by
  have hodd : (bits w.fn.toNat 0 2 % 2 == 1) = decide (w.fn.toNat % 2 = 1) := by
    rw [bits_eq_div, Nat.pow_zero, Nat.div_one, Nat.mod_mod_of_dvd _ (by decide)]
    rfl
  have hnum (z : Bool) (x : W32) (i : Nat) : intVal 8 z (bits x.toNat (8 * i) 8) = number 8 z (bits x.toNat (8 * i) 8) :=
    intVal_eq (by decide) z (bits_lt ..)
  simp only [wDot4, intDot4, dotOfBytes, foldl_add_eq_sum, hnum, toSigned_32, wSat_eq, hodd]
  rw [deliverInt_eq (by decide)]
  rfl

/-! ## The instructions (R184, R185) -/

theorem ty_of_intForm2 {fnLimit m6Mask : Nat} {w : XWord} (h : (intForm2 fnLimit m6Mask w).fnOk = true) : w.fn.toNat % 4 ≠ 3 := by
  simp only [intForm2, laneRule, opForm, Bool.and_eq_true, decide_eq_true_eq] at h
  exact h.1.1

/-- The two formats of a two-operand operation of a major, from what it computes where TY is legal. -/
theorem laneBoth_of {i1 : SWord → Instr} {i2 : XWord → Instr} {op fnLimit m6Mask : Nat} {f : XWord → W32 → W32 → W32 → LaneResult}
    {g : XWord → W32 → W32 → W32 → W32} (h1 : ∀ w, ComputesLane (i1 w) op 4 (laneS true w) (f (laneS true w)))
    (h2 : ∀ w, ComputesLane (i2 w) op 12 w (f w)) (h0 : 0 < fnLimit)
    (hform : ∀ w width, (intForm2 fnLimit m6Mask w).Within (checkedForm op width w))
    (hv : ∀ w : XWord, w.fn.toNat % 4 ≠ 3 → ∀ a b c, (f w a b c).1 = g w a b c) : LaneBoth i1 i2 true (intForm2 fnLimit m6Mask) g :=
  ⟨laneS_of h1 (fun w width => laneS_within h0 (hform _ width)) fun w hfn => hv w (by rw [hfn]; decide),
    laneX_of h2 hform fun w hfn => hv w (ty_of_intForm2 hfn)⟩

theorem vmad_within (w : XWord) (width : Nat) :
    (laneRule .src .src (w.fn.toNat % 4 ≠ 3 && w.fn.toNat < 8) (w.m6.toNat &&& 55 == 0) (w.imm = 0)).Within (checkedForm 0x34 width w) := by
  refine Form.within_of rfl (fun hfn => ?_) (Bool.and_true _).trans
  simp only [laneRule, opForm, Bool.and_eq_true, decide_eq_true_eq, beq_iff_eq] at hfn
  obtain ⟨⟨hty, hlt⟩, hm6⟩ := hfn
  exact Bool.and_eq_true_iff.2 ⟨tyOk_of_lt 1 (by decide) w.fn hty hlt, m6Within_of_mask hm6 rfl⟩

theorem vdot4_within (w : XWord) (width : Nat) :
    (laneRule .src .src (w.fn.toNat < 4) (w.m6.toNat &&& 55 == 0) (w.imm = 0)).Within (checkedForm 0x35 width w) := by
  refine Form.within_of rfl (fun hfn => ?_) (Bool.and_true _).trans
  simp only [laneRule, opForm, Bool.and_eq_true, beq_iff_eq] at hfn
  exact Bool.and_eq_true_iff.2 ⟨hfn.1, m6Within_of_mask hfn.2 rfl⟩

/-- The FN values of vabs and vneg: Z may be set of vneg alone (R184). -/
theorem tyOk_absNeg : ∀ fn : BitVec 8, fn.toNat % 4 ≠ 3 → fn.toNat < 3 ∨ 8 ≤ fn.toNat ∧ fn.toNat < 16 →
    (tyOk fn.toNat 3 && (!bit fn.toNat 2 || bit fn.toNat 3)) = true := by decide

theorem absNeg_within {w : XWord} {fnOk : Bool} (width : Nat)
    (h : fnOk = true → w.fn.toNat % 4 ≠ 3 ∧ (w.fn.toNat < 3 ∨ 8 ≤ w.fn.toNat ∧ w.fn.toNat < 16)) :
    (laneRule .unused .unused fnOk (w.m6.toNat &&& 55 == 0) (w.imm = 0)).Within (checkedForm 0x3D width w) := by
  refine Form.within_of rfl (fun hfn => ?_) (Bool.and_true _).trans
  simp only [laneRule, opForm, Bool.and_eq_true, beq_iff_eq] at hfn
  exact Bool.and_eq_true_iff.2 ⟨tyOk_absNeg w.fn (h hfn.1).1 (h hfn.1).2, m6Within_of_mask hfn.2 rfl⟩

/-- Settles O5: each instruction by its meaning and its form, what it delivers by the laws of its elements. -/
theorem laneArithmetic : Obligations.LaneArithmetic := by
  refine ⟨
    laneBoth_of (op := 0x30) (fun _ => {}) (fun _ => {}) (by decide)
      (fun _ _ => intForm2_within (allowed := 1) (by decide) rfl rfl) fun _ => wArith_eq (· + ·),
    laneBoth_of (op := 0x31) (fun _ => {}) (fun _ => {}) (by decide)
      (fun _ _ => intForm2_within (allowed := 1) (by decide) rfl rfl) fun _ => wArith_eq (· - ·),
    laneBoth_of (op := 0x32) (fun _ => {}) (fun _ => {}) (by decide)
      (fun _ _ => intForm2_within (allowed := 1) (by decide) rfl rfl) fun _ => wArith_eq (· * ·),
    laneBoth_of (op := 0x33) (fun _ => {}) (fun _ => {}) (by decide)
      (fun _ _ => intForm2_within (allowed := 1) (by decide) rfl rfl) fun _ => wMulh_eq,
    laneX_of (f := wMad) (fun _ => {}) vmad_within fun w hfn => wMad_eq ?vmad,
    laneX_of (f := wDot4) (fun _ => {}) vdot4_within fun w _ => wDot4_eq w,
    laneBoth_of (op := 0x36) (f := wLogic (· &&& ·)) (fun _ => {}) (fun _ => {}) (by decide) (fun _ _ => intForm2_within_logic rfl)
      fun _ _ _ _ _ => rfl,
    laneBoth_of (op := 0x37) (f := wLogic (· ||| ·)) (fun _ => {}) (fun _ => {}) (by decide) (fun _ _ => intForm2_within_logic rfl)
      fun _ _ _ _ _ => rfl,
    laneBoth_of (op := 0x38) (f := wLogic (· ^^^ ·)) (fun _ => {}) (fun _ => {}) (by decide) (fun _ _ => intForm2_within_logic rfl)
      fun _ _ _ _ _ => rfl,
    laneBoth_of (op := 0x39) (fun _ => {}) (fun _ => {}) (by decide)
      (fun _ _ => intForm2_within (allowed := 0) (by decide) rfl rfl) fun _ => wShift_left,
    laneBoth_of (op := 0x3A) (fun _ => {}) (fun _ => {}) (by decide)
      (fun _ _ => intForm2_within (allowed := 0) (by decide) rfl rfl) fun _ => wShift_right,
    laneBoth_of (op := 0x3B) (fun _ => {}) (fun _ => {}) (by decide)
      (fun _ _ => intForm2_within (allowed := 0) (by decide) rfl rfl) fun _ => wShift_arith,
    laneX_of (op := 0x3C) (fun _ => {}) (fun _ _ => intForm2_within (allowed := 3) (by decide) rfl rfl)
      fun _ hfn => wMin_eq (ty_of_intForm2 hfn),
    laneX_of (op := 0x3C) (fun _ => {}) (fun _ _ => intForm2_within (allowed := 3) (by decide) rfl rfl)
      fun _ hfn => wMax_eq (ty_of_intForm2 hfn),
    laneX_of (f := wAbsNeg false) (fun _ => {}) (fun w width => absNeg_within width ?absForm)
      fun w hfn => wAbs_eq ?abs,
    laneX_of (f := wAbsNeg true) (fun _ => {}) (fun w width => absNeg_within width ?negForm)
      fun w hfn => wNeg_eq ?neg⟩
  case absForm => simpa using fun h => (⟨by omega, .inl h⟩ : w.fn.toNat % 4 ≠ 3 ∧ _)
  case negForm => simpa using fun h h8 h16 => (⟨h, .inr ⟨h8, h16⟩⟩ : w.fn.toNat % 4 ≠ 3 ∧ _)
  all_goals
    simp only [laneRule, opForm, Bool.and_eq_true, decide_eq_true_eq] at hfn
    omega

end Sys2Proof.Machine
end

section
/-!
PROOF. The per-lane moves, bit operations, requantisation, packing and unpacking (O6).
-/

namespace Sys2Proof.Machine

/-! ## Selection and moves (R186) -/

theorem vsel_gives (w : XWord) : LaneGives (.vsel w) 12 (fun _ => laneRule .src .unused (w.fn.toNat < 16) (w.m6 = 0) (w.imm = 0)) w
    (fun _ _ l y => if y.readP (w.fn.toNat % 8) ≠ w.fn.getLsbD 3 then y.read l w.a9.toNat else y.read l w.b9.toNat) := by
  refine laneGives_of (op := 0x3E) (f := fun l y =>
    (if y.readP (bits w.fn.toNat 0 3) != bit w.fn.toNat 3 then argA w l y else argB w l y, 0)) {} (fun width => ?_) fun _ hres l y => ?_
  · refine Form.within_of rfl (fun hfn => ?_) (Bool.and_true _).trans
    simp only [laneRule, opForm, Bool.and_eq_true, decide_eq_true_eq] at hfn
    exact Bool.and_eq_true_iff.2 ⟨decide_eq_true hfn.1, m6Within_of_zero hfn.2 ..⟩
  · rw [argB_no_imm (of_decide_eq_true hres)]
    simp only [bit_toNat, bne_iff_ne]
    rfl

theorem laneS_mov_within (w : SWord) (width : Nat) :
    (opForm .dst .src (if false then .src else .unused) .unused true true).Within (checkedForm 0x40 width (laneS false w)) :=
  Form.within_of rfl (fun _ => by simp [checkedForm, laneForm, intForm, form2, laneS, m6Within_of_zero])
    fun _ => by simp [checkedForm, laneForm, intForm, form2, laneS]

theorem vmovXForm_gives (w : XWord) :
    LaneGives (.vmovXForm w) 12 (fun _ => laneRule .unused .unused (w.fn = 0) (w.m6 = 0) (w.a9 = 268 || w.imm = 0)) w
      (fun _ _ l y => if w.a9 = 268 then w.imm else y.read l w.a9.toNat) := by
  refine laneGives_of (op := 0x40) (f := fun l y => (if w.a9 = 268 then w.imm else argA w l y, 0)) {} (fun width => ?_)
    fun _ _ _ _ => rfl
  refine Form.within_of rfl (fun hfn => ?_) (Bool.and_true _).trans
  simp only [laneRule, opForm, Bool.and_eq_true, decide_eq_true_eq] at hfn
  exact Bool.and_eq_true_iff.2 ⟨by simp [hfn.1], m6Within_of_zero hfn.2 ..⟩

/-- A field that may name nothing alone would pass as a source too. -/
theorem Form.check_source {f : Form} {v atlas : Nat} {w : XWord} (h : { f with a := .unused }.check v atlas w = none) :
    { f with a := .src }.check v atlas w = none := by
  simp only [Form.check, firstFault_eq_none, List.mem_cons, List.not_mem_nil, or_false, forall_eq_or_imp, forall_eq, failIf_eq_none,
    Bool.or_eq_false_iff, Bool.and_eq_true, Bool.not_eq_false'] at h ⊢
  obtain ⟨hfn, hres, ⟨⟨⟨⟨hd, ha⟩, hb⟩, hc⟩, hop⟩, hguard, ⟨⟨⟨pd, -⟩, pb⟩, pc⟩, hlit, ⟨⟨gd, -⟩, gb⟩, gc⟩ := h
  have ha9 : w.a9.toNat = 268 := beq_iff_eq.1 ha
  refine ⟨hfn, hres, ⟨⟨⟨⟨hd, ?_⟩, hb⟩, hc⟩, hop⟩, hguard, ⟨⟨⟨pd, ?_⟩, pb⟩, pc⟩, hlit, ⟨⟨gd, rfl⟩, gb⟩, gc⟩
  · rw [ha9]
    rfl
  · simp [ha9]

theorem vmovSlForm_gives (w : SWord) (lit : W64) :
    LaneGives (.vmovSlForm w lit) 12 (fun _ => { opForm .dst .unused .unused .unused true (w.b6 = 0) with
      litOk := lit = (lit.setWidth 32).signExtend 64 }) (laneSl w) (fun _ _ _ _ => lit.setWidth 32) := by
  refine LaneGives_of_runCompute (w' := laneSl w) (f := plain (fun _ _ _ => lit.setWidth 32)) (fun _ => rfl) ⟨rfl, rfl⟩ rfl
    (fun x hx => ?_) fun _ _ _ _ _ => rfl
  refine Form.Within.check (fun _ hres => ⟨?_, ?_, ?_⟩) (Form.check_source
    (f := { opForm .dst .src .unused .unused true (w.b6 = 0) with litOk := lit = (lit.setWidth 32).signExtend 64 }) hx)
  · have hlit : decide (lit = (lit.setWidth 32).signExtend 64) = ((lit.setWidth 32).signExtend 64 == lit) := by
      rw [Bool.eq_iff_iff, decide_eq_true_eq, beq_iff_eq, eq_comm]
    rw [hlit]
    rfl
  · simp [laneForm, intForm, form2, laneSl, m6Within_of_zero]
  · simpa [opForm, laneForm, intForm, form2, laneSl, laneB6Ok] using hres

/-! ## Bytes and bits (R188) -/

/-- The B operand under a W2 that is C's. -/
theorem argB_moved_imm {w : XWord} {ok : Bool} (h : (if w.c9 = 268 then ok else w.imm = 0) = true) (l : Nat) (y : Lane) :
    argB { w with imm := if w.c9 = 268 then 0 else w.imm } l y = y.read l w.b9.toNat := by
  refine argB_no_imm ?_ l y
  dsimp only
  split
  next => rfl
  next hc =>
    rw [if_neg hc] at h
    exact of_decide_eq_true h

theorem laneRule_three_within {w : XWord} {op width : Nat} {res : Bool}
    (hop : checkedForm op width w = form3 (w.fn.toNat == 0 && m6Within w 0 0) (res && true)) :
    (laneRule .src .src (w.fn = 0) (w.m6 = 0) res).Within (checkedForm op width w) := by
  rw [hop]
  refine Form.within_of rfl (fun hfn => ?_) (Bool.and_true _).trans
  simp only [laneRule, opForm, Bool.and_eq_true, decide_eq_true_eq] at hfn
  exact Bool.and_eq_true_iff.2 ⟨by simp [hfn.1], m6Within_of_zero hfn.2 ..⟩

theorem vfsh_gives (w : XWord) : LaneGives (.vfsh w) 12 (fun _ => laneRule .src .src (w.fn = 0) (w.m6 = 0)
    (if w.c9 = 268 then w.imm.toNat < 32 else w.imm = 0)) w (fun _ _ l y =>
      let k := (if w.c9 = 268 then w.imm else y.read l w.c9.toNat).toNat % 32
      BitVec.ofNat 32 (((y.read l w.a9.toNat).toNat * 2 ^ 32 + (y.read l w.b9.toNat).toNat) / 2 ^ k)) := by
  refine laneGives_of (op := 0x41) (f := fun l y => (funnel (argA w l y)
    (argB { w with imm := if w.c9 = 268 then 0 else w.imm } l y)
    (if w.c9 = 268 then bits w.imm.toNat 0 5 else bits (argC w l y).toNat 0 5), 0)) {} (fun width => laneRule_three_within rfl) fun _ hres l y => ?_
  rw [argB_moved_imm hres]
  simp only [funnel, bits_eq_div, Nat.shiftRight_eq_div_pow, Nat.shiftLeft_eq, argA, argC]
  split <;> simp

theorem bytePermute_eq (a b : W32) (sel : Nat) : bytePermute a b (bits sel 0 16) = permuted sel a b := by
  simp only [bytePermute, permuted]
  rw [show (4 : Nat) = 32 / 8 from rfl, ofElems_eq]
  refine congrArg (fun xs => BitVec.ofNat 32 (List.sum xs)) (List.map_congr_left fun i hi => ?_)
  have hsel : bits (bits sel 0 16) (4 * i) 4 = sel / 2 ^ (4 * i) % 16 := by
    have hi4 : i < 4 := List.mem_range.1 hi
    simp only [bits_eq_div]
    interval_cases i <;> omega
  simp only [hsel]
  simp only [bits_eq_div, Nat.shiftLeft_eq]
  by_cases hs : sel / 2 ^ (4 * i) % 16 < 8
  · simp [hs, Nat.not_le.2 hs]
  · simp [hs, Nat.not_lt.1 hs]

theorem vprm_gives (w : XWord) : LaneGives (.vprm w) 12 (fun _ => laneRule .src .src (w.fn = 0) (w.m6 = 0)
      (if w.c9 = 268 then w.imm.toNat < 65536 else w.imm = 0)) w (fun _ _ l y =>
    permuted (if w.c9 = 268 then w.imm else y.read l w.c9.toNat).toNat (y.read l w.a9.toNat) (y.read l w.b9.toNat)) := by
  refine laneGives_of (op := 0x4B) (f := fun l y => (bytePermute (argA w l y)
    (argB { w with imm := if w.c9 = 268 then 0 else w.imm } l y)
    (if w.c9 = 268 then bits w.imm.toNat 0 16 else bits (argC w l y).toNat 0 16), 0)) {} (fun width => laneRule_three_within rfl) fun _ hres l y => ?_
  rw [argB_moved_imm hres]
  dsimp only
  rw [← bytePermute_eq]
  split <;> rfl

theorem unary_within {w : XWord} {width : Nat} : (unaryForm (w.fn.toNat < 4) w).Within (checkedForm 0x42 width w) := by
  intro hfn hres
  simp only [unaryForm, laneRule, opForm, Bool.and_eq_true, decide_eq_true_eq] at hfn hres
  have hform : checkedForm 0x42 width w = form2 .unused (m6Within w 0 0) (noImm w && true) := by
    simp [checkedForm, laneForm, intForm, hfn.1, form2]
  rw [hform]
  exact ⟨rfl, m6Within_of_zero hfn.2 .., by simp [form2, noImm, hres]⟩

theorem bfx_within (w : XWord) (width : Nat) : (laneRule .src .unused (4 ≤ w.fn.toNat && w.fn.toNat < 6) (w.m6 = 0) (immIsB w)).Within
    (checkedForm 0x42 width w) := by
  intro hfn hres
  simp only [laneRule, opForm, Bool.and_eq_true, decide_eq_true_eq] at hfn hres
  have hform : checkedForm 0x42 width w = form2 .src (m6Within w 0 0) (immB w && true) := by
    simp [checkedForm, laneForm, intForm, Nat.not_lt.2 hfn.1.1, hfn.1.2, form2]
  rw [hform]
  exact ⟨rfl, m6Within_of_zero hfn.2 .., (Bool.and_true _).trans hres⟩

theorem bfi_within (w : XWord) (width : Nat) : (laneRule .src .src (w.fn = 6) (w.m6 = 0) (w.imm = 0)).Within
    (checkedForm 0x42 width w) := by
  intro hfn hres
  simp only [laneRule, opForm, Bool.and_eq_true, decide_eq_true_eq] at hfn hres
  have hform : checkedForm 0x42 width w = form3 (true && m6Within w 0 0) (noImm w && true) := by
    simp [checkedForm, laneForm, intForm, hfn.1, form3]
  rw [hform]
  exact ⟨rfl, m6Within_of_zero hfn.2 .., by simp [form3, noImm, hres]⟩

theorem laneExtract_eq (signed : Bool) (a b : W32) : laneExtract signed a b =
    let v := a.toNat / 2 ^ (laneField b).1 % 2 ^ (laneField b).2
    if signed then BitVec.ofInt 32 (Int.bmod v (2 ^ (laneField b).2)) else BitVec.ofNat 32 v := by
  have hpos : bits b.toNat 0 5 = (laneField b).1 := rfl
  have hlen : min (bits b.toNat 5 6) 32 = (laneField b).2 := by rw [bits_eq_div]; rfl
  simp only [laneExtract, hpos, hlen, beq_iff_eq]
  cases signed
  · exact ofNat_unsigned_field ..
  · rw [Int.natCast_mod, Int.emod_bmod]
    exact ofInt_signed_field ..

theorem bfx_signed : ∀ fn : BitVec 8, 4 ≤ fn.toNat → fn.toNat < 6 → bit fn.toNat 0 = decide (fn = 5) := by decide

theorem laneInsert_eq (a b c : W32) : laneInsert a b c =
    let mask := BitVec.ofNat 32 ((2 ^ (laneField b).2 - 1) * 2 ^ (laneField b).1)
    (c &&& ~~~mask) ||| ((a <<< (laneField b).1) &&& mask) := by
  have hpos : bits b.toNat 0 5 = (laneField b).1 := rfl
  have hlen : min (bits b.toNat 5 6) 32 = (laneField b).2 := by rw [bits_eq_div]; rfl
  simp only [laneInsert, hpos, hlen]
  rw [← ofNat_setBits]
  refine BitVec.eq_of_getLsbD_eq fun i hi => ?_
  simp only [BitVec.getLsbD_ofNat, testBit_setBits]
  have hmin : i < (laneField b).1 + min (laneField b).2 (32 - (laneField b).1) ↔ i < (laneField b).1 + (laneField b).2 := by
    omega
  simp only [hmin]

/-! ## Requantisation (R58, R189) -/

/-- Whether a mode makes a quotient q of a magnitude by d one more, where r is left (R58). -/
def roundsUp (mode : RMode) (neg : Bool) (q r d : Nat) : Bool :=
  r ≠ 0 && match mode with
    | .rne => d < 2 * r || (2 * r = d && q % 2 = 1)
    | .rtz => false
    | .rdn => neg
    | .rup => !neg

/-- A magnitude rounded to a multiple of 2^n is its quotient, or one more. -/
theorem roundMult_shift (mode : RMode) (neg : Bool) (m n : Nat) :
    (roundMult mode neg m 0 n).1 = m / 2 ^ n + if roundsUp mode neg (m / 2 ^ n) (m % 2 ^ n) (2 ^ n) then 1 else 0 := by
  obtain rfl | hn := Nat.eq_zero_or_pos n
  · simp [roundMult, roundsUp, Nat.mod_one]
  have hpos : ¬ (n : Int) ≤ 0 := by omega
  have hd : ((n : Int) - 0).toNat = n := by omega
  have hsplit : m / 2 ^ n * 2 ^ n + m % 2 ^ n = m := Nat.div_add_mod' ..
  have hbig (h : n > m.log2 + 2) : m / 2 ^ n = 0 ∧ m % 2 ^ n = m ∧ 2 * m < 2 ^ n := by
    have hlog : m < 2 ^ (m.log2 + 1) := Nat.lt_log2_self
    have hpow : 2 ^ (m.log2 + 1 + 1) ≤ 2 ^ n := Nat.pow_le_pow_right (by decide) (by omega)
    rw [Nat.pow_succ] at hpow
    exact ⟨Nat.div_eq_of_lt (by omega), Nat.mod_eq_of_lt (by omega), by omega⟩
  have hquot : (if n > m.log2 + 2 then 0 else m >>> n) = m / 2 ^ n := by
    split
    next h => exact (hbig h).1.symm
    next => exact Nat.shiftRight_eq_div_pow ..
  have hexact : (if n > m.log2 + 2 then m == 0 else (m / 2 ^ n) <<< n == m) = decide (m % 2 ^ n = 0) := by
    split
    next h => rw [(hbig h).2.1]; rfl
    next =>
      rw [Nat.shiftLeft_eq, Bool.eq_iff_iff, beq_iff_eq, decide_eq_true_eq]
      omega
  have hhalf : (if n > m.log2 + 2 then Ordering.lt else compare (2 * (m - (m / 2 ^ n) <<< n)) (2 ^ n)) =
      compare (2 * (m % 2 ^ n)) (2 ^ n) := by
    split
    next h => rw [(hbig h).2.1]; exact (Nat.compare_eq_lt.2 (hbig h).2.2).symm
    next => rw [Nat.shiftLeft_eq, show m - m / 2 ^ n * 2 ^ n = m % 2 ^ n by omega]
  have hgt (a b : Nat) : (compare a b == Ordering.gt) = decide (b < a) := by
    rw [Bool.eq_iff_iff, beq_iff_eq, Nat.compare_eq_gt, decide_eq_true_eq]
  have heq (a b : Nat) : (compare a b == Ordering.eq) = decide (a = b) := by
    rw [Bool.eq_iff_iff, beq_iff_eq, Nat.compare_eq_eq, decide_eq_true_eq]
  simp only [roundMult, hpos, if_false, hd, hquot, hexact, hhalf, hgt, heq, roundsUp]
  by_cases hr : m % 2 ^ n = 0
  · simp [hr]
  · cases mode <;> simp [hr] <;> split <;> rfl

/-- q and r are the quotient and the rest of v, whose magnitude has p and t, for a positive divisor d. -/
def Splits (v q r : Int) (p t d : Nat) : Prop :=
  0 ≤ v ∧ q = p ∧ r = t ∨ v < 0 ∧ t = 0 ∧ q = -p ∧ r = 0 ∨ v < 0 ∧ t ≠ 0 ∧ q = -p - 1 ∧ r = d - t

theorem splits_natAbs (v : Int) {d : Nat} (hd : 0 < d) : Splits v (v / d) (v % d) (v.natAbs / d) (v.natAbs % d) d := by
  have hd' : (0 : Int) < d := by omega
  have hsplit : ((v.natAbs % d : Nat) : Int) + d * (v.natAbs / d : Nat) = v.natAbs := by exact_mod_cast Nat.mod_add_div ..
  have hlt : v.natAbs % d < d := Nat.mod_lt _ hd
  obtain hv | hv := Int.lt_or_le v 0
  · by_cases hr : v.natAbs % d = 0
    · exact .inr (.inl ⟨hv, hr, (Int.ediv_emod_unique hd').2 ⟨by rw [mul_neg]; omega, by omega, hd'⟩⟩)
    · exact .inr (.inr ⟨hv, hr, (Int.ediv_emod_unique hd').2 ⟨by rw [mul_sub, mul_neg]; omega, by omega, by omega⟩⟩)
  · exact .inl ⟨hv, (Int.ediv_emod_unique hd').2 ⟨by omega, by omega, by omega⟩⟩

theorem tdiv_natAbs (v : Int) (d : Nat) : v.tdiv d = if v < 0 then -((v.natAbs / d : Nat) : Int) else (v.natAbs / d : Nat) := by
  rw [Int.ofNat_tdiv]
  split
  next h => rw [← Int.neg_tdiv, show -(v.natAbs : Int) = v by omega]
  next h => rw [show (v.natAbs : Int) = v by omega]

/-- A magnitude rounded, with its sign, is the number rounded. -/
theorem smant_roundsUp {v q r q' r' : Int} {p t d : Nat} (hv : Splits v q r p t d) (hneg : Splits (-v) q' r' p t d) (ht : t < d)
    (h0 : v = 0 → p = 0 ∧ t = 0) (mode : Nat) (hmode : mode < 4) : smant (v < 0) (p + if roundsUp (rmode mode) (v < 0) p t d then 1 else 0) =
      if mode = 1 then (if v < 0 then -(p : Int) else p) else if mode = 2 then q else if mode = 3 then -q'
      else if 2 * r < d then q else if 2 * r > d then q + 1 else q + q % 2 := by
  unfold Splits at hv hneg
  obtain rfl | rfl | rfl | rfl : mode = 0 ∨ mode = 1 ∨ mode = 2 ∨ mode = 3 := by omega
  all_goals simp only [rmode, smant, roundsUp, decide_eq_true_eq, Bool.and_eq_true, Bool.or_eq_true, Bool.not_eq_true', decide_eq_false_iff_not,
    beq_iff_eq, Nat.reduceEqDiff, Nat.succ_ne_self, if_true, if_false]
  · split_ifs <;> omega
  · simp
  · by_cases hrest : t = 0 <;> by_cases hsign : v < 0 <;> simp [hrest, hsign] <;> omega
  · by_cases hrest : t = 0 <;> by_cases hsign : v < 0 <;> simp [hrest, hsign] <;> omega

theorem smant_roundMult (mode : Nat) (hmode : mode < 4) (n : Nat) (v : Int) :
    smant (v < 0) (roundMult (rmode mode) (v < 0) v.natAbs 0 n).1 = divideRounded mode n v := by
  have hd : 0 < 2 ^ n := Nat.two_pow_pos n
  have hcast : (2 : Int) ^ n = ((2 ^ n : Nat) : Int) := by push_cast; rfl
  rw [roundMult_shift, divideRounded, hcast, tdiv_natAbs]
  have hneg := splits_natAbs (-v) hd
  rw [Int.natAbs_neg] at hneg
  exact smant_roundsUp (splits_natAbs v hd) hneg (Nat.mod_lt _ hd) (fun h => by simp [h]) mode hmode

theorem clampInt_eq {lo hi : Int} (h : lo ≤ hi) (v : Int) : (clampInt lo hi v).1 = max lo (min hi v) := by
  unfold clampInt
  split_ifs <;> simp <;> omega

theorem intRange_eq (n : Nat) (z : Bool) :
    intRange n z = (if z then 0 else -(2 ^ (n - 1)), if z then 2 ^ n - 1 else 2 ^ (n - 1) - 1) := by
  have hn : 1 ≤ 2 ^ n := Nat.one_le_two_pow
  cases z <;> simp [intRange, Nat.cast_sub hn]

theorem range_le (n : Nat) (z : Bool) :
    (if z then (0 : Int) else -(2 ^ (n - 1))) ≤ if z then 2 ^ n - 1 else 2 ^ (n - 1) - 1 := by
  have hpos (k : Nat) : (0 : Int) < 2 ^ k := by positivity
  have := hpos n
  have := hpos (n - 1)
  split <;> omega

theorem requantise_eq (w : XWord) (hm : w.m6.toNat < 4) (a b c : W32) :
    (requantise (bits w.fn.toNat 0 2) (wZ w) (rmode (bits w.m6.toNat 0 3)) (bits b.toNat 0 5) a c).1 = requantised w a b c := by
  have hmode : bits w.m6.toNat 0 3 = w.m6.toNat % 8 := rfl
  have hn : bits b.toNat 0 5 = b.toNat % 32 := rfl
  have hout : bits w.fn.toNat 0 2 = w.fn.toNat % 4 := rfl
  simp only [requantise, requantised, hmode, hn, hout, wZ_eq, toSigned_32, intVal_eq (n := 32) (by simp) _ a.isLt, beq_iff_eq]
  rw [smant_roundMult _ (by omega)]
  rw [intRange_eq, clampInt_eq (range_le ..)]

theorem vrsh_fn : ∀ fn : BitVec 8, fn.toNat % 4 ≠ 3 → fn.toNat < 8 → fn.toNat ≠ 4 →
    (fn.toNat % 4 != 3 && !(bit fn.toNat 2 && fn.toNat % 4 == 0) && fn.toNat < 8) = true := by decide

theorem m6Within_of_mode {w : XWord} (h : w.m6.toNat < 4) : m6Within w 7 3 = true := by
  have hall : ∀ m6 : BitVec 6, m6.toNat < 4 → ((m6.toNat &&& (63 - 7)) == 0 && (7 % 8 == 0 || m6.toNat % 8 ≤ 3)) = true := by decide
  exact hall w.m6 h

theorem vrsh_within (w : XWord) (width : Nat) :
    (laneRule .src .src (w.fn.toNat % 4 ≠ 3 && w.fn.toNat < 8 && w.fn.toNat ≠ 4) (w.m6.toNat < 4)
      (if w.b9 = 268 then w.imm.toNat < 32 else w.imm = 0)).Within (checkedForm 0x43 width w) := by
  refine Form.within_of rfl (fun hfn => ?_) (Bool.and_true _).trans
  simp only [laneRule, opForm, Bool.and_eq_true, decide_eq_true_eq] at hfn
  obtain ⟨⟨⟨hty, hlt⟩, h4⟩, hm6⟩ := hfn
  exact Bool.and_eq_true_iff.2 ⟨vrsh_fn w.fn hty hlt h4, m6Within_of_mode hm6⟩

/-! ## Packing (R190) -/

/-- The element width of a packed type, which its sources or results double. -/
theorem packed_width {w : XWord} (hty : w.fn.toNat % 4 = 1 ∨ w.fn.toNat % 4 = 2) :
    tyBits (wTy w) = elementBits w ∧ (elementBits w = 16 ∨ elementBits w = 8) := by
  refine ⟨(tyBits_eq w (by omega)).1, ?_⟩
  obtain h | h := hty <;> simp [elementBits, h]

/-- The elements of two values of double width, those of the first before those of the second. -/
theorem elems_append {n : Nat} (hn : n = 16 ∨ n = 8) (a b : W32) : elems (2 * n) a ++ elems (2 * n) b =
    (List.range (32 / n)).map (fun e => if e < 32 / (2 * n) then bits a.toNat (2 * n * e) (2 * n)
      else bits b.toNat (2 * n * (e - 32 / (2 * n))) (2 * n)) := by
  obtain rfl | rfl := hn <;> rfl

theorem packLanes_eq (w : XWord) (hty : w.fn.toNat % 4 = 1 ∨ w.fn.toNat % 4 = 2) (a b c : W32) :
    (packLanes (wTy w) (wZ w) (wSat w) a b).1 = packed w a b c := by
  obtain ⟨hn, hcases⟩ := packed_width hty
  have h1 : elementBits w = 8 ∨ elementBits w = 16 ∨ elementBits w = 32 := by omega
  have h2 : 2 * elementBits w = 8 ∨ 2 * elementBits w = 16 ∨ 2 * elementBits w = 32 := by omega
  simp only [packLanes, packed, hn, elems_append hcases, List.map_map, Function.comp_def, wZ_eq, wSat_eq, deliverInt_eq h1]
  rw [ofElems_eq]
  refine congrArg (fun xs => BitVec.ofNat 32 (List.sum xs)) (List.map_congr_left fun e _ => ?_)
  rw [Nat.mod_eq_of_lt (inBits_lt ..), intVal_eq h2]
  split <;> exact bits_lt ..

theorem unpackLanes_eq (w : XWord) (hty : w.fn.toNat % 4 = 1 ∨ w.fn.toNat % 4 = 2) (a b c : W32) :
    unpackLanes (wTy w) (bit w.fn.toNat 3) (wZ w) a = unpacked w a b c := by
  obtain ⟨hn, hcases⟩ := packed_width hty
  have h1 : elementBits w = 8 ∨ elementBits w = 16 ∨ elementBits w = 32 := by omega
  have hpos : (0 : Int) < 2 ^ (2 * elementBits w) := by positivity
  simp only [unpackLanes, unpacked, hn, wZ_eq, bit_toNat, ofInt_eq]
  rw [ofElems_eq]
  refine congrArg (fun xs => BitVec.ofNat 32 (List.sum xs)) (List.map_congr_left fun e _ => ?_)
  rw [intVal_eq h1 _ (bits_lt ..), Nat.mod_eq_of_lt]
  zify
  rw [Int.toNat_of_nonneg (Int.emod_nonneg _ hpos.ne')]
  exact Int.emod_lt_of_pos _ hpos

theorem vpack_within (w : XWord) (width : Nat) :
    (laneRule .src .unused ((w.fn.toNat % 4 = 1 || w.fn.toNat % 4 = 2) && w.fn.toNat < 8)
    (w.m6.toNat &&& 55 == 0) (w.imm = 0)).Within (checkedForm 0x44 width w) := by
  refine Form.within_of rfl (fun hfn => ?_) (Bool.and_true _).trans
  obtain ⟨hfn, hm6⟩ := Bool.and_eq_true_iff.1 hfn
  exact Bool.and_eq_true_iff.2 ⟨hfn, m6Within_of_mask (beq_iff_eq.1 hm6) rfl⟩

theorem vunpk_within (w : XWord) (width : Nat) :
    (laneRule .unused .unused ((w.fn.toNat % 4 = 1 || w.fn.toNat % 4 = 2) && w.fn.toNat < 16) (w.m6 = 0)
    (w.imm = 0)).Within (checkedForm 0x45 width w) := by
  refine Form.within_of rfl (fun hfn => ?_) (Bool.and_true _).trans
  obtain ⟨hfn, hm6⟩ := Bool.and_eq_true_iff.1 hfn
  exact Bool.and_eq_true_iff.2 ⟨hfn, m6Within_of_zero (of_decide_eq_true hm6) ..⟩

/-- Settles O6: each instruction by its meaning and its form, what it delivers by the laws of its result. -/
theorem laneBitsAndMoves : Obligations.LaneBitsAndMoves := by
  refine ⟨vsel_gives, laneS_of (f := fun _ => plain (fun a _ _ => a)) (fun _ => {}) laneS_mov_within fun _ _ _ _ _ => rfl, vmovSlForm_gives,
    vmovXForm_gives, vfsh_gives, vprm_gives,
    laneX_of (f := fun _ => plain (fun a _ _ => BitVec.ofNat 32 (popCount 32 a.toNat))) (fun _ => {}) (fun _ _ => unary_within)
      fun _ _ a _ _ => congrArg (BitVec.ofNat 32) (popCount_toNat a 32),
    laneX_of (f := fun _ => plain (fun a _ _ => BitVec.ofNat 32 (clz 32 a.toNat))) (fun _ => {}) (fun _ _ => unary_within)
      fun _ _ a _ _ => (congrArg (BitVec.ofNat 32) (clz_toNat a)).trans (apply_ite (BitVec.ofNat 32) ..),
    laneX_of (f := fun _ => plain (fun a _ _ => BitVec.ofNat 32 (ctz 32 a.toNat))) (fun _ => {}) (fun _ _ => unary_within)
      fun _ _ a _ _ => congrArg (BitVec.ofNat 32) (ctz_toNat a 32),
    laneX_of (f := fun _ => plain (fun a _ _ => BitVec.ofNat 32 (brev 32 a.toNat))) (fun _ => {}) (fun _ _ => unary_within)
      fun _ _ a _ _ => brev_toNat a,
    laneX_of (f := fun w => plain (fun a b _ => laneExtract (bit w.fn.toNat 0) a b)) (fun _ => {}) bfx_within fun w hfn a b _ => ?bfx,
    laneX_of (f := fun _ => plain (fun a b c => laneInsert a b c)) (fun _ => {}) bfi_within fun _ _ => laneInsert_eq,
    laneX_of (f := fun w a b c => requantise (bits w.fn.toNat 0 2) (wZ w) (rmode (bits w.m6.toNat 0 3)) (bits b.toNat 0 5) a c)
      (fun _ => {}) vrsh_within fun w hfn => requantise_eq w ?vrsh,
    laneX_of (f := fun w a b _ => packLanes (wTy w) (wZ w) (wSat w) a b) (fun _ => {}) vpack_within fun w hfn => packLanes_eq w ?vpack,
    laneX_of (f := fun w => plain (fun a _ _ => unpackLanes (wTy w) (bit w.fn.toNat 3) (wZ w) a)) (fun _ => {}) vunpk_within
      fun w hfn => unpackLanes_eq w ?vunpk⟩
  case bfx =>
    simp only [laneRule, opForm, Bool.and_eq_true, decide_eq_true_eq] at hfn
    simp only [plain, laneExtract_eq, bfx_signed w.fn hfn.1.1 hfn.1.2, decide_eq_true_eq]
  all_goals
    simp only [laneRule, opForm, Bool.and_eq_true, Bool.or_eq_true, decide_eq_true_eq] at hfn
  case vrsh => exact hfn.2
  case vpack => exact hfn.1.1
  case vunpk => exact hfn.1.1

end Sys2Proof.Machine
end

section
/-!
PROOF. Predicates and reductions (O7, O8) fail: the statements take every state, and so a sub-bundle that lists a slice twice, of which a pass
executes each lane twice. plog then reads in a lane's second turn what its first has written, and vred counts the lane once, not twice.
-/

namespace Sys2Proof.Machine

variable {s : State} {x : Ctx}

/-! ## What a pass of plog and one of vred make of their bundle (R187, R193) -/

/-- A bundle after a pass of plog: each turn of a lane reads the lane's predicates as the turns before have left them. -/
def Bundle.plogged (b : Bundle) (w : XWord) (ls : List Nat) : Bundle :=
  ls.foldl (fun b l => b.modLane l (fun y => y.writeP w.d9.toNat
    (bit (bits w.fn.toNat 0 4) (2 * ofBool (y.readP w.a9.toNat) + ofBool (y.readP w.b9.toNat))))) b

theorem execPlog_passes (w : XWord) (h : s.Issues x) (hw : s.watching = false) (hf : laneFieldCheck x.g.kernel (.plog w) = none)
    (hl : x.latchCheck x.c.plane (.plog w) = none) (hd : x.inTime) :
    ∃ t, exec (.plog w) s = .next t ∧ t.uncounted = s.uncounted.modBundle x.c.gid x.c.bundle (fun b =>
      x.afterPass s 12 (b.plogged w (x.lanesIn x.c.plane (w.pred.toNat, w.pn == 1)))) := by
  change ∃ t, execPlog w s = .next t ∧ _
  unfold execPlog
  exact runLane_passes (f := fun ls b => b.plogged w ls) h hw hf hl hd fun _ _ _ _ => rfl

/-- What vred gives: the combination of A over the lanes of the bundle that participate, each of them once. -/
def Ctx.reduced (x : Ctx) (w : XWord) (ls : List Nat) : W32 :=
  (reduceLanes (bits w.fn.toNat 0 4) (wSat w) (wMods w)
    ((List.range x.b.lanes.length).map (fun l => if ls.contains l then some (x.oldA w l) else none))).1

theorem execVred_passes (w : XWord) (h : s.Issues x) (hw : s.watching = false) (hf : laneFieldCheck x.g.kernel (.vred w) = none)
    (hl : x.latchCheck x.c.plane (.vred w) = none) (hd : x.inTime) :
    ∃ t, exec (.vred w) s = .next t ∧ t.uncounted = s.uncounted.modBundle x.c.gid x.c.bundle (fun b =>
      let ls := x.lanesIn x.c.plane (w.pred.toNat, w.pn == 1)
      x.afterPass s 12 (b.eachLane ls (fun l y => y.deliver w (x.ofLane 0 l (fun _ => x.reduced w ls))))) := by
  change ∃ t, execVred w s = .next t ∧ _
  unfold execVred
  exact runLane_passes (f := fun ls b => b.eachLane ls (fun l y => y.deliver w (x.ofLane 0 l (fun _ => x.reduced w ls)))) h hw hf hl hd
    fun _ ht _ hls => State.deliverPass_eq ht hls

/-! ## A sub-bundle that lists a slice twice -/

/-- The gang of the placed launch as its sub-bundle would issue when it listed its first slice twice, and no other. -/
def doubledGang : Gang :=
  { State.reset.startGang ⟨probeRecord, 0, probeKernel, none, [0], []⟩ 0 0 0 0 0 with
    bundles := [(Bundle.start probeKernel 0).modSub 0 fun q => { q with slices := [0, 0] }] }

/-- A module in which that sub-bundle issues. -/
def doubled : State := { State.reset with gangs := [doubledGang], cur := some ⟨0, 0, 0, 0, [], true, [], [], []⟩ }

/-- The issuing sub-bundle. -/
def doubledCtx : Ctx :=
  ⟨⟨0, 0, 0, 0, [], true, [], [], []⟩, doubledGang, (Bundle.start probeKernel 0).modSub 0 fun q => { q with slices := [0, 0] },
    { Sub.free with slices := [0, 0] }⟩

theorem doubled_issues : doubled.Issues doubledCtx := ⟨by decide, rfl, rfl, rfl⟩

/-- Register v0 and predicate p1 of the first lane, of which doubled executes each pass twice. -/
def State.firstLane (s : State) : Option (W32 × Bool) :=
  (((s.gang 0).bind (fun g => g.bundles[0]?)).bind (fun b => b.lanes[0]?)).map (fun y => (y.read 0 0, y.readP 1))

/-- A plog that negates p1. -/
def negateP1 : XWord := ⟨0, 0, 0, 1, 1, 0, 268, 2, 0, 0⟩

/-- Refutes O7: in doubled a plog negates p1 of the first lane twice, and so leaves it, where the clause on plog has it negated. -/
theorem not_lanePredicates : ¬ Obligations.LanePredicates := by
  unfold Obligations.LanePredicates
  rintro ⟨-, hplog, -⟩
  obtain ⟨t, hrun, ht⟩ := hplog negateP1 doubled doubledCtx doubled_issues (by decide) rfl (by decide) (by decide)
  obtain ⟨u, hrun', hu⟩ := execPlog_passes negateP1 doubled_issues (by decide) (by decide) (by decide) rfl
  obtain rfl := Host.Outcome.next.inj (hrun.symm.trans hrun')
  exact absurd (congrArg State.firstLane (ht.symm.trans hu)) (by decide)

/-- A vred that adds up the lanes' indices into v0. -/
def sumIndices : XWord := ⟨0, 0, 0, 0, 269, 268, 268, 0, 0, 0⟩

/-- Refutes O8: in doubled a vred of the lanes' indices gives 0 + 1 + 2 + 3, where the clause on vred counts each of them twice. -/
theorem not_acrossLanes : ¬ Obligations.AcrossLanes := by
  unfold Obligations.AcrossLanes
  rintro ⟨-, hvred, -⟩
  obtain ⟨t, hrun, ht⟩ := hvred sumIndices doubled doubledCtx doubled_issues (by decide) rfl (by decide) (by decide)
  obtain ⟨u, hrun', hu⟩ := execVred_passes sumIndices doubled_issues (by decide) (by decide) (by decide) rfl
  obtain rfl := Host.Outcome.next.inj (hrun.symm.trans hrun')
  exact absurd (congrArg State.firstLane (ht.symm.trans hu)) (by decide)

end Sys2Proof.Machine
end

section
/-!
PROOF. The float arithmetic (O9): which modifiers a word may hold, and what a pass delivers, element by element.
-/

namespace Sys2Proof.Machine

/-! ## The format and the modifiers of a word (R32, R196) -/

theorem ftFmt_eq (w : XWord) : ftFmt (fFt w) = floatFormat w := by
  have hft : fFt w = w.fn.toNat % 4 := rfl
  simp only [ftFmt, hft, floatFormat, beq_iff_eq]

theorem fMods_eq (w : XWord) : fMods w = ⟨roundingMode w, saturates w, flushes w⟩ := by
  have hmode : rmode (bits w.m6.toNat 0 3) = roundingMode w := by
    have hbits : bits w.m6.toNat 0 3 = w.m6.toNat % 8 := rfl
    simp only [rmode, hbits, roundingMode, beq_iff_eq]
  simp only [fMods, floatMods, hmode, bit_toNat, saturates, flushes]

/-- The checks of a float word are those of R44 where they let every M6 pass that its rule allows. -/
theorem floatRule_within {w : XWord} {op width mask : Nat} {b c : Kind} {fnOk fnOk' m6Ok' : Bool} {immOk : XWord → Bool}
    (hop : fnOk = true → checkedForm op width w =
      { d := .dst, a := .src, b := b, c := c, fnOk := fnOk' && m6Ok', resOk := immOk w && true })
    (hfn : w.fn.toNat % 4 ≠ 3 → fnOk = true → fnOk' = true) (hm : m6Within w mask 3 = true → m6Ok' = true) :
    (floatRule b c fnOk mask immOk w).Within (checkedForm op width w) := by
  intro hrule hres
  simp only [floatRule, laneRule, opForm, Bool.and_eq_true, decide_eq_true_eq] at hrule
  obtain ⟨⟨hft, hok⟩, hm6⟩ := hrule
  have hwithin : m6Within w mask 3 = true := by
    simpa only [m6Within, Bool.and_eq_true, Nat.lt_succ_iff] using hm6
  rw [hop hok]
  exact ⟨rfl, Bool.and_eq_true_iff.2 ⟨hfn hft hok, hm hwithin⟩, (Bool.and_true _).trans hres⟩

/-- A float type without OPX passes (R196). -/
theorem ftOk_of_lt {w : XWord} (hft : w.fn.toNat % 4 ≠ 3) (h : decide (w.fn.toNat < 4) = true) : ftOk w.fn.toNat 0 = true :=
  tyOk_of_lt 0 (by decide) w.fn hft (of_decide_eq_true h)

theorem Form.Within.trans {f g h : Form} (hfg : f.Within g) (hgh : g.Within h) : f.Within h := by
  intro hfn hres
  obtain ⟨heq, hfn', hres'⟩ := hfg hfn hres
  obtain ⟨heq', hok⟩ := hgh hfn' hres'
  exact ⟨heq.trans heq', hok⟩

/-- What format S fixes passes a float rule without OPX (R30). -/
theorem laneS_within_floatRule {b c : Kind} {usesB : Bool} {w : SWord} {mask : Nat} {immOk : XWord → Bool}
    (himm : ∀ w : XWord, w.imm = 0 → immOk w = true) :
    (opForm .dst .src b c true true).Within (floatRule b c ((laneS usesB w).fn.toNat < 4) mask immOk (laneS usesB w)) :=
  Form.within_of rfl (fun _ => by simp [floatRule, laneRule, opForm, laneS]) fun _ => himm _ rfl

theorem immIsB_of_zero {w : XWord} (h : w.imm = 0) : immIsB w = true := by
  simp [immIsB, h]

/-- The two formats of a float operation of one or two operands. -/
theorem laneBoth_float {i1 : SWord → Instr} {i2 : XWord → Instr} {op mask : Nat} {usesB : Bool} {immOk : XWord → Bool}
    {f : XWord → W32 → W32 → W32 → LaneResult} {g : XWord → W32 → W32 → W32 → W32}
    (h1 : ∀ w, ComputesLane (i1 w) op 4 (laneS usesB w) (f (laneS usesB w))) (h2 : ∀ w, ComputesLane (i2 w) op 12 w (f w))
    (himm : ∀ w : XWord, w.imm = 0 → immOk w = true)
    (hform : ∀ w width, (floatRule (if usesB then .src else .unused) .unused (w.fn.toNat < 4) mask immOk w).Within (checkedForm op width w))
    (hv : ∀ w a b c, (f w a b c).1 = g w a b c) :
    LaneBoth i1 i2 usesB (fun w => floatRule (if usesB then .src else .unused) .unused (w.fn.toNat < 4) mask immOk w) g :=
  ⟨laneS_of h1 (fun w width => (laneS_within_floatRule himm).trans (hform (laneS usesB w) width)) fun w _ => hv w,
    laneX_of h2 hform fun w _ => hv w⟩

/-! ## Results by elements (R58, R199, R200) -/

theorem deliverFloat_fst (t : Fmt) (mode : RMode) (sat ftz : Bool) (r : FVal × Bool) :
    (deliverFloat t mode sat ftz r).1 = if r.2 then canonNaN t else (roundTo t mode sat ftz r.1).1 := by
  rw [deliverFloat]
  split <;> rfl

theorem floatArith_eq (op : RMode → FVal → FVal → FVal → FVal × Bool) (w : XWord) (a b c : W32) :
    (floatArith op (fFt w) (fMods w) a b c).1 = floatByElement op w a b c := by
  simp only [floatArith, ftFmt_eq, fMods_eq]
  exact mapElems_eq (fun _ _ _ _ _ _ => by rw [deliverFloat_fst]) a b c

theorem wFmin_eq {w : XWord} {k : Nat} (h : w.fn.toNat / 4 = k) (a b c : W32) : (wFmin w a b c).1 =
    byElement (fmtWidth (floatFormat w)) (fun a b _ => fminmax (floatFormat w) (flushes w) (k % 2 == 1) (2 ≤ k) a b) a b c := by
  have hopx : bits w.fn.toNat 2 6 = k := by
    have hlt := w.fn.isLt
    rw [bits_eq_div]
    omega
  simp only [wFmin, floatMinMax, ftFmt_eq, fMods_eq, hopx]
  exact mapElems_two (g := fminmax (floatFormat w) (flushes w) (k % 2 == 1) (2 ≤ k)) (fun _ _ _ _ _ => rfl) a b 0 c

theorem floatClass_eq (w : XWord) (a b c : W32) : (floatClass (fFt w) a).1 =
    byElement (fmtWidth (floatFormat w)) (fun a _ _ => fclassMask (floatFormat w) a) a b c := by
  simp only [floatClass, ftFmt_eq]
  exact mapElems_one (g := fclassMask (floatFormat w)) (fun _ _ _ _ => rfl) a 0 0 b c

theorem floatRound_eq (w : XWord) (a b c : W32) : (floatRound (fFt w) (fMods w) a).1 =
    byElement (fmtWidth (floatFormat w)) (fun a _ _ => (frndBits (floatFormat w) (roundingMode w) (flushes w) a).1) a b c := by
  simp only [floatRound, ftFmt_eq, fMods_eq]
  exact mapElems_one (g := fun x => (frndBits (floatFormat w) (roundingMode w) (flushes w) x).1) (fun _ _ _ _ => rfl) a 0 0 b c

/-! ## The sign instructions (R201) -/

theorem xor_two_pow_mod (x s : Nat) : (x ^^^ 2 ^ s) % 2 ^ (s + 1) = (x + 2 ^ s) % 2 ^ (s + 1) := by
  refine Nat.eq_of_testBit_eq fun i => ?_
  rw [Nat.testBit_mod_two_pow, Nat.testBit_mod_two_pow, Nat.testBit_xor, Nat.testBit_two_pow, Nat.add_comm x]
  obtain hi | rfl | hi := Nat.lt_trichotomy i s
  · simp [Nat.testBit_two_pow_add_gt hi, hi.ne']
  · simp [Nat.testBit_two_pow_add_eq]
  · simp [Nat.not_lt.2 hi]

/-- The top bit of a number of s + 1 bits is what its lower bits leave. -/
theorem ofBool_bit_top {y s : Nat} (hy : y < 2 ^ (s + 1)) : ofBool (bit y s) = y / 2 ^ s := by
  have hlt : y / 2 ^ s < 2 := by rwa [Nat.div_lt_iff_lt_mul (by positivity), ← Nat.pow_succ']
  rw [bit, Nat.shiftRight_eq_div_pow, ofBool]
  interval_cases y / 2 ^ s <;> rfl

theorem fmtWidth_pred (t : Fmt) : fmtWidth t - 1 + 1 = fmtWidth t := by
  rw [fmtWidth]
  omega

theorem wFneg_eq (w : XWord) (a b c : W32) : (wFsign 0 w a b c).1 =
    byElement (fmtWidth (floatFormat w)) (fun a _ _ => a + 2 ^ (fmtWidth (floatFormat w) - 1)) a b c := by
  simp only [wFsign, floatSign, ftFmt_eq]
  refine mapElems_one (g := fun x => x + 2 ^ (fmtWidth (floatFormat w) - 1)) (fun x _ _ _ => ?_) a b 0 b c
  have hxor := xor_two_pow_mod x (fmtWidth (floatFormat w) - 1)
  rwa [fmtWidth_pred] at hxor

theorem wFabs_eq (w : XWord) (a b c : W32) : (wFsign 1 w a b c).1 =
    byElement (fmtWidth (floatFormat w)) (fun a _ _ => a % 2 ^ (fmtWidth (floatFormat w) - 1)) a b c := by
  simp only [wFsign, floatSign, ftFmt_eq]
  exact mapElems_one (g := fun x => x % 2 ^ (fmtWidth (floatFormat w) - 1)) (fun _ _ _ _ => rfl) a b 0 b c

theorem wFcpys_eq (w : XWord) (a b c : W32) : (wFsign 2 w a b c).1 =
    byElement (fmtWidth (floatFormat w)) (fun a b _ =>
      a % 2 ^ (fmtWidth (floatFormat w) - 1) + b / 2 ^ (fmtWidth (floatFormat w) - 1) * 2 ^ (fmtWidth (floatFormat w) - 1)) a b c := by
  simp only [wFsign, floatSign, ftFmt_eq]
  refine mapElems_two (fun x y _ _ hy => ?_) a b 0 c
  rw [← fmtWidth_pred] at hy
  simp [ofBool_bit_top hy, Nat.shiftLeft_eq]

/-- The instructions of the fneg family with one operand (R201). -/
theorem fsign_within {w : XWord} {k : Nat} (hk : k < 2) (width : Nat) :
    (floatRule .unused .unused (w.fn.toNat / 4 = k) 0 (fun w => w.imm = 0) w).Within (checkedForm 0x55 width w) := by
  refine floatRule_within (fnOk' := ftOk w.fn.toNat 1) (m6Ok' := m6Within w 0 0) (fun hfn => ?_) (fun hft hfn => ?_) id
  all_goals have hopx := of_decide_eq_true hfn
  · have hne : w.fn.toNat / 4 ≠ 2 := by omega
    simp [checkedForm, laneForm, floatForm, hne, form2, noImm]
  · exact tyOk_of_lt 1 (by decide) w.fn hft (by omega)

theorem fcpys_ftOk : ∀ fn : BitVec 8, fn.toNat % 4 ≠ 3 → fn.toNat / 4 = 2 → ftOk fn.toNat 2 = true := by decide

theorem fcpys_within (w : XWord) (width : Nat) :
    (floatRule .src .unused (w.fn.toNat / 4 = 2) 0 immIsB w).Within (checkedForm 0x55 width w) := by
  refine floatRule_within (fnOk' := ftOk w.fn.toNat 2) (m6Ok' := m6Within w 0 0) (fun hfn => ?_) (fun hft hfn => ?_) id
  all_goals have hopx := of_decide_eq_true hfn
  · simp [checkedForm, laneForm, floatForm, hopx, form2, immB, immIsB]
  · exact fcpys_ftOk w.fn hft hopx

/-- The fmin family, of which OPX chooses the maximum and the number forms (R200). -/
theorem laneX_fmin {i : XWord → Instr} {k : Nat} (h : ∀ w, ComputesLane (i w) 0x54 12 w (wFmin w)) (hk : k < 4) :
    LaneX i (fun w => floatRule .src .unused (w.fn.toNat / 4 = k) 16 immIsB w)
      (fun w => byElement (fmtWidth (floatFormat w)) fun a b _ => fminmax (floatFormat w) (flushes w) (k % 2 == 1) (2 ≤ k) a b) := by
  refine laneX_of h (fun w _ => floatRule_within (fun _ => rfl) (fun hft hfn => ?_) id) fun w hfn => wFmin_eq ?_
  · have hopx := of_decide_eq_true hfn
    exact tyOk_of_lt 3 (by decide) w.fn hft (by omega)
  · simp only [floatRule, laneRule, opForm, Bool.and_eq_true, decide_eq_true_eq] at hfn
    exact hfn.1.2

/-! ## Fused multiply-add (R199) -/

theorem ffma_within (w : XWord) (width : Nat) :
    (floatRule .src .src (w.fn.toNat < 4) 31 (fun w => w.imm = 0) w).Within (checkedForm 0x53 width w) :=
  floatRule_within (fun _ => rfl) ftOk_of_lt id

/-- The C field of format S, which holds 268, passes as a source (R30). -/
theorem laneS_check_source {v atlas : Nat} {usesB : Bool} {w : SWord} {b : Kind}
    (h : (opForm .dst .src b .unused true true).check v atlas (laneS usesB w) = none) :
    (opForm .dst .src b .src true true).check v atlas (laneS usesB w) = none := h

theorem ffmaSForm_gives : LaneS .ffmaSForm true (floatByElement ffmaExact) := fun w => by
  refine LaneGives_of_runCompute (w' := laneS true w) (f := wFfma (laneS true w)) (fun _ => rfl) ⟨rfl, rfl⟩ rfl (fun x hx => ?_)
    fun _ _ l y _ => ?_
  · have hform := (laneS_within_floatRule fun _ => decide_eq_true).trans (ffma_within (laneS true w) x.g.kernel.width)
    exact hform.check (laneS_check_source hx)
  · rw [argB_no_imm rfl]
    exact floatArith_eq ffmaExact ..

/-! ## Scaling and dot products (R210, R211) -/

/-- The exponent that fscl adds: the immediate and a 32-bit operand are taken whole, a 16-bit element of B by itself. -/
theorem scaleExponent_eq (w : XWord) (b : W32) (y : Nat) :
    (if decide (w.b9 = 268) || fmtWidth (floatFormat w) == 32 then toSigned 32 b.toNat else toSigned 16 y) =
      if w.b9 = 268 ∨ w.fn.toNat % 4 = 0 then b.toInt else Int.bmod y 65536 := by
  have hwidth : (fmtWidth (floatFormat w) == 32) = decide (w.fn.toNat % 4 = 0) := by
    rw [floatFormat]
    split_ifs with h0 h1 <;> simp only [h0, decide_true, decide_false] <;> rfl
  rw [hwidth, toSigned_32, toSigned_eq_bmod 16 y (by decide)]
  simp

theorem floatScale_eq (w : XWord) (a b : W32) : (floatScale (fFt w) (fMods w) (w.b9 = 268) a b).1 =
    byElement (fmtWidth (floatFormat w)) (fun x y _ =>
      let k : Int := if w.b9 = 268 ∨ w.fn.toNat % 4 = 0 then b.toInt else Int.bmod y 65536
      (roundTo (floatFormat w) (roundingMode w) (saturates w) (flushes w)
        ((readFloat (floatFormat w) (flushes w) x).scale k)).1) a b 0 := by
  simp only [floatScale, ftFmt_eq, fMods_eq, scaleExponent_eq]
  refine mapElems_two (g := fun x y => (roundTo (floatFormat w) (roundingMode w) (saturates w) (flushes w)
    ((readFloat (floatFormat w) (flushes w) x).scale
      (if w.b9 = 268 ∨ w.fn.toNat % 4 = 0 then b.toInt else Int.bmod y 65536))).1) (fun x y _ _ _ => ?_) a b 0 0
  split
  next hzero => rw [hzero]; rfl
  next => rfl

theorem floatDot2_eq (w : XWord) (a b c : W32) : (floatDot2 (fFt w) (fMods w) a b c).1 =
    let rd (x : W32) (i : Nat) := readFloat (floatFormat w) (flushes w) (bits x.toNat (16 * i) 16)
    let r := fdot2Exact (roundingMode w) (rd a 0) (rd b 0) (rd a 1) (rd b 1) (readFloat fp32 (flushes w) c.toNat)
    BitVec.ofNat 32 (if r.2 then canonNaN fp32 else (roundTo fp32 (roundingMode w) (saturates w) (flushes w) r.1).1) := by
  simp only [floatDot2, ftFmt_eq, fMods_eq, deliverFloat_fst]

theorem fdot2_within (w : XWord) (width : Nat) :
    (floatRule .src .src (w.fn.toNat % 4 ≠ 0 && w.fn.toNat < 4) 31 (fun w => w.imm = 0) w).Within (checkedForm 0x62 width w) := by
  refine floatRule_within (fun _ => rfl) (fun hft hfn => ?_) id
  simp only [Bool.and_eq_true, decide_eq_true_eq] at hfn
  exact Bool.and_eq_true_iff.2 ⟨ftOk_of_lt hft (decide_eq_true hfn.2), bne_iff_ne.2 hfn.1⟩

/-- Settles O9: each instruction by its meaning and its form, what it delivers by the laws of its elements. -/
theorem floatArithmetic : Obligations.FloatArithmetic :=
  ⟨laneBoth_float (op := 0x50) (f := wFadd) (fun _ => {}) (fun _ => {}) (fun _ => immIsB_of_zero)
      (fun _ _ => floatRule_within (fun _ => rfl) ftOk_of_lt id) fun w a b _ => floatArith_eq (fun md a b _ => fsumExact md a b) w a b 0,
    laneBoth_float (op := 0x51) (f := wFsub) (fun _ => {}) (fun _ => {}) (fun _ => immIsB_of_zero)
      (fun _ _ => floatRule_within (fun _ => rfl) ftOk_of_lt id) fun w a b _ => floatArith_eq (fun md a b _ => fsumExact md a b.flip) w a b 0,
    laneBoth_float (op := 0x52) (f := wFmul) (fun _ => {}) (fun _ => {}) (fun _ => immIsB_of_zero)
      (fun _ _ => floatRule_within (fun _ => rfl) ftOk_of_lt id) fun w a b _ => floatArith_eq (fun _ a b _ => fmulExact a b) w a b 0,
    ⟨ffmaSForm_gives, laneX_of (f := wFfma) (fun _ => {}) ffma_within fun w _ => floatArith_eq ffmaExact w⟩,
    laneX_fmin (k := 0) (fun _ => {}) (by decide), laneX_fmin (k := 1) (fun _ => {}) (by decide),
    laneX_fmin (k := 2) (fun _ => {}) (by decide), laneX_fmin (k := 3) (fun _ => {}) (by decide),
    laneX_of (f := wFsign 0) (fun _ => {}) (fun _ => fsign_within (by decide)) fun w _ => wFneg_eq w,
    laneX_of (f := wFsign 1) (fun _ => {}) (fun _ => fsign_within (by decide)) fun w _ => wFabs_eq w,
    laneX_of (f := wFsign 2) (fun _ => {}) fcpys_within fun w _ => wFcpys_eq w,
    laneX_of (op := 0x60) (f := fun w a _ _ => floatClass (fFt w) a) (fun _ => {})
      (fun _ _ => floatRule_within (fun _ => rfl) ftOk_of_lt id) fun w _ => floatClass_eq w,
    laneX_of (op := 0x61) (f := fun w a b _ => floatScale (fFt w) (fMods w) (w.b9 = 268) a b) (fun _ => {})
      (fun _ _ => floatRule_within (fun _ => rfl) ftOk_of_lt id) fun w _ a b _ => floatScale_eq w a b,
    laneX_of (f := fun w => floatDot2 (fFt w) (fMods w)) (fun _ => {}) fdot2_within fun w _ => floatDot2_eq w,
    laneX_of (op := 0x63) (f := fun w a _ _ => floatRound (fFt w) (fMods w) a) (fun _ => {})
      (fun _ _ => floatRule_within (fun _ => rfl) ftOk_of_lt id) fun w _ => floatRound_eq w⟩

end Sys2Proof.Machine
end

section
/-!
PROOF. The special functions, the conversions and the block float instructions (O10): what a pass delivers, by the laws of float elements and,
for a conversion to more elements than it has, by the fields of the result.
-/

namespace Sys2Proof.Machine

/-! ## Special functions (R206) -/

theorem wSpecial_eq (major : Nat) (w : XWord) (a b c : W32) : (wSpecial major w a b c).1 = specialByElement major w a b c := by
  simp only [wSpecial, floatSpecial, ftFmt_eq, fMods_eq]
  exact mapElems_one (g := fun x => (specialBits major (floatFormat w) (roundingMode w) (saturates w) (flushes w) x).1)
    (fun _ _ _ _ => rfl) a 0 0 b c

/-- SAT and FTZ without a mode pass where the mode may be 0 alone. -/
theorem m6Within_special {w : XWord} (h : m6Within w 24 3 = true) : m6Within w 31 0 = true := by
  have hall : ∀ m6 : BitVec 6, (m6.toNat &&& (63 - 24)) = 0 → ((m6.toNat &&& (63 - 31)) == 0 && (31 % 8 == 0 || m6.toNat % 8 ≤ 0)) = true := by
    decide
  exact hall w.m6 (beq_iff_eq.1 (Bool.and_eq_true_iff.1 h).1)

/-- A special function in its two formats. -/
theorem laneBoth_special {i1 : SWord → Instr} {i2 : XWord → Instr} {op mask : Nat} {m6Ok : XWord → Bool}
    (h1 : ∀ w, ComputesLane (i1 w) op 4 (laneS false w) (wSpecial op (laneS false w)))
    (h2 : ∀ w, ComputesLane (i2 w) op 12 w (wSpecial op w))
    (hop : ∀ w width, checkedForm op width w = form2 .unused (ftOk w.fn.toNat 0 && m6Ok w) (noImm w && true))
    (hm : ∀ w, m6Within w mask 3 = true → m6Ok w = true) : LaneBoth i1 i2 false (specialForm mask) (specialByElement op) :=
  laneBoth_float h1 h2 (fun _ => decide_eq_true) (fun w width => floatRule_within (fun _ => hop w width) ftOk_of_lt (hm w)) (wSpecial_eq op)

/-! ## A value as its elements (R56) -/

/-- A number is what its elements make of it. -/
theorem sum_elements (x n k : Nat) : ((List.range k).map (fun j => bits x (n * j) n * 2 ^ (n * j))).sum = x % 2 ^ (n * k) := by
  induction k with
  | zero => simp [Nat.mod_one]
  | succ k ih =>
    rw [List.range_succ, List.map_append, List.sum_append, ih, Nat.mul_succ, Nat.pow_add, Nat.mod_mul]
    simp [bits_eq_div, Nat.mul_comm]

theorem ofNat_elements {n : Nat} (hn : n * (32 / n) = 32) (x : Nat) : BitVec.ofNat 32 x =
    BitVec.ofNat 32 ((List.range (32 / n)).map (fun j => bits x (n * j) n * 2 ^ (n * j))).sum := by
  rw [sum_elements, hn]
  exact BitVec.eq_of_toNat_eq (by simp)

/-- Setting one element changes it alone. -/
theorem bits_setBits (x n i v j : Nat) : bits (setBits x (n * i) n v) (n * j) n = if j = i then v % 2 ^ n else bits x (n * j) n := by
  refine Nat.eq_of_testBit_eq fun t => ?_
  rw [apply_ite (Nat.testBit · t)]
  simp only [bits_eq_div, Nat.testBit_mod_two_pow, Nat.testBit_div_two_pow, testBit_setBits]
  by_cases ht : t < n
  · obtain hji | rfl | hij := Nat.lt_trichotomy j i
    · have hle : n * (j + 1) ≤ n * i := Nat.mul_le_mul_left n hji
      rw [Nat.mul_succ] at hle
      rw [if_neg (by omega), if_neg hji.ne]
    · rw [if_pos (by omega), if_pos rfl, Nat.add_sub_cancel]
    · have hle : n * (i + 1) ≤ n * j := Nat.mul_le_mul_left n hij
      rw [Nat.mul_succ] at hle
      rw [if_neg (by omega), if_neg hij.ne']
  · simp [ht]

/-- Setting k elements from one on changes them alone. -/
theorem bits_foldl_setBits (x n base k : Nat) (v : Nat → Nat) (j : Nat) :
    bits ((List.range k).foldl (fun acc i => setBits acc (n * (base + i)) n (v i)) x) (n * j) n =
      if base ≤ j ∧ j < base + k then v (j - base) % 2 ^ n else bits x (n * j) n := by
  induction k with
  | zero => rw [if_neg (by omega)]; rfl
  | succ k ih =>
    rw [List.range_succ, List.foldl_append, List.foldl_cons, List.foldl_nil, bits_setBits, ih]
    by_cases hj : j = base + k
    · rw [if_pos hj, if_pos (by omega), hj, Nat.add_sub_cancel_left]
    · rw [if_neg hj]
      exact if_congr (by omega) rfl rfl

/-! ## Conversions (R203–R205) -/

theorem cvtFmt_of_ge {code : Nat} (h : 11 ≤ code) : cvtFmt code = none := by
  have hne (k : Nat) (hk : k < 11) : (code == k) = false := beq_false_of_ne (by omega)
  simp only [cvtFmt, hne, Nat.reduceLT]
  rfl

/-- The elements of a format fill a lane value. -/
theorem cvtWidth_fills {code : Nat} {f : CvtFmt} (h : cvtFmt code = some f) : cvtWidth f * (32 / cvtWidth f) = 32 := by
  have hall : ∀ k < 11, ∀ g ∈ cvtFmt k, cvtWidth g * (32 / cvtWidth g) = 32 := by decide
  obtain hlt | hge := Nat.lt_or_ge code 11
  · exact hall code hlt f h
  · rw [cvtFmt_of_ge hge] at h
    cases h

/-- The two sides of a conversion: all elements of the destination, or those that part selects. -/
theorem convertLane_eq {src dst : CvtFmt} (hdst : cvtWidth dst * (32 / cvtWidth dst) = 32) (m : FloatMods) (part : Nat) (a b : W32) :
    (convertLane src dst m part a b).1 = BitVec.ofNat 32 ((List.range (32 / cvtWidth dst)).map (fun j =>
      convertedElement src dst m part a b j % 2 ^ cvtWidth dst * 2 ^ (cvtWidth dst * j))).sum := by
  simp only [convertLane, convertedElement]
  by_cases hnarrow : 32 / cvtWidth dst ≤ 32 / cvtWidth src
  · simp only [hnarrow, if_true, List.map_map, Function.comp_def]
    exact ofElems_eq _
  · simp only [ge_iff_le, hnarrow, if_false, ← List.map_prod_left_eq_zip, List.foldl_map]
    rw [ofNat_elements hdst]
    refine congrArg (fun xs => BitVec.ofNat 32 (List.sum xs)) (List.map_congr_left fun j _ => ?_)
    rw [bits_foldl_setBits, apply_ite (· % _), Nat.mod_eq_of_lt (bits_lt ..)]

/-- fcvt of a word (R203–R205). -/
def wFcvt (w : XWord) (a b _c : W32) : LaneResult :=
  match cvtFmt (bits w.fn.toNat 0 4), cvtFmt (bits w.fn.toNat 4 4) with
  | some src, some dst => convertLane src dst (fMods w) (bits w.imm.toNat 0 2) a b
  | _, _ => (0, 0)

theorem exec_fcvt (w : XWord) (s : State) : exec (.fcvt w) s = runCompute (.fcvt w) { w with imm := 0 } 12 (wFcvt w) s := rfl

theorem wFcvt_eq (w : XWord) (a b c : W32) : (wFcvt w a b c).1 = converted w a b 0 := by
  have hsrc : bits w.fn.toNat 0 4 = w.fn.toNat % 16 := rfl
  have hdst : bits w.fn.toNat 4 4 = w.fn.toNat / 16 := by
    have hlt := w.fn.isLt
    rw [bits_eq_div]
    omega
  have hpart : bits w.imm.toNat 0 2 = w.imm.toNat % 4 := rfl
  simp only [wFcvt, converted, hsrc, hdst, hpart, fMods_eq]
  cases cvtFmt (w.fn.toNat % 16) with
  | none => rfl
  | some src =>
    cases hd : cvtFmt (w.fn.toNat / 16) with
    | none => rfl
    | some dst => exact convertLane_eq (cvtWidth_fills hd) ..

theorem fcvt_gives (w : XWord) : LaneGives (.fcvt w) 12 (fun _ =>
      laneRule .src .unused (cvtLegal w.fn.toNat w.m6.toNat (w.imm.toNat % 4)) true (w.imm.toNat < 4)) w
    (fun _ _ l y => converted w (y.read l w.a9.toNat) (y.read l w.b9.toNat) 0) := by
  refine LaneGives_of_runCompute (w' := { w with imm := 0 }) (exec_fcvt w) ⟨rfl, rfl⟩ rfl (fun x hx => ?_) fun _ _ l y _ => ?_
  · have hform : (laneRule .src .unused (cvtLegal w.fn.toNat w.m6.toNat (w.imm.toNat % 4)) true (w.imm.toNat < 4)).Within
        (checkedForm 0x57 x.g.kernel.width w) := Form.within_of rfl (Bool.and_true _).symm.trans (Bool.and_true _).trans
    exact hform.check hx
  · rw [argB_no_imm rfl, wFcvt_eq]
    rfl

/-! ## Block floating point (R62, R214, R215) -/

theorem bfpDequant_eq {w : XWord} (hfn : w.fn.toNat / 4 < 7) (a : W32) : (bfpDequant (bits w.fn.toNat 2 3 + 2) (fMods w) a).1 =
    let m := w.fn.toNat / 4 + 2
    BitVec.ofNat 32 (roundTo fp32 (roundingMode w) (saturates w) false
      (bfpVal m (a.toNat / 256 % 256) (a.toNat / 65536 % 2) (Int.bmod (a.toNat % 2 ^ m) (2 ^ m)))).1 := by
  have hm : bits w.fn.toNat 2 3 = w.fn.toNat / 4 := by
    rw [bits_eq_div]
    omega
  simp only [bfpDequant, hm, fMods_eq, toSigned_eq_bmod _ _ (Nat.succ_pos _), bits_eq_div]
  simp

/-- The FN values of bfpd, m - 2 in bits 2 to 4, as R44 checks them. -/
theorem bfpd_fnOk : ∀ fn : BitVec 8, fn.toNat % 4 = 0 → fn.toNat / 4 < 7 →
    (fn.toNat % 4 == 0 && fn.toNat / 4 % 8 < 7 && fn.toNat < 32) = true := by decide

theorem bfpd_within (w : XWord) (width : Nat) : (laneRule .unused .unused (w.fn.toNat % 4 = 0 && w.fn.toNat / 4 < 7)
    (w.m6.toNat &&& 48 == 0 && w.m6.toNat % 8 < 4) (w.imm = 0)).Within (checkedForm 0x65 width w) := by
  refine Form.within_of rfl (fun hfn => ?_) (Bool.and_true _).trans
  simp only [laneRule, opForm, Bool.and_eq_true, decide_eq_true_eq, beq_iff_eq] at hfn
  obtain ⟨⟨hft, hm⟩, hmask, hmode⟩ := hfn
  have hm6 : m6Within w 15 3 = true := by
    simp [m6Within, hmask, Nat.le_of_lt_succ hmode]
  exact Bool.and_eq_true_iff.2 ⟨bfpd_fnOk w.fn hft hm, hm6⟩

theorem bfpq_within (w : XWord) (width : Nat) :
    (laneRule .unused .unused (w.fn.toNat % 4 = 0 && w.fn.toNat / 4 % 8 < 7 && w.fn.toNat < 64) (w.m6 = 0) (w.imm = 0)).Within
      (checkedForm 0x64 width w) := by
  refine Form.within_of rfl (fun hfn => ?_) (Bool.and_true _).trans
  obtain ⟨hfn, hm6⟩ := Bool.and_eq_true_iff.1 hfn
  exact Bool.and_eq_true_iff.2 ⟨hfn, m6Within_of_zero (of_decide_eq_true hm6) ..⟩

theorem bfpElement_eq (q : BfpGroup × List (Bool × Bool)) (i : Nat) (own : FVal) : (bfpElement q i own).1 =
    BitVec.ofNat 32 ((q.1.m.getD i 0 % 256).toNat + q.1.e * 256 + q.1.mu.getD (i / 2) 0 * 65536) := by
  simp only [bfpElement, ofInt, Nat.shiftLeft_eq]
  rfl

/-- What bfpq gives a lane: its element of the group's block, beside the block's exponent and the element's micro-exponent (R214). -/
def Ctx.blockWord (x : Ctx) (w : XWord) (l : Nat) : W32 :=
  let q := (quantise (w.fn.toNat / 4 % 8 + 2) ((List.range 16).map (fun i => x.contribution w (l / 16 * 16 + i)))).1
  BitVec.ofNat 32 ((q.m.getD (l % 16) 0 % 256).toNat + q.e * 256 + q.mu.getD (l % 16 / 2) 0 * 65536)

theorem bfpq_gives (w : XWord) :
    LaneGives (.bfpq w) 12 (fun _ => laneRule .unused .unused (w.fn.toNat % 4 = 0 && w.fn.toNat / 4 % 8 < 7 && w.fn.toNat < 64)
      (w.m6 = 0) (w.imm = 0)) w (fun x _ l _ => x.blockWord w l) := by
  intro s x hs hw hd hx hl
  have hm : bits w.fn.toNat 2 3 = w.fn.toNat / 4 % 8 := bits_eq_div ..
  change ∃ t, execBfpq w s = .next t ∧ _
  unfold execBfpq
  refine runLane_passes (f := fun ls b => b.eachLane ls fun l y => y.deliver w (x.ofLane 0 l fun _ => x.blockWord w l)) hs hw
    ((bfpq_within w x.g.kernel.width).check hx) hl hd fun t ht ls hls => ?_
  rw [State.deliverPass_eq ht hls]
  simp only [bfpElement_eq, hm, Nat.mul_comm 16, Ctx.blockWord]

/-- Settles O10: each instruction by its meaning and its form, what it delivers by the laws of its result. -/
theorem floatSpecialAndConversions : Obligations.FloatSpecialAndConversions := by
  refine ⟨
    laneBoth_special (fun _ => {}) (fun _ => {}) (fun _ _ => rfl) fun _ => m6Within_special,
    laneBoth_special (fun _ => {}) (fun _ => {}) (fun _ _ => rfl) fun _ => m6Within_special,
    laneBoth_special (m6Ok := fun w => m6Within w 31 3) (fun _ => {}) (fun _ => {}) (fun _ _ => rfl) fun _ => id,
    laneBoth_special (fun _ => {}) (fun _ => {}) (fun _ _ => rfl) fun _ => m6Within_special,
    laneBoth_special (fun _ => {}) (fun _ => {}) (fun _ _ => rfl) fun _ => m6Within_special,
    laneBoth_special (fun _ => {}) (fun _ => {}) (fun _ _ => rfl) fun _ => m6Within_special,
    laneBoth_special (fun _ => {}) (fun _ => {}) (fun _ _ => rfl) fun _ => m6Within_special,
    laneBoth_special (fun _ => {}) (fun _ => {}) (fun _ _ => rfl) fun _ => m6Within_special,
    fcvt_gives,
    laneX_of (f := fun w a _ _ => bfpDequant (bits w.fn.toNat 2 3 + 2) (fMods w) a) (fun _ => {}) bfpd_within
      fun w hfn a _ _ => bfpDequant_eq ?bfpd a,
    bfpq_gives⟩
  case bfpd =>
    simp only [laneRule, opForm, Bool.and_eq_true, decide_eq_true_eq] at hfn
    exact hfn.1.2

end Sys2Proof.Machine
end

section
/-!
PROOF. Accesses performed at a home slice (O28): what a load, a store and an atomic leave of memory, and what they return to the lane's request.
-/

namespace Sys2Proof.Machine

variable {s t : State} {o : MemOp} {r : LaneReq} {g : Gang} {loc : Nat}

/-! ## Memory operations after a change -/

/-- Whether an operation is in progress depends on the ids of the operations alone. -/
theorem State.memOp_isSome_congr (h : t.memOps.map (·.id) = s.memOps.map (·.id)) (id : Nat) : (t.memOp id).isSome = (s.memOp id).isSome := by
  have hany (u : State) : (u.memOp id).isSome = (u.memOps.map (·.id)).any (· == id) := by
    rw [State.memOp, List.isSome_find?, List.any_map]
    rfl
  rw [hany, hany, h]

theorem State.memOp_modReq (s : State) (id lane : Nat) (f : LaneReq → LaneReq) : (s.modReq id lane f).memOp id =
    (s.memOp id).map (fun o => { o with lanes := o.lanes.map (fun r => if r.lane == lane then f r else r) }) := by
  simp only [State.memOp, State.modReq, State.modMemOp]
  induction s.memOps with
  | nil => rfl
  | cons o os ih =>
    by_cases ho : o.id = id
    · simp [ho]
    · simpa [ho] using ih

/-- The requests of a lane after a change are changed ones. -/
theorem State.modReq_changes {id lane : Nat} {f : LaneReq → LaneReq} (h : (s.memOp id).isSome = true) :
    ∃ q, (s.modReq id lane f).memOp id = some q ∧ ∀ k ∈ q.lanes, k.lane = lane → ∃ k0, k = f k0 := by
  obtain ⟨o, ho⟩ := Option.isSome_iff_exists.1 h
  refine ⟨_, (s.memOp_modReq id lane f).trans (by rw [ho, Option.map_some]), fun k hk hlane => ?_⟩
  obtain ⟨k0, -, rfl⟩ := List.mem_map.1 hk
  by_cases hk0 : k0.lane = lane
  · exact ⟨k0, by simp [hk0]⟩
  · rw [if_neg (by simpa using hk0)] at hlane
    exact absurd hlane hk0

/-- A write at a home ends no operation and begins none. -/
theorem State.writeHome_ids (s : State) (e : Option (Nat × Nat)) (a : Nat) (bs : List Byte) :
    (s.writeHome e a bs).memOps.map (·.id) = s.memOps.map (·.id) := by
  have hdrop (t : State) (d : Nat) (hit : Nat → Bool) (lines : List Nat) : (t.dropLines d hit lines).memOps.map (·.id) = t.memOps.map (·.id) := by
    simp only [State.dropLines, List.map_map]
    refine List.map_congr_left fun o _ => ?_
    dsimp only [Function.comp_apply]
    (repeat' split) <;> rfl
  refine Eq.trans ?_ (hdrop (s.putBytes a bs) (a / 2 ^ 37) (fun c => e != some (a / 2 ^ 37, c)) (linesOf a bs.length))
  unfold State.writeHome State.invalidate
  dsimp only
  split <;> rfl

/-! ## A request at its slice (R219, R234, R236) -/

theorem State.tells_touchLine (s : State) (part d slice loc attr : Nat) : s.Tells (s.touchLine part d slice loc attr) :=
  .modDie s d fun x => x.llcTouch_cycles ..

/-- A state in which a request has come to its slice, with the clock of its gang's die, and its line is brought in (R218, R339). -/
def State.atSlice (s : State) (o : MemOp) (r : LaneReq) (g : Gang) (loc : Nat) : State :=
  (s.carryClock g.die (vaDie r.va.toNat)).touchLine g.part (vaDie r.va.toNat) r.slice loc o.attr

theorem State.tells_atSlice (s : State) (o : MemOp) (r : LaneReq) (g : Gang) (loc : Nat) : s.Tells (s.atSlice o r g loc) :=
  (s.tells_carryClock ..).trans (State.tells_touchLine ..)

theorem State.Tells.bytesAt (h : s.Tells t) (a n : Nat) : t.bytesAt a n = s.bytesAt a n := by simp only [State.bytesAt, h.mem]

theorem State.Tells.poisoned (h : s.Tells t) (a n : Nat) : t.poisoned a n = s.poisoned a n := by
  rw [h.rest]
  rfl

theorem State.Tells.poisonedLane (h : s.Tells t) (o : MemOp) : t.poisonedLane o = s.poisonedLane o := by
  simp only [State.poisonedLane, h.poisoned]

/-- What a request becomes whose access has returned bytes. -/
def Returns (bs : List Byte) (f : LaneReq → LaneReq) : Prop := ∀ k, (f k).status = 3 ∧ (f k).data = bs

/-- A load at its slice returns the bytes at its location and writes none. -/
theorem State.performReq_load (hw : s.watching = false) (hsent : r.status = 2) (hk : o.kind = 0) (hclean : s.poisoned loc r.size = false) :
    ∃ f, s.performReq o r g loc = (s.atSlice o r g loc).modReq o.id r.lane f ∧ Returns (s.bytesAt loc r.size) f := by
  have hcarried := s.tells_carryClock g.die (vaDie r.va.toNat)
  have hawake (f : LaneReq → LaneReq) : ((s.atSlice o r g loc).modReq o.id r.lane f).watching = false :=
    (s.tells_atSlice o r g loc).watching.trans hw
  simp only [State.performReq, hk, hsent, hcarried.poisoned, hclean, hcarried.bytesAt, beq_self_eq_true, if_true, Bool.false_eq_true, if_false]
  exact ⟨_, State.observe_unwatched (hawake _) .., fun _ => ⟨rfl, rfl⟩⟩

/-- An atomic at its slice returns the bytes at its location and writes their new value. -/
theorem State.performReq_atomic (hw : s.watching = false) (hk : o.kind = 2) (hclean : s.poisonedLane o = none) :
    ∃ f, s.performReq o r g loc = ((s.atSlice o r g loc).writeHome none loc (leBytes r.size (atomNew (o.aop % 16) (8 * r.size)
      (leNat (s.bytesAt loc r.size)) (leNat r.data) (leNat r.cmp)))).modReq o.id r.lane f ∧ Returns (s.bytesAt loc r.size) f := by
  have hcarried := s.tells_carryClock g.die (vaDie r.va.toNat)
  have hawake (bs : List Byte) (f : LaneReq → LaneReq) : (((s.atSlice o r g loc).writeHome none loc bs).modReq o.id r.lane f).watching = false :=
    ((State.Steady.refl _).writeHome none loc bs).watching.trans ((s.tells_atSlice o r g loc).watching.trans hw)
  simp only [State.performReq, hk, hcarried.poisonedLane, hclean, hcarried.bytesAt]
  exact ⟨_, State.observe_unwatched (hawake _ _) .., fun _ => ⟨rfl, rfl⟩⟩

theorem State.storeToL1_mem (s : State) (g : Gang) (va loc : Nat) (bs : List Byte) : (s.storeToL1 g va loc bs).mem = s.mem := by
  simp only [State.storeToL1]
  split
  · rfl
  · exact State.modCore_mem ..

theorem State.answerStores_mem (s : State) : s.answerStores.mem = s.mem :=
  State.answerStores_field (·.mem) (fun _ _ _ => rfl) fun _ _ => rfl

/-- A store at its slice writes its bytes at its location. -/
theorem State.performReq_store_mem (hk : o.kind = 1) : (s.performReq o r g loc).mem = writeBytes s.mem loc r.data := by
  have hwritten : ((s.atSlice o r g loc).writeHome (some (g.die, g.core)) loc r.data).mem = writeBytes s.mem loc r.data := by
    rw [State.writeHome_mem, (s.tells_atSlice o r g loc).mem]
  simp only [State.performReq, hk]
  rw [← hwritten]
  refine (State.answerStores_mem _).trans ((State.observe_mem ..).trans ?_)
  exact State.storeToL1_mem ..

/-! ## SLICE_ACCESS -/

/-- A translated request that may be performed is. -/
theorem exec_sliceAccess (h : s.Request o r g) (hsent : r.status = 2) (hmay : s.mayPerform o r = true)
    (hstops : s.resetStops g (vaDie r.va.toNat) (r.loc % 2 ^ 37) = false) :
    exec (.sliceAccess o.id r.lane) s = .next (s.performReq o r g r.loc) := by
  change execSliceAccess o.id r.lane s = _
  simp only [execSliceAccess, h.op, h.lane, h.gang, h.global, h.unheld, hsent, hmay, hstops]
  rfl

theorem State.memOp_returned {bs : List Byte} {f : LaneReq → LaneReq} (h : (s.memOp o.id).isSome = true) (hf : Returns bs f) :
    ∃ q, (s.modReq o.id r.lane f).memOp o.id = some q ∧ ∀ k ∈ q.lanes, k.lane = r.lane → k.status = 3 ∧ k.data = bs := by
  obtain ⟨q, hq, hlanes⟩ := State.modReq_changes h
  refine ⟨q, hq, fun k hk hlane => ?_⟩
  obtain ⟨k0, rfl⟩ := hlanes k hk hlane
  exact hf k0

theorem State.Request.isSome_atSlice (h : s.Request o r g) (loc : Nat) : ((s.atSlice o r g loc).memOp o.id).isSome = true := by
  rw [State.memOp_isSome_congr (s := s) (by rw [(s.tells_atSlice o r g loc).rest]), h.op]
  rfl

/-- Settles O28: a request that may be performed is performed, each kind of access by what it leaves at the slice. -/
theorem sliceAccesses : Obligations.SliceAccesses := by
  intro s o r g h hw hsent hmay hstops
  rw [exec_sliceAccess h hsent hmay hstops]
  refine ⟨fun hk hclean => ?_, fun hk => ⟨_, rfl, State.performReq_store_mem hk⟩, fun hk hclean => ?_⟩
  · obtain ⟨f, hload, hf⟩ := State.performReq_load (g := g) hw hsent hk hclean
    rw [hload]
    exact ⟨_, rfl, (s.tells_atSlice o r g r.loc).mem, State.memOp_returned (h.isSome_atSlice _) hf⟩
  · obtain ⟨f, hatomic, hf⟩ := State.performReq_atomic (r := r) (g := g) (loc := r.loc) hw hk hclean
    rw [hatomic]
    refine ⟨_, rfl, ?_, State.memOp_returned ?_ hf⟩
    · exact (State.writeHome_mem ..).trans (congrArg (writeBytes · r.loc _) (s.tells_atSlice o r g r.loc).mem)
    · rw [State.memOp_isSome_congr (State.writeHome_ids ..)]
      exact h.isSome_atSlice _

end Sys2Proof.Machine
end

section
/-!
PROOF. Accesses that leave the core (O26): the operation that a pass or a scalar access becomes, and the wait of its sub-bundle.
-/

namespace Sys2Proof.Machine

variable {s t : State} {x : Ctx} {m : MemInfo} {w : XWord} {ls : List Nat}

/-! ## What counting does not bear on (R403) -/

theorem Ctx.afterIssue_of_uncounted (h : t.uncounted = s.uncounted) : x.afterIssue t = x.afterIssue s := by
  change x.afterIssue t.uncounted = x.afterIssue s.uncounted
  rw [h]

theorem Ctx.afterWait_of_uncounted (h : t.uncounted = s.uncounted) : x.afterWait t = x.afterWait s := by
  change x.afterWait t.uncounted = x.afterWait s.uncounted
  rw [h]

theorem State.nextId_of_uncounted (h : t.uncounted = s.uncounted) : t.nextId = s.nextId := by
  change t.uncounted.nextId = s.uncounted.nextId
  rw [h]

theorem State.l1_uncounted (s : State) (d c : Nat) : (s.uncounted.core d c).l1 = (s.core d c).l1 := by
  simp only [State.core, State.uncounted, List.find?_map, Function.comp_def]
  cases s.cores.find? (fun k => k.die == d && k.core == c) <;> rfl

theorem State.l1Hit_uncounted (s : State) (g : Gang) (b : Nat) (m : MemInfo) (va : Nat) : s.uncounted.l1Hit g b m va = s.l1Hit g b m va := by
  have hline : s.uncounted.l1Line g va = s.l1Line g va := by simp only [State.l1Line, State.l1_uncounted]
  simp only [State.l1Hit, hline]
  rfl

theorem State.requests_of_uncounted (h : t.uncounted = s.uncounted) : t.requests x m w ls = s.requests x m w ls := by
  simp only [State.requests, ← State.l1Hit_uncounted t, ← State.l1Hit_uncounted s, h]

/-- A count that may be taken changes nothing but the counts. -/
theorem State.uncounted_ite_perf (s : State) (c : Prop) [Decidable c] (g : Gang) (ev n : Nat) :
    (if c then s.perf g ev n else s).uncounted = s.uncounted := by
  split
  · exact State.uncounted_perf ..
  · rfl

/-! ## The operation of a pass (R229, R230, R232) -/

/-- A state with a memory operation listed under the next id. -/
def State.withMemOp (s : State) (o : MemOp) : State := { s with nextId := s.nextId + 1, memOps := s.memOps ++ [o] }

theorem State.withMemOp_of_uncounted (h : t.uncounted = s.uncounted) (o : MemOp) : (t.withMemOp o).uncounted = (s.withMemOp o).uncounted := by
  change t.uncounted.withMemOp o = s.uncounted.withMemOp o
  rw [h]

/-- The operation that a pass becomes. -/
def State.passOp (s : State) (x : Ctx) (m : MemInfo) (w : XWord) (ls : List Nat) : MemOp :=
  let sp := m.spaceOf x.g (x.base w.b9.toNat)
  { x.memOp m s.nextId false w.d9.toNat (w.nwb == 1) (x.base w.b9.toNat).toNat with
    lanes := s.requests x m w ls
    gate := if sp == 2 && x.c.first && m.kind != 1 then s.padRanges x.g (x.planeAccesses x.c.words) else [] }

theorem State.waitPass_uncounted (s : State) (x : Ctx) (v : Wait) :
    (s.waitPass x v).uncounted = s.uncounted.modBundle x.c.gid x.c.bundle (x.afterIssue s v) := by
  simp only [State.waitPass, State.charge_eq, State.modBundle_modBundle, State.uncounted_modBundle]
  rfl

/-- A pass of an access that is neither to the gang's own scratchpad nor a store to another's waits for its operation. -/
theorem State.memPass_leaves (hs : m.spaceOf x.g (x.base w.b9.toNat) ≠ 1) (hstore : m.spaceOf x.g (x.base w.b9.toNat) = 2 → m.kind ≠ 1)
    (hls : ls ≠ []) : ∃ n, (s.memPass x m w ls).uncounted =
      (s.withMemOp (s.passOp x m w ls)).uncounted.modBundle x.c.gid x.c.bundle (x.afterIssue s (.mem s.nextId n)) := by
  have hsome : ls.isEmpty = false := by simpa using hls
  have hleaves : (m.spaceOf x.g (x.base w.b9.toNat) == 1) = false := by simpa using hs
  have hwaits : (m.spaceOf x.g (x.base w.b9.toNat) == 2 && m.kind == 1) = false := by simpa using hstore
  have hwait {u : State} (v : Wait) (hu : u.uncounted = (s.withMemOp (s.passOp x m w ls)).uncounted) : (u.waitPass x v).uncounted =
      (s.withMemOp (s.passOp x m w ls)).uncounted.modBundle x.c.gid x.c.bundle (x.afterIssue s v) := by
    rw [State.waitPass_uncounted, hu, Ctx.afterIssue_of_uncounted hu]
    rfl
  simp only [State.memPass, hsome, hleaves, hwaits, Bool.false_eq_true, if_false]
  exact ⟨_, hwait _ (State.uncounted_ite_perf ..)⟩

/-- Nothing keeps an access from issuing whose lines are present, but for those of other cores that a crew access awaits there (R221). -/
theorem State.Accesses.passGate_leaves {i : Instr} {crewFirst : Bool} (h : s.Accesses x i m) (hf : x.c.first = true)
    (hlines : ∀ r ∈ s.padRanges x.g (x.planeAccesses x.c.words), s.gatePresent r = true ∨ crewFirst = true ∧ r.1 ≠ x.g.gid) :
    s.passGate x crewFirst x.c.words = none := by
  have horder : (x.planeAccesses x.c.words).filterMap (fun a => s.orderWait x a.1) = [] := List.filterMap_eq_nil_iff.2 (h.order hf)
  have hthere : s.linesAbsent x.g crewFirst (x.planeAccesses x.c.words) = false := by
    simp only [State.linesAbsent, Bool.not_eq_false', List.all_eq_true]
    intro r hr
    rcases hlines r hr with hpresent | ⟨hcrew, hother⟩
    · simp [hpresent]
    · simp [hcrew, hother]
  simp [State.passGate, horder, h.apart hf, hthere, h.unfilled hf, leastReason]

/-- A per-lane access that leaves the core is made, once the lines that it awaits at its own core are present. -/
theorem runMem_leaves {i : Instr} {op : Nat} (h : s.Accesses x i (memInfo op w))
    (hs : (memInfo op w).spaceOf x.g (x.base w.b9.toNat) ≠ 1)
    (hstore : (memInfo op w).spaceOf x.g (x.base w.b9.toNat) = 2 → (memInfo op w).kind ≠ 1)
    (hlines : x.c.first = true → ∀ r ∈ s.padRanges x.g (x.planeAccesses x.c.words),
      s.gatePresent r = true ∨ (memInfo op w).spaceOf x.g (x.base w.b9.toNat) = 2 ∧ r.1 ≠ x.g.gid)
    (hls : x.lanesIn x.c.plane (guardOf i) ≠ []) :
    let ls := x.lanesIn x.c.plane (guardOf i)
    runMem i op w s = .next (((s.countPass x ls.length).countBank x i).memPass x (memInfo op w) w ls) := by
  intro ls
  have hdog : watchdogIssue x = none := h.inTime
  have hcheck : (if x.c.first then s.memPrecheck x i else none) = none := by
    split
    next hf => exact h.address hf
    next => rfl
  have hgate : (if x.c.first then s.passGate x ((memInfo op w).spaceOf x.g (x.base w.b9.toNat) == 2 && (memInfo op w).kind != 1 && !ls.isEmpty)
      x.c.words else none) = none := by
    split
    next hf =>
      refine h.passGate_leaves hf fun r hr => (hlines hf r hr).imp_right fun ⟨hcrew, hother⟩ => ⟨?_, hother⟩
      simpa [hcrew, ls, hls] using hstore hcrew
    next => rfl
  have hdamage : s.padDamage x (memInfo op w) w ls = none := if_pos (by simpa using hs)
  simp only [ls] at hdamage hgate
  simp only [runMem, h.issues.ctx, h.form, h.latch, hcheck, hgate, hdog, hdamage, firstFault, ls]

/-- A per-lane access instruction issues its accesses that leave the core. -/
theorem issuesAccess_of_runMem {i : Instr} {op : Nat} (he : ∀ s, exec i s = runMem i op w s) (hg : guardOf i = (w.pred.toNat, w.pn == 1)) :
    IssuesAccess i (memInfo op w) w := by
  intro s x h hs hstore hlines ls hls
  have hcounted : ((s.countPass x ls.length).countBank x i).uncounted = s.uncounted := by
    rw [State.uncounted_countBank, State.uncounted_countPass]
  have hid := State.nextId_of_uncounted hcounted
  have hrun := runMem_leaves h hs hstore hlines (by rw [hg]; exact hls)
  rw [hg] at hrun
  obtain ⟨n, hleft⟩ := State.memPass_leaves (s := (s.countPass x ls.length).countBank x i) hs hstore hls
  refine ⟨_, State.passOp _ x _ w ls, n, (he s).trans hrun, hid, rfl, rfl, rfl, rfl, State.requests_of_uncounted hcounted, hleft.trans ?_⟩
  rw [State.withMemOp_of_uncounted hcounted, Ctx.afterIssue_of_uncounted hcounted, hid]
  rfl

/-! ## The operation of a scalar access (R235) -/

/-- The operation that a scalar access becomes, of one request. -/
def State.scalarOp (s : State) (x : Ctx) (m : MemInfo) (w : XWord) : MemOp :=
  let sp := m.spaceOf x.g (x.s w.b9.toNat)
  let ea := x.scalarEa m w
  { x.memOp m s.nextId true w.d9.toNat false (x.s w.b9.toNat).toNat with
    lanes := [{ m.request 0 ea (x.scalarData m w).1 (x.scalarData m w).2 (s.l1Hit x.g x.c.bundle m ea.toNat) with
      noFill := sp != 0 || attrVol m.attr || attrEvict m.attr == 4 }]
    gate := if m.kind != 1 then s.padRanges x.g [(m, x.s w.b9.toNat, [ea])] else [] }

/-- A scalar access to global memory that nothing keeps from issuing waits for its operation. -/
theorem State.scalarMem_leaves (horder : s.orderWait x m = none) (hmeets : s.meetsRest x [(m, x.s w.b9.toNat, [x.scalarEa m w])] = false)
    (hs : m.spaceOf x.g (x.s w.b9.toNat) = 0) :
    ∃ n u, s.scalarMem x m w = .wait (.mem s.nextId n) u ∧ u.uncounted = (s.withMemOp (s.scalarOp x m w)).uncounted := by
  simp only [Ctx.s] at hmeets hs
  have hleaves : (m.spaceOf x.g (x.b.readS w.b9.toNat) == 1) = false := by rw [hs]; rfl
  have hwaits : (m.spaceOf x.g (x.b.readS w.b9.toNat) == 2) = false := by rw [hs]; rfl
  simp only [State.scalarMem, horder, hmeets, hleaves, hwaits, Bool.false_and]
  exact ⟨_, _, rfl, State.uncounted_ite_perf ..⟩

/-- Only a load is served from L1 (R219). -/
theorem State.l1Hit_of_not_load (hk : m.kind ≠ 0) (s : State) (g : Gang) (b va : Nat) : s.l1Hit g b m va = none := by
  simp [State.l1Hit, hk]

/-- A scalar access instruction issues its accesses to global memory. -/
theorem issuesScalarAccess_of_runScalarMem {i : Instr} {op : Nat} (he : ∀ s, exec i s = runScalarMem op w s) : IssuesScalarAccess i op w := by
  intro s x h hd hp horder hmeets hchecked hs
  obtain ⟨n, u, hwait, hu⟩ := State.scalarMem_leaves horder hmeets hs
  have hrun := (he s).trans (runUniform_next h.ctx hp rfl hd)
  have htick : u.tick = s.tick := by
    change u.uncounted.tick = _
    rw [hu]
    rfl
  simp only [Ctx.s] at hchecked
  simp only [hchecked, hwait] at hrun
  refine ⟨_, s.scalarOp x (scalarMemInfo op w) w, _, n, hrun, rfl, rfl, rfl, rfl, rfl, rfl, rfl, rfl, rfl, fun hk => ?_, ?_⟩
  · rw [State.l1Hit_of_not_load hk]
    rfl
  · rw [State.finishUniform_wait htick, hu, Ctx.afterWait_of_uncounted hu]
    rfl

/-- Settles O26: each instruction by the one meaning that the per-lane accesses share, and the one that the scalar accesses do. -/
theorem accessesIssue : Obligations.AccessesIssue :=
  ⟨fun _ => issuesAccess_of_runMem (fun _ => rfl) rfl, fun _ => issuesAccess_of_runMem (fun _ => rfl) rfl,
    fun _ => issuesAccess_of_runMem (fun _ => rfl) rfl, fun _ => issuesAccess_of_runMem (fun _ => rfl) rfl,
    fun _ => issuesScalarAccess_of_runScalarMem fun _ => rfl, fun _ => issuesScalarAccess_of_runScalarMem fun _ => rfl,
    fun _ => issuesScalarAccess_of_runScalarMem fun _ => rfl⟩

end Sys2Proof.Machine
end

section
/-!
PROOF. Data returned and crew accesses (O29): what the end of a load or an atomic leaves, and an access that lands in another gang's view.
-/

namespace Sys2Proof.Machine

variable {s t u : State} {o : MemOp} {x : Ctx} {g : Gang} {r : LaneReq}

/-! ## Responses heard by a core (R216, R219, R339) -/

/-- The second state is the first but for what its dies and cores hold beside the time and the armed entries. -/
structure State.Hears (s t : State) : Prop where
  rest : t = { s with dies := t.dies, cores := t.cores }
  cycles : ∀ d, (t.die d).cycles = (s.die d).cycles
  watching : t.watching = s.watching

namespace State.Hears

theorem refl (s : State) : s.Hears s := ⟨rfl, fun _ => rfl, rfl⟩

theorem trans (h : s.Hears t) (h' : t.Hears u) : s.Hears u :=
  ⟨by rw [h'.rest, h.rest], fun d => (h'.cycles d).trans (h.cycles d), h'.watching.trans h.watching⟩

theorem foldl {α : Type} {f : State → α → State} (hf : ∀ (t : State) y, t.Hears (f t y)) (s : State) (ys : List α) :
    s.Hears (ys.foldl f s) := by
  induction ys generalizing s with
  | nil => exact refl s
  | cons y ys ih => exact (hf s y).trans (ih _)

theorem modDie (s : State) (d : Nat) {f : Die → Die} (hf : ∀ y, (f y).cycles = y.cycles) : s.Hears (s.modDie d f) :=
  ⟨rfl, (State.Tells.modDie s d hf).cycles, rfl⟩

/-- A change of a core that leaves its entries arms none. -/
theorem modCore (s : State) (d c : Nat) {f : Core → Core} (hf : ∀ k, (f k).watch = k.watch) : s.Hears (s.modCore d c f) := by
  unfold State.modCore
  split
  · refine ⟨rfl, fun _ => rfl, ?_⟩
    simp only [State.watching, List.any_map]
    congr 2
    funext k
    dsimp only [Function.comp_apply]
    split
    · rw [hf]
    · rfl
  · refine ⟨rfl, fun _ => rfl, ?_⟩
    simp [State.watching, hf, Core.blank]

theorem halts (h : s.Hears t) : t.halts = s.halts := by rw [h.rest]

theorem gangs (h : s.Hears t) : t.gangs = s.gangs := by rw [h.rest]

theorem tick (h : s.Hears t) : t.tick = s.tick := by rw [h.rest]

theorem ending (h : s.Hears t) (gid : Nat) : t.ending gid = s.ending gid := by
  rw [h.rest]
  rfl

end State.Hears

theorem Core.l1Fill_watch (c : Core) (l : L1Line) : (c.l1Fill l).watch = c.watch := by
  unfold Core.l1Fill
  dsimp only
  (repeat' split) <;> rfl

/-- A lane's response heard by the core of its gang: its clock is merged, and its line filled into L1 unless the fill is non-filling. -/
def State.hearLane (s : State) (o : MemOp) (g : Gang) (r : LaneReq) : State :=
  let s := if r.clock.isEmpty then s else s.modDie g.die (fun d => { d with vclock := mergeClock d.vclock r.clock })
  if r.noFill || r.line.isEmpty then s
  else s.modCore g.die g.core (fun c => c.l1Fill
    ⟨g.part, r.va.toNat / 128 * 128, r.loc / 128 * 128, r.line, attrEvict (BitVec.ofNat 32 o.attr)⟩)

/-- An operation that has ended, with its lanes' responses heard. -/
def State.hearOp (s : State) (o : MemOp) (g : Gang) : State := o.lanes.foldl (fun s r => s.hearLane o g r) (s.dropMemOp o.id)

theorem State.hears_hearOp (s : State) (o : MemOp) (g : Gang) : (s.dropMemOp o.id).Hears (s.hearOp o g) := by
  refine .foldl (fun t r => State.Hears.trans (t := if r.clock.isEmpty then t else
    t.modDie g.die (fun d => { d with vclock := mergeClock d.vclock r.clock })) ?_ ?_) _ _
  · split
    · exact .refl t
    · exact .modDie t _ fun _ => rfl
  · unfold State.hearLane
    dsimp only
    generalize (if r.clock.isEmpty then t else t.modDie g.die (fun d => { d with vclock := mergeClock d.vclock r.clock })) = v
    split
    · exact .refl v
    · exact .modCore v _ _ fun c => c.l1Fill_watch _

/-! ## The end of a load or an atomic (R227, R229, R230, R235) -/

/-- The context of a waiting instruction is of its operation's bundle. -/
theorem State.opCtx_issuer (h : s.opCtx o = some x) : x.c.gid = o.gid ∧ x.c.bundle = o.bundle := by
  unfold State.opCtx at h
  split at h
  · exact nomatch h
  split at h
  · exact nomatch h
  split at h
  · exact nomatch h
  split at h
  · split at h
    · obtain rfl := Option.some.inj h
      exact ⟨rfl, rfl⟩
    · exact nomatch h
  · exact nomatch h

/-- A bundle after the data of a load or an atomic have returned to it. -/
def Ctx.afterMem (x : Ctx) (s : State) (o : MemOp) (b : Bundle) : Bundle :=
  if o.uniform then
    let data := (o.lanes.head?.map (·.data)).getD []
    x.afterUniform s o.len false (b.writeS o.dest (if o.kind = 0 then scalarLoad (o.aop / 16) data else BitVec.ofNat 64 (leNat data)))
  else
    x.afterPass s o.len (o.lanes.foldl (fun b r => b.modLane r.lane (fun y => y.deliverGroup o.dest o.nwb (loadWords (o.aop / 16) r.data))) b)

theorem Ctx.afterMem_uniform (h : o.uniform = true) : x.afterMem s o = fun b => x.afterUniform s o.len false (b.writeS o.dest
    (if o.kind = 0 then scalarLoad (o.aop / 16) ((o.lanes.head?.map (·.data)).getD [])
      else BitVec.ofNat 64 (leNat ((o.lanes.head?.map (·.data)).getD [])))) := by
  funext b
  simp only [Ctx.afterMem, h, if_true]

theorem Ctx.afterMem_lanes (h : o.uniform = false) : x.afterMem s o = fun b => x.afterPass s o.len (o.lanes.foldl (fun b r =>
    b.modLane r.lane (fun y => y.deliverGroup o.dest o.nwb (loadWords (o.aop / 16) r.data))) b) := by
  funext b
  simp only [Ctx.afterMem, h, Bool.false_eq_true, if_false]

theorem Ctx.afterMem_congr (hc : (s.die x.g.die).cycles = (t.die x.g.die).cycles) (hk : s.tick = t.tick) : x.afterMem s o = x.afterMem t o := by
  obtain ⟨hscalar, -, -, hpass⟩ := Ctx.after_congr hc hk
  funext b
  simp only [Ctx.afterMem, hscalar, hpass]

/-- Data that return are delivered, and the instruction goes on. -/
theorem State.finishMem_deliverMem (hx : x.c.gid = o.gid ∧ x.c.bundle = o.bundle) (hk : o.kind ≠ 1) (hfree : x.q.stepping = false)
    (hcalm : u.halts = []) (halive : u.ending o.gid = false) :
    ((u.deliverMem x o).finishMem x o).uncounted = u.uncounted.modBundle o.gid o.bundle (x.afterMem u o) := by
  obtain ⟨hgid, hbundle⟩ := hx
  have hkind : (o.kind == 1) = false := by simpa using hk
  have halive' (f : Bundle → Bundle) : (u.modBundle o.gid o.bundle f).ending x.c.gid = false := by
    rw [State.ending_modBundle, hgid]
    exact halive
  cases hu : o.uniform with
  | true =>
    simp only [State.finishMem, State.deliverMem, State.deliverScalar, State.setS, hu, hkind, hgid, hbundle, if_true, beq_iff_eq,
      Bool.false_eq_true, if_false]
    rw [State.finishUniform_done hfree (by exact hcalm) (halive' _), State.uncounted_modBundle, hgid, hbundle, State.modBundle_modBundle,
      Ctx.afterMem_uniform hu]
    rfl
  | false =>
    simp only [State.finishMem, State.deliverMem, hu, Bool.false_eq_true, if_false]
    rw [State.finishPass_uncounted hfree (by exact hcalm) (halive' _), State.uncounted_modBundle, hgid, hbundle, State.modBundle_modBundle,
      Ctx.afterMem_lanes hu]
    rfl

section
variable (hop : s.memOp o.id = some o) (hg : s.gang o.gid = some g) (hw : s.watching = false) (hcalm : s.halts = [])
  (halive : s.ending o.gid = false) (hx : s.opCtx o = some x) (hfree : x.q.stepping = false) (hk : o.kind ≠ 1)
  (hback : ∀ r ∈ o.lanes, r.status = 3 ∧ s.delivered g.die r.clock = true)

include hcalm halive hx hfree hk in
/-- The data are delivered as they would be before the responses are heard. -/
theorem State.finishMem_hearOp : (((s.hearOp o g).deliverMem x o).finishMem x o).uncounted =
    (s.hearOp o g).uncounted.modBundle o.gid o.bundle (x.afterMem s o) := by
  have hheard := s.hears_hearOp o g
  rw [State.finishMem_deliverMem (State.opCtx_issuer hx) hk hfree (hheard.halts.trans hcalm) ((hheard.ending _).trans halive),
    Ctx.afterMem_congr (hheard.cycles _) hheard.tick]
  rfl

include hop hg hw hcalm halive hx hfree hk hback

/-- The return of a load or an atomic all of whose lanes have been performed, when nothing else acts. -/
theorem exec_loadDataReturn : exec (.loadDataReturn o.id) s = .next (((s.hearOp o g).deliverMem x o).finishMem x o) := by
  have hheard := s.hears_hearOp o g
  have hleft := State.finishMem_hearOp (g := g) hcalm halive hx hfree hk
  generalize hv : ((s.hearOp o g).deliverMem x o).finishMem x o = v at hleft
  have hawake : v.watching = false := by
    rw [← State.watching_uncounted, hleft]
    exact (State.watching_uncounted _).trans (hheard.watching.trans hw)
  have hvcalm : v.halts = [] := by
    change v.uncounted.halts = []
    rw [hleft]
    exact hheard.halts.trans hcalm
  have hvalive : v.ending o.gid = false := by
    change v.uncounted.ending o.gid = false
    rw [hleft, State.ending_modBundle]
    exact (hheard.ending _).trans halive
  have hready : (o.kind == 1 || !(o.lanes.all (fun r => r.status == 3 && s.delivered g.die r.clock))) = false := by
    simpa [hk] using hback
  change execLoadDataReturn o.id s = _
  simp only [execLoadDataReturn, hop, hg, hready, hx, Bool.false_eq_true, if_false]
  change Host.Outcome.next ((o.lanes.foldl _ (((s.hearOp o g).deliverMem x o).finishMem x o)).dueHalts o.gid o.bundle) = _
  rw [hv, foldl_of_fixed, State.dueHalts_calm hvcalm hvalive]
  intro r _
  split
  · rfl
  · exact State.observe_unwatched hawake ..

/-- What the return of a load or an atomic leaves. -/
theorem exec_loadDataReturn_spec : ∃ t, exec (.loadDataReturn o.id) s = .next t ∧ t.mem = s.mem ∧
    t.memOps = s.memOps.filter (fun q => q.id != o.id) ∧ t.gangs = (s.modBundle o.gid o.bundle (x.afterMem s o)).gangs := by
  have hheard := s.hears_hearOp o g
  have hleft := State.finishMem_hearOp (g := g) hcalm halive hx hfree hk
  refine ⟨_, exec_loadDataReturn hop hg hw hcalm halive hx hfree hk hback, ?_, ?_, ?_⟩
  · refine (congrArg (fun t : State => t.mem) hleft).trans ?_
    change (s.hearOp o g).mem = _
    rw [hheard.rest]
    rfl
  · refine (congrArg (fun t : State => t.memOps) hleft).trans ?_
    change (s.hearOp o g).memOps = _
    rw [hheard.rest]
    rfl
  · refine (congrArg (fun t : State => t.gangs) hleft).trans ?_
    simp only [State.modBundle, State.modGang]
    exact congrArg _ hheard.gangs

end

/-! ## Crew accesses (R230, R232, R233) -/

/-- What an access of one request to another gang's view makes of the state and of the request. -/
def State.crewLane (s : State) (o : MemOp) (t : Gang) (r : LaneReq) : State :=
  let q := s.padAccess t ⟨o.kind, 1, o.aop / 16, r.size, BitVec.ofNat 32 o.attr, o.aop % 16⟩ r.va.toNat r.data r.cmp
  q.1.modReq o.id r.lane (fun p => { p with status := 3, data := q.2.1, cmp := q.2.2 })

/-- With no entry armed, an access of one request lands as what it does at the view. -/
theorem State.crewPerform_one {t : Gang} (hw : s.watching = false) (hlanes : o.lanes = [r]) : s.crewPerform o g t = s.crewLane o t r := by
  have hawake : (s.crewLane o t r).watching = false := (s.steady_padAccess ..).watching.trans hw
  simp only [State.crewPerform, hlanes, List.foldl_cons, List.foldl_nil]
  exact State.observe_unwatched hawake ..

/-- A crew access of one request that may land does. -/
theorem exec_crewScratchpadAccess {t : Gang} (hop : s.memOp o.id = some o) (hg : s.gang o.gid = some g) (hw : s.watching = false)
    (hspace : o.space = 2) (hheld : o.held = false) (ht : s.gangOfRank g.crew o.rank = some t) (hlanes : o.lanes = [r]) (hr : r.status ≠ 3)
    (hearlier : s.crewEarlier o = false) (hgate : o.gate.all s.gatePresent = true)
    (hclean : o.kind = 1 ∨ s.poisonedRuns (t.viewRuns r.va.toNat r.size) = false) :
    let landed := (s.crewLane o t r).countConflicts g o.bundle o.sub (if o.uniform then 0 else bankExtra [(r.lane, r.va.toNat, r.size)])
    exec (.crewScratchpadAccess o.id) s = .next (if o.kind == 1 then landed.dropMemOp o.id else landed) := by
  have hopen : (o.space != 2 || o.held || o.lanes.all (fun r => r.status == 3) || s.crewEarlier o || !(o.gate.all s.gatePresent)) = false := by
    simp [hspace, hheld, hlanes, hr, hearlier, hgate]
  have hwhole : o.lanes.find? (fun r => o.kind != 1 && s.poisonedRuns (t.viewRuns r.va.toNat r.size)) = none := by
    rcases hclean with hstore | hclean
    · simp [hstore]
    · simp [hlanes, hclean]
  change execCrewScratchpadAccess o.id s = _
  simp only [execCrewScratchpadAccess, hop, hg, ht, hopen, hwhole, Bool.false_eq_true, if_false, State.crewPerform_one hw hlanes]
  simp only [hlanes, List.map_cons, List.map_nil]

/-- Settles O29: a return by what it delivers, per lane or as a scalar, and a crew access by what its kind does at the view. -/
theorem accessReturns : Obligations.AccessReturns := by
  refine ⟨fun s o g x hop hg hw hcalm halive hx hfree _ hlanewise hk hback => ?_,
    fun s o g x r hop hg hw hcalm halive hx hfree _ huniform hk hlanes hdone hheard => ?_,
    fun s o g t r hop hg hw hspace hheld ht hlanes hr hearlier hgate => ?_⟩
  · have hspec := exec_loadDataReturn_spec hop hg hw hcalm halive hx hfree hk hback
    rwa [Ctx.afterMem_lanes hlanewise] at hspec
  · have hspec := exec_loadDataReturn_spec hop hg hw hcalm halive hx hfree hk (by simpa [hlanes] using ⟨hdone, hheard⟩)
    rwa [Ctx.afterMem_uniform huniform, hlanes] at hspec
  · have hlands := exec_crewScratchpadAccess hop hg hw hspace hheld ht hlanes hr hearlier hgate
    refine ⟨fun hk => (hlands (.inl hk)).trans ?_, fun hk hclean => (hlands (.inr hclean)).trans ?_,
      fun hk hclean => (hlands (.inr hclean)).trans ?_⟩
    all_goals
      simp only [State.crewLane, State.padAccess, hk]
      rfl

end Sys2Proof.Machine
end

section
/-!
PROOF. The presence instructions (O34): the range that passes their checks, and the bits that they change or read.
-/

namespace Sys2Proof.Machine

variable {s : State} {x : Ctx} {w : XWord} {i : Instr} {act : Ctx → Nat → Nat → State → Eff}

/-! ## The checks of a range (R237) -/

/-- The view address that a presence instruction names. -/
def Ctx.presAddr (x : Ctx) (w : XWord) : Nat := (x.s w.a9.toNat + w.imm.signExtend 64).toNat

/-- The lines that a presence instruction names are whole lines of one region of the view. -/
def Ctx.namesLines (x : Ctx) (w : XWord) : Prop :=
  x.presAddr w % 128 = 0 ∧ (x.sn w.b9.toNat = 0 ∨ x.g.inOneRegion (x.presAddr w) (128 * x.sn w.b9.toNat) = true)

/-- A presence instruction whose range passes its checks has its effect. -/
theorem runPres_act (h : x.namesLines w) :
    (if x.presAddr w % 128 != 0 then .fault (alignFault (x.presAddr w)) s
      else if x.sn w.b9.toNat != 0 && !x.g.inOneRegion (x.presAddr w) (128 * x.sn w.b9.toNat) then
        .fault (protFault (x.presAddr w)) (s.logView x.g (x.presAddr w) (if w.fn = 2 then 0 else 1))
      else act x (x.presAddr w) (x.sn w.b9.toNat) s) = act x (x.presAddr w) (x.sn w.b9.toNat) s := by
  obtain ⟨haligned, hregion⟩ := h
  have hinside : (x.sn w.b9.toNat != 0 && !x.g.inOneRegion (x.presAddr w) (128 * x.sn w.b9.toNat)) = false := by
    rcases hregion with hnone | hin
    · simp [hnone]
    · simp [hin]
  simp only [haligned, hinside, bne_self_eq_false, Bool.false_eq_true, if_false]

/-- A presence instruction completes as its effect on its range does. -/
theorem completes_of_runPres {ok : Ctx → State → Prop} {eff : Ctx → State → State} {f : Ctx → State → Bundle → Bundle}
    (he : ∀ s, exec i s = runPres w act s) (hok : ∀ x s, ok x s → x.namesLines w)
    (ha : ∀ s x, ok x s → act x (x.presAddr w) (x.sn w.b9.toNat) s = .done ((eff x s).modBundle x.c.gid x.c.bundle (f x s)))
    (hh : ∀ (s : State) x, s.Steady (eff x s)) : Completes i false 12 (presForm w) w ok eff f :=
  completes_of_steady he (fun s x ho => (runPres_act (hok x s ho)).trans (ha s x ho)) fun s x _ => hh s x

/-- A presence instruction may not issue yet where its effect on its range may not be had. -/
theorem holds_of_runPres {ok : Ctx → State → Prop} {reason : Ctx → State → Nat} (he : ∀ s, exec i s = runPres w act s)
    (hok : ∀ x s, ok x s → x.namesLines w)
    (ha : ∀ s x, ok x s → act x (x.presAddr w) (x.sn w.b9.toNat) s = .hold (reason x s)) : Holds i (presForm w) w ok reason :=
  holds_of he (fun _ _ _ => rfl) fun s x ho => (runPres_act (hok x s ho)).trans (ha s x ho)

theorem State.steady_setPresence (s : State) (g : Gang) (a n : Nat) (p : Bool) : s.Steady (s.setPresence g a n p) :=
  ⟨rfl, rfl, rfl, rfl, rfl, rfl, fun _ => rfl⟩

/-! ## The instructions (R237) -/

theorem presClr_completes (w : XWord) : Completes (.presClr w) false 12 (presForm w) w (fun x _ => x.namesLines w)
    (fun x s => s.setPresence x.g (x.presAddr w) (128 * x.sn w.b9.toNat) false) (fun _ _ b => b) :=
  completes_of_runPres (fun s => show execPresClr w s = _ from rfl) (fun _ _ h => h) (fun _ _ _ => congrArg Eff.done (State.modBundle_id ..).symm)
    fun s _ => s.steady_setPresence ..

theorem presSet_completes (w : XWord) : Completes (.presSet w) false 12 (presForm w) w
    (fun x s => x.namesLines w ∧ (x.sn w.b9.toNat = 0 ∨ s.quiet x))
    (fun x s => s.setPresence x.g (x.presAddr w) (128 * x.sn w.b9.toNat) true) (fun _ _ b => b) := by
  refine completes_of_runPres (fun s => show execPresSet w s = _ from rfl) (fun _ _ h => h.1) (fun s x ⟨_, hready⟩ => ?_)
    fun s _ => s.steady_setPresence ..
  have hreleased : (x.sn w.b9.toNat != 0 && s.unreleased x) = false := by
    rcases hready with hnone | hquiet
    · simp [hnone]
    · simp [State.unreleased_of_quiet hquiet]
  simp only [hreleased, State.modBundle_id]
  rfl

/-- A bundle that is not quiet has what a release awaits (R223). -/
theorem State.unreleased_of_not_quiet (h : ¬ s.quiet x) : s.unreleased x = true := by
  by_contra hreleased
  simp only [State.unreleased, Bool.not_eq_true, Bool.or_eq_false_iff, Bool.not_eq_false'] at hreleased
  exact h hreleased

theorem presSet_holds (w : XWord) : Holds (.presSet w) (presForm w) w
    (fun x s => x.namesLines w ∧ x.sn w.b9.toNat ≠ 0 ∧ ¬ s.quiet x) (fun _ _ => 24) := by
  refine holds_of_runPres (fun s => show execPresSet w s = _ from rfl) (fun _ _ h => h.1) fun s x ⟨_, hsome, hbusy⟩ => ?_
  have hawaits : (x.sn w.b9.toNat != 0 && s.unreleased x) = true := by simp [hsome, State.unreleased_of_not_quiet hbusy]
  simp only [hawaits, if_true]

/-- The mask of the numbers below n that a condition picks is the sum of their powers of two. -/
theorem listMask_filter_range (p : Nat → Bool) (n : Nat) :
    listMask ((List.range n).filter p) = ((List.range n).map (fun i => if p i then 2 ^ i else 0)).sum :=
  Nat.eq_of_testBit_eq fun i => by simp [testBit_listMask, testBit_sum_powers, List.mem_filter, Bool.decide_and]

theorem presTest_completes (w : XWord) : Completes (.presTest w) false 12 (presForm w) w (fun x _ => x.namesLines w) noEffect
    (fun x s b => b.writeS w.d9.toNat (BitVec.ofNat 64 (((List.range (min (x.sn w.b9.toNat) 64)).map (fun i =>
      if s.viewPresent x.g (x.presAddr w + 128 * i) 128 then 2 ^ i else 0)).sum))) := by
  refine completes_of_runPres (fun s => show execPresTest w s = _ from rfl) (fun _ _ h => h) (fun s x _ => ?_) fun s _ => .refl s
  simp only [listMask_filter_range, State.setS, noEffect]

/-! ## Presence after pres.set (R221, R237) -/

theorem State.viewPresent_setPresence (s : State) (g : Gang) (a n : Nat) : (s.setPresence g a n true).viewPresent g a n = true := by
  simp only [State.viewPresent, List.all_eq_true, Bool.not_eq_true', List.contains_eq_mem, decide_eq_false_iff_not]
  intro r hr l hl habsent
  have hnamed : l ∈ (g.viewRuns a n).flatMap (fun r => linesOf r.1 r.2) := List.mem_flatMap.2 ⟨r, hr, hl⟩
  simp only [State.setPresence, if_true, List.mem_filter, Bool.not_eq_true', List.contains_eq_mem, decide_eq_false_iff_not] at habsent
  exact habsent.2 hnamed

/-- Settles O34: each instruction by its effect on a range that passes its checks; a line of a range that was set is not absent. -/
theorem presence : Obligations.Presence :=
  ⟨presClr_completes, presSet_completes, presSet_holds, presTest_completes, State.viewPresent_setPresence⟩

end Sys2Proof.Machine
end

section
/-!
PROOF. The expanded view (O33) fails: a load returns to every request of its lane the clock of that request's own home, and the statement that of
the home of the lane's first request. They differ in the state below, whose operation lists two requests of one lane at two dies; the statement
does not ask that an operation lists a lane once.
-/

namespace Sys2Proof.Machine

/-- A load of a view that may be performed is decoded by the home agents, and each request of its lane takes the clock of its own home. -/
theorem exec_expandedViewRead_ok {s : State} {o : MemOp} {r : LaneReq} {g : Gang} {bs : List Byte} (h : s.Request o r g) (hnew : r.status = 0)
    (hview : vaIsXv r.va.toNat = true) (hload : o.kind = 0) (hmay : s.mayPerform o r = true)
    (hread : (s.carryClock g.die (vaDie r.va.toNat)).xvRead g.part r.va.toNat r.size = .ok bs) :
    let t := (s.carryClock g.die (vaDie r.va.toNat)).xvUsed g.part r.va.toNat r.size
    exec (.expandedViewRead o.id r.lane) s = .next ((t.modReq o.id r.lane (fun q =>
      { q with status := 3, data := bs, noFill := true, clock := (t.die (vaDie q.va.toNat)).vclock })).resolveMem o.id) := by
  have hopen : (r.status != 0 || o.space != 0 || !vaIsXv r.va.toNat || o.kind != 0 || !s.mayPerform o r) = false := by
    simp [hnew, h.global, hview, hload, hmay]
  change execExpandedViewRead o.id r.lane s = _
  simp only [execExpandedViewRead, h.op, h.lane, h.gang, hopen, hread, Bool.false_eq_true, if_false]

/-- A request of no bytes of the expanded view, for lane 0. -/
def emptyViewRead (va : W64) : LaneReq :=
  { lane := 0, va := va, size := 0, status := 0, predicted := none, loc := 0, data := [], cmp := [], err := [], clock := [], line := [],
    noFill := false, replay := false, slice := 0 }

/-- The request at CD0. -/
def twoHomesReq : LaneReq := emptyViewRead (BitVec.ofNat 64 (2 ^ 53))

/-- A load that lists lane 0 twice, with addresses of CD0 and of CD1. -/
def twoHomesLoad : MemOp :=
  { id := 0, gid := 0, bundle := 0, sub := 0, plane := 0, offset := 0, kind := 0, uniform := false, attr := 0, aop := 0, dest := 268, nwb := true,
    len := 12, space := 0, rank := 0, lanes := [twoHomesReq, emptyViewRead (BitVec.ofNat 64 (2 ^ 53 + 2 ^ 54))],
    seq := 0, fences := 0, held := false, gate := [] }

/-- The loading gang, on CD0. -/
def twoHomesGang : Gang := State.reset.startGang ⟨probeRecord, 0, probeKernel, none, [0], []⟩ 0 0 0 0 0

/-- A module in which that load is in progress, CD1's clock being past CD0's. -/
def twoHomes : State :=
  { State.reset with
    gangs := [twoHomesGang], memOps := [twoHomesLoad]
    dies := modNth State.reset.dies 1 (fun (d : Die) => { d with vclock := [0, 1, 0, 0, 0, 0, 0, 0] }) }

theorem twoHomes_request : twoHomes.Request twoHomesLoad twoHomesReq twoHomesGang := ⟨rfl, rfl, rfl, rfl, rfl⟩

/-- The clocks that the responses of a state's operations carry. -/
def State.responseClocks (s : State) : List (List (List Nat)) := s.memOps.map (fun o => o.lanes.map (·.clock))

/-- Refutes O33: in twoHomes the request at CD1 takes CD1's clock, and not CD0's. -/
theorem not_expandedView : ¬ Obligations.ExpandedView := by
  unfold Obligations.ExpandedView
  rintro ⟨-, -, hload, -⟩
  have hone := hload twoHomes twoHomesLoad twoHomesReq twoHomesGang [] twoHomes_request rfl (by decide) rfl (by decide) rfl
  rw [exec_expandedViewRead_ok twoHomes_request rfl (by decide) rfl (by decide) rfl] at hone
  have hclocks := congrArg State.responseClocks (Host.Outcome.next.inj hone)
  exact absurd hclocks (by decide)

end Sys2Proof.Machine
end
